-- ==== Sys2Proof/Word.lean ====
section
/-!
DEFINITION. Word.lean: the widths of the K9's data (R2, R41, R195) and the association lists in which the
model keeps sparse state.
-/
namespace Sys2Proof

/-- One byte of memory. -/
abbrev Byte := BitVec 8

/-- One 32-bit lane value or instruction word (R41, R60). -/
abbrev Word := BitVec 32

/-- One 64-bit scalar value (R41). -/
abbrev DWord := BitVec 64

/-- A set of the lanes of a team: bit *i* is lane *i* (R5, R195). -/
abbrev Mask := BitVec 1024

/-- Sparse data by number: pairs of strictly rising keys. -/
abbrev Tab (α : Type) := List (Nat × α)

end Sys2Proof
end

