-- ==== Sys2Proof/Machine/Tab.lean ====
section
/-!
DEFINITION. Machine/Tab.lean: association lists with strictly rising keys, and the helpers over lane masks and bytes
that every part of the machine uses.
-/
namespace Sys2Proof.Machine

/-- The value listed for a key. -/
def tabGet {α : Type} : Tab α → Nat → Option α
  | [], _ => none
  | (k, v) :: t, n => if k = n then some v else tabGet t n

/-- The value listed for a key, or the value that unlisted keys have. -/
def tabGetD {α : Type} (d : α) (t : Tab α) (n : Nat) : α := (tabGet t n).getD d

/-- List a value for a key, in key order. -/
def tabSet {α : Type} : Tab α → Nat → α → Tab α
  | [], n, x => [(n, x)]
  | (k, v) :: t, n, x =>
    if k = n then (n, x) :: t else if n < k then (n, x) :: (k, v) :: t else (k, v) :: tabSet t n x

/-- Drop a key. -/
def tabDel {α : Type} : Tab α → Nat → Tab α
  | [], _ => []
  | (k, v) :: t, n => if k = n then tabDel t n else (k, v) :: tabDel t n

/-- List a value for a key in a table whose unlisted keys all have the value `d`: the value `d` is never listed. -/
def tabSetD {α : Type} [DecidableEq α] (d : α) (t : Tab α) (n : Nat) (x : α) : Tab α :=
  if x = d then tabDel t n else tabSet t n x

/-- Change the listed value of a key, if there is one. -/
def tabMod {α : Type} (t : Tab α) (n : Nat) (f : α → α) : Tab α :=
  match tabGet t n with
  | some v => tabSet t n (f v)
  | none => t

/-- The keys rise strictly. -/
def tabSorted {α : Type} : Tab α → Bool
  | [] => true
  | [_] => true
  | (a, _) :: (b, y) :: t => decide (a < b) && tabSorted ((b, y) :: t)

/-- The lowest number below `n` that is not a key. -/
def tabFree {α : Type} (t : Tab α) (n : Nat) : Option Nat :=
  (List.range n).find? fun k => (tabGet t k).isNone

/-- A bit of a word. -/
def bit {w : Nat} (x : BitVec w) (i : Nat) : Bool := x.getLsbD i

/-- The lanes of a mask below `n`, rising. -/
def maskLanes (n : Nat) (m : Mask) : List Nat := (List.range n).filter fun l => m.getLsbD l

/-- The mask of one lane. -/
def laneBit (l : Nat) : Mask := BitVec.ofNat 1024 (1 <<< l)

/-- The mask of the lanes in a list. -/
def lanesMask (ls : List Nat) : Mask := ls.foldl (fun m l => m ||| laneBit l) 0

/-- The mask of lanes 0 to `n` − 1. -/
def firstLanes (n : Nat) : Mask := BitVec.ofNat 1024 ((1 <<< n) - 1)

/-- How many lanes a mask holds. -/
def popMask (m : Mask) : Nat := (maskLanes 1024 m).length

/-- The lowest lane of a mask. -/
def lowLane (m : Mask) : Option Nat := (List.range 1024).find? fun l => m.getLsbD l

/-- The number that little-endian bytes hold (R2). -/
def leNat : List Byte → Nat
  | [] => 0
  | b :: bs => b.toNat + 256 * leNat bs

/-- The `n` little-endian bytes of a number (R2). -/
def natLe : Nat → Nat → List Byte
  | 0, _ => []
  | n + 1, x => BitVec.ofNat 8 x :: natLe n (x / 256)

/-- Bits `hi` to `lo` of a number (the notation of Scope and Conventions). -/
def bitsOf (x hi lo : Nat) : Nat := (x >>> lo) % (2 ^ (hi - lo + 1))

/-- The least multiple of `m` that is not below `x`. -/
def roundUp (x m : Nat) : Nat := (x + m - 1) / m * m

/-- Number the elements of a list from `i`. -/
def enum {α : Type} (i : Nat) : List α → List (Nat × α)
  | [] => []
  | x :: xs => (i, x) :: enum (i + 1) xs

end Sys2Proof.Machine
end

