-- ==== Sys2Proof/Machine/FpFormat.lean ====
section
/-!
DEFINITION. Machine/FpFormat.lean: the floating-point formats (R15 to R17), exact sums and products, rounding once into a
format with its flags (R30 to R34), and the pairwise tree (R39).
-/
namespace Sys2Proof.Machine

/-- The formats of Table 2-1. -/
inductive FpFmt where
  | f32
  | f16
  | bf16
  | e4m3
  | e5m2
  | e3m2
  | e2m3
  | e2m1
  deriving DecidableEq, Repr

/-- Width, exponent bits, mantissa bits and bias of a format (Table 2-1). -/
def FpFmt.layout : FpFmt → Nat × Nat × Nat × Nat
  | .f32 => (32, 8, 23, 127)
  | .f16 => (16, 5, 10, 15)
  | .bf16 => (16, 8, 7, 127)
  | .e4m3 => (8, 4, 3, 7)
  | .e5m2 => (8, 5, 2, 15)
  | .e3m2 => (6, 3, 2, 3)
  | .e2m3 => (6, 2, 3, 1)
  | .e2m1 => (4, 2, 1, 1)

/-- Bits of a format. -/
def FpFmt.width (f : FpFmt) : Nat := f.layout.1
/-- Exponent bits of a format. -/
def FpFmt.expBits (f : FpFmt) : Nat := f.layout.2.1
/-- Mantissa bits of a format. -/
def FpFmt.man (f : FpFmt) : Nat := f.layout.2.2.1
/-- Bias of a format. -/
def FpFmt.bias (f : FpFmt) : Nat := f.layout.2.2.2

/-- The format has infinities (Table 2-1). -/
def FpFmt.hasInf : FpFmt → Bool
  | .f32 | .f16 | .bf16 | .e5m2 => true
  | _ => false

/-- The format has NaNs (Table 2-1). -/
def FpFmt.hasNan : FpFmt → Bool
  | .f32 | .f16 | .bf16 | .e5m2 | .e4m3 => true
  | _ => false

/-- The default NaN with sign 0 (Table 2-2). -/
def FpFmt.nanBits : FpFmt → Nat
  | .f32 => 0x7FC00000
  | .f16 => 0x7E00
  | .bf16 => 0x7FC0
  | .e4m3 => 0x7F
  | .e5m2 => 0x7F
  | _ => 0

/-- The bits of the largest finite value (Table 2-1). -/
def FpFmt.maxBits (f : FpFmt) : Nat :=
  if f.hasInf then (2 ^ f.expBits - 1) * 2 ^ f.man - 1
  else if f = .e4m3 then 0x7E else 2 ^ (f.width - 1) - 1

/-- A value: a NaN with its sign (and whether it is signalling), an infinity, or (−1)^neg × m × 2^e exactly; m = 0 is a
zero with its sign. -/
inductive Fp where
  | nan (neg sig : Bool)
  | inf (neg : Bool)
  | fin (neg : Bool) (m : Nat) (e : Int)
  deriving DecidableEq, Repr

/-- The value of the bits of a format (R15, R17). -/
def fpDecode (f : FpFmt) (x : Nat) : Fp :=
  let neg := x / 2 ^ (f.width - 1) % 2 = 1
  let e := x / 2 ^ f.man % 2 ^ f.expBits
  let m := x % 2 ^ f.man
  if f.hasInf && e = 2 ^ f.expBits - 1 then
    if m = 0 then .inf neg else .nan neg (f != .e5m2 && decide (m < 2 ^ (f.man - 1)))
  else if f = .e4m3 ∧ x % 128 = 127 then .nan neg false
  else if e = 0 then .fin neg m (1 - (f.bias : Int) - f.man)
  else .fin neg (2 ^ f.man + m) ((e : Int) - f.bias - f.man)

/-- The sign bit of a format. -/
def fpSign (f : FpFmt) (neg : Bool) : Nat := if neg then 2 ^ (f.width - 1) else 0

/-- Encode a magnitude n × 2^q, already rounded to the format, with its sign. -/
def fpPack (f : FpFmt) (neg : Bool) (n : Nat) (q : Int) : Nat :=
  let (n, q) := if n = 2 ^ (f.man + 1) then (n / 2, q + 1) else (n, q)
  fpSign f neg + (if n < 2 ^ f.man then n else (q + f.man + f.bias).toNat * 2 ^ f.man + (n - 2 ^ f.man))

/-- A rounding mode (Table 2-7); the stochastic mode carries the 32-bit random number of R31. -/
inductive Rm where
  | rne
  | rtz
  | rup
  | rdn
  | sto (rnd : Nat)
  deriving DecidableEq, Repr

/-- The mode of an rm code that is not stochastic (Table 2-7). -/
def rmOf (c : Nat) : Rm := match c with | 1 => .rtz | 2 => .rup | 3 => .rdn | _ => .rne

/-- Whether a magnitude cut to n with remainder r of 2^k is increased by one unit (Table 2-7, R31). -/
def roundsUp (mode : Rm) (neg : Bool) (n r k : Nat) : Bool :=
  match mode with
  | .rne => decide (2 ^ k < 2 * r) || (2 * r == 2 ^ k && r != 0 && n % 2 == 1)
  | .rtz => false
  | .rup => !neg && r != 0
  | .rdn => neg && r != 0
  | .sto rnd => decide (2 ^ 32 ≤ r * 2 ^ 32 / 2 ^ k + rnd)

/-- Cut m × 2^e at the unit 2^q: the rounded count of units, whether it was increased, and whether it is inexact. -/
def roundAt (mode : Rm) (neg : Bool) (m : Nat) (e q : Int) : Nat × Bool × Bool :=
  if q ≤ e then (m * 2 ^ (e - q).toNat, false, false)
  else
    let k := (q - e).toNat
    let n := m / 2 ^ k
    let r := m % 2 ^ k
    let up := roundsUp mode neg n r k
    (if up then n + 1 else n, up, r != 0)

/-- Compare n × 2^q with n' × 2^q'. -/
def magLt (n : Nat) (q : Int) (n' : Nat) (q' : Int) : Bool :=
  if q ≤ q' then decide (n < n' * 2 ^ (q' - q).toNat) else decide (n * 2 ^ (q - q').toNat < n')

/-- Flags of a floating-point result, in the bits of FSTAT (R35): NV 1, DZ 2, OF 4, UF 8, NX 16. -/
abbrev FpFlags := BitVec 7

/-- The result of a finite overflow (Table 2-4). `sat` selects saturation for FP8; `up` tells whether a stochastic
rounding increased. -/
def fpOverflow (f : FpFmt) (mode : Rm) (sat neg up : Bool) : Nat × FpFlags :=
  let max := fpSign f neg + f.maxBits
  let away : Bool := match mode with
    | .rne => true
    | .rtz => false
    | .rup => !neg
    | .rdn => neg
    | .sto _ => up
  let far := if f.hasInf then fpSign f neg + f.maxBits + 1 else fpSign f neg + f.nanBits
  match f with
  | .f32 | .f16 | .bf16 => (if away then far else max, 20)
  | .e5m2 | .e4m3 => (if sat || !away then max else far, 20)
  | _ => (max, 20)

/-- An infinity at a format (Table 2-4). -/
def fpInfinity (f : FpFmt) (sat neg : Bool) : Nat × FpFlags :=
  match f with
  | .f32 | .f16 | .bf16 => (fpSign f neg + f.maxBits + 1, 0)
  | .e5m2 => if sat then (fpSign f neg + f.maxBits, 20) else (fpSign f neg + f.maxBits + 1, 0)
  | .e4m3 => if sat then (fpSign f neg + f.maxBits, 20) else (fpSign f neg + f.nanBits, 1)
  | _ => (fpSign f neg + f.maxBits, 20)

/-- A NaN at a format: the default NaN with its sign, or +0 with NV in a format without NaN (R17, Table 2-4). -/
def fpNan (f : FpFmt) (neg : Bool) : Nat × FpFlags := if f.hasNan then (fpSign f neg + f.nanBits, 0) else (0, 1)

/-- Round a value once into a format (R30 to R33): its bits and its flags. -/
def fpRound (f : FpFmt) (mode : Rm) (sat : Bool) : Fp → Nat × FpFlags
  | .nan neg _ => fpNan f neg
  | .inf neg => fpInfinity f sat neg
  | .fin neg m e =>
    if m = 0 then (fpSign f neg, 0) else
    let top := (Nat.log2 m : Int) + e
    let emin := 1 - (f.bias : Int)
    let q := max top emin - f.man
    let (n, up, inexact) := roundAt mode neg m e q
    match fpDecode f f.maxBits with
    | .fin _ mm me =>
      if magLt mm me n q then fpOverflow f mode sat neg up
      else
        let (n', _, _) := roundAt mode neg m e (top - f.man)
        let tiny := magLt n' (top - f.man) 1 emin
        (fpPack f neg n q, if inexact then (if tiny then 24 else 16) else 0)
    | _ => (0, 0)

/-- The bits of a small natural number in a format, rounded to nearest-even (R66). -/
def roundNat (f : FpFmt) (c : Nat) : Nat := (fpRound f .rne true (.fin false c 0)).1

/-- The sign with a negation applied. -/
def Fp.negate : Fp → Fp
  | .nan n s => .nan n s
  | .inf n => .inf (!n)
  | .fin n m e => .fin (!n) m e

/-- A NaN operand is signalling (R17). -/
def Fp.sig : Fp → Bool
  | .nan _ s => s
  | _ => false

/-- The result of R17 for operands in order: the sign of the first NaN, with NV when any is signalling. -/
def firstNan (xs : List Fp) : Option (Fp × FpFlags) :=
  (xs.findSome? fun x => match x with | .nan n _ => some n | _ => none).map fun n =>
    (.nan n false, if xs.any (·.sig) then 1 else 0)

/-- The exact sum of finite terms as an integer count of 2^e, e the least exponent. -/
def sumFinite (ts : List (Bool × Nat × Int)) : Int × Int :=
  let e := ts.foldl (fun a t => min a t.2.2) ((ts.head?.map fun t => t.2.2).getD 0)
  (ts.foldl (fun a t =>
    let v : Int := (t.2.1 * 2 ^ (t.2.2 - e).toNat : Nat)
    if t.1 then a - v else a + v) 0, e)

/-- The exact sum of terms that are not NaN (R32, R33): infinities of both signs are invalid. -/
def fpSum (mode : Rm) (ts : List Fp) : Fp × FpFlags :=
  let infs := ts.filterMap fun t => match t with | .inf n => some n | _ => none
  match infs with
  | n :: _ => if infs.all (· == n) then (.inf n, 0) else (.nan false false, 1)
  | [] =>
    let fs := ts.filterMap fun t => match t with | .fin n m e => some (n, m, e) | _ => none
    let (v, e) := sumFinite fs
    if v = 0 then
      if fs.all fun t => t.2.1 == 0 && t.1 then (.fin (!fs.isEmpty) 0 0, 0)
      else if fs.all fun t => t.2.1 == 0 && !t.1 then (.fin false 0 0, 0)
      else (.fin (mode = .rdn) 0 0, 0)
    else (.fin (decide (v < 0)) v.natAbs e, 0)

/-- The exact product of two values that are not NaN; none for 0 × ∞ (R17). -/
def fpMul : Fp → Fp → Option Fp
  | .inf n, .inf n' => some (.inf (n != n'))
  | .inf n, .fin n' m _ => if m = 0 then none else some (.inf (n != n'))
  | .fin n m _, .inf n' => if m = 0 then none else some (.inf (n != n'))
  | .fin n m e, .fin n' m' e' => some (.fin (n != n') (m * m') (e + e'))
  | _, _ => none

/-- a + b exactly, with the NaNs and invalid operations of R17. -/
def fpAdd (mode : Rm) (a b : Fp) : Fp × FpFlags := (firstNan [a, b]).getD (fpSum mode [a, b])

/-- a × b exactly. -/
def fpTimes (a b : Fp) : Fp × FpFlags :=
  (firstNan [a, b]).getD (match fpMul a b with | some p => (p, 0) | none => (.nan false false, 1))

/-- a × b + c exactly; `neg` negates the product (FFMS). NaNs in the operand order a, b, c. -/
def fpFma (mode : Rm) (neg : Bool) (a b c : Fp) : Fp × FpFlags :=
  (firstNan [a, b, c]).getD (match fpMul a b with
    | some p => fpSum mode [if neg then p.negate else p, c]
    | none => (.nan false false, 1))

/-- Round an exact result and join the flags. -/
def fpFinish (f : FpFmt) (mode : Rm) (sat : Bool) (r : Fp × FpFlags) : Nat × FpFlags :=
  let (b, fl) := fpRound f mode sat r.1
  (b, fl ||| r.2)

/-- a < b for values that are not NaN; zeros of both signs are equal. -/
def fpLt : Fp → Fp → Bool
  | .inf n, .inf n' => n && !n'
  | .inf n, _ => n
  | _, .inf n => !n
  | .fin n m e, .fin n' m' e' =>
    if m = 0 ∧ m' = 0 then false
    else if m = 0 then !n'
    else if m' = 0 then n
    else if n != n' then n
    else if n then magLt m' e' m e else magLt m e m' e'
  | _, _ => false

/-- A NaN. -/
def Fp.isNan : Fp → Bool
  | .nan .. => true
  | _ => false

/-- The sign of a value. -/
def Fp.neg : Fp → Bool
  | .nan n _ => n
  | .inf n => n
  | .fin n _ _ => n

/-- a ranks below b with −0 below +0 (R132, R147). -/
def fpBelow (a b : Fp) : Bool :=
  fpLt a b || (!fpLt b a && a.neg && !b.neg)

/-- FMIN or FMAX of two operands given as bits of a format (R132): an operand bit for bit, or the NaN of R17. -/
def fpMinMax (f : FpFmt) (isMax num : Bool) (x y : Nat) : Nat × FpFlags :=
  let a := fpDecode f x
  let b := fpDecode f y
  let flag : FpFlags := if a.sig || b.sig then 1 else 0
  if num && a.isNan && !b.isNan && !a.sig then (y, 0)
  else if num && b.isNan && !a.isNan && !b.sig then (x, 0)
  else match firstNan [a, b] with
    | some (r, _) => ((fpNan f r.neg).1, flag)
    | none => (if fpBelow a b != isMax then x else y, flag)

/-- The conditions of Table 6-5: whether one holds, and NV. -/
def fpCompare (c : Nat) (a b : Fp) : Bool × FpFlags :=
  let un := a.isNan || b.isNan
  let nv : FpFlags := if a.sig || b.sig || (un && decide (2 ≤ c) && decide (c ≤ 5)) then 1 else 0
  let lt := !un && fpLt a b
  let gt := !un && fpLt b a
  (match c with
    | 0 => !un && !lt && !gt
    | 1 => un || lt || gt
    | 2 => lt
    | 3 => !un && !gt
    | 4 => gt
    | 5 => !un && !lt
    | 6 => un
    | _ => !un, nv)

/-- Round a value to an integer of `w` bits (R137, Table 2-4): the bits of the result in 32 and the flags. -/
def fpToInt (signed : Bool) (w : Nat) (mode : Rm) : Fp → Int × FpFlags
  | .nan _ _ => (0, 1)
  | .inf neg =>
    (if neg then (if signed then -(2 ^ (w - 1)) else 0) else (if signed then 2 ^ (w - 1) - 1 else 2 ^ w - 1), 1)
  | .fin neg m e =>
    let (n, _, inexact) := roundAt mode neg m e 0
    let v : Int := if neg then -(n : Int) else n
    let lo : Int := if signed then -(2 ^ (w - 1)) else 0
    let hi : Int := if signed then 2 ^ (w - 1) - 1 else 2 ^ w - 1
    if v < lo then (lo, 1) else if hi < v then (hi, 1) else (v, if inexact then 16 else 0)

/-- One level of the pairwise tree (R39): neighbours combine where both are present. -/
def treeLevel {α : Type} (op : α → α → α × FpFlags) : List (Option α) → FpFlags → List (Option α) × FpFlags
  | [], fl => ([], fl)
  | [x], fl => ([x], fl)
  | some a :: some b :: xs, fl =>
    let (r, g) := op a b
    let (rs, fl) := treeLevel op xs (fl ||| g)
    (some r :: rs, fl)
  | some a :: none :: xs, fl => let (rs, fl) := treeLevel op xs fl; (some a :: rs, fl)
  | none :: y :: xs, fl => let (rs, fl) := treeLevel op xs fl; (y :: rs, fl)

/-- The pairwise tree over positions, `fuel` levels deep (R39); the positions beyond a power of two are absent. -/
def treeFold {α : Type} (op : α → α → α × FpFlags) : Nat → List (Option α) → FpFlags → Option α × FpFlags
  | 0, xs, fl => ((xs.head?).join, fl)
  | n + 1, xs, fl => let (ys, fl) := treeLevel op xs fl; treeFold op n ys fl

end Sys2Proof.Machine
end

