-- ==== Sys2Proof/Syntax.lean ====
section
/-!
DEFINITION. Syntax.lean: the one type of the K9's instructions and engine steps, one constructor per row of the
opcode table. A row with an encoding carries the fields of that encoding as bits; a row without one (an engine step,
a firmware packet, a host action) has no operands here: what it concerns stands in the state (`State.arg`).
-/
namespace Sys2Proof

/-- The rows of the opcode table. Fields of encoded rows keep the names and widths of the encoding (Tables 4-1, 4-2). -/
inductive Instr where
  /-- NOT_AN_INSTRUCTION: R78. -/
  | notAnInstruction (cause : Nat) (word : BitVec 32)
  /-- ADD_A: R90. -/
  | addA (d : BitVec 6) (a : BitVec 7) (b : BitVec 7) (t : BitVec 3)
  /-- SUB_A: R90. -/
  | subA (d : BitVec 6) (a : BitVec 7) (b : BitVec 7) (t : BitVec 3)
  /-- ADD_IMM_A: R91. -/
  | addImmA (d : BitVec 6) (a : BitVec 7) (i : BitVec 11)
  /-- MUL_A: R90. -/
  | mulA (d : BitVec 6) (a : BitVec 7) (b : BitVec 7) (t : BitVec 3)
  /-- MULH_A: R90. -/
  | mulhA (d : BitVec 6) (a : BitVec 7) (b : BitVec 7) (t : BitVec 3)
  /-- DIVS: R90. -/
  | divs (d : BitVec 6) (a : BitVec 7) (b : BitVec 7) (t : BitVec 3)
  /-- DIVZ: R90. -/
  | divz (d : BitVec 6) (a : BitVec 7) (b : BitVec 7) (t : BitVec 3)
  /-- AND_A: R93. -/
  | andA (d : BitVec 6) (a : BitVec 7) (b : BitVec 7)
  /-- OR_A: R93. -/
  | orA (d : BitVec 6) (a : BitVec 7) (b : BitVec 7)
  /-- XOR_A: R93. -/
  | xorA (d : BitVec 6) (a : BitVec 7) (b : BitVec 7)
  /-- ANDN_A: R93. -/
  | andnA (d : BitVec 6) (a : BitVec 7) (b : BitVec 7)
  /-- AND_IMM: R93. -/
  | andImm (d : BitVec 6) (a : BitVec 7) (i : BitVec 9)
  /-- OR_IMM: R93. -/
  | orImm (d : BitVec 6) (a : BitVec 7) (i : BitVec 9)
  /-- XOR_IMM: R93. -/
  | xorImm (d : BitVec 6) (a : BitVec 7) (i : BitVec 9)
  /-- SHL_A: R93. -/
  | shlA (d : BitVec 6) (a : BitVec 7) (b : BitVec 7) (w : BitVec 2)
  /-- SHR_A: R93. -/
  | shrA (d : BitVec 6) (a : BitVec 7) (b : BitVec 7) (w : BitVec 2)
  /-- SAR_A: R93. -/
  | sarA (d : BitVec 6) (a : BitVec 7) (b : BitVec 7) (w : BitVec 2)
  /-- ROT_A: R93. -/
  | rotA (d : BitVec 6) (a : BitVec 7) (b : BitVec 7) (w : BitVec 2)
  /-- SHL_IMM_A: R93. -/
  | shlImmA (d : BitVec 6) (a : BitVec 7) (w : BitVec 2) (m : BitVec 7)
  /-- SHR_IMM_A: R93. -/
  | shrImmA (d : BitVec 6) (a : BitVec 7) (w : BitVec 2) (m : BitVec 7)
  /-- SAR_IMM_A: R93. -/
  | sarImmA (d : BitVec 6) (a : BitVec 7) (w : BitVec 2) (m : BitVec 7)
  /-- ROT_IMM_A: R93. -/
  | rotImmA (d : BitVec 6) (a : BitVec 7) (w : BitVec 2) (m : BitVec 7)
  /-- BFX_S_A: R94. -/
  | bfxSA (d : BitVec 6) (a : BitVec 7) (w : BitVec 4) (o : BitVec 6)
  /-- BFX_Z_A: R94. -/
  | bfxZA (d : BitVec 6) (a : BitVec 7) (w : BitVec 4) (o : BitVec 6)
  /-- BFI_A: R94. -/
  | bfiA (d : BitVec 6) (a : BitVec 7) (w : BitVec 5) (o : BitVec 6)
  /-- FSHL_A: R95. -/
  | fshlA (d : BitVec 6) (a : BitVec 7) (b : BitVec 7) (s : BitVec 1)
  /-- FSHR_A: R95. -/
  | fshrA (d : BitVec 6) (a : BitVec 7) (b : BitVec 7) (s : BitVec 1)
  /-- CLZ_A: R93. -/
  | clzA (d : BitVec 6) (a : BitVec 7) (w : BitVec 2)
  /-- POPC_A: R93. -/
  | popcA (d : BitVec 6) (a : BitVec 7) (w : BitVec 2)
  /-- MIN_A: R90. -/
  | minA (d : BitVec 6) (a : BitVec 7) (b : BitVec 7) (t : BitVec 3)
  /-- MAX_A: R90. -/
  | maxA (d : BitVec 6) (a : BitVec 7) (b : BitVec 7) (t : BitVec 3)
  /-- CMP_A: R96. -/
  | cmpA (p : BitVec 3) (a : BitVec 7) (b : BitVec 7) (c : BitVec 4)
  /-- SEL_A: R97. -/
  | selA (d : BitVec 6) (a : BitVec 7) (b : BitVec 7) (p : BitVec 3)
  /-- LI_A: R98. -/
  | liA (d : BitVec 6) (i : BitVec 11)
  /-- LI_HI_A: R98. -/
  | liHiA (d : BitVec 6) (i : BitVec 11)
  /-- BR_A: R99. -/
  | brA (c : BitVec 3) (o : BitVec 22)
  /-- BRN_A: R99. -/
  | brnA (c : BitVec 3) (o : BitVec 22)
  /-- LOOP: R99. -/
  | loop (c : BitVec 3) (o : BitVec 22)
  /-- CALL_A: R100. -/
  | callA (c : BitVec 3) (o : BitVec 22)
  /-- CALLI_A: R100. -/
  | calliA (a : BitVec 7)
  /-- RET_A: R101. -/
  | retA
  /-- TXL: R102. -/
  | txl (t : BitVec 4) (a : BitVec 7)
  /-- PGREQ: R104. -/
  | pgreq (p : BitVec 3) (a : BitVec 7)
  /-- TXCLR: R103. -/
  | txclr (t : BitVec 4)
  /-- TXCLR_ALL: R103. -/
  | txclrAll
  /-- BR_E: R198. -/
  | brE (c : BitVec 3) (o : BitVec 22)
  /-- BRN_E: R198. -/
  | brnE (c : BitVec 3) (o : BitVec 22)
  /-- CALL_E: R199. -/
  | callE (c : BitVec 3) (o : BitVec 22)
  /-- CALLI_E: R199. -/
  | calliE (a : BitVec 7)
  /-- RET_E: R199. -/
  | retE
  /-- MERGE: R201. -/
  | merge (t : BitVec 10)
  /-- MERGE_ARM: R200. -/
  | mergeArm (t : BitVec 10)
  /-- LDS: R109. -/
  | lds (d : BitVec 6) (t : BitVec 4) (x : BitVec 7) (s : BitVec 2) (f : BitVec 6)
  /-- STS: R109. -/
  | sts (d : BitVec 6) (t : BitVec 4) (x : BitVec 7) (s : BitVec 2) (f : BitVec 6)
  /-- LDQ: R110. -/
  | ldq (d : BitVec 6) (t : BitVec 4) (x : BitVec 7) (s : BitVec 2) (f : BitVec 6)
  /-- STQ: R111. -/
  | stq (t : BitVec 4) (x : BitVec 7) (s : BitVec 2) (f : BitVec 6)
  /-- GATHQ: R112. -/
  | gathq (d : BitVec 6) (t : BitVec 4) (x : BitVec 7) (s : BitVec 2) (f : BitVec 6)
  /-- SCATQ: R113. -/
  | scatq (t : BitVec 4) (x : BitVec 7) (s : BitVec 2) (f : BitVec 6)
  /-- ATOM: R153. -/
  | atom (d : BitVec 6) (t : BitVec 4) (x : BitVec 7) (s : BitVec 2) (f : BitVec 4)
  /-- ATOMQ: R154. -/
  | atomq (d : BitVec 6) (t : BitVec 4) (x : BitVec 7) (s : BitVec 2) (f : BitVec 4)
  /-- AGGADD: R155. -/
  | aggadd (d : BitVec 6) (t : BitVec 4) (x : BitVec 7) (s : BitVec 2)
  /-- AGGADD_ONE: R155. -/
  | aggaddOne (d : BitVec 6) (t : BitVec 4) (x : BitVec 7) (s : BitVec 2)
  /-- CPY: R262. -/
  | cpy (d : BitVec 6) (t : BitVec 4) (x : BitVec 7) (s : BitVec 2) (f : BitVec 6)
  /-- CPYM: R263. -/
  | cpym (d : BitVec 6) (t : BitVec 4) (x : BitVec 7) (s : BitVec 2) (f : BitVec 6)
  /-- CPYR: R264. -/
  | cpyr (d : BitVec 6) (t : BitVec 4) (x : BitVec 7) (s : BitVec 2) (f : BitVec 4)
  /-- QPUSH_A: R114. -/
  | qpushA (d : BitVec 6) (a : BitVec 7) (b : BitVec 7)
  /-- LDC: R148. -/
  | ldc (n : BitVec 1) (d : BitVec 6) (a : BitVec 7) (b : BitVec 7) (s : BitVec 1) (l : BitVec 2)
  /-- LDX: R148. -/
  | ldx (n : BitVec 1) (d : BitVec 6) (a : BitVec 7) (b : BitVec 7) (s : BitVec 1) (l : BitVec 2)
  /-- LDX_RING: R148. -/
  | ldxRing (n : BitVec 1) (d : BitVec 6) (a : BitVec 7) (b : BitVec 7) (s : BitVec 1) (l : BitVec 2)
  /-- STX: R148. -/
  | stx (d : BitVec 6) (a : BitVec 7) (b : BitVec 7) (l : BitVec 2)
  /-- STX_RING: R148. -/
  | stxRing (d : BitVec 6) (a : BitVec 7) (b : BitVec 7) (l : BitVec 2)
  /-- ADD_E: R122. -/
  | addE (n : BitVec 1) (d : BitVec 6) (a : BitVec 7) (b : BitVec 7) (s : BitVec 1) (w : BitVec 2)
  /-- SUB_E: R122. -/
  | subE (n : BitVec 1) (d : BitVec 6) (a : BitVec 7) (b : BitVec 7) (s : BitVec 1) (w : BitVec 2)
  /-- ADD_IMM_E: R123. -/
  | addImmE (n : BitVec 1) (d : BitVec 6) (a : BitVec 7) (i : BitVec 11)
  /-- MUL_E: R122. -/
  | mulE (n : BitVec 1) (d : BitVec 6) (a : BitVec 7) (b : BitVec 7) (s : BitVec 1) (w : BitVec 2)
  /-- MULH_E: R122. -/
  | mulhE (n : BitVec 1) (d : BitVec 6) (a : BitVec 7) (b : BitVec 7) (s : BitVec 1) (w : BitVec 2)
  /-- MAD: R122. -/
  | mad (n : BitVec 1) (d : BitVec 6) (a : BitVec 7) (b : BitVec 7) (s : BitVec 1) (w : BitVec 2)
  /-- MIN_E: R122. -/
  | minE (n : BitVec 1) (d : BitVec 6) (a : BitVec 7) (b : BitVec 7) (s : BitVec 1) (w : BitVec 2)
  /-- MAX_E: R122. -/
  | maxE (n : BitVec 1) (d : BitVec 6) (a : BitVec 7) (b : BitVec 7) (s : BitVec 1) (w : BitVec 2)
  /-- AND_E: R124. -/
  | andE (n : BitVec 1) (d : BitVec 6) (a : BitVec 7) (b : BitVec 7)
  /-- OR_E: R124. -/
  | orE (n : BitVec 1) (d : BitVec 6) (a : BitVec 7) (b : BitVec 7)
  /-- XOR_E: R124. -/
  | xorE (n : BitVec 1) (d : BitVec 6) (a : BitVec 7) (b : BitVec 7)
  /-- ANDN_E: R124. -/
  | andnE (n : BitVec 1) (d : BitVec 6) (a : BitVec 7) (b : BitVec 7)
  /-- SHL_E: R124. -/
  | shlE (n : BitVec 1) (d : BitVec 6) (a : BitVec 7) (b : BitVec 7) (w : BitVec 2)
  /-- SHR_E: R124. -/
  | shrE (n : BitVec 1) (d : BitVec 6) (a : BitVec 7) (b : BitVec 7) (w : BitVec 2)
  /-- SAR_E: R124. -/
  | sarE (n : BitVec 1) (d : BitVec 6) (a : BitVec 7) (b : BitVec 7) (w : BitVec 2)
  /-- ROT_E: R124. -/
  | rotE (n : BitVec 1) (d : BitVec 6) (a : BitVec 7) (b : BitVec 7) (w : BitVec 2)
  /-- SHL_IMM_E: R124. -/
  | shlImmE (n : BitVec 1) (d : BitVec 6) (a : BitVec 7) (w : BitVec 2) (m : BitVec 7)
  /-- SHR_IMM_E: R124. -/
  | shrImmE (n : BitVec 1) (d : BitVec 6) (a : BitVec 7) (w : BitVec 2) (m : BitVec 7)
  /-- SAR_IMM_E: R124. -/
  | sarImmE (n : BitVec 1) (d : BitVec 6) (a : BitVec 7) (w : BitVec 2) (m : BitVec 7)
  /-- ROT_IMM_E: R124. -/
  | rotImmE (n : BitVec 1) (d : BitVec 6) (a : BitVec 7) (w : BitVec 2) (m : BitVec 7)
  /-- BFX_S_E: R125. -/
  | bfxSE (n : BitVec 1) (d : BitVec 6) (a : BitVec 7) (w : BitVec 4) (o : BitVec 6)
  /-- BFX_Z_E: R125. -/
  | bfxZE (n : BitVec 1) (d : BitVec 6) (a : BitVec 7) (w : BitVec 4) (o : BitVec 6)
  /-- BFI_E: R125. -/
  | bfiE (n : BitVec 1) (d : BitVec 6) (a : BitVec 7) (w : BitVec 5) (o : BitVec 6)
  /-- FSHL_E: R126. -/
  | fshlE (n : BitVec 1) (d : BitVec 6) (a : BitVec 7) (b : BitVec 7) (s : BitVec 1)
  /-- FSHR_E: R126. -/
  | fshrE (n : BitVec 1) (d : BitVec 6) (a : BitVec 7) (b : BitVec 7) (s : BitVec 1)
  /-- CLZ_E: R124. -/
  | clzE (n : BitVec 1) (d : BitVec 6) (a : BitVec 7) (w : BitVec 2)
  /-- POPC_E: R124. -/
  | popcE (n : BitVec 1) (d : BitVec 6) (a : BitVec 7) (w : BitVec 2)
  /-- CMP_E: R127. -/
  | cmpE (f : BitVec 3) (a : BitVec 7) (b : BitVec 7) (c : BitVec 4)
  /-- SEL_E: R128. -/
  | selE (n : BitVec 1) (d : BitVec 6) (a : BitVec 7) (b : BitVec 7) (f : BitVec 3)
  /-- LI_E: R129. -/
  | liE (n : BitVec 1) (d : BitVec 6) (i : BitVec 11)
  /-- LI_FROM_K: R129. -/
  | liFromK (n : BitVec 1) (d : BitVec 6) (k : BitVec 4)
  /-- LI_HI_FROM_K: R129. -/
  | liHiFromK (n : BitVec 1) (d : BitVec 6) (k : BitVec 4)
  /-- LI_K_Q6: R129. -/
  | liKQ6 (k : BitVec 4) (p : BitVec 1)
  /-- LI_K_IMM: R129. -/
  | liKImm (k : BitVec 4) (i : BitVec 11)
  /-- QPUSH_E: R130. -/
  | qpushE (d : BitVec 6) (a : BitVec 7) (f : BitVec 3)
  /-- FADD: R131. -/
  | fadd (n : BitVec 1) (d : BitVec 6) (a : BitVec 7) (b : BitVec 7) (r : BitVec 3)
  /-- FSUB: R131. -/
  | fsub (n : BitVec 1) (d : BitVec 6) (a : BitVec 7) (b : BitVec 7) (r : BitVec 3)
  /-- FMUL: R131. -/
  | fmul (n : BitVec 1) (d : BitVec 6) (a : BitVec 7) (b : BitVec 7) (r : BitVec 3)
  /-- FFMA: R131. -/
  | ffma (n : BitVec 1) (d : BitVec 6) (a : BitVec 7) (b : BitVec 7) (r : BitVec 3)
  /-- FFMS: R131. -/
  | ffms (n : BitVec 1) (d : BitVec 6) (a : BitVec 7) (b : BitVec 7) (r : BitVec 3)
  /-- FMIN: R132. -/
  | fmin (n : BitVec 1) (d : BitVec 6) (a : BitVec 7) (b : BitVec 7) (u : BitVec 1)
  /-- FMAX: R132. -/
  | fmax (n : BitVec 1) (d : BitVec 6) (a : BitVec 7) (b : BitVec 7) (u : BitVec 1)
  /-- FCMP: R133. -/
  | fcmp (f : BitVec 3) (a : BitVec 7) (b : BitVec 7) (c : BitVec 3)
  /-- FSGN: R134. -/
  | fsgn (n : BitVec 1) (d : BitVec 6) (a : BitVec 7) (b : BitVec 7) (w : BitVec 2) (o : BitVec 2)
  /-- HADD: R135. -/
  | hadd (n : BitVec 1) (d : BitVec 6) (a : BitVec 7) (b : BitVec 7) (t : BitVec 1)
  /-- HSUB: R135. -/
  | hsub (n : BitVec 1) (d : BitVec 6) (a : BitVec 7) (b : BitVec 7) (t : BitVec 1)
  /-- HMUL: R135. -/
  | hmul (n : BitVec 1) (d : BitVec 6) (a : BitVec 7) (b : BitVec 7) (t : BitVec 1)
  /-- HMIN: R135. -/
  | hmin (n : BitVec 1) (d : BitVec 6) (a : BitVec 7) (b : BitVec 7) (t : BitVec 1)
  /-- HMAX: R135. -/
  | hmax (n : BitVec 1) (d : BitVec 6) (a : BitVec 7) (b : BitVec 7) (t : BitVec 1)
  /-- HFMA: R135. -/
  | hfma (n : BitVec 1) (d : BitVec 6) (a : BitVec 7) (b : BitVec 7) (t : BitVec 1)
  /-- HFMS: R135. -/
  | hfms (n : BitVec 1) (d : BitVec 6) (a : BitVec 7) (b : BitVec 7) (t : BitVec 1)
  /-- HCMP: R136. -/
  | hcmp (n : BitVec 1) (d : BitVec 6) (a : BitVec 7) (b : BitVec 7) (t : BitVec 1) (c : BitVec 3)
  /-- F8ADD: R135. -/
  | f8add (n : BitVec 1) (d : BitVec 6) (a : BitVec 7) (b : BitVec 7) (t : BitVec 1)
  /-- F8SUB: R135. -/
  | f8sub (n : BitVec 1) (d : BitVec 6) (a : BitVec 7) (b : BitVec 7) (t : BitVec 1)
  /-- F8MUL: R135. -/
  | f8mul (n : BitVec 1) (d : BitVec 6) (a : BitVec 7) (b : BitVec 7) (t : BitVec 1)
  /-- F8MIN: R135. -/
  | f8min (n : BitVec 1) (d : BitVec 6) (a : BitVec 7) (b : BitVec 7) (t : BitVec 1)
  /-- F8MAX: R135. -/
  | f8max (n : BitVec 1) (d : BitVec 6) (a : BitVec 7) (b : BitVec 7) (t : BitVec 1)
  /-- F8FMA: R135. -/
  | f8fma (n : BitVec 1) (d : BitVec 6) (a : BitVec 7) (b : BitVec 7) (t : BitVec 1)
  /-- F8FMS: R135. -/
  | f8fms (n : BitVec 1) (d : BitVec 6) (a : BitVec 7) (b : BitVec 7) (t : BitVec 1)
  /-- F8CMP: R136. -/
  | f8cmp (n : BitVec 1) (d : BitVec 6) (a : BitVec 7) (b : BitVec 7) (t : BitVec 1) (c : BitVec 3)
  /-- CVT: R137. -/
  | cvt (n : BitVec 1) (d : BitVec 6) (a : BitVec 7) (b : BitVec 7) (f : BitVec 4)
  /-- CVTF: R138. -/
  | cvtf (n : BitVec 1) (d : BitVec 6) (a : BitVec 7) (b : BitVec 7) (f : BitVec 4)
  /-- CVTD: R139. -/
  | cvtd (n : BitVec 1) (d : BitVec 6) (a : BitVec 7) (b : BitVec 7) (r : BitVec 2)
  /-- CVTMX: R140. -/
  | cvtmx (n : BitVec 1) (d : BitVec 6) (a : BitVec 7) (b : BitVec 7) (q : BitVec 1) (e : BitVec 3)
  /-- RCPS: R141. -/
  | rcps (n : BitVec 1) (d : BitVec 6) (a : BitVec 7)
  /-- RSQS: R141. -/
  | rsqs (n : BitVec 1) (d : BitVec 6) (a : BitVec 7)
  /-- EXPS: R141. -/
  | exps (n : BitVec 1) (d : BitVec 6) (a : BitVec 7)
  /-- LOGS: R141. -/
  | logs (n : BitVec 1) (d : BitVec 6) (a : BitVec 7)
  /-- SINS: R141. -/
  | sins (n : BitVec 1) (d : BitVec 6) (a : BitVec 7)
  /-- COSS: R141. -/
  | coss (n : BitVec 1) (d : BitVec 6) (a : BitVec 7)
  /-- VOTE: R143. -/
  | vote (n : BitVec 1) (d : BitVec 6) (a : BitVec 7) (o : BitVec 3)
  /-- SHFL: R144. -/
  | shfl (n : BitVec 1) (d : BitVec 6) (a : BitVec 7) (b : BitVec 7) (o : BitVec 2)
  /-- REDS: R145. -/
  | reds (n : BitVec 1) (d : BitVec 6) (a : BitVec 7) (o : BitVec 4)
  /-- SCAN: R146. -/
  | scan (n : BitVec 1) (d : BitVec 6) (a : BitVec 7) (x : BitVec 1) (o : BitVec 2)
  /-- ARGM: R147. -/
  | argm (n : BitVec 1) (d : BitVec 6) (a : BitVec 7) (t : BitVec 2) (m : BitVec 1)
  /-- VOTET: R143. -/
  | votet (n : BitVec 1) (d : BitVec 6) (a : BitVec 7) (b : BitVec 7) (o : BitVec 3)
  /-- SHFLT: R144. -/
  | shflt (n : BitVec 1) (d : BitVec 6) (a : BitVec 7) (b : BitVec 7) (o : BitVec 2)
  /-- REDT: R145. -/
  | redt (n : BitVec 1) (d : BitVec 6) (a : BitVec 7) (o : BitVec 4)
  /-- MLS: R179. -/
  | mls (a : BitVec 7) (m : BitVec 4)
  /-- MFLIP: R180. -/
  | mflip
  /-- MSTREAM: R181. -/
  | mstream (a : BitVec 7) (b : BitVec 7) (m : BitVec 4)
  /-- MTILE: R182. -/
  | mtile (d : BitVec 6) (a : BitVec 7) (b : BitVec 7) (m : BitVec 3)
  /-- AMALLOC: R184. -/
  | amalloc (d : BitVec 6)
  /-- AMFREE: R184. -/
  | amfree (a : BitVec 7)
  /-- AMRD: R186. -/
  | amrd (n : BitVec 1) (d : BitVec 6) (a : BitVec 7) (b : BitVec 7) (r : BitVec 2)
  /-- AMCLR: R185. -/
  | amclr (a : BitVec 7)
  /-- AMLD: R185. -/
  | amld (a : BitVec 7) (b : BitVec 7)
  /-- AMST: R185. -/
  | amst (a : BitVec 7) (b : BitVec 7)
  /-- MWAIT: R187. -/
  | mwait (a : BitVec 7)
  /-- CPSEAL: R268. -/
  | cpseal (d : BitVec 6)
  /-- CPWAIT: R269. -/
  | cpwait (d : BitVec 6) (i : BitVec 11)
  /-- STRM: R271. -/
  | strm (a : BitVec 7)
  /-- RING_CLAIM: R163. -/
  | ringClaim (d : BitVec 6) (a : BitVec 7)
  /-- RING_SIG: R163. -/
  | ringSig (a : BitVec 7) (b : BitVec 7)
  /-- RING_WAIT: R163. -/
  | ringWait (d : BitVec 6) (a : BitVec 7) (b : BitVec 7)
  /-- RING_FREE: R163. -/
  | ringFree (a : BitVec 7) (b : BitVec 7)
  /-- RING_STAT: R163. -/
  | ringStat (d : BitVec 6) (a : BitVec 7)
  /-- STASH_MAP: R160. -/
  | stashMap (d : BitVec 6) (a : BitVec 7) (b : BitVec 7)
  /-- STASH_UNMAP: R160. -/
  | stashUnmap (a : BitVec 7)
  /-- STASH_CLEAN: R160. -/
  | stashClean (a : BitVec 7)
  /-- PUBLISH: R164. -/
  | publish (d : BitVec 6) (a : BitVec 7)
  /-- L2CTL_OCC: R165. -/
  | l2ctlOcc (d : BitVec 6) (a : BitVec 7)
  /-- L2CTL_MASK: R165. -/
  | l2ctlMask (d : BitVec 6)
  /-- L2CTL_SETMASK: R165. -/
  | l2ctlSetmask (d : BitVec 6) (a : BitVec 7)
  /-- COLL: R283. -/
  | coll (d : BitVec 6) (a : BitVec 7) (b : BitVec 7) (k : BitVec 4)
  /-- SOLICIT: R295. -/
  | solicit (d : BitVec 6) (a : BitVec 7) (b : BitVec 7) (o : BitVec 2)
  /-- SOLICIT_INS: R296. -/
  | solicitIns (d : BitVec 6) (a : BitVec 7) (b : BitVec 7)
  /-- SOLICIT_DEL: R296. -/
  | solicitDel (a : BitVec 7)
  /-- SOLICIT_MOVE: R297. -/
  | solicitMove (d : BitVec 6) (a : BitVec 7) (b : BitVec 7)
  /-- SOLICIT_COMMIT: R297. -/
  | solicitCommit (d : BitVec 6) (a : BitVec 7) (b : BitVec 7)
  /-- SOLICIT_REG: R298. -/
  | solicitReg (a : BitVec 7) (b : BitVec 7)
  /-- RESPOND: R300. -/
  | respond (a : BitVec 7)
  /-- CENSUS_WAIT: R302. -/
  | censusWait (d : BitVec 6) (a : BitVec 7)
  /-- CENSUS_POLL: R302. -/
  | censusPoll (d : BitVec 6) (a : BitVec 7)
  /-- TRGPOST: R403. -/
  | trgpost (d : BitVec 6) (a : BitVec 7)
  /-- TRGCANCEL: R404. -/
  | trgcancel (d : BitVec 6) (a : BitVec 7)
  /-- CTRADD: R404. -/
  | ctradd (a : BitVec 7) (b : BitVec 7)
  /-- CTRWAIT: R404. -/
  | ctrwait (d : BitVec 6) (a : BitVec 7) (b : BitVec 7)
  /-- CTRWAIT_POLL: R404. -/
  | ctrwaitPoll (d : BitVec 6) (a : BitVec 7)
  /-- CTRSET: R404. -/
  | ctrset (a : BitVec 7) (b : BitVec 7)
  /-- CTRSEAL: R404. -/
  | ctrseal (d : BitVec 6) (a : BitVec 7)
  /-- TASKADD: R363. -/
  | taskadd (d : BitVec 6) (a : BitVec 7)
  /-- TASKGET: R364. -/
  | taskget (d : BitVec 6)
  /-- TASKGET_POLL: R364. -/
  | taskgetPoll (d : BitVec 6)
  /-- TASKEND: R365. -/
  | taskend
  /-- TASKSTEAL: R367. -/
  | tasksteal (d : BitVec 6) (a : BitVec 7)
  /-- BARJ: R210. -/
  | barj (a : BitVec 7) (b : BitVec 7)
  /-- BAR: R211. -/
  | bar (a : BitVec 7)
  /-- END: R204. -/
  | endS
  /-- SRR: R435. -/
  | srr (d : BitVec 6) (b : BitVec 7)
  /-- SRW: R435. -/
  | srw (d : BitVec 6) (b : BitVec 7)
  /-- FENCE: R159. -/
  | fence (s : BitVec 3)
  /-- TRAP: R436. -/
  | trap (a : BitVec 7)
  /-- TRET: R436. -/
  | tret
  /-- NOP: R436. -/
  | nop
  /-- IMM: R69. -/
  | imm (p : BitVec 22)
  /-- MOD: R70. -/
  | mod (c : BitVec 2) (o : BitVec 2) (s : BitVec 3) (n : BitVec 1) (r : BitVec 3)
  /-- EXT: R71. -/
  | ext (g : BitVec 7) (e : BitVec 7)
  /-- SCHED: R72. -/
  | sched (h : BitVec 1) (y : BitVec 1)
  /-- CHAIN: R73. -/
  | chain (l : BitVec 3)
  /-- CHAIN_ABANDON: R54. -/
  | chainAbandon
  /-- GATHER_ENGINE_PUSH: R110. -/
  | gatherEnginePush
  /-- COLL_REPLY: R285. -/
  | collReply
  /-- COLL_FLIT_HOME: R284. -/
  | collFlitHome
  /-- ROOT_FLIT: R288. -/
  | rootFlit
  /-- UNIT_ABANDON: R290. -/
  | unitAbandon
  /-- SOLICIT_DELIVERY: R299. -/
  | solicitDelivery
  /-- COMMIT_DELIVERY: R303. -/
  | commitDelivery
  /-- CORE_ANSWER: R301. -/
  | coreAnswer
  /-- LATTICE_COMMAND_EXECUTE: R175. -/
  | latticeCommandExecute
  /-- SEQUENCER_DECISION: R177. -/
  | sequencerDecision
  /-- K_STEP: R182. -/
  | kStep
  /-- K_STEP_SUMS_LANDED: R182. -/
  | kStepSumsLanded
  /-- OPERAND_FETCH: R458. -/
  | operandFetch
  /-- STAGING_FETCH: R326. -/
  | stagingFetch
  /-- AM_DEADLOCK: R383. -/
  | amDeadlock
  /-- REGION_WATCHDOG: R208. -/
  | regionWatchdog
  /-- TEAM_ADMISSION: R191. -/
  | teamAdmission
  /-- TEAM_RETIREMENT: R193. -/
  | teamRetirement
  /-- TEAM_SAVE: R373. -/
  | teamSave
  /-- TEAM_RESUME: R380. -/
  | teamResume
  /-- MISS_FILL: R222. -/
  | missFill
  /-- TABLE_WALK: R230. -/
  | tableWalk
  /-- COPY_SEGMENT: R262. -/
  | copySegment
  /-- COPY_SECTOR_ARRIVAL: R267. -/
  | copySectorArrival
  /-- STREAM_FILL: R272. -/
  | streamFill
  /-- STREAM_DRAIN: R272. -/
  | streamDrain
  /-- PUSH: R313. -/
  | pushItem
  /-- CALENDAR_RELEASE: R319. -/
  | calendarRelease
  /-- LEAF_POP: R318. -/
  | leafPop
  /-- FULL_LEAF_WATCHDOG: R321. -/
  | fullLeafWatchdog
  /-- REGION_LOAD: R333. -/
  | regionLoad
  /-- REGION_FREE: R334. -/
  | regionFree
  /-- SCRIPT: R316. -/
  | scriptPkt
  /-- PART: R335. -/
  | partPkt
  /-- PAGEANS: R339. -/
  | pageansPkt
  /-- WAIT: R352. -/
  | waitPkt
  /-- SIGNAL: R342. -/
  | signalPkt
  /-- INDIRECT: R349. -/
  | indirectPkt
  /-- LAUNCH: R346. -/
  | launchPkt
  /-- LAUNCHI: R348. -/
  | launchiPkt
  /-- TILETASK: R351. -/
  | tiletaskPkt
  /-- COPY: R343. -/
  | copyPkt
  /-- STREAM: R343. -/
  | streamPkt
  /-- FABRIC_PUT: R413. -/
  | fabricPut
  /-- FABRIC_GET: R413. -/
  | fabricGet
  /-- FABRIC_CTRADD: R413. -/
  | fabricCtradd
  /-- FABRIC_PAUSE: R414. -/
  | fabricPause
  /-- FABRIC_RESUME: R414. -/
  | fabricResume
  /-- HOSTXFER: R454. -/
  | hostxferPkt
  /-- NOP_PACKET: R342. -/
  | nopPacket
  /-- PACKET_COMPLETION: R344. -/
  | packetCompletion
  /-- COALESCER_MESSAGE: R353. -/
  | coalescerMessage
  /-- TEAM_RESIDENCY_LIMIT: R354. -/
  | teamResidencyLimit
  /-- TASK_REFILL: R360. -/
  | taskRefill
  /-- TASK_HEAD_WATCHDOG: R361. -/
  | taskHeadWatchdog
  /-- TASK_CYCLE_LIMIT: R366. -/
  | taskCycleLimit
  /-- TASK_LEND: R367. -/
  | taskLend
  /-- TASK_COMMIT: R367. -/
  | taskCommit
  /-- LEASE_EXPIRY: R367. -/
  | leaseExpiry
  /-- PROPOSE: R384. -/
  | propose
  /-- PAUSE: R384. -/
  | pause
  /-- CANCEL: R414. -/
  | cancel
  /-- GANG_RESUME: R385. -/
  | gangResume
  /-- GANG_PAUSE_TIMEOUT: R414. -/
  | gangPauseTimeout
  /-- SDGO: R386. -/
  | sdgo
  /-- SHOOTDOWN_COMPLETE: R387. -/
  | shootdownComplete
  /-- L2_MODE_WRITE: R391. -/
  | l2ModeWrite
  /-- L2_MODE_SWITCH_DONE: R391. -/
  | l2ModeSwitchDone
  /-- ACORN_OPERATION: R400. -/
  | acornOperation
  /-- ACORN_LOCAL_COMPLETION: R401. -/
  | acornLocalCompletion
  /-- FLIT_RECEIVE: R408. -/
  | flitReceive
  /-- LINK_ACK: R406. -/
  | linkAck
  /-- LINK_REPLAY: R406. -/
  | linkReplay
  /-- LINK_DOWN: R406. -/
  | linkDown
  /-- REMOTE_COMPLETION: R407. -/
  | remoteCompletion
  /-- SCRUB: R444. -/
  | scrub
  /-- FATAL_ERROR: R446. -/
  | fatalError
  /-- ATTEST_GO: R448. -/
  | attestGo
  /-- HUSKVALID_CLEAR: R450. -/
  | huskvalidClear
  /-- COLD_RESET: R453. -/
  | coldReset
  /-- WARM: R453. -/
  | warm
  /-- START: R453. -/
  | start
  /-- DOORBELL: R454. -/
  | doorbell
  /-- RESTART: R454. -/
  | restart
  /-- SEMAPHORE_READ: R455. -/
  | semaphoreRead
  /-- SEMAPHORE_FREE: R455. -/
  | semaphoreFree
  /-- HOST_LINK_DOWN: R455. -/
  | hostLinkDown
  /-- HOST_INBOUND_ACCESS: R449. -/
  | hostInboundAccess
  /-- REGISTER_WRITE: R450. -/
  | registerWrite
  /-- ISLAND_CLOCK_DOWN: R456. -/
  | islandClockDown
  /-- ISLAND_CLOCK_UP: R456. -/
  | islandClockUp
  /-- CLUSTER_GATE: R457. -/
  | clusterGate
  /-- CLUSTER_UNGATE: R457. -/
  | clusterUngate
  /-- OPCODE_NOT_IN_TABLE: R342. -/
  | opcodeNotInTable
  /-- LATTICE_COMMAND_COMPLETION: R187. -/
  | latticeCommandCompletion
  /-- MOVE_REQUEST: R297. -/
  | moveRequest
  /-- PROPOSE_ANSWER: R414. -/
  | proposeAnswer
  /-- QUIESCENCE_REPORT: R384. -/
  | quiescenceReport
  /-- RESUME_ACKNOWLEDGEMENT: R413. -/
  | resumeAcknowledgement
  deriving DecidableEq, Repr

end Sys2Proof
end

