-- ==== Sys2Proof/Decode.lean ====
section
/-!
DEFINITION. Decode.lean: the decoder of instruction words, written from the opcode map (Table 4-7) and the encoding
tables of the entries, with the decode causes of Table 4-8 that a word alone can show, and the encoder beside it.
-/
namespace Sys2Proof

/-- What a word is: an instruction; a word rejected with a decode cause of Table 4-8; or a word of a form whose cause
stands below causes that only the hint or the operands can show (0x009, 0x013, 0x014), given with the instruction
that has the same form. -/
inductive Decoded where
  | ok (i : Instr)
  | reject (cause : Nat)
  | late (i : Instr) (cause : Nat)
  deriving DecidableEq, Repr

/-- The Lattice mode codes that Table 8-1 leaves undefined (R168): cause 0x004. -/
def modeUndefined (m : BitVec 4) : Bool := m = 7#4 || (7 < m.toNat && m ≠ 10#4 && m ≠ 11#4)

/-- Major 0x00: ADD_A, SUB_A. -/
def decMajor00 (w : BitVec 32) : Decoded :=
  if w.extractLsb' 3 1 = 0#1 then
    if w.extractLsb' 24 1 = 1#1 then .late (.addA (w.extractLsb' 18 6) (w.extractLsb' 11 7) (w.extractLsb' 4 7) (w.extractLsb' 0 3)) 0x013 else .ok (.addA (w.extractLsb' 18 6) (w.extractLsb' 11 7) (w.extractLsb' 4 7) (w.extractLsb' 0 3))
  else
  if w.extractLsb' 3 1 = 1#1 then
    if w.extractLsb' 24 1 = 1#1 then .late (.subA (w.extractLsb' 18 6) (w.extractLsb' 11 7) (w.extractLsb' 4 7) (w.extractLsb' 0 3)) 0x013 else .ok (.subA (w.extractLsb' 18 6) (w.extractLsb' 11 7) (w.extractLsb' 4 7) (w.extractLsb' 0 3))
  else
  .reject 0x004

/-- Major 0x01: ADD_IMM_A. -/
def decMajor01 (w : BitVec 32) : Decoded :=
  if w.extractLsb' 24 1 = 1#1 then .late (.addImmA (w.extractLsb' 18 6) (w.extractLsb' 11 7) (w.extractLsb' 0 11)) 0x013 else .ok (.addImmA (w.extractLsb' 18 6) (w.extractLsb' 11 7) (w.extractLsb' 0 11))

/-- Major 0x02: MUL_A, MULH_A. -/
def decMajor02 (w : BitVec 32) : Decoded :=
  if w.extractLsb' 3 1 = 0#1 then
    if w.extractLsb' 24 1 = 1#1 then .late (.mulA (w.extractLsb' 18 6) (w.extractLsb' 11 7) (w.extractLsb' 4 7) (w.extractLsb' 0 3)) 0x013 else .ok (.mulA (w.extractLsb' 18 6) (w.extractLsb' 11 7) (w.extractLsb' 4 7) (w.extractLsb' 0 3))
  else
  if w.extractLsb' 3 1 = 1#1 then
    if w.extractLsb' 24 1 = 1#1 then .late (.mulhA (w.extractLsb' 18 6) (w.extractLsb' 11 7) (w.extractLsb' 4 7) (w.extractLsb' 0 3)) 0x013 else .ok (.mulhA (w.extractLsb' 18 6) (w.extractLsb' 11 7) (w.extractLsb' 4 7) (w.extractLsb' 0 3))
  else
  .reject 0x004

/-- Major 0x03: DIVS, DIVZ. -/
def decMajor03 (w : BitVec 32) : Decoded :=
  if w.extractLsb' 3 1 = 0#1 then
    if w.extractLsb' 24 1 = 1#1 then .late (.divs (w.extractLsb' 18 6) (w.extractLsb' 11 7) (w.extractLsb' 4 7) (w.extractLsb' 0 3)) 0x013 else .ok (.divs (w.extractLsb' 18 6) (w.extractLsb' 11 7) (w.extractLsb' 4 7) (w.extractLsb' 0 3))
  else
  if w.extractLsb' 3 1 = 1#1 then
    if w.extractLsb' 24 1 = 1#1 then .late (.divz (w.extractLsb' 18 6) (w.extractLsb' 11 7) (w.extractLsb' 4 7) (w.extractLsb' 0 3)) 0x013 else .ok (.divz (w.extractLsb' 18 6) (w.extractLsb' 11 7) (w.extractLsb' 4 7) (w.extractLsb' 0 3))
  else
  .reject 0x004

/-- Major 0x04: AND_A, OR_A, XOR_A, ANDN_A. -/
def decMajor04 (w : BitVec 32) : Decoded :=
  if w.extractLsb' 0 4 = 0#4 then
    if w.extractLsb' 24 1 = 1#1 then .late (.andA (w.extractLsb' 18 6) (w.extractLsb' 11 7) (w.extractLsb' 4 7)) 0x013 else .ok (.andA (w.extractLsb' 18 6) (w.extractLsb' 11 7) (w.extractLsb' 4 7))
  else
  if w.extractLsb' 0 4 = 1#4 then
    if w.extractLsb' 24 1 = 1#1 then .late (.orA (w.extractLsb' 18 6) (w.extractLsb' 11 7) (w.extractLsb' 4 7)) 0x013 else .ok (.orA (w.extractLsb' 18 6) (w.extractLsb' 11 7) (w.extractLsb' 4 7))
  else
  if w.extractLsb' 0 4 = 2#4 then
    if w.extractLsb' 24 1 = 1#1 then .late (.xorA (w.extractLsb' 18 6) (w.extractLsb' 11 7) (w.extractLsb' 4 7)) 0x013 else .ok (.xorA (w.extractLsb' 18 6) (w.extractLsb' 11 7) (w.extractLsb' 4 7))
  else
  if w.extractLsb' 0 4 = 3#4 then
    if w.extractLsb' 24 1 = 1#1 then .late (.andnA (w.extractLsb' 18 6) (w.extractLsb' 11 7) (w.extractLsb' 4 7)) 0x013 else .ok (.andnA (w.extractLsb' 18 6) (w.extractLsb' 11 7) (w.extractLsb' 4 7))
  else
  .reject 0x004

/-- Major 0x05: AND_IMM, OR_IMM, XOR_IMM. -/
def decMajor05 (w : BitVec 32) : Decoded :=
  if w.extractLsb' 9 2 = 0#2 then
    if w.extractLsb' 24 1 = 1#1 then .late (.andImm (w.extractLsb' 18 6) (w.extractLsb' 11 7) (w.extractLsb' 0 9)) 0x013 else .ok (.andImm (w.extractLsb' 18 6) (w.extractLsb' 11 7) (w.extractLsb' 0 9))
  else
  if w.extractLsb' 9 2 = 1#2 then
    if w.extractLsb' 24 1 = 1#1 then .late (.orImm (w.extractLsb' 18 6) (w.extractLsb' 11 7) (w.extractLsb' 0 9)) 0x013 else .ok (.orImm (w.extractLsb' 18 6) (w.extractLsb' 11 7) (w.extractLsb' 0 9))
  else
  if w.extractLsb' 9 2 = 2#2 then
    if w.extractLsb' 24 1 = 1#1 then .late (.xorImm (w.extractLsb' 18 6) (w.extractLsb' 11 7) (w.extractLsb' 0 9)) 0x013 else .ok (.xorImm (w.extractLsb' 18 6) (w.extractLsb' 11 7) (w.extractLsb' 0 9))
  else
  .reject 0x004

/-- Major 0x06: SHL_A, SHR_A, SAR_A, ROT_A. -/
def decMajor06 (w : BitVec 32) : Decoded :=
  if w.extractLsb' 2 2 = 0#2 then
    if w.extractLsb' 24 1 = 1#1 then .late (.shlA (w.extractLsb' 18 6) (w.extractLsb' 11 7) (w.extractLsb' 4 7) (w.extractLsb' 0 2)) 0x013 else .ok (.shlA (w.extractLsb' 18 6) (w.extractLsb' 11 7) (w.extractLsb' 4 7) (w.extractLsb' 0 2))
  else
  if w.extractLsb' 2 2 = 1#2 then
    if w.extractLsb' 24 1 = 1#1 then .late (.shrA (w.extractLsb' 18 6) (w.extractLsb' 11 7) (w.extractLsb' 4 7) (w.extractLsb' 0 2)) 0x013 else .ok (.shrA (w.extractLsb' 18 6) (w.extractLsb' 11 7) (w.extractLsb' 4 7) (w.extractLsb' 0 2))
  else
  if w.extractLsb' 2 2 = 2#2 then
    if w.extractLsb' 24 1 = 1#1 then .late (.sarA (w.extractLsb' 18 6) (w.extractLsb' 11 7) (w.extractLsb' 4 7) (w.extractLsb' 0 2)) 0x013 else .ok (.sarA (w.extractLsb' 18 6) (w.extractLsb' 11 7) (w.extractLsb' 4 7) (w.extractLsb' 0 2))
  else
  if w.extractLsb' 2 2 = 3#2 then
    if w.extractLsb' 24 1 = 1#1 then .late (.rotA (w.extractLsb' 18 6) (w.extractLsb' 11 7) (w.extractLsb' 4 7) (w.extractLsb' 0 2)) 0x013 else .ok (.rotA (w.extractLsb' 18 6) (w.extractLsb' 11 7) (w.extractLsb' 4 7) (w.extractLsb' 0 2))
  else
  .reject 0x004

/-- Major 0x07: SHL_IMM_A, SHR_IMM_A, SAR_IMM_A, ROT_IMM_A. -/
def decMajor07 (w : BitVec 32) : Decoded :=
  if w.extractLsb' 9 2 = 0#2 then
    if w.extractLsb' 24 1 = 1#1 then .late (.shlImmA (w.extractLsb' 18 6) (w.extractLsb' 11 7) (w.extractLsb' 7 2) (w.extractLsb' 0 7)) 0x013 else .ok (.shlImmA (w.extractLsb' 18 6) (w.extractLsb' 11 7) (w.extractLsb' 7 2) (w.extractLsb' 0 7))
  else
  if w.extractLsb' 9 2 = 1#2 then
    if w.extractLsb' 24 1 = 1#1 then .late (.shrImmA (w.extractLsb' 18 6) (w.extractLsb' 11 7) (w.extractLsb' 7 2) (w.extractLsb' 0 7)) 0x013 else .ok (.shrImmA (w.extractLsb' 18 6) (w.extractLsb' 11 7) (w.extractLsb' 7 2) (w.extractLsb' 0 7))
  else
  if w.extractLsb' 9 2 = 2#2 then
    if w.extractLsb' 24 1 = 1#1 then .late (.sarImmA (w.extractLsb' 18 6) (w.extractLsb' 11 7) (w.extractLsb' 7 2) (w.extractLsb' 0 7)) 0x013 else .ok (.sarImmA (w.extractLsb' 18 6) (w.extractLsb' 11 7) (w.extractLsb' 7 2) (w.extractLsb' 0 7))
  else
  if w.extractLsb' 9 2 = 3#2 then
    if w.extractLsb' 24 1 = 1#1 then .late (.rotImmA (w.extractLsb' 18 6) (w.extractLsb' 11 7) (w.extractLsb' 7 2) (w.extractLsb' 0 7)) 0x013 else .ok (.rotImmA (w.extractLsb' 18 6) (w.extractLsb' 11 7) (w.extractLsb' 7 2) (w.extractLsb' 0 7))
  else
  .reject 0x004

/-- Major 0x08: BFX_S_A, BFX_Z_A. -/
def decMajor08 (w : BitVec 32) : Decoded :=
  if w.extractLsb' 10 1 = 1#1 then
    if w.extractLsb' 24 1 = 1#1 then .late (.bfxSA (w.extractLsb' 18 6) (w.extractLsb' 11 7) (w.extractLsb' 6 4) (w.extractLsb' 0 6)) 0x013 else .ok (.bfxSA (w.extractLsb' 18 6) (w.extractLsb' 11 7) (w.extractLsb' 6 4) (w.extractLsb' 0 6))
  else
  if w.extractLsb' 10 1 = 0#1 then
    if w.extractLsb' 24 1 = 1#1 then .late (.bfxZA (w.extractLsb' 18 6) (w.extractLsb' 11 7) (w.extractLsb' 6 4) (w.extractLsb' 0 6)) 0x013 else .ok (.bfxZA (w.extractLsb' 18 6) (w.extractLsb' 11 7) (w.extractLsb' 6 4) (w.extractLsb' 0 6))
  else
  .reject 0x004

/-- Major 0x09: BFI_A. -/
def decMajor09 (w : BitVec 32) : Decoded :=
  if w.extractLsb' 24 1 = 1#1 then .late (.bfiA (w.extractLsb' 18 6) (w.extractLsb' 11 7) (w.extractLsb' 6 5) (w.extractLsb' 0 6)) 0x013 else .ok (.bfiA (w.extractLsb' 18 6) (w.extractLsb' 11 7) (w.extractLsb' 6 5) (w.extractLsb' 0 6))

/-- Major 0x0A: FSHL_A, FSHR_A. -/
def decMajor0A (w : BitVec 32) : Decoded :=
  if w.extractLsb' 2 2 = 0#2 ∧ w.extractLsb' 0 1 = 0#1 then
    if w.extractLsb' 24 1 = 1#1 then .late (.fshlA (w.extractLsb' 18 6) (w.extractLsb' 11 7) (w.extractLsb' 4 7) (w.extractLsb' 1 1)) 0x013 else .ok (.fshlA (w.extractLsb' 18 6) (w.extractLsb' 11 7) (w.extractLsb' 4 7) (w.extractLsb' 1 1))
  else
  if w.extractLsb' 2 2 = 0#2 ∧ w.extractLsb' 0 1 = 1#1 then
    if w.extractLsb' 24 1 = 1#1 then .late (.fshrA (w.extractLsb' 18 6) (w.extractLsb' 11 7) (w.extractLsb' 4 7) (w.extractLsb' 1 1)) 0x013 else .ok (.fshrA (w.extractLsb' 18 6) (w.extractLsb' 11 7) (w.extractLsb' 4 7) (w.extractLsb' 1 1))
  else
  .reject 0x004

/-- Major 0x0B: CLZ_A, POPC_A. -/
def decMajor0B (w : BitVec 32) : Decoded :=
  if w.extractLsb' 2 2 = 0#2 then
    if w.extractLsb' 4 7 = 0#7 then if w.extractLsb' 24 1 = 1#1 then .late (.clzA (w.extractLsb' 18 6) (w.extractLsb' 11 7) (w.extractLsb' 0 2)) 0x013 else .ok (.clzA (w.extractLsb' 18 6) (w.extractLsb' 11 7) (w.extractLsb' 0 2)) else .reject 0x005
  else
  if w.extractLsb' 2 2 = 2#2 then
    if w.extractLsb' 4 7 = 0#7 then if w.extractLsb' 24 1 = 1#1 then .late (.popcA (w.extractLsb' 18 6) (w.extractLsb' 11 7) (w.extractLsb' 0 2)) 0x013 else .ok (.popcA (w.extractLsb' 18 6) (w.extractLsb' 11 7) (w.extractLsb' 0 2)) else .reject 0x005
  else
  .reject 0x004

/-- Major 0x0C: MIN_A, MAX_A. -/
def decMajor0C (w : BitVec 32) : Decoded :=
  if w.extractLsb' 3 1 = 0#1 then
    if w.extractLsb' 24 1 = 1#1 then .late (.minA (w.extractLsb' 18 6) (w.extractLsb' 11 7) (w.extractLsb' 4 7) (w.extractLsb' 0 3)) 0x013 else .ok (.minA (w.extractLsb' 18 6) (w.extractLsb' 11 7) (w.extractLsb' 4 7) (w.extractLsb' 0 3))
  else
  if w.extractLsb' 3 1 = 1#1 then
    if w.extractLsb' 24 1 = 1#1 then .late (.maxA (w.extractLsb' 18 6) (w.extractLsb' 11 7) (w.extractLsb' 4 7) (w.extractLsb' 0 3)) 0x013 else .ok (.maxA (w.extractLsb' 18 6) (w.extractLsb' 11 7) (w.extractLsb' 4 7) (w.extractLsb' 0 3))
  else
  .reject 0x004

/-- Major 0x0D: CMP_A. -/
def decMajor0D (w : BitVec 32) : Decoded :=
  if 9 < (w.extractLsb' 0 4).toNat then .reject 0x004 else if w.extractLsb' 21 3 = 0#3 then if w.extractLsb' 24 1 = 1#1 then .late (.cmpA (w.extractLsb' 18 3) (w.extractLsb' 11 7) (w.extractLsb' 4 7) (w.extractLsb' 0 4)) 0x013 else .ok (.cmpA (w.extractLsb' 18 3) (w.extractLsb' 11 7) (w.extractLsb' 4 7) (w.extractLsb' 0 4)) else .reject 0x005

/-- Major 0x0E: SEL_A. -/
def decMajor0E (w : BitVec 32) : Decoded :=
  if w.extractLsb' 3 1 = 0#1 then
    if w.extractLsb' 24 1 = 1#1 then .late (.selA (w.extractLsb' 18 6) (w.extractLsb' 11 7) (w.extractLsb' 4 7) (w.extractLsb' 0 3)) 0x013 else .ok (.selA (w.extractLsb' 18 6) (w.extractLsb' 11 7) (w.extractLsb' 4 7) (w.extractLsb' 0 3))
  else
  .reject 0x004

/-- Major 0x0F: LI_A, LI_HI_A. -/
def decMajor0F (w : BitVec 32) : Decoded :=
  if w.extractLsb' 11 7 = 0#7 then
    if w.extractLsb' 24 1 = 1#1 then .late (.liA (w.extractLsb' 18 6) (w.extractLsb' 0 11)) 0x013 else .ok (.liA (w.extractLsb' 18 6) (w.extractLsb' 0 11))
  else
  if w.extractLsb' 11 7 = 1#7 then
    if w.extractLsb' 24 1 = 1#1 then .late (.liHiA (w.extractLsb' 18 6) (w.extractLsb' 0 11)) 0x013 else .ok (.liHiA (w.extractLsb' 18 6) (w.extractLsb' 0 11))
  else
  .late (.liA (w.extractLsb' 18 6) (w.extractLsb' 0 11)) 0x009

/-- Major 0x10: BR_A. -/
def decMajor10 (w : BitVec 32) : Decoded :=
  .ok (.brA (w.extractLsb' 22 3) (w.extractLsb' 0 22))

/-- Major 0x11: BRN_A. -/
def decMajor11 (w : BitVec 32) : Decoded :=
  .ok (.brnA (w.extractLsb' 22 3) (w.extractLsb' 0 22))

/-- Major 0x12: LOOP. -/
def decMajor12 (w : BitVec 32) : Decoded :=
  .ok (.loop (w.extractLsb' 22 3) (w.extractLsb' 0 22))

/-- Major 0x13: CALL_A. -/
def decMajor13 (w : BitVec 32) : Decoded :=
  .ok (.callA (w.extractLsb' 22 3) (w.extractLsb' 0 22))

/-- Major 0x14: CALLI_A. -/
def decMajor14 (w : BitVec 32) : Decoded :=
  if w.extractLsb' 24 1 = 0#1 ∧ w.extractLsb' 18 6 = 0#6 ∧ w.extractLsb' 0 11 = 0#11 then .ok (.calliA (w.extractLsb' 11 7)) else .reject 0x005

/-- Major 0x15: RET_A. -/
def decMajor15 (w : BitVec 32) : Decoded :=
  if w.extractLsb' 24 1 = 0#1 ∧ w.extractLsb' 0 24 = 0#24 then .ok .retA else .reject 0x005

/-- Major 0x16: TXL. -/
def decMajor16 (w : BitVec 32) : Decoded :=
  if w.extractLsb' 22 2 = 0#2 ∧ w.extractLsb' 0 11 = 0#11 then if w.extractLsb' 24 1 = 1#1 then .late (.txl (w.extractLsb' 18 4) (w.extractLsb' 11 7)) 0x013 else .ok (.txl (w.extractLsb' 18 4) (w.extractLsb' 11 7)) else .reject 0x005

/-- Major 0x17: PGREQ. -/
def decMajor17 (w : BitVec 32) : Decoded :=
  if w.extractLsb' 21 3 = 0#3 ∧ w.extractLsb' 0 11 = 0#11 then if w.extractLsb' 24 1 = 1#1 then .late (.pgreq (w.extractLsb' 18 3) (w.extractLsb' 11 7)) 0x013 else .ok (.pgreq (w.extractLsb' 18 3) (w.extractLsb' 11 7)) else .reject 0x005

/-- Major 0x18: TXCLR, TXCLR_ALL. -/
def decMajor18 (w : BitVec 32) : Decoded :=
  if w.extractLsb' 22 1 = 0#1 then
    if w.extractLsb' 23 1 = 0#1 ∧ w.extractLsb' 0 18 = 0#18 then if w.extractLsb' 24 1 = 1#1 then .late (.txclr (w.extractLsb' 18 4)) 0x013 else .ok (.txclr (w.extractLsb' 18 4)) else .reject 0x005
  else
  if w.extractLsb' 22 1 = 1#1 then
    if w.extractLsb' 23 1 = 0#1 ∧ w.extractLsb' 0 22 = 0#22 then if w.extractLsb' 24 1 = 1#1 then .late (.txclrAll) 0x013 else .ok .txclrAll else .reject 0x005
  else
  .reject 0x004

/-- Major 0x19: BR_E. -/
def decMajor19 (w : BitVec 32) : Decoded :=
  .ok (.brE (w.extractLsb' 22 3) (w.extractLsb' 0 22))

/-- Major 0x1A: BRN_E. -/
def decMajor1A (w : BitVec 32) : Decoded :=
  .ok (.brnE (w.extractLsb' 22 3) (w.extractLsb' 0 22))

/-- Major 0x1B: CALL_E. -/
def decMajor1B (w : BitVec 32) : Decoded :=
  .ok (.callE (w.extractLsb' 22 3) (w.extractLsb' 0 22))

/-- Major 0x1C: CALLI_E. -/
def decMajor1C (w : BitVec 32) : Decoded :=
  if w.extractLsb' 24 1 = 0#1 ∧ w.extractLsb' 18 6 = 0#6 ∧ w.extractLsb' 0 11 = 0#11 then .ok (.calliE (w.extractLsb' 11 7)) else .reject 0x005

/-- Major 0x1D: RET_E. -/
def decMajor1D (w : BitVec 32) : Decoded :=
  if w.extractLsb' 24 1 = 0#1 ∧ w.extractLsb' 0 24 = 0#24 then .ok .retE else .reject 0x005

/-- Major 0x1E: MERGE, MERGE_ARM. -/
def decMajor1E (w : BitVec 32) : Decoded :=
  if w.extractLsb' 10 1 = 0#1 then
    if w.extractLsb' 24 1 = 0#1 ∧ w.extractLsb' 11 13 = 0#13 then .ok (.merge (w.extractLsb' 0 10)) else .reject 0x005
  else
  if w.extractLsb' 10 1 = 1#1 then
    if w.extractLsb' 24 1 = 0#1 ∧ w.extractLsb' 11 13 = 0#13 then .ok (.mergeArm (w.extractLsb' 0 10)) else .reject 0x005
  else
  .reject 0x004

/-- Major 0x20: LDS. -/
def decMajor20 (w : BitVec 32) : Decoded :=
  .ok (.lds (w.extractLsb' 19 6) (w.extractLsb' 15 4) (w.extractLsb' 8 7) (w.extractLsb' 6 2) (w.extractLsb' 0 6))

/-- Major 0x21: STS. -/
def decMajor21 (w : BitVec 32) : Decoded :=
  .ok (.sts (w.extractLsb' 19 6) (w.extractLsb' 15 4) (w.extractLsb' 8 7) (w.extractLsb' 6 2) (w.extractLsb' 0 6))

/-- Major 0x22: LDQ. -/
def decMajor22 (w : BitVec 32) : Decoded :=
  .ok (.ldq (w.extractLsb' 19 6) (w.extractLsb' 15 4) (w.extractLsb' 8 7) (w.extractLsb' 6 2) (w.extractLsb' 0 6))

/-- Major 0x23: STQ. -/
def decMajor23 (w : BitVec 32) : Decoded :=
  if w.extractLsb' 19 6 = 7#6 then .ok (.stq (w.extractLsb' 15 4) (w.extractLsb' 8 7) (w.extractLsb' 6 2) (w.extractLsb' 0 6)) else .late (.stq (w.extractLsb' 15 4) (w.extractLsb' 8 7) (w.extractLsb' 6 2) (w.extractLsb' 0 6)) (if 7 < (w.extractLsb' 19 6).toNat then 0x009 else 0x014)

/-- Major 0x24: GATHQ. -/
def decMajor24 (w : BitVec 32) : Decoded :=
  .ok (.gathq (w.extractLsb' 19 6) (w.extractLsb' 15 4) (w.extractLsb' 8 7) (w.extractLsb' 6 2) (w.extractLsb' 0 6))

/-- Major 0x25: SCATQ. -/
def decMajor25 (w : BitVec 32) : Decoded :=
  if w.extractLsb' 19 6 = 7#6 then .ok (.scatq (w.extractLsb' 15 4) (w.extractLsb' 8 7) (w.extractLsb' 6 2) (w.extractLsb' 0 6)) else .late (.scatq (w.extractLsb' 15 4) (w.extractLsb' 8 7) (w.extractLsb' 6 2) (w.extractLsb' 0 6)) (if 7 < (w.extractLsb' 19 6).toNat then 0x009 else 0x014)

/-- Major 0x26: ATOM. -/
def decMajor26 (w : BitVec 32) : Decoded :=
  if 10 < (w.extractLsb' 0 4).toNat then .reject 0x004 else if w.extractLsb' 4 2 = 0#2 then .ok (.atom (w.extractLsb' 19 6) (w.extractLsb' 15 4) (w.extractLsb' 8 7) (w.extractLsb' 6 2) (w.extractLsb' 0 4)) else .reject 0x005

/-- Major 0x27: ATOMQ. -/
def decMajor27 (w : BitVec 32) : Decoded :=
  if 10 < (w.extractLsb' 0 4).toNat then .reject 0x004 else if w.extractLsb' 4 2 = 0#2 then .ok (.atomq (w.extractLsb' 19 6) (w.extractLsb' 15 4) (w.extractLsb' 8 7) (w.extractLsb' 6 2) (w.extractLsb' 0 4)) else .reject 0x005

/-- Major 0x28: AGGADD, AGGADD_ONE. -/
def decMajor28 (w : BitVec 32) : Decoded :=
  if w.extractLsb' 0 4 = 0#4 then
    if w.extractLsb' 4 2 = 0#2 then .ok (.aggadd (w.extractLsb' 19 6) (w.extractLsb' 15 4) (w.extractLsb' 8 7) (w.extractLsb' 6 2)) else .reject 0x005
  else
  if w.extractLsb' 0 4 = 1#4 then
    if w.extractLsb' 4 2 = 0#2 then .ok (.aggaddOne (w.extractLsb' 19 6) (w.extractLsb' 15 4) (w.extractLsb' 8 7) (w.extractLsb' 6 2)) else .reject 0x005
  else
  .reject 0x004

/-- Major 0x29: CPY. -/
def decMajor29 (w : BitVec 32) : Decoded :=
  .ok (.cpy (w.extractLsb' 19 6) (w.extractLsb' 15 4) (w.extractLsb' 8 7) (w.extractLsb' 6 2) (w.extractLsb' 0 6))

/-- Major 0x2A: CPYM. -/
def decMajor2A (w : BitVec 32) : Decoded :=
  .ok (.cpym (w.extractLsb' 19 6) (w.extractLsb' 15 4) (w.extractLsb' 8 7) (w.extractLsb' 6 2) (w.extractLsb' 0 6))

/-- Major 0x2B: CPYR. -/
def decMajor2B (w : BitVec 32) : Decoded :=
  if 11 < (w.extractLsb' 0 4).toNat then .reject 0x004 else if w.extractLsb' 4 2 = 0#2 then .ok (.cpyr (w.extractLsb' 19 6) (w.extractLsb' 15 4) (w.extractLsb' 8 7) (w.extractLsb' 6 2) (w.extractLsb' 0 4)) else .reject 0x005

/-- Major 0x2C: QPUSH_A. -/
def decMajor2C (w : BitVec 32) : Decoded :=
  if w.extractLsb' 24 1 = 0#1 ∧ w.extractLsb' 0 4 = 0#4 ∧ ¬ ((w.extractLsb' 18 6) = 6#6 ∧ (w.extractLsb' 4 7) ≠ 0#7) then .ok (.qpushA (w.extractLsb' 18 6) (w.extractLsb' 11 7) (w.extractLsb' 4 7)) else .reject 0x005

/-- Major 0x2D: LDC. -/
def decMajor2D (w : BitVec 32) : Decoded :=
  if w.extractLsb' 3 1 = 0#1 then
    if (w.extractLsb' 0 2) = 3#2 then .reject 0x004 else .ok (.ldc (w.extractLsb' 24 1) (w.extractLsb' 18 6) (w.extractLsb' 11 7) (w.extractLsb' 4 7) (w.extractLsb' 2 1) (w.extractLsb' 0 2))
  else
  .reject 0x004

/-- Major 0x2E: LDX, LDX_RING. -/
def decMajor2E (w : BitVec 32) : Decoded :=
  if w.extractLsb' 3 1 = 0#1 then
    if (w.extractLsb' 0 2) = 3#2 then .reject 0x004 else .ok (.ldx (w.extractLsb' 24 1) (w.extractLsb' 18 6) (w.extractLsb' 11 7) (w.extractLsb' 4 7) (w.extractLsb' 2 1) (w.extractLsb' 0 2))
  else
  if w.extractLsb' 3 1 = 1#1 then
    if (w.extractLsb' 0 2) = 3#2 then .reject 0x004 else .ok (.ldxRing (w.extractLsb' 24 1) (w.extractLsb' 18 6) (w.extractLsb' 11 7) (w.extractLsb' 4 7) (w.extractLsb' 2 1) (w.extractLsb' 0 2))
  else
  .reject 0x004

/-- Major 0x2F: STX, STX_RING. -/
def decMajor2F (w : BitVec 32) : Decoded :=
  if w.extractLsb' 2 2 = 0#2 then
    if (w.extractLsb' 0 2) = 3#2 then .reject 0x004 else if w.extractLsb' 24 1 = 0#1 then .ok (.stx (w.extractLsb' 18 6) (w.extractLsb' 11 7) (w.extractLsb' 4 7) (w.extractLsb' 0 2)) else .reject 0x005
  else
  if w.extractLsb' 2 2 = 2#2 then
    if (w.extractLsb' 0 2) = 3#2 then .reject 0x004 else if w.extractLsb' 24 1 = 0#1 then .ok (.stxRing (w.extractLsb' 18 6) (w.extractLsb' 11 7) (w.extractLsb' 4 7) (w.extractLsb' 0 2)) else .reject 0x005
  else
  .reject 0x004

/-- Major 0x30: ADD_E, SUB_E. -/
def decMajor30 (w : BitVec 32) : Decoded :=
  if w.extractLsb' 3 1 = 0#1 then
    .ok (.addE (w.extractLsb' 24 1) (w.extractLsb' 18 6) (w.extractLsb' 11 7) (w.extractLsb' 4 7) (w.extractLsb' 2 1) (w.extractLsb' 0 2))
  else
  if w.extractLsb' 3 1 = 1#1 then
    .ok (.subE (w.extractLsb' 24 1) (w.extractLsb' 18 6) (w.extractLsb' 11 7) (w.extractLsb' 4 7) (w.extractLsb' 2 1) (w.extractLsb' 0 2))
  else
  .reject 0x004

/-- Major 0x31: ADD_IMM_E. -/
def decMajor31 (w : BitVec 32) : Decoded :=
  .ok (.addImmE (w.extractLsb' 24 1) (w.extractLsb' 18 6) (w.extractLsb' 11 7) (w.extractLsb' 0 11))

/-- Major 0x32: MUL_E, MULH_E. -/
def decMajor32 (w : BitVec 32) : Decoded :=
  if w.extractLsb' 3 1 = 0#1 then
    .ok (.mulE (w.extractLsb' 24 1) (w.extractLsb' 18 6) (w.extractLsb' 11 7) (w.extractLsb' 4 7) (w.extractLsb' 2 1) (w.extractLsb' 0 2))
  else
  if w.extractLsb' 3 1 = 1#1 then
    if (w.extractLsb' 0 2) = 3#2 then .reject 0x004 else .ok (.mulhE (w.extractLsb' 24 1) (w.extractLsb' 18 6) (w.extractLsb' 11 7) (w.extractLsb' 4 7) (w.extractLsb' 2 1) (w.extractLsb' 0 2))
  else
  .reject 0x004

/-- Major 0x33: MAD. -/
def decMajor33 (w : BitVec 32) : Decoded :=
  if w.extractLsb' 3 1 = 0#1 then
    .ok (.mad (w.extractLsb' 24 1) (w.extractLsb' 18 6) (w.extractLsb' 11 7) (w.extractLsb' 4 7) (w.extractLsb' 2 1) (w.extractLsb' 0 2))
  else
  .reject 0x004

/-- Major 0x34: MIN_E, MAX_E. -/
def decMajor34 (w : BitVec 32) : Decoded :=
  if w.extractLsb' 3 1 = 0#1 then
    if (w.extractLsb' 0 2) = 3#2 then .reject 0x004 else .ok (.minE (w.extractLsb' 24 1) (w.extractLsb' 18 6) (w.extractLsb' 11 7) (w.extractLsb' 4 7) (w.extractLsb' 2 1) (w.extractLsb' 0 2))
  else
  if w.extractLsb' 3 1 = 1#1 then
    if (w.extractLsb' 0 2) = 3#2 then .reject 0x004 else .ok (.maxE (w.extractLsb' 24 1) (w.extractLsb' 18 6) (w.extractLsb' 11 7) (w.extractLsb' 4 7) (w.extractLsb' 2 1) (w.extractLsb' 0 2))
  else
  .reject 0x004

/-- Major 0x35: AND_E, OR_E, XOR_E, ANDN_E. -/
def decMajor35 (w : BitVec 32) : Decoded :=
  if w.extractLsb' 0 4 = 0#4 then
    .ok (.andE (w.extractLsb' 24 1) (w.extractLsb' 18 6) (w.extractLsb' 11 7) (w.extractLsb' 4 7))
  else
  if w.extractLsb' 0 4 = 1#4 then
    .ok (.orE (w.extractLsb' 24 1) (w.extractLsb' 18 6) (w.extractLsb' 11 7) (w.extractLsb' 4 7))
  else
  if w.extractLsb' 0 4 = 2#4 then
    .ok (.xorE (w.extractLsb' 24 1) (w.extractLsb' 18 6) (w.extractLsb' 11 7) (w.extractLsb' 4 7))
  else
  if w.extractLsb' 0 4 = 3#4 then
    .ok (.andnE (w.extractLsb' 24 1) (w.extractLsb' 18 6) (w.extractLsb' 11 7) (w.extractLsb' 4 7))
  else
  .reject 0x004

/-- Major 0x36: SHL_E, SHR_E, SAR_E, ROT_E. -/
def decMajor36 (w : BitVec 32) : Decoded :=
  if w.extractLsb' 2 2 = 0#2 then
    if (w.extractLsb' 0 2) = 3#2 then .reject 0x004 else .ok (.shlE (w.extractLsb' 24 1) (w.extractLsb' 18 6) (w.extractLsb' 11 7) (w.extractLsb' 4 7) (w.extractLsb' 0 2))
  else
  if w.extractLsb' 2 2 = 1#2 then
    if (w.extractLsb' 0 2) = 3#2 then .reject 0x004 else .ok (.shrE (w.extractLsb' 24 1) (w.extractLsb' 18 6) (w.extractLsb' 11 7) (w.extractLsb' 4 7) (w.extractLsb' 0 2))
  else
  if w.extractLsb' 2 2 = 2#2 then
    if (w.extractLsb' 0 2) = 3#2 then .reject 0x004 else .ok (.sarE (w.extractLsb' 24 1) (w.extractLsb' 18 6) (w.extractLsb' 11 7) (w.extractLsb' 4 7) (w.extractLsb' 0 2))
  else
  if w.extractLsb' 2 2 = 3#2 then
    if (w.extractLsb' 0 2) = 3#2 then .reject 0x004 else .ok (.rotE (w.extractLsb' 24 1) (w.extractLsb' 18 6) (w.extractLsb' 11 7) (w.extractLsb' 4 7) (w.extractLsb' 0 2))
  else
  .reject 0x004

/-- Major 0x37: SHL_IMM_E, SHR_IMM_E, SAR_IMM_E, ROT_IMM_E. -/
def decMajor37 (w : BitVec 32) : Decoded :=
  if w.extractLsb' 9 2 = 0#2 then
    .ok (.shlImmE (w.extractLsb' 24 1) (w.extractLsb' 18 6) (w.extractLsb' 11 7) (w.extractLsb' 7 2) (w.extractLsb' 0 7))
  else
  if w.extractLsb' 9 2 = 1#2 then
    .ok (.shrImmE (w.extractLsb' 24 1) (w.extractLsb' 18 6) (w.extractLsb' 11 7) (w.extractLsb' 7 2) (w.extractLsb' 0 7))
  else
  if w.extractLsb' 9 2 = 2#2 then
    .ok (.sarImmE (w.extractLsb' 24 1) (w.extractLsb' 18 6) (w.extractLsb' 11 7) (w.extractLsb' 7 2) (w.extractLsb' 0 7))
  else
  if w.extractLsb' 9 2 = 3#2 then
    .ok (.rotImmE (w.extractLsb' 24 1) (w.extractLsb' 18 6) (w.extractLsb' 11 7) (w.extractLsb' 7 2) (w.extractLsb' 0 7))
  else
  .reject 0x004

/-- Major 0x38: BFX_S_E, BFX_Z_E. -/
def decMajor38 (w : BitVec 32) : Decoded :=
  if w.extractLsb' 10 1 = 1#1 then
    .ok (.bfxSE (w.extractLsb' 24 1) (w.extractLsb' 18 6) (w.extractLsb' 11 7) (w.extractLsb' 6 4) (w.extractLsb' 0 6))
  else
  if w.extractLsb' 10 1 = 0#1 then
    .ok (.bfxZE (w.extractLsb' 24 1) (w.extractLsb' 18 6) (w.extractLsb' 11 7) (w.extractLsb' 6 4) (w.extractLsb' 0 6))
  else
  .reject 0x004

/-- Major 0x39: BFI_E. -/
def decMajor39 (w : BitVec 32) : Decoded :=
  .ok (.bfiE (w.extractLsb' 24 1) (w.extractLsb' 18 6) (w.extractLsb' 11 7) (w.extractLsb' 6 5) (w.extractLsb' 0 6))

/-- Major 0x3A: FSHL_E, FSHR_E. -/
def decMajor3A (w : BitVec 32) : Decoded :=
  if w.extractLsb' 2 2 = 0#2 ∧ w.extractLsb' 0 1 = 0#1 then
    .ok (.fshlE (w.extractLsb' 24 1) (w.extractLsb' 18 6) (w.extractLsb' 11 7) (w.extractLsb' 4 7) (w.extractLsb' 1 1))
  else
  if w.extractLsb' 2 2 = 0#2 ∧ w.extractLsb' 0 1 = 1#1 then
    .ok (.fshrE (w.extractLsb' 24 1) (w.extractLsb' 18 6) (w.extractLsb' 11 7) (w.extractLsb' 4 7) (w.extractLsb' 1 1))
  else
  .reject 0x004

/-- Major 0x3B: CLZ_E, POPC_E. -/
def decMajor3B (w : BitVec 32) : Decoded :=
  if w.extractLsb' 2 2 = 0#2 then
    if (w.extractLsb' 0 2) = 3#2 then .reject 0x004 else if w.extractLsb' 4 7 = 0#7 then .ok (.clzE (w.extractLsb' 24 1) (w.extractLsb' 18 6) (w.extractLsb' 11 7) (w.extractLsb' 0 2)) else .reject 0x005
  else
  if w.extractLsb' 2 2 = 2#2 then
    if (w.extractLsb' 0 2) = 3#2 then .reject 0x004 else if w.extractLsb' 4 7 = 0#7 then .ok (.popcE (w.extractLsb' 24 1) (w.extractLsb' 18 6) (w.extractLsb' 11 7) (w.extractLsb' 0 2)) else .reject 0x005
  else
  .reject 0x004

/-- Major 0x3C: CMP_E. -/
def decMajor3C (w : BitVec 32) : Decoded :=
  if 9 < (w.extractLsb' 0 4).toNat then .reject 0x004 else if w.extractLsb' 24 1 = 0#1 ∧ w.extractLsb' 21 3 = 0#3 then .ok (.cmpE (w.extractLsb' 18 3) (w.extractLsb' 11 7) (w.extractLsb' 4 7) (w.extractLsb' 0 4)) else .reject 0x005

/-- Major 0x3D: SEL_E. -/
def decMajor3D (w : BitVec 32) : Decoded :=
  if w.extractLsb' 3 1 = 0#1 then
    .ok (.selE (w.extractLsb' 24 1) (w.extractLsb' 18 6) (w.extractLsb' 11 7) (w.extractLsb' 4 7) (w.extractLsb' 0 3))
  else
  .reject 0x004

/-- Major 0x3E: LI_E, LI_FROM_K, LI_HI_FROM_K, LI_K_Q6, LI_K_IMM. -/
def decMajor3E (w : BitVec 32) : Decoded :=
  if w.extractLsb' 11 7 = 0#7 then
    .ok (.liE (w.extractLsb' 24 1) (w.extractLsb' 18 6) (w.extractLsb' 0 11))
  else
  if w.extractLsb' 11 7 = 1#7 ∧ w.extractLsb' 4 1 = 0#1 then
    if w.extractLsb' 5 6 = 0#6 then .ok (.liFromK (w.extractLsb' 24 1) (w.extractLsb' 18 6) (w.extractLsb' 0 4)) else .late (.liFromK (w.extractLsb' 24 1) (w.extractLsb' 18 6) (w.extractLsb' 0 4)) 0x009
  else
  if w.extractLsb' 11 7 = 1#7 ∧ w.extractLsb' 4 1 = 1#1 then
    if w.extractLsb' 5 6 = 0#6 then .ok (.liHiFromK (w.extractLsb' 24 1) (w.extractLsb' 18 6) (w.extractLsb' 0 4)) else .late (.liHiFromK (w.extractLsb' 24 1) (w.extractLsb' 18 6) (w.extractLsb' 0 4)) 0x009
  else
  if w.extractLsb' 11 7 = 2#7 then
    if w.extractLsb' 24 1 = 0#1 ∧ w.extractLsb' 22 2 = 0#2 then if w.extractLsb' 1 10 = 0#10 then .ok (.liKQ6 (w.extractLsb' 18 4) (w.extractLsb' 0 1)) else .late (.liKQ6 (w.extractLsb' 18 4) (w.extractLsb' 0 1)) 0x009 else .reject 0x005
  else
  if w.extractLsb' 11 7 = 3#7 then
    if w.extractLsb' 24 1 = 0#1 ∧ w.extractLsb' 22 2 = 0#2 then .ok (.liKImm (w.extractLsb' 18 4) (w.extractLsb' 0 11)) else .reject 0x005
  else
  .late (.liE (w.extractLsb' 24 1) (w.extractLsb' 18 6) (w.extractLsb' 0 11)) 0x009

/-- Major 0x3F: QPUSH_E. -/
def decMajor3F (w : BitVec 32) : Decoded :=
  if w.extractLsb' 3 1 = 0#1 then
    if w.extractLsb' 24 1 = 0#1 ∧ w.extractLsb' 4 7 = 0#7 then .ok (.qpushE (w.extractLsb' 18 6) (w.extractLsb' 11 7) (w.extractLsb' 0 3)) else .reject 0x005
  else
  .reject 0x004

/-- Major 0x40: FADD, FSUB. -/
def decMajor40 (w : BitVec 32) : Decoded :=
  if w.extractLsb' 3 1 = 0#1 then
    .ok (.fadd (w.extractLsb' 24 1) (w.extractLsb' 18 6) (w.extractLsb' 11 7) (w.extractLsb' 4 7) (w.extractLsb' 0 3))
  else
  if w.extractLsb' 3 1 = 1#1 then
    .ok (.fsub (w.extractLsb' 24 1) (w.extractLsb' 18 6) (w.extractLsb' 11 7) (w.extractLsb' 4 7) (w.extractLsb' 0 3))
  else
  .reject 0x004

/-- Major 0x41: FMUL. -/
def decMajor41 (w : BitVec 32) : Decoded :=
  if w.extractLsb' 3 1 = 0#1 then
    .ok (.fmul (w.extractLsb' 24 1) (w.extractLsb' 18 6) (w.extractLsb' 11 7) (w.extractLsb' 4 7) (w.extractLsb' 0 3))
  else
  .reject 0x004

/-- Major 0x42: FFMA, FFMS. -/
def decMajor42 (w : BitVec 32) : Decoded :=
  if w.extractLsb' 3 1 = 0#1 then
    .ok (.ffma (w.extractLsb' 24 1) (w.extractLsb' 18 6) (w.extractLsb' 11 7) (w.extractLsb' 4 7) (w.extractLsb' 0 3))
  else
  if w.extractLsb' 3 1 = 1#1 then
    .ok (.ffms (w.extractLsb' 24 1) (w.extractLsb' 18 6) (w.extractLsb' 11 7) (w.extractLsb' 4 7) (w.extractLsb' 0 3))
  else
  .reject 0x004

/-- Major 0x43: FMIN, FMAX. -/
def decMajor43 (w : BitVec 32) : Decoded :=
  if w.extractLsb' 2 2 = 0#2 ∧ w.extractLsb' 0 1 = 0#1 then
    .ok (.fmin (w.extractLsb' 24 1) (w.extractLsb' 18 6) (w.extractLsb' 11 7) (w.extractLsb' 4 7) (w.extractLsb' 1 1))
  else
  if w.extractLsb' 2 2 = 0#2 ∧ w.extractLsb' 0 1 = 1#1 then
    .ok (.fmax (w.extractLsb' 24 1) (w.extractLsb' 18 6) (w.extractLsb' 11 7) (w.extractLsb' 4 7) (w.extractLsb' 1 1))
  else
  .reject 0x004

/-- Major 0x44: FCMP. -/
def decMajor44 (w : BitVec 32) : Decoded :=
  if w.extractLsb' 3 1 = 0#1 then
    if w.extractLsb' 24 1 = 0#1 ∧ w.extractLsb' 21 3 = 0#3 then .ok (.fcmp (w.extractLsb' 18 3) (w.extractLsb' 11 7) (w.extractLsb' 4 7) (w.extractLsb' 0 3)) else .reject 0x005
  else
  .reject 0x004

/-- Major 0x45: FSGN. -/
def decMajor45 (w : BitVec 32) : Decoded :=
  if (w.extractLsb' 2 2) = 3#2 then .reject 0x004 else if ¬ ((w.extractLsb' 0 2) = 3#2 ∧ (w.extractLsb' 4 7) ≠ 0#7) then .ok (.fsgn (w.extractLsb' 24 1) (w.extractLsb' 18 6) (w.extractLsb' 11 7) (w.extractLsb' 4 7) (w.extractLsb' 2 2) (w.extractLsb' 0 2)) else .reject 0x005

/-- Major 0x46: HADD, HSUB, HMUL, HMIN, HMAX. -/
def decMajor46 (w : BitVec 32) : Decoded :=
  if w.extractLsb' 0 3 = 0#3 then
    .ok (.hadd (w.extractLsb' 24 1) (w.extractLsb' 18 6) (w.extractLsb' 11 7) (w.extractLsb' 4 7) (w.extractLsb' 3 1))
  else
  if w.extractLsb' 0 3 = 1#3 then
    .ok (.hsub (w.extractLsb' 24 1) (w.extractLsb' 18 6) (w.extractLsb' 11 7) (w.extractLsb' 4 7) (w.extractLsb' 3 1))
  else
  if w.extractLsb' 0 3 = 2#3 then
    .ok (.hmul (w.extractLsb' 24 1) (w.extractLsb' 18 6) (w.extractLsb' 11 7) (w.extractLsb' 4 7) (w.extractLsb' 3 1))
  else
  if w.extractLsb' 0 3 = 3#3 then
    .ok (.hmin (w.extractLsb' 24 1) (w.extractLsb' 18 6) (w.extractLsb' 11 7) (w.extractLsb' 4 7) (w.extractLsb' 3 1))
  else
  if w.extractLsb' 0 3 = 4#3 then
    .ok (.hmax (w.extractLsb' 24 1) (w.extractLsb' 18 6) (w.extractLsb' 11 7) (w.extractLsb' 4 7) (w.extractLsb' 3 1))
  else
  .reject 0x004

/-- Major 0x47: HFMA, HFMS. -/
def decMajor47 (w : BitVec 32) : Decoded :=
  if w.extractLsb' 0 3 = 0#3 then
    .ok (.hfma (w.extractLsb' 24 1) (w.extractLsb' 18 6) (w.extractLsb' 11 7) (w.extractLsb' 4 7) (w.extractLsb' 3 1))
  else
  if w.extractLsb' 0 3 = 1#3 then
    .ok (.hfms (w.extractLsb' 24 1) (w.extractLsb' 18 6) (w.extractLsb' 11 7) (w.extractLsb' 4 7) (w.extractLsb' 3 1))
  else
  .reject 0x004

/-- Major 0x48: HCMP. -/
def decMajor48 (w : BitVec 32) : Decoded :=
  .ok (.hcmp (w.extractLsb' 24 1) (w.extractLsb' 18 6) (w.extractLsb' 11 7) (w.extractLsb' 4 7) (w.extractLsb' 3 1) (w.extractLsb' 0 3))

/-- Major 0x49: F8ADD, F8SUB, F8MUL, F8MIN, F8MAX. -/
def decMajor49 (w : BitVec 32) : Decoded :=
  if w.extractLsb' 0 3 = 0#3 then
    .ok (.f8add (w.extractLsb' 24 1) (w.extractLsb' 18 6) (w.extractLsb' 11 7) (w.extractLsb' 4 7) (w.extractLsb' 3 1))
  else
  if w.extractLsb' 0 3 = 1#3 then
    .ok (.f8sub (w.extractLsb' 24 1) (w.extractLsb' 18 6) (w.extractLsb' 11 7) (w.extractLsb' 4 7) (w.extractLsb' 3 1))
  else
  if w.extractLsb' 0 3 = 2#3 then
    .ok (.f8mul (w.extractLsb' 24 1) (w.extractLsb' 18 6) (w.extractLsb' 11 7) (w.extractLsb' 4 7) (w.extractLsb' 3 1))
  else
  if w.extractLsb' 0 3 = 3#3 then
    .ok (.f8min (w.extractLsb' 24 1) (w.extractLsb' 18 6) (w.extractLsb' 11 7) (w.extractLsb' 4 7) (w.extractLsb' 3 1))
  else
  if w.extractLsb' 0 3 = 4#3 then
    .ok (.f8max (w.extractLsb' 24 1) (w.extractLsb' 18 6) (w.extractLsb' 11 7) (w.extractLsb' 4 7) (w.extractLsb' 3 1))
  else
  .reject 0x004

/-- Major 0x4A: F8FMA, F8FMS. -/
def decMajor4A (w : BitVec 32) : Decoded :=
  if w.extractLsb' 0 3 = 0#3 then
    .ok (.f8fma (w.extractLsb' 24 1) (w.extractLsb' 18 6) (w.extractLsb' 11 7) (w.extractLsb' 4 7) (w.extractLsb' 3 1))
  else
  if w.extractLsb' 0 3 = 1#3 then
    .ok (.f8fms (w.extractLsb' 24 1) (w.extractLsb' 18 6) (w.extractLsb' 11 7) (w.extractLsb' 4 7) (w.extractLsb' 3 1))
  else
  .reject 0x004

/-- Major 0x4B: F8CMP. -/
def decMajor4B (w : BitVec 32) : Decoded :=
  .ok (.f8cmp (w.extractLsb' 24 1) (w.extractLsb' 18 6) (w.extractLsb' 11 7) (w.extractLsb' 4 7) (w.extractLsb' 3 1) (w.extractLsb' 0 3))

/-- Major 0x50: CVT. -/
def decMajor50 (w : BitVec 32) : Decoded :=
  if (w.extractLsb' 0 4).extractLsb' 0 2 = 3#2 then .reject 0x004 else .ok (.cvt (w.extractLsb' 24 1) (w.extractLsb' 18 6) (w.extractLsb' 11 7) (w.extractLsb' 4 7) (w.extractLsb' 0 4))

/-- Major 0x51: CVTF. -/
def decMajor51 (w : BitVec 32) : Decoded :=
  .ok (.cvtf (w.extractLsb' 24 1) (w.extractLsb' 18 6) (w.extractLsb' 11 7) (w.extractLsb' 4 7) (w.extractLsb' 0 4))

/-- Major 0x52: CVTD. -/
def decMajor52 (w : BitVec 32) : Decoded :=
  if w.extractLsb' 2 2 = 0#2 then
    if (w.extractLsb' 0 2) = 3#2 then .reject 0x004 else .ok (.cvtd (w.extractLsb' 24 1) (w.extractLsb' 18 6) (w.extractLsb' 11 7) (w.extractLsb' 4 7) (w.extractLsb' 0 2))
  else
  .reject 0x004

/-- Major 0x53: CVTMX. -/
def decMajor53 (w : BitVec 32) : Decoded :=
  if 4 < (w.extractLsb' 0 3).toNat then .reject 0x004 else if ¬ ((w.extractLsb' 3 1) = 0#1 ∧ (w.extractLsb' 4 7) ≠ 0#7) then .ok (.cvtmx (w.extractLsb' 24 1) (w.extractLsb' 18 6) (w.extractLsb' 11 7) (w.extractLsb' 4 7) (w.extractLsb' 3 1) (w.extractLsb' 0 3)) else .reject 0x005

/-- Major 0x54: RCPS, RSQS, EXPS, LOGS, SINS, COSS. -/
def decMajor54 (w : BitVec 32) : Decoded :=
  if w.extractLsb' 0 4 = 0#4 then
    if w.extractLsb' 4 7 = 0#7 then .ok (.rcps (w.extractLsb' 24 1) (w.extractLsb' 18 6) (w.extractLsb' 11 7)) else .reject 0x005
  else
  if w.extractLsb' 0 4 = 1#4 then
    if w.extractLsb' 4 7 = 0#7 then .ok (.rsqs (w.extractLsb' 24 1) (w.extractLsb' 18 6) (w.extractLsb' 11 7)) else .reject 0x005
  else
  if w.extractLsb' 0 4 = 2#4 then
    if w.extractLsb' 4 7 = 0#7 then .ok (.exps (w.extractLsb' 24 1) (w.extractLsb' 18 6) (w.extractLsb' 11 7)) else .reject 0x005
  else
  if w.extractLsb' 0 4 = 3#4 then
    if w.extractLsb' 4 7 = 0#7 then .ok (.logs (w.extractLsb' 24 1) (w.extractLsb' 18 6) (w.extractLsb' 11 7)) else .reject 0x005
  else
  if w.extractLsb' 0 4 = 4#4 then
    if w.extractLsb' 4 7 = 0#7 then .ok (.sins (w.extractLsb' 24 1) (w.extractLsb' 18 6) (w.extractLsb' 11 7)) else .reject 0x005
  else
  if w.extractLsb' 0 4 = 5#4 then
    if w.extractLsb' 4 7 = 0#7 then .ok (.coss (w.extractLsb' 24 1) (w.extractLsb' 18 6) (w.extractLsb' 11 7)) else .reject 0x005
  else
  .reject 0x004

/-- Major 0x58: VOTE. -/
def decMajor58 (w : BitVec 32) : Decoded :=
  if w.extractLsb' 3 1 = 0#1 then
    if 4 < (w.extractLsb' 0 3).toNat then .reject 0x004 else if w.extractLsb' 4 7 = 0#7 then .ok (.vote (w.extractLsb' 24 1) (w.extractLsb' 18 6) (w.extractLsb' 11 7) (w.extractLsb' 0 3)) else .reject 0x005
  else
  .reject 0x004

/-- Major 0x59: SHFL. -/
def decMajor59 (w : BitVec 32) : Decoded :=
  if w.extractLsb' 2 2 = 0#2 then
    .ok (.shfl (w.extractLsb' 24 1) (w.extractLsb' 18 6) (w.extractLsb' 11 7) (w.extractLsb' 4 7) (w.extractLsb' 0 2))
  else
  .reject 0x004

/-- Major 0x5A: REDS. -/
def decMajor5A (w : BitVec 32) : Decoded :=
  if 10 < (w.extractLsb' 0 4).toNat then .reject 0x004 else if w.extractLsb' 4 7 = 0#7 then .ok (.reds (w.extractLsb' 24 1) (w.extractLsb' 18 6) (w.extractLsb' 11 7) (w.extractLsb' 0 4)) else .reject 0x005

/-- Major 0x5B: SCAN. -/
def decMajor5B (w : BitVec 32) : Decoded :=
  if w.extractLsb' 3 1 = 0#1 then
    if w.extractLsb' 4 7 = 0#7 then .ok (.scan (w.extractLsb' 24 1) (w.extractLsb' 18 6) (w.extractLsb' 11 7) (w.extractLsb' 2 1) (w.extractLsb' 0 2)) else .reject 0x005
  else
  .reject 0x004

/-- Major 0x5C: ARGM. -/
def decMajor5C (w : BitVec 32) : Decoded :=
  if w.extractLsb' 3 1 = 0#1 then
    if (w.extractLsb' 1 2) = 3#2 then .reject 0x004 else if w.extractLsb' 4 7 = 0#7 then .ok (.argm (w.extractLsb' 24 1) (w.extractLsb' 18 6) (w.extractLsb' 11 7) (w.extractLsb' 1 2) (w.extractLsb' 0 1)) else .reject 0x005
  else
  .reject 0x004

/-- Major 0x5D: VOTET. -/
def decMajor5D (w : BitVec 32) : Decoded :=
  if w.extractLsb' 3 1 = 0#1 then
    if 4 < (w.extractLsb' 0 3).toNat then .reject 0x004 else if ¬ ((w.extractLsb' 0 3) ≠ 3#3 ∧ (w.extractLsb' 4 7) ≠ 0#7) then .ok (.votet (w.extractLsb' 24 1) (w.extractLsb' 18 6) (w.extractLsb' 11 7) (w.extractLsb' 4 7) (w.extractLsb' 0 3)) else .reject 0x005
  else
  .reject 0x004

/-- Major 0x5E: SHFLT. -/
def decMajor5E (w : BitVec 32) : Decoded :=
  if w.extractLsb' 2 2 = 0#2 then
    .ok (.shflt (w.extractLsb' 24 1) (w.extractLsb' 18 6) (w.extractLsb' 11 7) (w.extractLsb' 4 7) (w.extractLsb' 0 2))
  else
  .reject 0x004

/-- Major 0x5F: REDT. -/
def decMajor5F (w : BitVec 32) : Decoded :=
  if 10 < (w.extractLsb' 0 4).toNat then .reject 0x004 else if w.extractLsb' 4 7 = 0#7 then .ok (.redt (w.extractLsb' 24 1) (w.extractLsb' 18 6) (w.extractLsb' 11 7) (w.extractLsb' 0 4)) else .reject 0x005

/-- Major 0x60: MLS. -/
def decMajor60 (w : BitVec 32) : Decoded :=
  if modeUndefined (w.extractLsb' 0 4) then .reject 0x004 else if w.extractLsb' 24 1 = 0#1 ∧ w.extractLsb' 18 6 = 0#6 ∧ w.extractLsb' 4 7 = 0#7 then .ok (.mls (w.extractLsb' 11 7) (w.extractLsb' 0 4)) else .reject 0x005

/-- Major 0x61: MFLIP. -/
def decMajor61 (w : BitVec 32) : Decoded :=
  if w.extractLsb' 0 4 = 0#4 then
    if w.extractLsb' 24 1 = 0#1 ∧ w.extractLsb' 4 20 = 0#20 then .ok .mflip else .reject 0x005
  else
  .reject 0x004

/-- Major 0x62: MSTREAM. -/
def decMajor62 (w : BitVec 32) : Decoded :=
  if modeUndefined (w.extractLsb' 0 4) then .reject 0x004 else if w.extractLsb' 24 1 = 0#1 ∧ w.extractLsb' 18 6 = 0#6 then .ok (.mstream (w.extractLsb' 11 7) (w.extractLsb' 4 7) (w.extractLsb' 0 4)) else .reject 0x005

/-- Major 0x63: MTILE. -/
def decMajor63 (w : BitVec 32) : Decoded :=
  if w.extractLsb' 3 1 = 0#1 then
    if (w.extractLsb' 0 3) = 7#3 then .reject 0x004 else if w.extractLsb' 24 1 = 0#1 then .ok (.mtile (w.extractLsb' 18 6) (w.extractLsb' 11 7) (w.extractLsb' 4 7) (w.extractLsb' 0 3)) else .reject 0x005
  else
  .reject 0x004

/-- Major 0x64: AMALLOC, AMFREE. -/
def decMajor64 (w : BitVec 32) : Decoded :=
  if w.extractLsb' 0 4 = 0#4 then
    if w.extractLsb' 4 14 = 0#14 then if w.extractLsb' 24 1 = 1#1 then .late (.amalloc (w.extractLsb' 18 6)) 0x013 else .ok (.amalloc (w.extractLsb' 18 6)) else .reject 0x005
  else
  if w.extractLsb' 0 4 = 1#4 then
    if w.extractLsb' 24 1 = 0#1 ∧ w.extractLsb' 18 6 = 0#6 ∧ w.extractLsb' 4 7 = 0#7 then .ok (.amfree (w.extractLsb' 11 7)) else .reject 0x005
  else
  .reject 0x004

/-- Major 0x65: AMRD. -/
def decMajor65 (w : BitVec 32) : Decoded :=
  if w.extractLsb' 2 2 = 0#2 then
    if (w.extractLsb' 0 2) = 3#2 then .reject 0x004 else .ok (.amrd (w.extractLsb' 24 1) (w.extractLsb' 18 6) (w.extractLsb' 11 7) (w.extractLsb' 4 7) (w.extractLsb' 0 2))
  else
  .reject 0x004

/-- Major 0x66: AMCLR, AMLD, AMST. -/
def decMajor66 (w : BitVec 32) : Decoded :=
  if w.extractLsb' 0 4 = 0#4 then
    if w.extractLsb' 24 1 = 0#1 ∧ w.extractLsb' 18 6 = 0#6 ∧ w.extractLsb' 4 7 = 0#7 then .ok (.amclr (w.extractLsb' 11 7)) else .reject 0x005
  else
  if w.extractLsb' 0 4 = 1#4 then
    if w.extractLsb' 24 1 = 0#1 ∧ w.extractLsb' 18 6 = 0#6 then .ok (.amld (w.extractLsb' 11 7) (w.extractLsb' 4 7)) else .reject 0x005
  else
  if w.extractLsb' 0 4 = 2#4 then
    if w.extractLsb' 24 1 = 0#1 ∧ w.extractLsb' 18 6 = 0#6 then .ok (.amst (w.extractLsb' 11 7) (w.extractLsb' 4 7)) else .reject 0x005
  else
  .reject 0x004

/-- Major 0x67: MWAIT. -/
def decMajor67 (w : BitVec 32) : Decoded :=
  if w.extractLsb' 0 4 = 0#4 then
    if w.extractLsb' 24 1 = 0#1 ∧ w.extractLsb' 18 6 = 0#6 ∧ w.extractLsb' 4 7 = 0#7 then .ok (.mwait (w.extractLsb' 11 7)) else .reject 0x005
  else
  .reject 0x004

/-- Major 0x68: CPSEAL. -/
def decMajor68 (w : BitVec 32) : Decoded :=
  if w.extractLsb' 0 4 = 0#4 then
    if w.extractLsb' 4 14 = 0#14 then if w.extractLsb' 24 1 = 1#1 then .late (.cpseal (w.extractLsb' 18 6)) 0x013 else .ok (.cpseal (w.extractLsb' 18 6)) else .reject 0x005
  else
  .reject 0x004

/-- Major 0x69: CPWAIT. -/
def decMajor69 (w : BitVec 32) : Decoded :=
  if w.extractLsb' 11 7 = 0#7 then if w.extractLsb' 24 1 = 1#1 then .late (.cpwait (w.extractLsb' 18 6) (w.extractLsb' 0 11)) 0x013 else .ok (.cpwait (w.extractLsb' 18 6) (w.extractLsb' 0 11)) else .reject 0x005

/-- Major 0x6A: STRM. -/
def decMajor6A (w : BitVec 32) : Decoded :=
  if w.extractLsb' 0 4 = 0#4 then
    if w.extractLsb' 24 1 = 0#1 ∧ w.extractLsb' 18 6 = 0#6 ∧ w.extractLsb' 4 7 = 0#7 then .ok (.strm (w.extractLsb' 11 7)) else .reject 0x005
  else
  .reject 0x004

/-- Major 0x6B: RING_CLAIM, RING_SIG, RING_WAIT, RING_FREE, RING_STAT. -/
def decMajor6B (w : BitVec 32) : Decoded :=
  if w.extractLsb' 0 4 = 0#4 then
    if w.extractLsb' 4 7 = 0#7 then if w.extractLsb' 24 1 = 1#1 then .late (.ringClaim (w.extractLsb' 18 6) (w.extractLsb' 11 7)) 0x013 else .ok (.ringClaim (w.extractLsb' 18 6) (w.extractLsb' 11 7)) else .reject 0x005
  else
  if w.extractLsb' 0 4 = 1#4 then
    if w.extractLsb' 24 1 = 0#1 ∧ w.extractLsb' 18 6 = 0#6 then .ok (.ringSig (w.extractLsb' 11 7) (w.extractLsb' 4 7)) else .reject 0x005
  else
  if w.extractLsb' 0 4 = 2#4 then
    if w.extractLsb' 24 1 = 1#1 then .late (.ringWait (w.extractLsb' 18 6) (w.extractLsb' 11 7) (w.extractLsb' 4 7)) 0x013 else .ok (.ringWait (w.extractLsb' 18 6) (w.extractLsb' 11 7) (w.extractLsb' 4 7))
  else
  if w.extractLsb' 0 4 = 3#4 then
    if w.extractLsb' 24 1 = 0#1 ∧ w.extractLsb' 18 6 = 0#6 then .ok (.ringFree (w.extractLsb' 11 7) (w.extractLsb' 4 7)) else .reject 0x005
  else
  if w.extractLsb' 0 4 = 4#4 then
    if w.extractLsb' 4 7 = 0#7 then if w.extractLsb' 24 1 = 1#1 then .late (.ringStat (w.extractLsb' 18 6) (w.extractLsb' 11 7)) 0x013 else .ok (.ringStat (w.extractLsb' 18 6) (w.extractLsb' 11 7)) else .reject 0x005
  else
  .reject 0x004

/-- Major 0x6C: STASH_MAP, STASH_UNMAP, STASH_CLEAN. -/
def decMajor6C (w : BitVec 32) : Decoded :=
  if w.extractLsb' 0 4 = 0#4 then
    if w.extractLsb' 24 1 = 1#1 then .late (.stashMap (w.extractLsb' 18 6) (w.extractLsb' 11 7) (w.extractLsb' 4 7)) 0x013 else .ok (.stashMap (w.extractLsb' 18 6) (w.extractLsb' 11 7) (w.extractLsb' 4 7))
  else
  if w.extractLsb' 0 4 = 1#4 then
    if w.extractLsb' 24 1 = 0#1 ∧ w.extractLsb' 18 6 = 0#6 ∧ w.extractLsb' 4 7 = 0#7 then .ok (.stashUnmap (w.extractLsb' 11 7)) else .reject 0x005
  else
  if w.extractLsb' 0 4 = 2#4 then
    if w.extractLsb' 24 1 = 0#1 ∧ w.extractLsb' 18 6 = 0#6 ∧ w.extractLsb' 4 7 = 0#7 then .ok (.stashClean (w.extractLsb' 11 7)) else .reject 0x005
  else
  .reject 0x004

/-- Major 0x6D: PUBLISH. -/
def decMajor6D (w : BitVec 32) : Decoded :=
  if w.extractLsb' 0 4 = 0#4 then
    if w.extractLsb' 4 7 = 0#7 then if w.extractLsb' 24 1 = 1#1 then .late (.publish (w.extractLsb' 18 6) (w.extractLsb' 11 7)) 0x013 else .ok (.publish (w.extractLsb' 18 6) (w.extractLsb' 11 7)) else .reject 0x005
  else
  .reject 0x004

/-- Major 0x6E: L2CTL_OCC, L2CTL_MASK, L2CTL_SETMASK. -/
def decMajor6E (w : BitVec 32) : Decoded :=
  if w.extractLsb' 0 4 = 0#4 then
    if w.extractLsb' 4 7 = 0#7 then if w.extractLsb' 24 1 = 1#1 then .late (.l2ctlOcc (w.extractLsb' 18 6) (w.extractLsb' 11 7)) 0x013 else .ok (.l2ctlOcc (w.extractLsb' 18 6) (w.extractLsb' 11 7)) else .reject 0x005
  else
  if w.extractLsb' 0 4 = 1#4 then
    if w.extractLsb' 4 14 = 0#14 then if w.extractLsb' 24 1 = 1#1 then .late (.l2ctlMask (w.extractLsb' 18 6)) 0x013 else .ok (.l2ctlMask (w.extractLsb' 18 6)) else .reject 0x005
  else
  if w.extractLsb' 0 4 = 2#4 then
    if w.extractLsb' 4 7 = 0#7 then if w.extractLsb' 24 1 = 1#1 then .late (.l2ctlSetmask (w.extractLsb' 18 6) (w.extractLsb' 11 7)) 0x013 else .ok (.l2ctlSetmask (w.extractLsb' 18 6) (w.extractLsb' 11 7)) else .reject 0x005
  else
  .reject 0x004

/-- Major 0x70: COLL. -/
def decMajor70 (w : BitVec 32) : Decoded :=
  if w.extractLsb' 24 1 = 0#1 then .ok (.coll (w.extractLsb' 18 6) (w.extractLsb' 11 7) (w.extractLsb' 4 7) (w.extractLsb' 0 4)) else .reject 0x005

/-- Major 0x71: SOLICIT, SOLICIT_INS, SOLICIT_DEL, SOLICIT_MOVE, SOLICIT_COMMIT, SOLICIT_REG. -/
def decMajor71 (w : BitVec 32) : Decoded :=
  if w.extractLsb' 2 2 = 0#2 then
    if w.extractLsb' 24 1 = 1#1 then .late (.solicit (w.extractLsb' 18 6) (w.extractLsb' 11 7) (w.extractLsb' 4 7) (w.extractLsb' 0 2)) 0x013 else .ok (.solicit (w.extractLsb' 18 6) (w.extractLsb' 11 7) (w.extractLsb' 4 7) (w.extractLsb' 0 2))
  else
  if w.extractLsb' 0 4 = 4#4 then
    if w.extractLsb' 24 1 = 1#1 then .late (.solicitIns (w.extractLsb' 18 6) (w.extractLsb' 11 7) (w.extractLsb' 4 7)) 0x013 else .ok (.solicitIns (w.extractLsb' 18 6) (w.extractLsb' 11 7) (w.extractLsb' 4 7))
  else
  if w.extractLsb' 0 4 = 5#4 then
    if w.extractLsb' 24 1 = 0#1 ∧ w.extractLsb' 18 6 = 0#6 ∧ w.extractLsb' 4 7 = 0#7 then .ok (.solicitDel (w.extractLsb' 11 7)) else .reject 0x005
  else
  if w.extractLsb' 0 4 = 6#4 then
    if w.extractLsb' 24 1 = 1#1 then .late (.solicitMove (w.extractLsb' 18 6) (w.extractLsb' 11 7) (w.extractLsb' 4 7)) 0x013 else .ok (.solicitMove (w.extractLsb' 18 6) (w.extractLsb' 11 7) (w.extractLsb' 4 7))
  else
  if w.extractLsb' 0 4 = 7#4 then
    if w.extractLsb' 24 1 = 1#1 then .late (.solicitCommit (w.extractLsb' 18 6) (w.extractLsb' 11 7) (w.extractLsb' 4 7)) 0x013 else .ok (.solicitCommit (w.extractLsb' 18 6) (w.extractLsb' 11 7) (w.extractLsb' 4 7))
  else
  if w.extractLsb' 0 4 = 8#4 then
    if w.extractLsb' 24 1 = 0#1 ∧ w.extractLsb' 18 6 = 0#6 then .ok (.solicitReg (w.extractLsb' 11 7) (w.extractLsb' 4 7)) else .reject 0x005
  else
  .reject 0x004

/-- Major 0x72: RESPOND. -/
def decMajor72 (w : BitVec 32) : Decoded :=
  if w.extractLsb' 0 4 = 0#4 then
    if w.extractLsb' 24 1 = 0#1 ∧ w.extractLsb' 18 6 = 0#6 ∧ w.extractLsb' 4 7 = 0#7 then .ok (.respond (w.extractLsb' 11 7)) else .reject 0x005
  else
  .reject 0x004

/-- Major 0x73: CENSUS_WAIT, CENSUS_POLL. -/
def decMajor73 (w : BitVec 32) : Decoded :=
  if w.extractLsb' 0 4 = 0#4 then
    if w.extractLsb' 4 7 = 0#7 then if w.extractLsb' 24 1 = 1#1 then .late (.censusWait (w.extractLsb' 18 6) (w.extractLsb' 11 7)) 0x013 else .ok (.censusWait (w.extractLsb' 18 6) (w.extractLsb' 11 7)) else .reject 0x005
  else
  if w.extractLsb' 0 4 = 1#4 then
    if w.extractLsb' 4 7 = 0#7 then if w.extractLsb' 24 1 = 1#1 then .late (.censusPoll (w.extractLsb' 18 6) (w.extractLsb' 11 7)) 0x013 else .ok (.censusPoll (w.extractLsb' 18 6) (w.extractLsb' 11 7)) else .reject 0x005
  else
  .reject 0x004

/-- Major 0x74: TRGPOST, TRGCANCEL. -/
def decMajor74 (w : BitVec 32) : Decoded :=
  if w.extractLsb' 0 4 = 0#4 then
    if w.extractLsb' 4 7 = 0#7 then if w.extractLsb' 24 1 = 1#1 then .late (.trgpost (w.extractLsb' 18 6) (w.extractLsb' 11 7)) 0x013 else .ok (.trgpost (w.extractLsb' 18 6) (w.extractLsb' 11 7)) else .reject 0x005
  else
  if w.extractLsb' 0 4 = 1#4 then
    if w.extractLsb' 4 7 = 0#7 then if w.extractLsb' 24 1 = 1#1 then .late (.trgcancel (w.extractLsb' 18 6) (w.extractLsb' 11 7)) 0x013 else .ok (.trgcancel (w.extractLsb' 18 6) (w.extractLsb' 11 7)) else .reject 0x005
  else
  .reject 0x004

/-- Major 0x75: CTRADD, CTRWAIT, CTRWAIT_POLL, CTRSET, CTRSEAL. -/
def decMajor75 (w : BitVec 32) : Decoded :=
  if w.extractLsb' 0 4 = 0#4 then
    if w.extractLsb' 24 1 = 0#1 ∧ w.extractLsb' 18 6 = 0#6 then .ok (.ctradd (w.extractLsb' 11 7) (w.extractLsb' 4 7)) else .reject 0x005
  else
  if w.extractLsb' 0 4 = 1#4 then
    if w.extractLsb' 24 1 = 1#1 then .late (.ctrwait (w.extractLsb' 18 6) (w.extractLsb' 11 7) (w.extractLsb' 4 7)) 0x013 else .ok (.ctrwait (w.extractLsb' 18 6) (w.extractLsb' 11 7) (w.extractLsb' 4 7))
  else
  if w.extractLsb' 0 4 = 2#4 then
    if w.extractLsb' 4 7 = 0#7 then if w.extractLsb' 24 1 = 1#1 then .late (.ctrwaitPoll (w.extractLsb' 18 6) (w.extractLsb' 11 7)) 0x013 else .ok (.ctrwaitPoll (w.extractLsb' 18 6) (w.extractLsb' 11 7)) else .reject 0x005
  else
  if w.extractLsb' 0 4 = 3#4 then
    if w.extractLsb' 24 1 = 0#1 ∧ w.extractLsb' 18 6 = 0#6 then .ok (.ctrset (w.extractLsb' 11 7) (w.extractLsb' 4 7)) else .reject 0x005
  else
  if w.extractLsb' 0 4 = 4#4 then
    if w.extractLsb' 4 7 = 0#7 then if w.extractLsb' 24 1 = 1#1 then .late (.ctrseal (w.extractLsb' 18 6) (w.extractLsb' 11 7)) 0x013 else .ok (.ctrseal (w.extractLsb' 18 6) (w.extractLsb' 11 7)) else .reject 0x005
  else
  .reject 0x004

/-- Major 0x76: TASKADD, TASKGET, TASKGET_POLL, TASKEND, TASKSTEAL. -/
def decMajor76 (w : BitVec 32) : Decoded :=
  if w.extractLsb' 0 4 = 0#4 then
    if w.extractLsb' 24 1 = 0#1 ∧ w.extractLsb' 4 7 = 0#7 then .ok (.taskadd (w.extractLsb' 18 6) (w.extractLsb' 11 7)) else .reject 0x005
  else
  if w.extractLsb' 11 7 = 0x60#7 ∧ w.extractLsb' 0 4 = 1#4 then
    if w.extractLsb' 4 7 = 0#7 then if w.extractLsb' 24 1 = 1#1 then .late (.taskget (w.extractLsb' 18 6)) 0x013 else .ok (.taskget (w.extractLsb' 18 6)) else .reject 0x005
  else
  if w.extractLsb' 11 7 = 0x61#7 ∧ w.extractLsb' 0 4 = 1#4 then
    if w.extractLsb' 4 7 = 0#7 then if w.extractLsb' 24 1 = 1#1 then .late (.taskgetPoll (w.extractLsb' 18 6)) 0x013 else .ok (.taskgetPoll (w.extractLsb' 18 6)) else .reject 0x005
  else
  if w.extractLsb' 0 4 = 2#4 then
    if w.extractLsb' 24 1 = 0#1 ∧ w.extractLsb' 4 20 = 0#20 then .ok .taskend else .reject 0x005
  else
  if w.extractLsb' 0 4 = 3#4 then
    if w.extractLsb' 4 7 = 0#7 then if w.extractLsb' 24 1 = 1#1 then .late (.tasksteal (w.extractLsb' 18 6) (w.extractLsb' 11 7)) 0x013 else .ok (.tasksteal (w.extractLsb' 18 6) (w.extractLsb' 11 7)) else .reject 0x005
  else
  if w.extractLsb' 0 4 = 1#4 then .late (.taskget (w.extractLsb' 18 6)) 0x009 else .reject 0x004

/-- Major 0x77: BARJ, BAR. -/
def decMajor77 (w : BitVec 32) : Decoded :=
  if w.extractLsb' 0 4 = 0#4 then
    if w.extractLsb' 24 1 = 0#1 ∧ w.extractLsb' 18 6 = 0#6 then .ok (.barj (w.extractLsb' 11 7) (w.extractLsb' 4 7)) else .reject 0x005
  else
  if w.extractLsb' 0 4 = 1#4 then
    if w.extractLsb' 24 1 = 0#1 ∧ w.extractLsb' 18 6 = 0#6 ∧ w.extractLsb' 4 7 = 0#7 then .ok (.bar (w.extractLsb' 11 7)) else .reject 0x005
  else
  .reject 0x004

/-- Major 0x78: END. -/
def decMajor78 (w : BitVec 32) : Decoded :=
  if w.extractLsb' 24 1 = 0#1 ∧ w.extractLsb' 0 24 = 0#24 then .ok .endS else .reject 0x005

/-- Major 0x79: SRR, SRW. -/
def decMajor79 (w : BitVec 32) : Decoded :=
  if w.extractLsb' 0 4 = 0#4 then
    if w.extractLsb' 11 7 = 0#7 then if w.extractLsb' 24 1 = 1#1 then .late (.srr (w.extractLsb' 18 6) (w.extractLsb' 4 7)) 0x013 else .ok (.srr (w.extractLsb' 18 6) (w.extractLsb' 4 7)) else .reject 0x005
  else
  if w.extractLsb' 0 4 = 1#4 then
    if w.extractLsb' 24 1 = 0#1 ∧ w.extractLsb' 11 7 = 0#7 then .ok (.srw (w.extractLsb' 18 6) (w.extractLsb' 4 7)) else .reject 0x005
  else
  .reject 0x004

/-- Major 0x7A: FENCE. -/
def decMajor7A (w : BitVec 32) : Decoded :=
  if w.extractLsb' 3 1 = 0#1 then
    if 5 < (w.extractLsb' 0 3).toNat then .reject 0x004 else if w.extractLsb' 24 1 = 0#1 ∧ w.extractLsb' 4 20 = 0#20 then .ok (.fence (w.extractLsb' 0 3)) else .reject 0x005
  else
  .reject 0x004

/-- Major 0x7B: TRAP, TRET. -/
def decMajor7B (w : BitVec 32) : Decoded :=
  if w.extractLsb' 0 4 = 0#4 then
    if w.extractLsb' 24 1 = 0#1 ∧ w.extractLsb' 18 6 = 0#6 ∧ w.extractLsb' 4 7 = 0#7 then .ok (.trap (w.extractLsb' 11 7)) else .reject 0x005
  else
  if w.extractLsb' 0 4 = 1#4 then
    if w.extractLsb' 24 1 = 0#1 ∧ w.extractLsb' 4 20 = 0#20 then .ok .tret else .reject 0x005
  else
  .reject 0x004

/-- Major 0x7C: NOP. -/
def decMajor7C (w : BitVec 32) : Decoded :=
  if w.extractLsb' 0 4 = 0#4 then
    if w.extractLsb' 24 1 = 0#1 ∧ w.extractLsb' 4 20 = 0#20 then .ok .nop else .reject 0x005
  else
  .reject 0x004

/-- Major 0x7E: IMM, MOD, EXT, SCHED, CHAIN. -/
def decMajor7E (w : BitVec 32) : Decoded :=
  if w.extractLsb' 22 3 = 0#3 then
    .ok (.imm (w.extractLsb' 0 22))
  else
  if w.extractLsb' 22 3 = 1#3 then
    if w.extractLsb' 11 11 = 0#11 then .ok (.mod (w.extractLsb' 9 2) (w.extractLsb' 7 2) (w.extractLsb' 4 3) (w.extractLsb' 3 1) (w.extractLsb' 0 3)) else .reject 0x005
  else
  if w.extractLsb' 22 3 = 2#3 then
    if w.extractLsb' 14 8 = 0#8 then .ok (.ext (w.extractLsb' 7 7) (w.extractLsb' 0 7)) else .reject 0x005
  else
  if w.extractLsb' 22 3 = 3#3 then
    if w.extractLsb' 2 20 = 0#20 then .ok (.sched (w.extractLsb' 1 1) (w.extractLsb' 0 1)) else .reject 0x005
  else
  if w.extractLsb' 22 3 = 4#3 then
    if w.extractLsb' 3 19 = 0#19 ∧ w.extractLsb' 0 3 ≠ 7#3 then .ok (.chain (w.extractLsb' 0 3)) else .reject 0x005
  else
  .reject 0x005

/-- The majors 0x00 to 0x0F of Table 4-7; the rest of the row is reserved (0x003). -/
def decGroup0 (op : BitVec 7) (w : BitVec 32) : Decoded :=
  if op = 0x00#7 then decMajor00 w else
  if op = 0x01#7 then decMajor01 w else
  if op = 0x02#7 then decMajor02 w else
  if op = 0x03#7 then decMajor03 w else
  if op = 0x04#7 then decMajor04 w else
  if op = 0x05#7 then decMajor05 w else
  if op = 0x06#7 then decMajor06 w else
  if op = 0x07#7 then decMajor07 w else
  if op = 0x08#7 then decMajor08 w else
  if op = 0x09#7 then decMajor09 w else
  if op = 0x0A#7 then decMajor0A w else
  if op = 0x0B#7 then decMajor0B w else
  if op = 0x0C#7 then decMajor0C w else
  if op = 0x0D#7 then decMajor0D w else
  if op = 0x0E#7 then decMajor0E w else
  if op = 0x0F#7 then decMajor0F w else
  .reject 0x003

/-- The majors 0x10 to 0x1F of Table 4-7; the rest of the row is reserved (0x003). -/
def decGroup1 (op : BitVec 7) (w : BitVec 32) : Decoded :=
  if op = 0x10#7 then decMajor10 w else
  if op = 0x11#7 then decMajor11 w else
  if op = 0x12#7 then decMajor12 w else
  if op = 0x13#7 then decMajor13 w else
  if op = 0x14#7 then decMajor14 w else
  if op = 0x15#7 then decMajor15 w else
  if op = 0x16#7 then decMajor16 w else
  if op = 0x17#7 then decMajor17 w else
  if op = 0x18#7 then decMajor18 w else
  if op = 0x19#7 then decMajor19 w else
  if op = 0x1A#7 then decMajor1A w else
  if op = 0x1B#7 then decMajor1B w else
  if op = 0x1C#7 then decMajor1C w else
  if op = 0x1D#7 then decMajor1D w else
  if op = 0x1E#7 then decMajor1E w else
  .reject 0x003

/-- The majors 0x20 to 0x2F of Table 4-7; the rest of the row is reserved (0x003). -/
def decGroup2 (op : BitVec 7) (w : BitVec 32) : Decoded :=
  if op = 0x20#7 then decMajor20 w else
  if op = 0x21#7 then decMajor21 w else
  if op = 0x22#7 then decMajor22 w else
  if op = 0x23#7 then decMajor23 w else
  if op = 0x24#7 then decMajor24 w else
  if op = 0x25#7 then decMajor25 w else
  if op = 0x26#7 then decMajor26 w else
  if op = 0x27#7 then decMajor27 w else
  if op = 0x28#7 then decMajor28 w else
  if op = 0x29#7 then decMajor29 w else
  if op = 0x2A#7 then decMajor2A w else
  if op = 0x2B#7 then decMajor2B w else
  if op = 0x2C#7 then decMajor2C w else
  if op = 0x2D#7 then decMajor2D w else
  if op = 0x2E#7 then decMajor2E w else
  if op = 0x2F#7 then decMajor2F w else
  .reject 0x003

/-- The majors 0x30 to 0x3F of Table 4-7; the rest of the row is reserved (0x003). -/
def decGroup3 (op : BitVec 7) (w : BitVec 32) : Decoded :=
  if op = 0x30#7 then decMajor30 w else
  if op = 0x31#7 then decMajor31 w else
  if op = 0x32#7 then decMajor32 w else
  if op = 0x33#7 then decMajor33 w else
  if op = 0x34#7 then decMajor34 w else
  if op = 0x35#7 then decMajor35 w else
  if op = 0x36#7 then decMajor36 w else
  if op = 0x37#7 then decMajor37 w else
  if op = 0x38#7 then decMajor38 w else
  if op = 0x39#7 then decMajor39 w else
  if op = 0x3A#7 then decMajor3A w else
  if op = 0x3B#7 then decMajor3B w else
  if op = 0x3C#7 then decMajor3C w else
  if op = 0x3D#7 then decMajor3D w else
  if op = 0x3E#7 then decMajor3E w else
  if op = 0x3F#7 then decMajor3F w else
  .reject 0x003

/-- The majors 0x40 to 0x4F of Table 4-7; the rest of the row is reserved (0x003). -/
def decGroup4 (op : BitVec 7) (w : BitVec 32) : Decoded :=
  if op = 0x40#7 then decMajor40 w else
  if op = 0x41#7 then decMajor41 w else
  if op = 0x42#7 then decMajor42 w else
  if op = 0x43#7 then decMajor43 w else
  if op = 0x44#7 then decMajor44 w else
  if op = 0x45#7 then decMajor45 w else
  if op = 0x46#7 then decMajor46 w else
  if op = 0x47#7 then decMajor47 w else
  if op = 0x48#7 then decMajor48 w else
  if op = 0x49#7 then decMajor49 w else
  if op = 0x4A#7 then decMajor4A w else
  if op = 0x4B#7 then decMajor4B w else
  .reject 0x003

/-- The majors 0x50 to 0x5F of Table 4-7; the rest of the row is reserved (0x003). -/
def decGroup5 (op : BitVec 7) (w : BitVec 32) : Decoded :=
  if op = 0x50#7 then decMajor50 w else
  if op = 0x51#7 then decMajor51 w else
  if op = 0x52#7 then decMajor52 w else
  if op = 0x53#7 then decMajor53 w else
  if op = 0x54#7 then decMajor54 w else
  if op = 0x58#7 then decMajor58 w else
  if op = 0x59#7 then decMajor59 w else
  if op = 0x5A#7 then decMajor5A w else
  if op = 0x5B#7 then decMajor5B w else
  if op = 0x5C#7 then decMajor5C w else
  if op = 0x5D#7 then decMajor5D w else
  if op = 0x5E#7 then decMajor5E w else
  if op = 0x5F#7 then decMajor5F w else
  .reject 0x003

/-- The majors 0x60 to 0x6F of Table 4-7; the rest of the row is reserved (0x003). -/
def decGroup6 (op : BitVec 7) (w : BitVec 32) : Decoded :=
  if op = 0x60#7 then decMajor60 w else
  if op = 0x61#7 then decMajor61 w else
  if op = 0x62#7 then decMajor62 w else
  if op = 0x63#7 then decMajor63 w else
  if op = 0x64#7 then decMajor64 w else
  if op = 0x65#7 then decMajor65 w else
  if op = 0x66#7 then decMajor66 w else
  if op = 0x67#7 then decMajor67 w else
  if op = 0x68#7 then decMajor68 w else
  if op = 0x69#7 then decMajor69 w else
  if op = 0x6A#7 then decMajor6A w else
  if op = 0x6B#7 then decMajor6B w else
  if op = 0x6C#7 then decMajor6C w else
  if op = 0x6D#7 then decMajor6D w else
  if op = 0x6E#7 then decMajor6E w else
  .reject 0x003

/-- The majors 0x70 to 0x7F of Table 4-7; the rest of the row is reserved (0x003). -/
def decGroup7 (op : BitVec 7) (w : BitVec 32) : Decoded :=
  if op = 0x70#7 then decMajor70 w else
  if op = 0x71#7 then decMajor71 w else
  if op = 0x72#7 then decMajor72 w else
  if op = 0x73#7 then decMajor73 w else
  if op = 0x74#7 then decMajor74 w else
  if op = 0x75#7 then decMajor75 w else
  if op = 0x76#7 then decMajor76 w else
  if op = 0x77#7 then decMajor77 w else
  if op = 0x78#7 then decMajor78 w else
  if op = 0x79#7 then decMajor79 w else
  if op = 0x7A#7 then decMajor7A w else
  if op = 0x7B#7 then decMajor7B w else
  if op = 0x7C#7 then decMajor7C w else
  if op = 0x7E#7 then decMajor7E w else
  .reject 0x003

/-- The instruction a word stands for, or the decode cause of Table 4-8 that the word alone gives it (R76 to R78). -/
def decodeWord (w : BitVec 32) : Decoded :=
  let op := w.extractLsb' 25 7
  if w = 0#32 then .reject 0x001 else
  if op = 0x7F#7 then .reject 0x002 else
  match (op.extractLsb' 4 3).toNat with
  | 0 => decGroup0 op w
  | 1 => decGroup1 op w
  | 2 => decGroup2 op w
  | 3 => decGroup3 op w
  | 4 => decGroup4 op w
  | 5 => decGroup5 op w
  | 6 => decGroup6 op w
  | _ => decGroup7 op w

/-- The word of an instruction, segment by segment from bit 31 down (Tables 4-1 and 4-2 and the entries' encoding tables). An event row has no word and answers 0. -/
def encode : Instr → BitVec 32
  | .addA d a b t => 0#8 ++ d ++ a ++ b ++ 0#1 ++ t
  | .subA d a b t => 0#8 ++ d ++ a ++ b ++ 1#1 ++ t
  | .addImmA d a i => 2#8 ++ d ++ a ++ i
  | .mulA d a b t => 4#8 ++ d ++ a ++ b ++ 0#1 ++ t
  | .mulhA d a b t => 4#8 ++ d ++ a ++ b ++ 1#1 ++ t
  | .divs d a b t => 6#8 ++ d ++ a ++ b ++ 0#1 ++ t
  | .divz d a b t => 6#8 ++ d ++ a ++ b ++ 1#1 ++ t
  | .andA d a b => 8#8 ++ d ++ a ++ b ++ 0#4
  | .orA d a b => 8#8 ++ d ++ a ++ b ++ 1#4
  | .xorA d a b => 8#8 ++ d ++ a ++ b ++ 2#4
  | .andnA d a b => 8#8 ++ d ++ a ++ b ++ 3#4
  | .andImm d a i => 0xa#8 ++ d ++ a ++ 0#2 ++ i
  | .orImm d a i => 0xa#8 ++ d ++ a ++ 1#2 ++ i
  | .xorImm d a i => 0xa#8 ++ d ++ a ++ 2#2 ++ i
  | .shlA d a b w => 0xc#8 ++ d ++ a ++ b ++ 0#2 ++ w
  | .shrA d a b w => 0xc#8 ++ d ++ a ++ b ++ 1#2 ++ w
  | .sarA d a b w => 0xc#8 ++ d ++ a ++ b ++ 2#2 ++ w
  | .rotA d a b w => 0xc#8 ++ d ++ a ++ b ++ 3#2 ++ w
  | .shlImmA d a w m => 0xe#8 ++ d ++ a ++ 0#2 ++ w ++ m
  | .shrImmA d a w m => 0xe#8 ++ d ++ a ++ 1#2 ++ w ++ m
  | .sarImmA d a w m => 0xe#8 ++ d ++ a ++ 2#2 ++ w ++ m
  | .rotImmA d a w m => 0xe#8 ++ d ++ a ++ 3#2 ++ w ++ m
  | .bfxSA d a w o => 0x10#8 ++ d ++ a ++ 1#1 ++ w ++ o
  | .bfxZA d a w o => 0x10#8 ++ d ++ a ++ 0#1 ++ w ++ o
  | .bfiA d a w o => 0x12#8 ++ d ++ a ++ w ++ o
  | .fshlA d a b s => 0x14#8 ++ d ++ a ++ b ++ 0#2 ++ s ++ 0#1
  | .fshrA d a b s => 0x14#8 ++ d ++ a ++ b ++ 0#2 ++ s ++ 1#1
  | .clzA d a w => 0x16#8 ++ d ++ a ++ 0#9 ++ w
  | .popcA d a w => 0x16#8 ++ d ++ a ++ 2#9 ++ w
  | .minA d a b t => 0x18#8 ++ d ++ a ++ b ++ 0#1 ++ t
  | .maxA d a b t => 0x18#8 ++ d ++ a ++ b ++ 1#1 ++ t
  | .cmpA p a b c => 0xd0#11 ++ p ++ a ++ b ++ c
  | .selA d a b p => 0x1c#8 ++ d ++ a ++ b ++ 0#1 ++ p
  | .liA d i => 0x1e#8 ++ d ++ 0#7 ++ i
  | .liHiA d i => 0x1e#8 ++ d ++ 1#7 ++ i
  | .brA c o => 0x10#7 ++ c ++ o
  | .brnA c o => 0x11#7 ++ c ++ o
  | .loop c o => 0x12#7 ++ c ++ o
  | .callA c o => 0x13#7 ++ c ++ o
  | .calliA a => 0xa00#14 ++ a ++ 0#11
  | .retA => 0x2a000000#32
  | .txl t a => 0xb0#10 ++ t ++ a ++ 0#11
  | .pgreq p a => 0x170#11 ++ p ++ a ++ 0#11
  | .txclr t => 0xc0#10 ++ t ++ 0#18
  | .txclrAll => 0x30400000#32
  | .brE c o => 0x19#7 ++ c ++ o
  | .brnE c o => 0x1a#7 ++ c ++ o
  | .callE c o => 0x1b#7 ++ c ++ o
  | .calliE a => 0xe00#14 ++ a ++ 0#11
  | .retE => 0x3a000000#32
  | .merge t => 0xf0000#22 ++ t
  | .mergeArm t => 0xf0001#22 ++ t
  | .lds d t x s f => 0x20#7 ++ d ++ t ++ x ++ s ++ f
  | .sts d t x s f => 0x21#7 ++ d ++ t ++ x ++ s ++ f
  | .ldq d t x s f => 0x22#7 ++ d ++ t ++ x ++ s ++ f
  | .stq t x s f => 0x8c7#13 ++ t ++ x ++ s ++ f
  | .gathq d t x s f => 0x24#7 ++ d ++ t ++ x ++ s ++ f
  | .scatq t x s f => 0x947#13 ++ t ++ x ++ s ++ f
  | .atom d t x s f => 0x26#7 ++ d ++ t ++ x ++ s ++ 0#2 ++ f
  | .atomq d t x s f => 0x27#7 ++ d ++ t ++ x ++ s ++ 0#2 ++ f
  | .aggadd d t x s => 0x28#7 ++ d ++ t ++ x ++ s ++ 0#6
  | .aggaddOne d t x s => 0x28#7 ++ d ++ t ++ x ++ s ++ 1#6
  | .cpy d t x s f => 0x29#7 ++ d ++ t ++ x ++ s ++ f
  | .cpym d t x s f => 0x2a#7 ++ d ++ t ++ x ++ s ++ f
  | .cpyr d t x s f => 0x2b#7 ++ d ++ t ++ x ++ s ++ 0#2 ++ f
  | .qpushA d a b => 0x58#8 ++ d ++ a ++ b ++ 0#4
  | .ldc n d a b s l => 0x2d#7 ++ n ++ d ++ a ++ b ++ 0#1 ++ s ++ l
  | .ldx n d a b s l => 0x2e#7 ++ n ++ d ++ a ++ b ++ 0#1 ++ s ++ l
  | .ldxRing n d a b s l => 0x2e#7 ++ n ++ d ++ a ++ b ++ 1#1 ++ s ++ l
  | .stx d a b l => 0x5e#8 ++ d ++ a ++ b ++ 0#2 ++ l
  | .stxRing d a b l => 0x5e#8 ++ d ++ a ++ b ++ 2#2 ++ l
  | .addE n d a b s w => 0x30#7 ++ n ++ d ++ a ++ b ++ 0#1 ++ s ++ w
  | .subE n d a b s w => 0x30#7 ++ n ++ d ++ a ++ b ++ 1#1 ++ s ++ w
  | .addImmE n d a i => 0x31#7 ++ n ++ d ++ a ++ i
  | .mulE n d a b s w => 0x32#7 ++ n ++ d ++ a ++ b ++ 0#1 ++ s ++ w
  | .mulhE n d a b s w => 0x32#7 ++ n ++ d ++ a ++ b ++ 1#1 ++ s ++ w
  | .mad n d a b s w => 0x33#7 ++ n ++ d ++ a ++ b ++ 0#1 ++ s ++ w
  | .minE n d a b s w => 0x34#7 ++ n ++ d ++ a ++ b ++ 0#1 ++ s ++ w
  | .maxE n d a b s w => 0x34#7 ++ n ++ d ++ a ++ b ++ 1#1 ++ s ++ w
  | .andE n d a b => 0x35#7 ++ n ++ d ++ a ++ b ++ 0#4
  | .orE n d a b => 0x35#7 ++ n ++ d ++ a ++ b ++ 1#4
  | .xorE n d a b => 0x35#7 ++ n ++ d ++ a ++ b ++ 2#4
  | .andnE n d a b => 0x35#7 ++ n ++ d ++ a ++ b ++ 3#4
  | .shlE n d a b w => 0x36#7 ++ n ++ d ++ a ++ b ++ 0#2 ++ w
  | .shrE n d a b w => 0x36#7 ++ n ++ d ++ a ++ b ++ 1#2 ++ w
  | .sarE n d a b w => 0x36#7 ++ n ++ d ++ a ++ b ++ 2#2 ++ w
  | .rotE n d a b w => 0x36#7 ++ n ++ d ++ a ++ b ++ 3#2 ++ w
  | .shlImmE n d a w m => 0x37#7 ++ n ++ d ++ a ++ 0#2 ++ w ++ m
  | .shrImmE n d a w m => 0x37#7 ++ n ++ d ++ a ++ 1#2 ++ w ++ m
  | .sarImmE n d a w m => 0x37#7 ++ n ++ d ++ a ++ 2#2 ++ w ++ m
  | .rotImmE n d a w m => 0x37#7 ++ n ++ d ++ a ++ 3#2 ++ w ++ m
  | .bfxSE n d a w o => 0x38#7 ++ n ++ d ++ a ++ 1#1 ++ w ++ o
  | .bfxZE n d a w o => 0x38#7 ++ n ++ d ++ a ++ 0#1 ++ w ++ o
  | .bfiE n d a w o => 0x39#7 ++ n ++ d ++ a ++ w ++ o
  | .fshlE n d a b s => 0x3a#7 ++ n ++ d ++ a ++ b ++ 0#2 ++ s ++ 0#1
  | .fshrE n d a b s => 0x3a#7 ++ n ++ d ++ a ++ b ++ 0#2 ++ s ++ 1#1
  | .clzE n d a w => 0x3b#7 ++ n ++ d ++ a ++ 0#9 ++ w
  | .popcE n d a w => 0x3b#7 ++ n ++ d ++ a ++ 2#9 ++ w
  | .cmpE f a b c => 0x3c0#11 ++ f ++ a ++ b ++ c
  | .selE n d a b f => 0x3d#7 ++ n ++ d ++ a ++ b ++ 0#1 ++ f
  | .liE n d i => 0x3e#7 ++ n ++ d ++ 0#7 ++ i
  | .liFromK n d k => 0x3e#7 ++ n ++ d ++ 0x80#14 ++ k
  | .liHiFromK n d k => 0x3e#7 ++ n ++ d ++ 0x81#14 ++ k
  | .liKQ6 k p => 0x1f0#10 ++ k ++ 0x800#17 ++ p
  | .liKImm k i => 0x1f0#10 ++ k ++ 3#7 ++ i
  | .qpushE d a f => 0x7e#8 ++ d ++ a ++ 0#8 ++ f
  | .fadd n d a b r => 0x40#7 ++ n ++ d ++ a ++ b ++ 0#1 ++ r
  | .fsub n d a b r => 0x40#7 ++ n ++ d ++ a ++ b ++ 1#1 ++ r
  | .fmul n d a b r => 0x41#7 ++ n ++ d ++ a ++ b ++ 0#1 ++ r
  | .ffma n d a b r => 0x42#7 ++ n ++ d ++ a ++ b ++ 0#1 ++ r
  | .ffms n d a b r => 0x42#7 ++ n ++ d ++ a ++ b ++ 1#1 ++ r
  | .fmin n d a b u => 0x43#7 ++ n ++ d ++ a ++ b ++ 0#2 ++ u ++ 0#1
  | .fmax n d a b u => 0x43#7 ++ n ++ d ++ a ++ b ++ 0#2 ++ u ++ 1#1
  | .fcmp f a b c => 0x440#11 ++ f ++ a ++ b ++ 0#1 ++ c
  | .fsgn n d a b w o => 0x45#7 ++ n ++ d ++ a ++ b ++ w ++ o
  | .hadd n d a b t => 0x46#7 ++ n ++ d ++ a ++ b ++ t ++ 0#3
  | .hsub n d a b t => 0x46#7 ++ n ++ d ++ a ++ b ++ t ++ 1#3
  | .hmul n d a b t => 0x46#7 ++ n ++ d ++ a ++ b ++ t ++ 2#3
  | .hmin n d a b t => 0x46#7 ++ n ++ d ++ a ++ b ++ t ++ 3#3
  | .hmax n d a b t => 0x46#7 ++ n ++ d ++ a ++ b ++ t ++ 4#3
  | .hfma n d a b t => 0x47#7 ++ n ++ d ++ a ++ b ++ t ++ 0#3
  | .hfms n d a b t => 0x47#7 ++ n ++ d ++ a ++ b ++ t ++ 1#3
  | .hcmp n d a b t c => 0x48#7 ++ n ++ d ++ a ++ b ++ t ++ c
  | .f8add n d a b t => 0x49#7 ++ n ++ d ++ a ++ b ++ t ++ 0#3
  | .f8sub n d a b t => 0x49#7 ++ n ++ d ++ a ++ b ++ t ++ 1#3
  | .f8mul n d a b t => 0x49#7 ++ n ++ d ++ a ++ b ++ t ++ 2#3
  | .f8min n d a b t => 0x49#7 ++ n ++ d ++ a ++ b ++ t ++ 3#3
  | .f8max n d a b t => 0x49#7 ++ n ++ d ++ a ++ b ++ t ++ 4#3
  | .f8fma n d a b t => 0x4a#7 ++ n ++ d ++ a ++ b ++ t ++ 0#3
  | .f8fms n d a b t => 0x4a#7 ++ n ++ d ++ a ++ b ++ t ++ 1#3
  | .f8cmp n d a b t c => 0x4b#7 ++ n ++ d ++ a ++ b ++ t ++ c
  | .cvt n d a b f => 0x50#7 ++ n ++ d ++ a ++ b ++ f
  | .cvtf n d a b f => 0x51#7 ++ n ++ d ++ a ++ b ++ f
  | .cvtd n d a b r => 0x52#7 ++ n ++ d ++ a ++ b ++ 0#2 ++ r
  | .cvtmx n d a b q e => 0x53#7 ++ n ++ d ++ a ++ b ++ q ++ e
  | .rcps n d a => 0x54#7 ++ n ++ d ++ a ++ 0#11
  | .rsqs n d a => 0x54#7 ++ n ++ d ++ a ++ 1#11
  | .exps n d a => 0x54#7 ++ n ++ d ++ a ++ 2#11
  | .logs n d a => 0x54#7 ++ n ++ d ++ a ++ 3#11
  | .sins n d a => 0x54#7 ++ n ++ d ++ a ++ 4#11
  | .coss n d a => 0x54#7 ++ n ++ d ++ a ++ 5#11
  | .vote n d a o => 0x58#7 ++ n ++ d ++ a ++ 0#8 ++ o
  | .shfl n d a b o => 0x59#7 ++ n ++ d ++ a ++ b ++ 0#2 ++ o
  | .reds n d a o => 0x5a#7 ++ n ++ d ++ a ++ 0#7 ++ o
  | .scan n d a x o => 0x5b#7 ++ n ++ d ++ a ++ 0#8 ++ x ++ o
  | .argm n d a t m => 0x5c#7 ++ n ++ d ++ a ++ 0#8 ++ t ++ m
  | .votet n d a b o => 0x5d#7 ++ n ++ d ++ a ++ b ++ 0#1 ++ o
  | .shflt n d a b o => 0x5e#7 ++ n ++ d ++ a ++ b ++ 0#2 ++ o
  | .redt n d a o => 0x5f#7 ++ n ++ d ++ a ++ 0#7 ++ o
  | .mls a m => 0x3000#14 ++ a ++ 0#7 ++ m
  | .mflip => 0xc2000000#32
  | .mstream a b m => 0x3100#14 ++ a ++ b ++ m
  | .mtile d a b m => 0xc6#8 ++ d ++ a ++ b ++ 0#1 ++ m
  | .amalloc d => 0xc8#8 ++ d ++ 0#18
  | .amfree a => 0x3200#14 ++ a ++ 1#11
  | .amrd n d a b r => 0x65#7 ++ n ++ d ++ a ++ b ++ 0#2 ++ r
  | .amclr a => 0x3300#14 ++ a ++ 0#11
  | .amld a b => 0x3300#14 ++ a ++ b ++ 1#4
  | .amst a b => 0x3300#14 ++ a ++ b ++ 2#4
  | .mwait a => 0x3380#14 ++ a ++ 0#11
  | .cpseal d => 0xd0#8 ++ d ++ 0#18
  | .cpwait d i => 0xd2#8 ++ d ++ 0#7 ++ i
  | .strm a => 0x3500#14 ++ a ++ 0#11
  | .ringClaim d a => 0xd6#8 ++ d ++ a ++ 0#11
  | .ringSig a b => 0x3580#14 ++ a ++ b ++ 1#4
  | .ringWait d a b => 0xd6#8 ++ d ++ a ++ b ++ 2#4
  | .ringFree a b => 0x3580#14 ++ a ++ b ++ 3#4
  | .ringStat d a => 0xd6#8 ++ d ++ a ++ 4#11
  | .stashMap d a b => 0xd8#8 ++ d ++ a ++ b ++ 0#4
  | .stashUnmap a => 0x3600#14 ++ a ++ 1#11
  | .stashClean a => 0x3600#14 ++ a ++ 2#11
  | .publish d a => 0xda#8 ++ d ++ a ++ 0#11
  | .l2ctlOcc d a => 0xdc#8 ++ d ++ a ++ 0#11
  | .l2ctlMask d => 0xdc#8 ++ d ++ 1#18
  | .l2ctlSetmask d a => 0xdc#8 ++ d ++ a ++ 2#11
  | .coll d a b k => 0xe0#8 ++ d ++ a ++ b ++ k
  | .solicit d a b o => 0xe2#8 ++ d ++ a ++ b ++ 0#2 ++ o
  | .solicitIns d a b => 0xe2#8 ++ d ++ a ++ b ++ 4#4
  | .solicitDel a => 0x3880#14 ++ a ++ 5#11
  | .solicitMove d a b => 0xe2#8 ++ d ++ a ++ b ++ 6#4
  | .solicitCommit d a b => 0xe2#8 ++ d ++ a ++ b ++ 7#4
  | .solicitReg a b => 0x3880#14 ++ a ++ b ++ 8#4
  | .respond a => 0x3900#14 ++ a ++ 0#11
  | .censusWait d a => 0xe6#8 ++ d ++ a ++ 0#11
  | .censusPoll d a => 0xe6#8 ++ d ++ a ++ 1#11
  | .trgpost d a => 0xe8#8 ++ d ++ a ++ 0#11
  | .trgcancel d a => 0xe8#8 ++ d ++ a ++ 1#11
  | .ctradd a b => 0x3a80#14 ++ a ++ b ++ 0#4
  | .ctrwait d a b => 0xea#8 ++ d ++ a ++ b ++ 1#4
  | .ctrwaitPoll d a => 0xea#8 ++ d ++ a ++ 2#11
  | .ctrset a b => 0x3a80#14 ++ a ++ b ++ 3#4
  | .ctrseal d a => 0xea#8 ++ d ++ a ++ 4#11
  | .taskadd d a => 0xec#8 ++ d ++ a ++ 0#11
  | .taskget d => 0xec#8 ++ d ++ 0x30001#18
  | .taskgetPoll d => 0xec#8 ++ d ++ 0x30801#18
  | .taskend => 0xec000002#32
  | .tasksteal d a => 0xec#8 ++ d ++ a ++ 3#11
  | .barj a b => 0x3b80#14 ++ a ++ b ++ 0#4
  | .bar a => 0x3b80#14 ++ a ++ 1#11
  | .endS => 0xf0000000#32
  | .srr d b => 0xf2#8 ++ d ++ 0#7 ++ b ++ 0#4
  | .srw d b => 0xf2#8 ++ d ++ 0#7 ++ b ++ 1#4
  | .fence s => 0x1e800000#29 ++ s
  | .trap a => 0x3d80#14 ++ a ++ 0#11
  | .tret => 0xf6000001#32
  | .nop => 0xf8000000#32
  | .imm p => 0x3f0#10 ++ p
  | .mod c o s n r => 0x1f8800#21 ++ c ++ o ++ s ++ n ++ r
  | .ext g e => 0x3f200#18 ++ g ++ e
  | .sched h y => 0x3f300000#30 ++ h ++ y
  | .chain l => 0x1fa00000#29 ++ l
  | _ => 0#32

/-- The major opcode of an instruction (Table 4-7); an event row has none and answers 0x80. -/
def majorOf : Instr → Nat
  | .addA .. => 0x00
  | .subA .. => 0x00
  | .addImmA .. => 0x01
  | .mulA .. => 0x02
  | .mulhA .. => 0x02
  | .divs .. => 0x03
  | .divz .. => 0x03
  | .andA .. => 0x04
  | .orA .. => 0x04
  | .xorA .. => 0x04
  | .andnA .. => 0x04
  | .andImm .. => 0x05
  | .orImm .. => 0x05
  | .xorImm .. => 0x05
  | .shlA .. => 0x06
  | .shrA .. => 0x06
  | .sarA .. => 0x06
  | .rotA .. => 0x06
  | .shlImmA .. => 0x07
  | .shrImmA .. => 0x07
  | .sarImmA .. => 0x07
  | .rotImmA .. => 0x07
  | .bfxSA .. => 0x08
  | .bfxZA .. => 0x08
  | .bfiA .. => 0x09
  | .fshlA .. => 0x0A
  | .fshrA .. => 0x0A
  | .clzA .. => 0x0B
  | .popcA .. => 0x0B
  | .minA .. => 0x0C
  | .maxA .. => 0x0C
  | .cmpA .. => 0x0D
  | .selA .. => 0x0E
  | .liA .. => 0x0F
  | .liHiA .. => 0x0F
  | .brA .. => 0x10
  | .brnA .. => 0x11
  | .loop .. => 0x12
  | .callA .. => 0x13
  | .calliA .. => 0x14
  | .retA => 0x15
  | .txl .. => 0x16
  | .pgreq .. => 0x17
  | .txclr .. => 0x18
  | .txclrAll => 0x18
  | .brE .. => 0x19
  | .brnE .. => 0x1A
  | .callE .. => 0x1B
  | .calliE .. => 0x1C
  | .retE => 0x1D
  | .merge .. => 0x1E
  | .mergeArm .. => 0x1E
  | .lds .. => 0x20
  | .sts .. => 0x21
  | .ldq .. => 0x22
  | .stq .. => 0x23
  | .gathq .. => 0x24
  | .scatq .. => 0x25
  | .atom .. => 0x26
  | .atomq .. => 0x27
  | .aggadd .. => 0x28
  | .aggaddOne .. => 0x28
  | .cpy .. => 0x29
  | .cpym .. => 0x2A
  | .cpyr .. => 0x2B
  | .qpushA .. => 0x2C
  | .ldc .. => 0x2D
  | .ldx .. => 0x2E
  | .ldxRing .. => 0x2E
  | .stx .. => 0x2F
  | .stxRing .. => 0x2F
  | .addE .. => 0x30
  | .subE .. => 0x30
  | .addImmE .. => 0x31
  | .mulE .. => 0x32
  | .mulhE .. => 0x32
  | .mad .. => 0x33
  | .minE .. => 0x34
  | .maxE .. => 0x34
  | .andE .. => 0x35
  | .orE .. => 0x35
  | .xorE .. => 0x35
  | .andnE .. => 0x35
  | .shlE .. => 0x36
  | .shrE .. => 0x36
  | .sarE .. => 0x36
  | .rotE .. => 0x36
  | .shlImmE .. => 0x37
  | .shrImmE .. => 0x37
  | .sarImmE .. => 0x37
  | .rotImmE .. => 0x37
  | .bfxSE .. => 0x38
  | .bfxZE .. => 0x38
  | .bfiE .. => 0x39
  | .fshlE .. => 0x3A
  | .fshrE .. => 0x3A
  | .clzE .. => 0x3B
  | .popcE .. => 0x3B
  | .cmpE .. => 0x3C
  | .selE .. => 0x3D
  | .liE .. => 0x3E
  | .liFromK .. => 0x3E
  | .liHiFromK .. => 0x3E
  | .liKQ6 .. => 0x3E
  | .liKImm .. => 0x3E
  | .qpushE .. => 0x3F
  | .fadd .. => 0x40
  | .fsub .. => 0x40
  | .fmul .. => 0x41
  | .ffma .. => 0x42
  | .ffms .. => 0x42
  | .fmin .. => 0x43
  | .fmax .. => 0x43
  | .fcmp .. => 0x44
  | .fsgn .. => 0x45
  | .hadd .. => 0x46
  | .hsub .. => 0x46
  | .hmul .. => 0x46
  | .hmin .. => 0x46
  | .hmax .. => 0x46
  | .hfma .. => 0x47
  | .hfms .. => 0x47
  | .hcmp .. => 0x48
  | .f8add .. => 0x49
  | .f8sub .. => 0x49
  | .f8mul .. => 0x49
  | .f8min .. => 0x49
  | .f8max .. => 0x49
  | .f8fma .. => 0x4A
  | .f8fms .. => 0x4A
  | .f8cmp .. => 0x4B
  | .cvt .. => 0x50
  | .cvtf .. => 0x51
  | .cvtd .. => 0x52
  | .cvtmx .. => 0x53
  | .rcps .. => 0x54
  | .rsqs .. => 0x54
  | .exps .. => 0x54
  | .logs .. => 0x54
  | .sins .. => 0x54
  | .coss .. => 0x54
  | .vote .. => 0x58
  | .shfl .. => 0x59
  | .reds .. => 0x5A
  | .scan .. => 0x5B
  | .argm .. => 0x5C
  | .votet .. => 0x5D
  | .shflt .. => 0x5E
  | .redt .. => 0x5F
  | .mls .. => 0x60
  | .mflip => 0x61
  | .mstream .. => 0x62
  | .mtile .. => 0x63
  | .amalloc .. => 0x64
  | .amfree .. => 0x64
  | .amrd .. => 0x65
  | .amclr .. => 0x66
  | .amld .. => 0x66
  | .amst .. => 0x66
  | .mwait .. => 0x67
  | .cpseal .. => 0x68
  | .cpwait .. => 0x69
  | .strm .. => 0x6A
  | .ringClaim .. => 0x6B
  | .ringSig .. => 0x6B
  | .ringWait .. => 0x6B
  | .ringFree .. => 0x6B
  | .ringStat .. => 0x6B
  | .stashMap .. => 0x6C
  | .stashUnmap .. => 0x6C
  | .stashClean .. => 0x6C
  | .publish .. => 0x6D
  | .l2ctlOcc .. => 0x6E
  | .l2ctlMask .. => 0x6E
  | .l2ctlSetmask .. => 0x6E
  | .coll .. => 0x70
  | .solicit .. => 0x71
  | .solicitIns .. => 0x71
  | .solicitDel .. => 0x71
  | .solicitMove .. => 0x71
  | .solicitCommit .. => 0x71
  | .solicitReg .. => 0x71
  | .respond .. => 0x72
  | .censusWait .. => 0x73
  | .censusPoll .. => 0x73
  | .trgpost .. => 0x74
  | .trgcancel .. => 0x74
  | .ctradd .. => 0x75
  | .ctrwait .. => 0x75
  | .ctrwaitPoll .. => 0x75
  | .ctrset .. => 0x75
  | .ctrseal .. => 0x75
  | .taskadd .. => 0x76
  | .taskget .. => 0x76
  | .taskgetPoll .. => 0x76
  | .taskend => 0x76
  | .tasksteal .. => 0x76
  | .barj .. => 0x77
  | .bar .. => 0x77
  | .endS => 0x78
  | .srr .. => 0x79
  | .srw .. => 0x79
  | .fence .. => 0x7A
  | .trap .. => 0x7B
  | .tret => 0x7B
  | .nop => 0x7C
  | .imm .. => 0x7E
  | .mod .. => 0x7E
  | .ext .. => 0x7E
  | .sched .. => 0x7E
  | .chain .. => 0x7E
  | _ => 0x80

/-- The source operand fields of an instruction's word, in the order a, b or x (Table 4-3). -/
def sourceFields : Instr → List (BitVec 7)
  | .addA _ a b _ => [a, b]
  | .subA _ a b _ => [a, b]
  | .addImmA _ a _ => [a]
  | .mulA _ a b _ => [a, b]
  | .mulhA _ a b _ => [a, b]
  | .divs _ a b _ => [a, b]
  | .divz _ a b _ => [a, b]
  | .andA _ a b => [a, b]
  | .orA _ a b => [a, b]
  | .xorA _ a b => [a, b]
  | .andnA _ a b => [a, b]
  | .andImm _ a _ => [a]
  | .orImm _ a _ => [a]
  | .xorImm _ a _ => [a]
  | .shlA _ a b _ => [a, b]
  | .shrA _ a b _ => [a, b]
  | .sarA _ a b _ => [a, b]
  | .rotA _ a b _ => [a, b]
  | .shlImmA _ a _ _ => [a]
  | .shrImmA _ a _ _ => [a]
  | .sarImmA _ a _ _ => [a]
  | .rotImmA _ a _ _ => [a]
  | .bfxSA _ a _ _ => [a]
  | .bfxZA _ a _ _ => [a]
  | .bfiA _ a _ _ => [a]
  | .fshlA _ a b _ => [a, b]
  | .fshrA _ a b _ => [a, b]
  | .clzA _ a _ => [a]
  | .popcA _ a _ => [a]
  | .minA _ a b _ => [a, b]
  | .maxA _ a b _ => [a, b]
  | .cmpA _ a b _ => [a, b]
  | .selA _ a b _ => [a, b]
  | .calliA a => [a]
  | .txl _ a => [a]
  | .pgreq _ a => [a]
  | .calliE a => [a]
  | .lds _ _ x _ _ => [x]
  | .sts _ _ x _ _ => [x]
  | .ldq _ _ x _ _ => [x]
  | .stq _ x _ _ => [x]
  | .gathq _ _ x _ _ => [x]
  | .scatq _ x _ _ => [x]
  | .atom _ _ x _ _ => [x]
  | .atomq _ _ x _ _ => [x]
  | .aggadd _ _ x _ => [x]
  | .aggaddOne _ _ x _ => [x]
  | .cpy _ _ x _ _ => [x]
  | .cpym _ _ x _ _ => [x]
  | .cpyr _ _ x _ _ => [x]
  | .qpushA _ a b => [a, b]
  | .ldc _ _ a b _ _ => [a, b]
  | .ldx _ _ a b _ _ => [a, b]
  | .ldxRing _ _ a b _ _ => [a, b]
  | .stx _ a b _ => [a, b]
  | .stxRing _ a b _ => [a, b]
  | .addE _ _ a b _ _ => [a, b]
  | .subE _ _ a b _ _ => [a, b]
  | .addImmE _ _ a _ => [a]
  | .mulE _ _ a b _ _ => [a, b]
  | .mulhE _ _ a b _ _ => [a, b]
  | .mad _ _ a b _ _ => [a, b]
  | .minE _ _ a b _ _ => [a, b]
  | .maxE _ _ a b _ _ => [a, b]
  | .andE _ _ a b => [a, b]
  | .orE _ _ a b => [a, b]
  | .xorE _ _ a b => [a, b]
  | .andnE _ _ a b => [a, b]
  | .shlE _ _ a b _ => [a, b]
  | .shrE _ _ a b _ => [a, b]
  | .sarE _ _ a b _ => [a, b]
  | .rotE _ _ a b _ => [a, b]
  | .shlImmE _ _ a _ _ => [a]
  | .shrImmE _ _ a _ _ => [a]
  | .sarImmE _ _ a _ _ => [a]
  | .rotImmE _ _ a _ _ => [a]
  | .bfxSE _ _ a _ _ => [a]
  | .bfxZE _ _ a _ _ => [a]
  | .bfiE _ _ a _ _ => [a]
  | .fshlE _ _ a b _ => [a, b]
  | .fshrE _ _ a b _ => [a, b]
  | .clzE _ _ a _ => [a]
  | .popcE _ _ a _ => [a]
  | .cmpE _ a b _ => [a, b]
  | .selE _ _ a b _ => [a, b]
  | .qpushE _ a _ => [a]
  | .fadd _ _ a b _ => [a, b]
  | .fsub _ _ a b _ => [a, b]
  | .fmul _ _ a b _ => [a, b]
  | .ffma _ _ a b _ => [a, b]
  | .ffms _ _ a b _ => [a, b]
  | .fmin _ _ a b _ => [a, b]
  | .fmax _ _ a b _ => [a, b]
  | .fcmp _ a b _ => [a, b]
  | .fsgn _ _ a b _ _ => [a, b]
  | .hadd _ _ a b _ => [a, b]
  | .hsub _ _ a b _ => [a, b]
  | .hmul _ _ a b _ => [a, b]
  | .hmin _ _ a b _ => [a, b]
  | .hmax _ _ a b _ => [a, b]
  | .hfma _ _ a b _ => [a, b]
  | .hfms _ _ a b _ => [a, b]
  | .hcmp _ _ a b _ _ => [a, b]
  | .f8add _ _ a b _ => [a, b]
  | .f8sub _ _ a b _ => [a, b]
  | .f8mul _ _ a b _ => [a, b]
  | .f8min _ _ a b _ => [a, b]
  | .f8max _ _ a b _ => [a, b]
  | .f8fma _ _ a b _ => [a, b]
  | .f8fms _ _ a b _ => [a, b]
  | .f8cmp _ _ a b _ _ => [a, b]
  | .cvt _ _ a b _ => [a, b]
  | .cvtf _ _ a b _ => [a, b]
  | .cvtd _ _ a b _ => [a, b]
  | .cvtmx _ _ a b _ _ => [a, b]
  | .rcps _ _ a => [a]
  | .rsqs _ _ a => [a]
  | .exps _ _ a => [a]
  | .logs _ _ a => [a]
  | .sins _ _ a => [a]
  | .coss _ _ a => [a]
  | .vote _ _ a _ => [a]
  | .shfl _ _ a b _ => [a, b]
  | .reds _ _ a _ => [a]
  | .scan _ _ a _ _ => [a]
  | .argm _ _ a _ _ => [a]
  | .votet _ _ a b _ => [a, b]
  | .shflt _ _ a b _ => [a, b]
  | .redt _ _ a _ => [a]
  | .mls a _ => [a]
  | .mstream a b _ => [a, b]
  | .mtile _ a b _ => [a, b]
  | .amfree a => [a]
  | .amrd _ _ a b _ => [a, b]
  | .amclr a => [a]
  | .amld a b => [a, b]
  | .amst a b => [a, b]
  | .mwait a => [a]
  | .strm a => [a]
  | .ringClaim _ a => [a]
  | .ringSig a b => [a, b]
  | .ringWait _ a b => [a, b]
  | .ringFree a b => [a, b]
  | .ringStat _ a => [a]
  | .stashMap _ a b => [a, b]
  | .stashUnmap a => [a]
  | .stashClean a => [a]
  | .publish _ a => [a]
  | .l2ctlOcc _ a => [a]
  | .l2ctlSetmask _ a => [a]
  | .coll _ a b _ => [a, b]
  | .solicit _ a b _ => [a, b]
  | .solicitIns _ a b => [a, b]
  | .solicitDel a => [a]
  | .solicitMove _ a b => [a, b]
  | .solicitCommit _ a b => [a, b]
  | .solicitReg a b => [a, b]
  | .respond a => [a]
  | .censusWait _ a => [a]
  | .censusPoll _ a => [a]
  | .trgpost _ a => [a]
  | .trgcancel _ a => [a]
  | .ctradd a b => [a, b]
  | .ctrwait _ a b => [a, b]
  | .ctrwaitPoll _ a => [a]
  | .ctrset a b => [a, b]
  | .ctrseal _ a => [a]
  | .taskadd _ a => [a]
  | .tasksteal _ a => [a]
  | .barj a b => [a, b]
  | .bar a => [a]
  | .srr _ b => [b]
  | .srw _ b => [b]
  | .trap a => [a]
  | _ => []

/-- The instruction that the decoder reads from a word of the opcode table. Every instruction is one 32-bit word
(R60), so `nbits` other than 32 names none. -/
def decodeTableWord (nbits w : Nat) : Option Instr :=
  if nbits = 32 then
    match decodeWord (BitVec.ofNat 32 w) with
    | .ok i => some i
    | _ => none
  else none

end Sys2Proof
end

