-- ==== Sys2Proof/Config.lean ====
section
/-!
DEFINITION. Config.lean: the values that the spec leaves open. Each is an opaque constant applied to plain data (a
counter of the state, or the operands it depends on), so no proof can learn what it is.
-/
namespace Sys2Proof.Config

/-- Bits [31:0] of a core's cycle counter at an issue (Table 3-3, CYCLO): timing is not modelled, so the value is
free, taken anew from the state's counter of free values (assumption 1). -/
opaque cyclo : Nat → BitVec 32

/-- Which of the enabled turns comes next when the schedule names none: R206 and R207 bound the order among agents
and do not fix it (assumption 2). -/
opaque pick : Nat → Nat

/-- Which entry of a full translation look-aside buffer gives way: R230 names no replacement order
(assumption 3). -/
opaque tlbVictim : Nat → Nat

/-- Which set of a cluster's translation look-aside buffer holds a page: R230 gives 512 sets and no index
(assumption 3). -/
opaque tlbSet : Nat → Nat → Nat

/-- Whether FSGN of a narrow width takes a constant in the second of the two formats of that width (BF16, E5M2): R134
gives the word no bit that tells them apart (assumption 7). -/
opaque signConst : Nat → Bool

/-- The seed that Table 6-8 leaves open within its bound, by function number and operand: R141 says that it is a fixed
function of the operand (assumption 8). -/
opaque seed : Nat → BitVec 32 → BitVec 32

/-- Whose resident frames a merged fragment keeps when the merging sets' windows are equal and the frames' links differ:
R202 compares WBASE.V and PARTN alone (assumption 15). -/
opaque mergeFrames : Nat → Nat

/-- A byte that a copy reads from the scratch of a team that has retired: its granules have returned to team space, and the
spec does not say what they hold (assumption 17). -/
opaque lostByte : Nat → Nat → BitVec 8

/-- What a launch prologue reads from the specials LANES, CORE and SLOT: R348 allows them as sources and gives no value
(assumption 18). -/
opaque prologueTeam : Nat → Nat

/-- How many Apex cycles a step takes: timing is not modelled (assumption 1). -/
opaque elapsed : Nat → Nat

/-- Whether the boot check has ended by now, and whether the boot ROM accepts the image in the boot flash (R447, R453): the flash and
the check's time are outside the model (assumption 19). -/
opaque bootEnds : Nat → Bool
opaque bootAccepts : Nat → Bool

/-- The SHAKE256 measurement of the firmware, as a number of 64 bytes (R446, R448): the image is outside the model (assumption 20). -/
opaque firmwareMeasure : Nat

/-- The configuration measurement of R448 over what it covers: the spec gives no serial form (assumption 20). -/
opaque configMeasure : List Nat → Nat

/-- The Falcon-1024 signature, of 1,280 bytes, of a message under the device's identity key (R446 to R448, assumption 20). -/
opaque signature : List (BitVec 8) → Nat

/-- The 64 bytes of a rank-tree node and of a command queue in the husk: Table 26-4 names their content and gives no layout
(assumption 21). -/
opaque huskNode : List Nat → Nat
opaque huskQueue : List Nat → Nat

/-- The power cap, in W, that a CAP of 0 selects: Table 1-2 gives no share by island (assumption 22). -/
opaque islandShare : Nat → Nat

/-- The nominal clock and the lowest clock, in MHz, of the islands other than core and Apex islands (assumption 22). -/
opaque islandNominal : Nat → Nat
opaque islandLowest : Nat → Nat

/-- A byte that a host reads from an uncorrectable sector: R443 says that the read raises a cause, and no host read has one
(assumption 23). -/
opaque badByte : Nat → Nat → BitVec 8

/-- The value of a trigger counter after an uncorrectable error: Table 26-2 frees the entry and names no value (assumption 24). -/
opaque lostCounter : Nat → BitVec 64

end Sys2Proof.Config
end

