-- ==== Sys2Proof/Machine/State.lean ====
section
/-!
DEFINITION. Machine/State.lean: everything the spec gives the K9 to hold, as plain data, and the state after reset.
Sparse parts are tables of strictly rising keys; a key that is not listed has the value named beside the field.
-/
namespace Sys2Proof.Machine

/-! ## The streams of a team -/

/-- A stream of a team: the A-stream, or the E-stream fragment of a number (R41, R196). -/
inductive StreamId where
  | a
  | e (frag : Nat)
  deriving DecidableEq, Repr

/-- What a stream waits on (the wait kinds and objects of Table 25-6). -/
inductive Wait where
  | queue (q : Nat)
  | barrier (tag : Nat)
  | merge (token : Nat)
  | amalloc
  | lattice (object : Nat)
  | page (va : Nat)
  | move (entry dest : Nat)
  | task
  | steal (victim : Nat)
  | cancel (acorn : Nat)
  | other (object : Nat)
  deriving DecidableEq, Repr

/-- Page attributes of a run or of a leaf (Tables 10-5 and 10-6). -/
structure PageAttr where
  resident : Bool := false
  w : Bool := false
  x : Bool := false
  h : Bool := false
  cls : BitVec 2 := 0
  nc : Bool := false
  ste : Bool := false
  steer : BitVec 7 := 0
  psize : BitVec 2 := 0
  deriving DecidableEq, Repr

/-- A translation register (Table 3-2). -/
structure TReg where
  vbase : BitVec 57 := 0
  pbase : BitVec 52 := 0
  limit : BitVec 32 := 0
  valid : Bool := false
  attr : PageAttr := {}
  deriving DecidableEq, Repr

/-- A resident frame of a register window: its size, its caller's size, its link and whether it is a trap frame
(R46, R47, R49, R101, R432). -/
structure Frame where
  size : Nat
  caller : Nat
  link : DWord := 0
  trap : Bool := false
  deriving DecidableEq, Repr

/-- A register window: WBASE's base and depth, and the frames that are not spilled, newest first (R46 to R49). -/
structure Window where
  base : Nat := 0
  depth : Nat := 0
  frames : List Frame := []
  deriving DecidableEq, Repr

/-- The payload of a hint that applies to one instruction (Table 4-5). -/
inductive Hint where
  | imm (p : BitVec 22)
  | mod (cls : BitVec 2) (ord : BitVec 2) (scope : BitVec 3) (ns : BitVec 1) (rm : BitVec 3)
  | ext (g : BitVec 7) (e : BitVec 7)
  | sched (hold : BitVec 1) (yieldNext : BitVec 1)
  | chain (len : BitVec 3)
  deriving DecidableEq, Repr

/-- A hint that waits for its hinted instruction, and the hint's address (R74, R75). -/
structure PendHint where
  hint : Hint
  pc : DWord
  deriving DecidableEq, Repr

/-- A running chain: the address of its hint, its length, how many of its instructions are still to issue, and the latches that
are valid, each a table of lane values (R52, R53). -/
structure Chain where
  hintPc : DWord
  len : Nat
  left : Nat
  latches : Tab (Tab Word) := []
  deriving DecidableEq, Repr

/-- The A-stream of a team (Table 3-1, R87, R99 to R104): `s` by physical number (unlisted 0), `p` with p0 in bit 0
(read as true), `t` (unlisted invalid). `bar` is the tag of a BAR that has issued and waits (R211), `since` the device time
at which the present wait began. -/
structure AStream where
  pc : DWord := 0
  ended : Bool := false
  win : Window := {}
  sspill : BitVec 57 := 0
  s : Tab DWord := []
  p : BitVec 8 := 1
  t : Tab TReg := []
  hint : Option PendHint := none
  wait : Option Wait := none
  since : Nat := 0
  bar : Option Nat := none
  deriving DecidableEq, Repr

/-- A fragment of the E-stream (R195, R196): its mask, program counter, window, lane-set size code, token stack
(top first), pending hint, chain, what it waits on and since when, the tag of a BAR it has executed, and the COLL whose
replies it awaits (R285). -/
structure Frag where
  mask : Mask
  pc : DWord
  win : Window
  partn : BitVec 3 := 5
  tokens : List (BitVec 10 × BitVec 16) := []
  hint : Option PendHint := none
  chain : Option Chain := none
  wait : Option Wait := none
  since : Nat := 0
  bar : Option Nat := none
  hold : Option Nat := none
  deriving DecidableEq, Repr

/-- A parked set (R197): its sequence number and what becomes a fragment. `held` is the fragment number it had when
it arrived at a MERGE and waits there (R203); such sets stand in order of arrival. -/
structure Parked where
  seq : Nat
  frag : Frag
  held : Option Nat := none
  deriving DecidableEq, Repr

/-! ## Queues, rings and private spaces -/

/-- An entry of a queue (R55 to R57, R108): values by lane (unlisted 0; a uniform entry under 0), residency bits,
void lanes, lanes still to pop (A to E), lanes expected and lanes written (E to A). -/
structure QEntry where
  vals : Tab DWord := []
  resid : Mask := 0
  void : Mask := 0
  pend : Mask := 0
  expected : Mask := 0
  written : Mask := 0
  deriving DecidableEq, Repr

/-- A queue: its capacity in bytes of queue store and its entries, oldest first (R55). -/
structure Queue where
  cap : Nat := 0
  entries : List QEntry := []
  deriving DecidableEq, Repr

/-- An access of the gather engine that has issued and whose entry is still to be pushed (R89, R110, R112, R156). -/
structure GatherOp where
  q : Nat
  entry : QEntry
  deriving DecidableEq, Repr

/-- State of a ring slot (Table 7-6). -/
inductive SlotState where
  | free
  | claimed
  | filled
  deriving DecidableEq, Repr

/-- A declared ring (Tables 10-3 and 7-6): geometry, the stream engine on each side (none: the team), head, tail,
slots that are not FREE, and pending-byte counters (unlisted 0). -/
structure Ring where
  slotSize : Nat
  count : Nat
  prod : Option Nat := none
  cons : Option Nat := none
  head : Nat := 0
  tail : Nat := 0
  slots : Tab SlotState := []
  pending : Tab Nat := []
  deriving DecidableEq, Repr

/-- A stash map of a team (R160, R161): base, length, and the 128-byte lines held, each dirty or not. -/
structure StashMap where
  base : Nat
  len : Nat
  lines : Tab Bool := []
  deriving DecidableEq, Repr

/-! ## Traps -/

/-- A trap value (R431): LANE, DETAIL and TRAPVAL. -/
structure TrapValue where
  lane : Option Nat := none
  detail : BitVec 32 := 0
  value : DWord := 0
  deriving DecidableEq, Repr

/-- The kinds of pending cause that R429 tells apart. -/
inductive PendKind where
  | lattice
  | copy
  | taskLimit
  deriving DecidableEq, Repr

/-- A cause that is held for its team (R428, class T; R429). `object` is the AM tile, plane, batch or entry that the
instruction which raises it must name (R176, R269, R276). -/
structure PendCause where
  cause : Nat
  kind : PendKind
  object : Nat := 0
  value : TrapValue := {}
  deriving DecidableEq, Repr

/-- The trap registers (Table 25-2) and, while CAUSE.ACTIVE is 1, the handler's stream (R433). -/
structure TrapRegs where
  cause : DWord := 0
  pc : DWord := 0
  value : DWord := 0
  tvec : DWord := 0
  stream : Option StreamId := none
  deriving DecidableEq, Repr

/-! ## The Lattice -/

/-- A resolved tile operand (Tables 8-2 and 8-3, R173): where its elements lie, and its blocks. `base` is the address of
element (0, 0) and `aux` that of the descriptor plane, scale array or segment table; both are offsets when the operand is
in scratch. -/
structure TileSrc where
  scratch : Bool := false
  fmt : Nat := 0
  pack : Nat := 0
  cls : BitVec 2 := 0
  base : Nat := 0
  aux : Nat := 0
  stride : Nat := 0
  auxStride : Nat := 0
  rows : Nat := 0
  cols : Nat := 0
  i : Nat := 0
  j : Nat := 0
  deriving DecidableEq, Repr

/-- A Lattice command (R175): its operands as checked at issue. -/
inductive LatOp where
  | mls (mode : BitVec 4) (word : DWord)
  | mflip
  | mstream (mode : BitVec 4) (tile : Nat) (word : DWord)
  | mtile (mode : Nat) (a b : TileSrc) (ks : Nat) (tile : Nat)
  | amclr (tile : Nat)
  | amld (tile : Nat) (word : DWord)
  | amst (tile : Nat) (word : DWord)
  deriving DecidableEq, Repr

/-- A command of a team's sequence: its number, whether it has started to execute, the copy that must end before it may
start (R263), and the word of its instruction with the values of a, b and d (Table 19-2; word 0 for the command of a CPYM). -/
structure LatCmd where
  seq : Nat
  op : LatOp
  started : Bool := false
  after : Option Nat := none
  word : Word := 0
  vals : List DWord := []
  deriving DecidableEq, Repr

/-- An entry of a team's plane record (R178): the mode and the operand word of the MLS that loaded the plane. -/
structure PlaneEntry where
  mode : BitVec 4
  word : DWord
  deriving DecidableEq, Repr

/-- A team's plane record: the stationary and the shadow plane (R178). -/
structure Planes where
  stationary : Option PlaneEntry := none
  shadow : Option PlaneEntry := none
  deriving DecidableEq, Repr

/-- One element of an operand: its format code (Table 2-3), its bits, the E8M0 scale on it, and whether it lies beyond the
tensor (R173). -/
structure Elem where
  fmt : Nat
  bits : Nat
  scale : Nat := 127
  absent : Bool := false
  deriving DecidableEq, Repr

/-- A cause met in an operand, with the segment-table base, tile index and byte offset of a Pecan cause (R29). -/
structure OperandCause where
  cause : Nat
  seg : Nat := 0
  tile : Nat := 0
  off : Nat := 0
  deriving DecidableEq, Repr

/-- The operands of a K step that are in the core store: A by rows of 128, B by rows of 64 (R182, R458). -/
structure KOperands where
  step : Nat
  a : List Elem
  b : List Elem
  cause : Option OperandCause := none
  deriving DecidableEq, Repr

/-- A tile task: the fields of its record (Table 17-9), its region and packet, its progress, the flags and the K steps
that are staged (R183, R326). -/
structure TileTask where
  node : Nat := 0
  ctx : Nat := 0
  origin : Option Nat := none
  tag : Nat := 0
  rank : Nat := 0
  stamp : Nat := 0
  a : DWord := 0
  b : DWord := 0
  table : Nat := 0
  mode : Nat := 0
  c : Nat := 0
  clear : Bool := false
  wrback : Bool := false
  ndesc : Nat := 0
  args : List DWord := []
  crec : Nat := 0
  out : Nat := 0
  srcs : Option (TileSrc × TileSrc) := none
  progress : Nat := 0
  flags : BitVec 7 := 0
  staged : List KOperands := []
  deriving DecidableEq, Repr

/-- What the macro sequencer runs (R177): the oldest command of a team, or a tile task. -/
inductive LatItem where
  | team (wid : Nat)
  | task (t : TileTask)
  deriving DecidableEq, Repr

/-- Rows that have entered the array and whose sums have not landed (R182): for whom, the mode, the accumulator tile, the
first row, the rows of activations, the weights, and the K step they complete (none: an MSTREAM). -/
structure Landing where
  item : LatItem
  mode : Nat
  tile : Nat
  row0 : Nat
  rows : List (List Elem)
  weights : List Elem
  step : Option Nat
  last : Bool := false
  deriving DecidableEq, Repr

/-- An accumulator tile (R184): the team that holds it, its K-step progress and its elements by row × 64 + column
(unlisted 0). -/
structure AmTile where
  owner : Option Nat := none
  progress : Nat := 0
  data : Tab Word := []
  deriving DecidableEq, Repr

/-- A core's Lattice (R168 to R188): the accumulator tiles, for each plane the team whose recorded plane it holds and its
elements, the running item and whether it stands at a K-step boundary, the items held aside, the operand buffer of the
running MTILE, the tile tasks that are to write their results, each with its cause, and the sums still to land, oldest
first. -/
structure Lattice where
  am : Tab AmTile := []
  stationaryOf : Option Nat := none
  shadowOf : Option Nat := none
  stationary : List Elem := []
  shadow : List Elem := []
  run : Option LatItem := none
  boundary : Bool := false
  held : List LatItem := []
  buf : List KOperands := []
  finishing : List (TileTask × Nat) := []
  landing : List Landing := []
  deriving DecidableEq, Repr

/-! ## What a launch fixes -/

/-- An entry of a kernel's call-target table (R345). -/
structure CallEntry where
  off : Nat
  fs : Nat
  fv : Nat
  estr : Bool
  deriving DecidableEq, Repr

/-- What the kernel header gives a team (Table 17-8), with the constant image loaded at launch (Table 10-1). -/
structure Kernel where
  khdr : Nat := 0
  code : Nat := 0
  codeLen : Nat := 0
  eoff : Nat := 0
  constLen : Nat := 0
  const : Tab Byte := []
  calls : List CallEntry := []
  energy : Nat := 0
  ntiles : Nat := 0
  deriving DecidableEq, Repr

/-- What the launch fixes for a team (R336, R345, R191, Table 3-7). `granules` are the runs of core-store granules
(R216), `origin` is the command queue and packet whose completion the team's retirement feeds (R344). -/
structure TeamInfo where
  seq : BitVec 32 := 0
  node : Nat := 0
  ctx : Nat := 0
  lanes : Nat := 32
  vphys : Nat := 16
  kernel : Kernel := {}
  amq : Nat := 0
  scratchBytes : Nat := 0
  scratchGen : Nat := 0
  stashBytes : Nat := 0
  sslim : BitVec 57 := 0
  vspill : BitVec 57 := 0
  vspsz : Nat := 0
  granules : List (Nat × Nat) := []
  fields : List (BitVec 32) := []
  rank : Nat := 0
  stamp : Nat := 0
  args : List DWord := []
  origin : Option Nat := none
  lrec : List Byte := []
  deriving DecidableEq, Repr

/-- A task that a team holds (R362 to R366): its record, the node of its leaf's parent, the cycles used, the stamp of the solicit
when it is a responder, and its contribution once it has made one (R300). -/
structure HeldTask where
  words : List Word
  node : Nat
  cycles : Nat := 0
  resp : Option Nat := none
  given : Option DWord := none
  deriving DecidableEq, Repr

/-- The reply of the victim's task engine to a TASKSTEAL (R367): the record, its slot, the ticket, and the victim. -/
structure Lend where
  victim : Nat
  words : List Word
  slot : Nat
  ticket : Nat
  deriving DecidableEq, Repr

/-! ## Teams -/

/-- A resident team. `v` is keyed by lane × 1024 + physical number (unlisted 0), `f` by register 1 to 7 (a mask;
unlisted 0), `k` by number, `vtop` by lane (bytes on the lane's vector stack), `rng` by lane (unlisted: the value that
the last write of RNGSEED gave the lane). `declined` holds the pages whose request was declined
and whose waiter has not issued since (R234). `acq` is the acquired-from table (R255), `acks` the outstanding
acknowledgements (R244). `batch` is the number of the next batch and `stale` the batches that dropped stale bytes (R268, R269), `solicits` the
stamps not consumed, `moves` the tickets begun, `moveReply`, `stolen` and `cancelled` the replies that SOLICIT.MOVE, TASKSTEAL and
TRGCANCEL wait for (none inside: refused; a reply to SOLICIT.MOVE names its operands first). `fenced` tells that a FENCE has issued, and `seen` what record the latest atomic read that
no acquire has used (R239). `resident` and `lastIssue` serve the region's time limits (R208, R354), with what they have
reported. -/
structure Team where
  info : TeamInfo := {}
  a : AStream := {}
  frags : Tab Frag := []
  parked : List Parked := []
  parkSeq : Nat := 0
  arm : BitVec 16 := 0
  k : Tab DWord := []
  v : Tab Word := []
  f : Tab Mask := []
  vtop : Tab Nat := []
  q : Tab Queue := []
  gather : List GatherOp := []
  fstat : BitVec 7 := 0
  rngSeed : DWord := 0
  rng : Tab DWord := []
  trap : TrapRegs := {}
  pend : List PendCause := []
  terminated : Bool := false
  lat : List LatCmd := []
  latSeq : Nat := 0
  planes : Planes := {}
  scratch : Tab Byte := []
  rings : Tab Ring := []
  ringMem : Tab Byte := []
  stash : Tab StashMap := []
  acq : List (Nat × Nat) := []
  declined : List (StreamId × Nat) := []
  acks : Nat := 0
  batch : Nat := 0
  stale : List Nat := []
  task : Option HeldTask := none
  solicits : List Nat := []
  moves : List Nat := []
  moveReply : Option (Nat × Nat × Option Nat) := none
  lend : Option Lend := none
  stolen : Option (Option (List Word)) := none
  cancelled : Option (Nat × Nat) := none
  fenced : Bool := false
  seen : Option (Option (Nat × Nat)) := none
  resident : Nat := 0
  lastIssue : Nat := 0
  stalled : Bool := false
  deriving DecidableEq, Repr

/-! ## Copies and stream records -/

/-- A stream record (Table 12-5). -/
structure StreamRec where
  ring : Nat
  drain : Bool
  fmt : Nat
  pack : Nat
  cls : BitVec 2
  shadow : Bool
  ofmt : Nat
  tile0 : Nat
  base : Nat
  aux : Nat
  exts : List Nat
  strs : List Int
  deriving DecidableEq, Repr

/-- A copy or stream record under way (R261 to R277): the launch that owns it or the packet that it serves, the stream engine that runs
it (R271), its entry of the copy table, its batch (that of the next CPSEAL while unsealed), its kind and fields as Tables 12-2 and 12-4 give them, the bytes
done, the sectors on their way to another core, and for a stream record its fields, whether its slot is claimed and the
flags of its roundings. `out` marks a copy that has ended but for those sectors. -/
structure Copy where
  owner : Option Nat := none
  origin : Option Nat := none
  core : Nat := 0
  engine : Nat := 0
  node : Nat := 0
  ctx : Nat := 0
  rank : Nat := 0
  entry : Nat := 0
  batch : Nat := 0
  kind : Nat := 0
  fn : Nat := 0
  size : Nat := 1
  src : Nat := 0
  dst : Nat := 0
  len : Nat := 0
  srcScratch : Bool := false
  dkind : Nat := 0
  shadow : Bool := false
  cls : BitVec 2 := 0
  rcore : Nat := 0
  rslot : Nat := 0
  rgen : Nat := 0
  done : Nat := 0
  flying : Nat := 0
  out : Bool := false
  stopped : Bool := false
  moved : Bool := false
  stale : Bool := false
  srec : Option StreamRec := none
  claimed : Bool := false
  flags : BitVec 7 := 0
  deriving DecidableEq, Repr

/-- A copy sector on its way to the scratch of another core (R267). -/
structure SectorFlight where
  copy : Nat
  core : Nat
  slot : Nat
  gen : Nat
  off : Nat
  bytes : List Byte
  deriving DecidableEq, Repr

/-- A batch sealed by CTRSEAL whose completion raises a counter (R404). -/
structure SealRaise where
  owner : Nat
  batch : Nat
  core : Nat
  ctr : Nat
  deriving DecidableEq, Repr

/-! ## Acorns and the fabric -/

/-- An acorn descriptor (Table 20-2). -/
structure AcornDesc where
  op : Nat
  rcen : Bool
  chen : Bool
  rearm : Bool
  ctr : Nat
  chctr : Nat
  rctr : Nat
  dev : Nat
  rcore : Nat
  rfn : Nat
  ty : Nat
  thresh : Nat
  chinc : Nat
  step : Nat
  src : Nat
  dst : Nat
  len : Nat
  w : Int
  group : Nat
  ncontrib : Nat
  cidx : Nat
  chunk : Nat
  deriving DecidableEq, Repr

/-- An acorn that is armed or firing (R397, R398): its descriptor, region, context, rank and launch; once its region is torn down
it applies neither chain nor re-arm. -/
structure Acorn where
  desc : AcornDesc
  node : Nat
  ctx : Nat
  rank : Nat
  owner : Nat := 0
  firing : Bool := false
  torn : Bool := false
  deriving DecidableEq, Repr

/-- Who issued an operation of the fabric: an acorn of a core, a packet, or a team by its launch. -/
inductive OpSource where
  | acorn (core index : Nat)
  | packet (key : Nat)
  | team (seq : Nat)
  deriving DecidableEq, Repr

/-- A fired operation or FABRIC packet (R400, R413): its fields, how many of its packets are not yet in retry buffers or
performed, how many of its flits are not yet performed, whether it has failed, with the cause, port and address of its first failure,
and whether it has completed locally. -/
structure FabOp where
  desc : AcornDesc
  source : OpSource
  core : Nat
  node : Nat
  ctx : Nat
  owner : Option Nat := none
  unsent : Nat := 0
  unacked : Nat := 0
  failed : Bool := false
  cause : Nat := 0
  port : Nat := 0
  addr : Nat := 0
  localDone : Bool := false
  deriving DecidableEq, Repr

/-- A contribution to a reduction (R40): its fixed-point integer, and the special values that it holds. -/
structure Contrib where
  val : Int := 0
  nan : Bool := false
  pinf : Bool := false
  ninf : Bool := false
  deriving DecidableEq, Repr

/-- What a unit of a reduction fixes (R288). -/
structure UnitFields where
  op : Nat
  w : Int
  ncontrib : Nat
  units : Nat
  crec : Nat
  cctr : Nat
  ccore : Nat
  cen : Bool
  deriving DecidableEq, Repr

/-- A flit (R283, R405): its operation (Table 13-3; 16 an 8-byte atomic, 17 a SIGNAL, 18 a counter raise), its type, its
destination, and its words by index in the 64-byte unit; on the switch path the key, fields and contributions; and the identifier and
flit count of its operation with the counter that the last of its flits raises (R400). -/
structure Flit where
  op : Nat
  ty : Nat := 0
  fn : Nat := 0
  dev : Nat := 0
  scratch : Bool := false
  core : Nat := 0
  slot : Nat := 0
  gen : Nat := 0
  unit : Nat := 0
  words : Tab Nat := []
  group : Nat := 0
  chunk : Nat := 0
  contribs : List Nat := []
  fields : Option UnitFields := none
  sums : Tab Contrib := []
  opId : Nat := 0
  opCount : Nat := 0
  rcen : Bool := false
  rctr : Nat := 0
  rcore : Nat := 0
  deriving DecidableEq, Repr

/-- Which operation an outstanding flit belongs to: a COLL, a fabric operation, or a team's counter raise or store; or it comes from
another device, under that device's number, and is forwarded (R410). -/
inductive FlitOwner where
  | coll (id : Nat)
  | op (id : Nat)
  | team (seq : Nat) (ref : Nat)
  | transit (src num : Nat)
  deriving DecidableEq, Repr

/-- A flit whose end-to-end acknowledgement is outstanding (R406 to R408): its place in a port's retry buffer, if it has left
by one, the region and context concerned, the local address of word 0 of the unit that a GET reads, and the launch in whose
acknowledgement counter it counts. -/
structure OutFlit where
  flit : Flit
  owner : FlitOwner
  port : Option Nat := none
  link : Nat := 0
  replays : Nat := 0
  buffered : Bool := false
  node : Nat := 0
  ctx : Nat := 0
  back : Nat := 0
  counted : Option Nat := none
  deriving DecidableEq, Repr

/-- A lane of a COLL: its flit, the word of the unit, and the value it receives where an earlier lane of the same word gives
it (R283). -/
structure CollLane where
  lane : Nat
  flit : Nat
  word : Nat
  given : Option Nat := none
  deriving DecidableEq, Repr

/-- A COLL that has not completed (R283 to R286). `replies` are by flit × 16 + word. -/
structure Coll where
  owner : Nat
  core : Nat
  node : Nat
  frag : Nat
  reg : Nat
  op : Nat
  group : Nat
  chunk : Nat
  batch : Nat
  pending : List Nat := []
  lanes : List CollLane := []
  replies : Tab Nat := []
  win : Bool := false
  deriving DecidableEq, Repr

/-- An accumulator unit of the reduction root (R288 to R290). -/
structure RootUnit where
  group : Nat
  chunk : Nat
  unit : Nat
  ctx : Nat
  fields : UnitFields
  sums : Tab Contrib := []
  bitmap : List Nat := []
  since : Nat := 0
  deriving DecidableEq, Repr

/-- The record state of a chunk of a group (R291). -/
structure ChunkRec where
  group : Nat
  chunk : Nat
  ctx : Nat
  fields : UnitFields
  completed : Nat := 0
  rejected : Nat := 0
  abandoned : Nat := 0
  flags : BitVec 7 := 0
  deriving DecidableEq, Repr

/-- A flit that waits at the root, with its source device and its end-to-end number there (R288). -/
structure RootFlit where
  flit : Flit
  src : Nat
  num : Nat
  deriving DecidableEq, Repr

/-- How many flits of an operation of another device have been performed here (R400). -/
structure Inbound where
  src : Nat
  op : Nat
  count : Nat
  deriving DecidableEq, Repr

/-- A port of the Jenile fabric (R405, R406): whether its link is up, the next sequence number it sends, the next it expects,
and the flits in its retry buffer, oldest first. -/
structure Port where
  up : Bool := false
  next : Nat := 0
  expect : Nat := 0
  retry : List Nat := []
  deriving DecidableEq, Repr

/-- End-to-end numbers accepted from a source device (R408): all below `low`, and those listed. -/
structure Accepted where
  low : Nat := 0
  seen : List Nat := []
  deriving DecidableEq, Repr

/-- The acknowledgement that the device sent last: to which device, for which number, its refusing cause, its stale mark and the
words returned. -/
structure Reply where
  dev : Nat
  num : Nat
  cause : Nat
  stale : Bool
  words : Tab Nat
  deriving DecidableEq, Repr

/-- A pause of a reduction group as a member holds it (R384): the initiator, the pause's number, the first chunk that waits, whether it
is only proposed, the region whose teams it saves, and whether it has reported quiescence. -/
structure Pause where
  init : Nat
  number : Nat
  limit : Nat
  proposed : Bool := true
  node : Nat := 0
  quiet : Bool := false
  deriving DecidableEq, Repr

/-- A pause or resume that a FABRIC packet of this device runs (R414): its packet, its number, its members, their answers (one more than the
highest chunk named), reports or acknowledgements, the chunk at which it stops once it is known, and when it began to wait. -/
structure Gang where
  key : Nat
  number : Nat
  group : Nat
  node : Nat
  resume : Bool
  members : List Nat
  answers : Tab Nat := []
  reports : List Nat := []
  limit : Option Nat := none
  since : Nat := 0
  deriving DecidableEq, Repr

/-! ## Solicit and census -/

/-- The state of a tile-directory entry (Table 13-6); a FREE entry is not listed. -/
inductive DirState where
  | live
  | out
  | inn
  deriving DecidableEq, Repr

/-- An entry of a core's tile directory (R293): its partner of a move is a core and an entry. -/
structure DirEntry where
  key : DWord
  handle : DWord
  state : DirState
  partner : Nat × Nat := (0, 0)
  node : Nat := 0
  deriving DecidableEq, Repr

/-- An entry of a core's handler table (R294, R298). -/
structure Handler where
  word0 : Word
  rank : Nat
  node : Nat
  deriving DecidableEq, Repr

/-- A core's part in a census (R301): its responders that have not ended, the combination and count so far, and whether it
has answered. -/
structure CoreCensus where
  waiting : Nat := 0
  acc : DWord := 0
  count : Nat := 0
  answered : Bool := false
  deriving DecidableEq, Repr

/-- An entry of the census root (R295, R301, R302). -/
structure Census where
  owner : Nat
  core : Nat
  node : Nat
  ctx : Nat
  op : Nat
  key : DWord
  mask : DWord
  arg : Nat
  ctrl : Nat
  recAddr : Nat
  cores : Tab CoreCensus := []
  acc : DWord := 0
  count : Nat := 0
  failed : Bool := false
  summed : Bool := false
  complete : Bool := false
  orphan : Bool := false
  deriving DecidableEq, Repr

/-- What the census root broadcasts under a stamp: a solicit, or the commit of a move (R297, R299). -/
inductive Broadcast where
  | solicit
  | commit (src srcEntry dst dstEntry : Nat) (handle : DWord)
  deriving DecidableEq, Repr

/-! ## Commands -/

/-- A transfer of at most 4 KiB between the device and a host (R454). -/
structure HostXfer where
  key : Nat
  node : Nat
  ctx : Nat
  host : Nat
  va : Nat
  len : Nat
  toDevice : Bool
  deriving DecidableEq, Repr

/-- A packet that has been parsed and has not completed (R341, R344): its queue and depth, its address, the header's fields, its
region's node and context (none: physical addresses), and the parts of its work still to end. -/
structure Packet where
  queue : Nat := 0
  depth : Nat := 0
  addr : Nat := 0
  opcode : Nat := 0
  sigen : Bool := false
  sigop : Nat := 0
  sigaddr : Nat := 0
  sigval : Nat := 0
  intr : Bool := false
  tag : Nat := 0
  node : Nat := 0
  ctx : Option Nat := none
  left : Nat := 0
  deriving DecidableEq, Repr

/-- A level of indirect buffers that a lane parses (R349): its base, slots and next slot, and the INDIRECT packet. -/
structure Level where
  buf : Nat
  slots : Nat
  next : Nat
  key : Nat
  deriving DecidableEq, Repr

/-- A command queue (R340, Table 27-4): registers, the indirect buffers being parsed, innermost first, and the WAIT that
is pending. -/
structure CmdQueue where
  wptr : BitVec 32 := 0
  rptr : BitVec 32 := 0
  halted : Bool := false
  base : Nat := 0
  slots : Nat := 1
  node : Nat := 0
  producer : Nat := 0
  peer : Nat := 0
  levels : List Level := []
  waiting : Option Nat := none
  deriving DecidableEq, Repr

/-- A WAIT that is pending (R352): the word, the test, the packet that waits, whether it is installed in the watch table, and whether a
test has held. -/
structure Watch where
  pa : Nat
  size : Nat
  cmp : Nat
  mask : Nat
  val : Nat
  key : Nat
  installed : Bool := false
  hit : Bool := false
  deriving DecidableEq, Repr

/-! ## Saved teams -/

/-- Why a team was saved (Table 19-2). -/
inductive SaveReason where
  | rank
  | gang
  | mode
  | deadlock
  deriving DecidableEq, Repr

/-- A saved team (R371 to R381): its core and frame, its reason, what its frame holds, the queue of Lattice commands and the
accumulator tiles with it, the barrier tags released since, and whether a shootdown of its context has completed. -/
structure Saved where
  core : Nat
  frame : Nat
  reason : SaveReason
  team : Team
  tiles : Tab AmTile := []
  released : List Nat := []
  shot : Bool := false
  deriving DecidableEq, Repr

/-! ## The memory system -/

/-- A page as a leaf gives it: first virtual address, size, physical base and attributes (R228). -/
structure Leaf where
  vbase : Nat
  size : Nat
  pbase : Nat
  attr : PageAttr
  deriving DecidableEq, Repr

/-- An entry of a translation look-aside buffer: one resident page of a context (R230). -/
structure TlbEntry where
  ctx : Nat
  leaf : Leaf
  deriving DecidableEq, Repr

/-- A requester of a page: a team's stream, an engine of a core with the team and the work concerned, or the Apex die (Table 10-7). -/
inductive Requester where
  | team (wid : Nat) (stream : StreamId)
  | engine (core : Nat) (team : Nat) (work : Nat)
  | apex (id : Nat)
  deriving DecidableEq, Repr

/-- An entry of a fault filter (R232, R233): its key, the access types joined (Table 10-7), the waiters, whether a
core's entry has joined a cluster entry, and whether the record of a cluster or Apex entry has been posted. -/
structure FilterEntry where
  ctx : Nat
  page : Nat
  size : Nat
  types : BitVec 8
  waiters : List Requester
  joined : Bool := false
  posted : Bool := false
  node : Nat := 0
  deriving DecidableEq, Repr

/-- A line of L1: its number and the valid bits of its two sectors (R218). -/
structure L1Line where
  line : Nat
  valid : BitVec 2
  deriving DecidableEq, Repr

/-- An outstanding fill of a line, the sectors it names, whether it is stale, and whether it allocates in L1
(R218, R221, R222). -/
structure Fill where
  line : Nat
  sectors : BitVec 2
  stale : Bool := false
  alloc : Bool := true
  deriving DecidableEq, Repr

/-- A way of an L2 set: line number, reuse class, the region it is counted for, the region that pinned it and the
valid bits of its two sectors (R225, R226, R165). -/
structure L2Way where
  line : Nat
  cls : BitVec 2
  node : Option Nat
  pinNode : Option Nat := none
  sectors : BitVec 2
  deriving DecidableEq, Repr

/-- A set of an L2 slice: its valid ways by number, and the ways in order of use, latest first (R226). -/
structure L2Set where
  ways : Tab L2Way := []
  order : List Nat := []
  deriving DecidableEq, Repr

/-- The race tag of a 64-byte sector (Table 11-4). -/
structure RaceTag where
  wid : BitVec 12 := 0
  gen : BitVec 4 := 0
  mask : BitVec 8 := 0
  deriving DecidableEq, Repr

/-- A writer identifier's entry of the generation table (R252). -/
structure GenEntry where
  cur : BitVec 4 := 0
  lap : Bool := false
  deriving DecidableEq, Repr

/-- A release record of a slice: word address and releaser (R254). -/
structure RelRecord where
  word : Nat
  wid : Nat
  gen : BitVec 4
  deriving DecidableEq, Repr

/-! ## Regions and the rank tree -/

/-- A region: a loaded node with the effective values of its control block (Tables 16-2 and 17-1). `leaves` is its leaf
list, `calendar` the items that it holds as a calendar node, `loads` counts its LOADs (R317). -/
structure Region where
  loaded : Bool := false
  parent : Option Nat := none
  calendarKind : Bool := false
  leafCal : Bool := false
  script : Nat := 0
  depth : Nat := 0
  margin : Nat := 0
  words : List Word := List.replicate 8 0
  ctx : Nat := 0
  l2part : Nat := 0
  racechk : Bool := true
  masklock : Bool := false
  fmaskCeil : BitVec 16 := 0xFFFF
  fmask : BitVec 16 := 0xFFFF
  wdog : Nat := 1
  fdom : Nat := 0
  teamLim : Nat := 0
  taskLim : Nat := 1
  qslot : Nat := 1
  qam : Nat := 0
  qvreg : Nat := 0
  qcs : Nat := 0
  leaves : List Nat := []
  deriving DecidableEq, Repr

/-- A launch on its way to a core (R345 to R347): what it fixes for the team, its initial SSPILL, the queue capacities in bytes and the
ring declarations. -/
structure Launch where
  info : TeamInfo
  sspill : BitVec 57
  caps : List Nat
  rings : Tab Ring
  deriving DecidableEq, Repr

/-- The work that an item of a leaf carries (Table 1-3). -/
inductive Work where
  | launch (l : Launch)
  | saved (seq : Nat)
  | tile (t : TileTask)
  | task (words : List Word)
  | seg (copy part : Nat)
  | stream (copy : Nat)
  | op (id src dst len : Nat)
  | host (x : HostXfer)
  deriving DecidableEq, Repr

/-- An item of a leaf or on its way to one (R313, R318): its rank, its push order, the entry node of a firmware push, the
time since which it waits at a full leaf and whether that wait has been reported, and its work. -/
structure LeafItem where
  rank : Nat
  stamp : Nat
  entry : Option Nat := none
  since : Nat := 0
  reported : Bool := false
  work : Work
  deriving DecidableEq, Repr

/-- A leaf (R311, R318, R319, R321): its parent, whether it is a calendar leaf, its items in the order of R318, and the
pushes that wait for it in arrival order. -/
structure PifoLeaf where
  parent : Option Nat := none
  calendar : Bool := false
  items : List LeafItem := []
  waiting : List LeafItem := []
  deriving DecidableEq, Repr

/-- What a copy or stream engine runs: an item of its leaf, and whether it is to stop at its next boundary (R322). -/
structure EngineRun where
  item : LeafItem
  stop : Bool := false
  deriving DecidableEq, Repr

/-- A firmware push that descends the tree (R313, R317): its target leaf, the nodes still before it, the rank that the last
node returned, and its task fields. `heldAt` is the calendar node that holds it (R319). -/
structure Descent where
  leaf : Nat
  path : List Nat
  fields : List Word
  heldAt : Option Nat := none
  item : LeafItem
  deriving DecidableEq, Repr

/-- An arrival at a route tag: the member's launch, its writer identifier and that identifier's generation after the
arrival (R211, R255). -/
structure Arrival where
  seq : Nat
  wid : Nat
  gen : Nat
  deriving DecidableEq, Repr

/-- A route tag (R210): count, members with their joining streams, and the arrivals of the present round. -/
structure RouteTag where
  count : Nat := 0
  members : List (Nat × Bool) := []
  arrived : List Arrival := []
  deriving DecidableEq, Repr

/-- The coalescer of a fault domain (R353): its pending count and the device times of its oldest and newest pending
events. -/
structure Coalescer where
  pending : Nat := 0
  oldest : Nat := 0
  newest : Nat := 0
  deriving DecidableEq, Repr

/-! ## Cores, clusters and the device -/

/-- A lease of a lent slot of a core's task ring: its ticket, and the device time at which it ends (R367). -/
structure Lease where
  slot : Nat
  ticket : Nat
  ends : Nat
  deriving DecidableEq, Repr

/-- One core (Table 1-1): its partition record (Table 17-2: L1 in 64 KiB units, tiles for tile tasks, staging
granules), its Lattice, first-level TLB (latest first), fault filter,
L1 sets (unlisted empty; latest line first), outstanding fills, the scratch generation counter (R217), what its stream engines
run, the trigger counters (R394), the acorn table (R397), the tile directory and handler table (R293, R294), the stamp that the
Chord network delivers next (R299), the spawns that hold that delivery (R359), the next lend number and the leases of its task
ring (R367), since when the record at the head of its task leaf stands there (R361), and the stale-sector counter (R267). -/
structure Core where
  l1Units : Nat := 4
  ttiles : Nat := 0
  stage : Nat := 0
  lat : Lattice := {}
  tlb : List TlbEntry := []
  filter : List FilterEntry := []
  l1 : Tab (List L1Line) := []
  fills : List Fill := []
  scratchGen : Nat := 0
  streams : Tab EngineRun := []
  ctrs : Tab DWord := []
  acorns : Tab Acorn := []
  dir : Tab DirEntry := []
  handlers : Tab Handler := []
  stamp : Nat := 0
  spawns : List (List Word) := []
  lends : Nat := 0
  leases : List Lease := []
  headStamp : Option Nat := none
  headSince : Nat := 0
  staleSectors : Nat := 0
  deriving DecidableEq, Repr

/-- One cluster: its TLB sets (unlisted empty) and fault filter (R230, R233), and whether its power is gated (R457). -/
structure Cluster where
  tlb : Tab (List TlbEntry) := []
  filter : List FilterEntry := []
  gated : Bool := false
  deriving DecidableEq, Repr

/-- The shootdown block (Table 19-5). -/
structure Shootdown where
  ctx : Nat := 0
  all : Bool := false
  base : Nat := 0
  count : Nat := 0
  busy : Bool := false
  rejected : Bool := false
  completed : Nat := 0
  deriving DecidableEq, Repr

/-- The attestation block (R448, Table 27-2): nonce, report address, status bits and the count of reports. -/
structure Attest where
  nonce : Tab DWord := []
  report : Nat := 0
  busy : Bool := false
  done : Bool := false
  rejected : Bool := false
  huskValid : Bool := false
  huskErr : Bool := false
  count : Nat := 0
  deriving DecidableEq, Repr

/-- The bring-up registers (Table 27-3) and the status of bring-up (Table 27-2): the device identifier and the context-table and
fault-domain bases stand in `Device`. -/
structure BringUp where
  ready : Bool := false
  fwOk : Bool := false
  fwBad : Bool := false
  buErr : Bool := false
  code : Nat := 0
  husk : Nat := 0
  routes : Nat := 0
  peers : Nat := 0
  saves : Tab Nat := []
  tasks : Tab Nat := []
  deriving DecidableEq, Repr

/-- A power island (Table 27-5): its cap, how many steps of 100 MHz its clock stands below the nominal clock (R456), the power measured
last, and the energy budget of its cores. -/
structure Island where
  cap : Nat := 0
  below : Nat := 0
  power : Nat := 0
  budget : Nat := 64
  deriving DecidableEq, Repr

/-- Registers and tables of the Apex die and of the memory system that belong to no core. `time` counts Apex cycles;
`l2Mode` is MODE and PCNT of the L2 mode register, and `l2Next` what an L2 mode switch brings there (R391); `scrubWraps` are the writer identifiers that have wrapped during the
scrubber's present pass (R252); `bad` lists the HBM sectors that are uncorrectable (R443). -/
structure Device where
  devId : Nat := 0
  time : Nat := 0
  devFdom : Nat := 0
  coalescers : Tab Coalescer := []
  ctxBase : Nat := 0
  nodes : Tab Region := []
  leaves : Tab PifoLeaf := []
  descents : List Descent := []
  pushSeq : Nat := 0
  scripts : Tab (List Word) := []
  l2Parts : Nat := 1
  l2Mode : Nat := 0
  l2Next : Option Nat := none
  l2 : Tab L2Set := []
  tags : Tab RaceTag := []
  gens : Tab GenEntry := []
  relRecords : Tab (List RelRecord) := []
  scrubWraps : List Nat := []
  apexFilter : List FilterEntry := []
  declined : List (Requester × Nat) := []
  routeTags : Tab RouteTag := []
  shoot : Shootdown := {}
  bad : List Nat := []
  deriving DecidableEq, Repr

/-- The copies and stream records under way, what the copy engines run, the sectors on their way to other cores and the batches
sealed by CTRSEAL (R259 to R277, R404). -/
structure Engines where
  copies : Tab Copy := []
  copySeq : Nat := 0
  running : Tab EngineRun := []
  sectors : List SectorFlight := []
  seals : List SealRaise := []
  deriving DecidableEq, Repr

/-- Acorn operations, the Jenile ports, the collectives, the reduction root, gang pauses and the census root. `out` are the flits
not yet acknowledged, `flits` those of them whose home is this device, `reply` the acknowledgement sent last, `chunkMax`
holds one more than the highest chunk named for each group (R384), and `initiated` the number of the pause that this device holds for a
group as its initiator (R414). -/
structure Fabric where
  ops : Tab FabOp := []
  opSeq : Nat := 0
  out : Tab OutFlit := []
  outSeq : Nat := 0
  flits : List Nat := []
  ports : Tab Port := []
  accepted : Tab Accepted := []
  inbound : List Inbound := []
  reply : Option Reply := none
  routes : Tab Nat := []
  colls : Tab Coll := []
  collSeq : Nat := 0
  rootIn : List RootFlit := []
  units : List RootUnit := []
  chunks : List ChunkRec := []
  chunkMax : Tab Nat := []
  pauses : Tab Pause := []
  gangs : List Gang := []
  gangSeq : Nat := 0
  initiated : Tab Nat := []
  stamp : Nat := 0
  census : Tab Census := []
  broadcasts : Tab Broadcast := []
  deriving DecidableEq, Repr

/-- The firmware core: command queues, the lanes still to parse in the present round (R342), the packets that have not completed,
the watch table, the number of the next launch and the saved teams by launch. -/
structure Firmware where
  queues : Tab CmdQueue := []
  round : List Nat := []
  packets : Tab Packet := []
  packetSeq : Nat := 0
  watches : List Watch := []
  launchSeq : Nat := 0
  saved : Tab Saved := []
  deriving DecidableEq, Repr

/-- Bring-up, attestation, semaphores, islands and reliability. `lastTie` is the port that won the previous semaphore tie (R455),
`errors` the counts of corrected errors by structure and place with the times of their latest records (R445), `lastFaults` the
latest 256 fault records (R446), `readData` what a host read last. -/
structure HostSide where
  bring : BringUp := {}
  attest : Attest := {}
  semaphores : Tab Nat := []
  lastTie : Nat := 1
  islands : Tab Island := []
  errors : Tab Nat := []
  errorTimes : Tab Nat := []
  lastFaults : List (List Byte) := []
  fatal : Bool := false
  readData : Nat := 0
  deriving DecidableEq, Repr

/-! ## The machine -/

/-- The stream whose instruction issues. -/
structure Cur where
  wid : Nat
  stream : StreamId
  deriving DecidableEq, Repr

/-- What the schedule can name as the next turn: one instruction of a stream, or one engine step or host action. -/
inductive Turn where
  | issue (wid : Nat) (stream : StreamId)
  | event (i : Instr) (arg : List Nat)
  deriving DecidableEq, Repr

/-- The whole machine. `mem` is physical memory, by address; an unlisted byte reads 0 (assumption 4). `tick` counts
the steps and gives each free value a fresh argument. `agenda` is the schedule that the environment has laid down:
which agent moves next, and what the host sends. `cur` is the stream that issues, `arg` what an engine step or host
action of this turn concerns. -/
structure State where
  mem : List Host.Cell := []
  tick : Nat := 0
  cur : Option Cur := none
  arg : List Nat := []
  agenda : List Turn := []
  teams : Tab Team := []
  cores : Tab Core := []
  clusters : Tab Cluster := []
  dev : Device := {}
  eng : Engines := {}
  fab : Fabric := {}
  fw : Firmware := {}
  host : HostSide := {}
  deriving DecidableEq, Repr

/-- Why the machine stops with a fault. -/
inductive Fault where
  /-- Raised by the meaning of an instruction when no live stream issues it. Safe: `step` issues an instruction only
  for a live stream, so no run meets it. -/
  | noIssuer
  deriving DecidableEq, Repr

/-- Why an instruction is refused. -/
inductive Refusal where
  /-- Raised by the dispatch for an instruction that has no meaning yet. Safe: nothing follows from it. -/
  | notModelled (mnemonic : String)
  deriving DecidableEq, Repr

/-- The machine right after a cold reset. -/
def State.reset : State := {}

end Sys2Proof.Machine
end

