-- ==== Sys2Proof/Machine/Accept.lean ====
section
/-!
DEFINITION. Machine/Accept.lean: what each instruction accepts: the streams it may issue in (R76, R77), the hints before
it (R68 to R75) and the classes of its operand fields (R65, R67), with the decode causes of Table 4-8 they give; and
the decoder of a word at its issue.
-/
namespace Sys2Proof.Machine

/-- The A-stream may issue a major (Table 4-7). -/
def majorInA (op : Nat) : Bool :=
  decide (op ≤ 0x18) || (decide (0x20 ≤ op) && decide (op ≤ 0x2C)) ||
  (decide (0x60 ≤ op) && decide (op ≤ 0x6E) && op != 0x65) || (decide (0x71 ≤ op) && decide (op ≤ 0x7E))

/-- The E-stream may issue a major (Table 4-7). -/
def majorInE (op : Nat) : Bool :=
  (decide (0x19 ≤ op) && decide (op ≤ 0x1E)) || (decide (0x2D ≤ op) && decide (op ≤ 0x5F)) || op == 0x65 || op == 0x70 ||
  (decide (0x77 ≤ op) && decide (op ≤ 0x7E))

/-- The stream may issue the major. -/
def majorIn (estr : Bool) (op : Nat) : Bool := if estr then majorInE op else majorInA op

/-- The MOD fields an instruction takes (R70): rm (and the stochastic mode), ns, the ord values, scope and class. -/
structure ModRule where
  rm : Bool := false
  sto : Bool := false
  ns : Bool := false
  ords : List (BitVec 2) := []
  scope : Bool := false
  cls : Bool := false
  deriving DecidableEq, Repr

/-- The hints an instruction accepts beside SCHED and CHAIN: an IMM hint, a MOD hint with these fields, and the number
of EXT sources it requires. -/
structure HintRule where
  imm : Bool := false
  mod : Option ModRule := none
  ext : Nat := 0
  deriving DecidableEq, Repr

/-- The MOD rule of the memory instructions that only take class (Table 5-9). -/
def classRule : HintRule := { imm := true, mod := some { cls := true } }

/-- The MOD rule of an ordered access (Tables 5-9 and 7-2). -/
def orderRule (ords : List (BitVec 2)) : HintRule :=
  { imm := true, mod := some { ords := ords, scope := true, cls := true } }

/-- The MOD rule of the packed arithmetic (Table 6-6) and, with the stochastic mode, of the conversions (R137 to R140). -/
def roundRule (sto ns : Bool) : HintRule := { mod := some { rm := true, sto := sto, ns := ns } }

/-- The hints that each instruction accepts beside SCHED and CHAIN (R69, R71, R91, R93, R98, R129, R137 to R140, R269 and
Tables 5-9, 6-6, 7-2, 12-1 and 13-7). -/
def hintRule : Instr → HintRule
  | .addImmA .. | .bfxSA .. | .bfxZA .. | .bfiA .. | .liA .. | .liHiA .. => { imm := true }
  | .lds .. => orderRule [1]
  | .sts .. => orderRule [2]
  | .atom .. | .atomq .. | .aggadd .. | .aggaddOne .. => orderRule [1, 2, 3]
  | .ldq .. | .stq .. | .gathq .. | .scatq .. => classRule
  | .cpy .. | .cpym .. | .cpyr .. => { imm := true }
  | .cpwait .. => { imm := true }
  | .addImmE .. | .bfxSE .. | .bfxZE .. | .bfiE .. | .liE .. | .liKImm .. => { imm := true }
  | .hadd .. | .hsub .. | .hmul .. | .hmin .. | .hmax .. | .hfma .. | .hfms .. => roundRule false false
  | .f8add .. | .f8sub .. | .f8mul .. | .f8min .. | .f8max .. | .f8fma .. | .f8fms .. => roundRule false true
  | .cvt .. | .cvtd .. | .cvtmx .. => roundRule true false
  | .cvtf _ _ _ _ f => if 14 ≤ f.toNat then { ext := 2 } else roundRule true (f != 12)
  | .solicit .. => { ext := 2 }
  | _ => {}

/-- A MOD field that the instruction does not take, or a value that R30, R70 or R106 reserves: cause 0x008. -/
def modBad (r : ModRule) (cls ord : BitVec 2) (scope : BitVec 3) (ns : BitVec 1) (rm : BitVec 3) : Bool :=
  (rm != 0 && !r.rm) || decide (5 ≤ rm.toNat) || (rm == 4 && !r.sto) || (ns != 0 && !r.ns) ||
  (ord != 0 && !r.ords.contains ord) || (scope != 0 && !r.scope) || decide (6 ≤ scope.toNat) || (cls != 0 && !r.cls)

/-- An operand field that names a queue (Table 4-3). -/
def isQueueField (f : BitVec 7) : Bool := decide (72 ≤ f.toNat) && decide (f.toNat ≤ 87)

/-- An operand field that names a latch (Table 4-3). -/
def isLatchField (f : BitVec 7) : Bool := decide (64 ≤ f.toNat) && decide (f.toNat ≤ 71)

/-- An operand field that pops a queue (Table 4-3). -/
def isPopField (f : BitVec 7) : Bool := decide (72 ≤ f.toNat) && decide (f.toNat ≤ 79)

/-- An x field that takes an index entry: a pop or peek of q4 or q5 (Tables 5-9 and 7-2). -/
def isIndexField (f : BitVec 7) : Bool := f == 76 || f == 77 || f == 84 || f == 85

/-- The 33-bit immediate of a Format I instruction (R69): {payload, imm11} after an IMM hint, imm11 alone otherwise. -/
def rawImm (h : Option Hint) (i : BitVec 11) : BitVec 33 :=
  match h with
  | some (.imm p) => p ++ i
  | _ => i.zeroExtend 33

/-- The immediate taken as signed: 33 bits after an IMM hint, 11 otherwise (R91, R98). -/
def signedImm (h : Option Hint) (i : BitVec 11) : BitVec 33 :=
  match h with
  | some (.imm p) => p ++ i
  | _ => i.signExtend 33

/-- The width and offset fields of a bit-field immediate V (Table 5-5) and whether a bit that must be 0 is 1. -/
def fieldOf (bfi : Bool) (v : BitVec 33) : Nat × Nat × Bool :=
  let o := (v.extractLsb' 0 6).toNat
  if bfi then (o, (v.extractLsb' 6 6).toNat + 1, v.extractLsb' 12 21 != 0)
  else (o, ((v.extractLsb' 11 2).toNat * 16 + (v.extractLsb' 6 4).toNat) + 1, v.extractLsb' 13 20 != 0)

/-- A bit field outside the operand of `w` bits (R94, R125). -/
def fieldBad (bfi : Bool) (w : Nat) (v : BitVec 33) : Bool :=
  let f := fieldOf bfi v
  f.2.2 || decide (w < f.1 + f.2.1)

/-- An sz that Table 12-3 does not give for a CPYR operation. -/
def copySizeBad (f : BitVec 4) (sz : BitVec 2) : Bool :=
  match f.toNat with
  | 0 => sz != 2
  | 1 => sz != 1
  | 10 => sz != 2
  | 11 => sz != 2
  | _ => decide (sz.toNat < 2)

/-- The operand-class and limit checks of 0x009 that each instruction adds to those of its source fields. -/
def operandBad (h : Option Hint) : Instr → Bool
  | .shlImmA _ _ w m | .shrImmA _ _ w m | .sarImmA _ _ w m | .rotImmA _ _ w m => decide (8 <<< w.toNat ≤ m.toNat)
  | .bfxSA _ _ w o => fieldBad false 64 (rawImm h (1#1 ++ w ++ o))
  | .bfxZA _ _ w o => fieldBad false 64 (rawImm h (0#1 ++ w ++ o))
  | .bfiA _ _ w o => fieldBad true 64 (rawImm h (w ++ o))
  | .liHiA _ i => bit (signedImm h i) 32
  | .lds _ _ x .. | .sts _ _ x .. => isQueueField x || isLatchField x
  | .cpy d _ x .. => isQueueField x || isLatchField x || decide (62 < d.toNat)
  | .cpym d _ x .. => isQueueField x || isLatchField x || decide (61 < d.toNat)
  | .cpyr d _ x s f => isQueueField x || isLatchField x || decide (62 < d.toNat) || copySizeBad f s
  | .cpwait _ i => decide (63 < (rawImm h i).toNat)
  | .censusWait d _ | .censusPoll d _ => d == 63
  | .taskadd d _ | .taskget d | .taskgetPoll d | .tasksteal d _ => decide (60 < d.toNat)
  | .ldq d _ x s _ => decide (8 ≤ d.toNat) || isQueueField x || isLatchField x || (s == 3 && d != 6)
  | .stq _ x s _ => isQueueField x || isLatchField x || s == 3
  | .gathq d _ x s _ => decide (8 ≤ d.toNat) || !isIndexField x || s == 3
  | .scatq _ x s _ => !isIndexField x || s == 3
  | .atom d _ x s f => isQueueField x || isLatchField x || decide (s.toNat < 2) || (f == 10 && s != 2) || (f == 9 && d == 63)
  | .atomq d _ x s _ => decide (8 ≤ d.toNat) || !isIndexField x || s != 2
  | .aggadd d _ x s | .aggaddOne d _ x s => decide (8 ≤ d.toNat) || !isIndexField x || decide (s.toNat < 2)
  | .qpushA d .. => decide (8 ≤ d.toNat)
  | .ringFree _ b => !(b == 96 || b == 76 || b == 77)
  | .srr _ b | .srw _ b => decide (b.toNat < 96)
  | .shlImmE _ _ _ w m | .shrImmE _ _ _ w m | .sarImmE _ _ _ w m | .rotImmE _ _ _ w m =>
    w == 3 || decide (8 <<< w.toNat ≤ m.toNat)
  | .bfxSE _ _ _ w o => fieldBad false 32 (rawImm h (1#1 ++ w ++ o))
  | .bfxZE _ _ _ w o => fieldBad false 32 (rawImm h (0#1 ++ w ++ o))
  | .bfiE _ _ _ w o => fieldBad true 32 (rawImm h (w ++ o))
  | .liE _ _ i => decide ((signedImm h i).toInt < -(2 ^ 31))
  | .qpushE d .. => decide (8 ≤ d.toNat)
  | _ => false

/-- The source fields that an A-stream instruction's class checks read: a queue there is 0x009 (R85), but for the b
field of RING.FREE; Format M fields are checked by `operandBad`. -/
def aClassBad (i : Instr) : Bool :=
  let op := majorOf i
  if (decide (0x20 ≤ op) && decide (op ≤ 0x2B)) || op == 0x70 then false else
  match i with
  | .ringFree a _ => isQueueField a
  | _ => (sourceFields i).any isQueueField

/-- A reserved or stochastic rounding mode in the fn field of an FP32 instruction (Table 6-4): cause 0x008. -/
def fnRmBad : Instr → Bool
  | .fadd _ _ _ _ r | .fsub _ _ _ _ r | .fmul _ _ _ _ r | .ffma _ _ _ _ r | .ffms _ _ _ _ r => decide (4 ≤ r.toNat)
  | _ => false

/-- The instruction that a stream reads from a word: a decode cause of the word (Table 4-8) becomes the row that raises
it (R78), a cause of its form that ranks below the hint's causes waits for them, and an nw of 1 in a form without a
v destination is 0x005 in the E-stream (R117). `below` gives the causes of the instruction's stream, hint and operands. -/
def decodeIssue (estr : Bool) (below : Instr → Option Nat) (w : BitVec 32) : Instr :=
  let op := (w.extractLsb' 25 7).toNat
  match decodeWord w with
  | .reject c =>
    .notAnInstruction (if 0x003 < c ∧ !majorIn estr op then 0x007 else c) w
  | .ok i => i
  | .late i c =>
    if !majorIn estr op then .notAnInstruction 0x007 w
    else if estr && op == 0x79 then .notAnInstruction 0x005 w
    else .notAnInstruction ((below i).getD c) w

end Sys2Proof.Machine
end

