-- ==== Sys2Proof/Machine/Mem.lean ====
section
/-!
DEFINITION. Machine/Mem.lean: reading and writing physical memory, the physical address map (Table 10-2), and the
accessors of the parts of the state.
-/
namespace Sys2Proof.Machine

/-- One byte of physical memory; an unlisted byte reads 0 (assumption 4). -/
def memGet (m : List Host.Cell) (a : Nat) : Byte := tabGetD 0 m a

/-- Write one byte, keeping the list canonical: a byte 0 is not listed. -/
def memPut (m : List Host.Cell) (a : Nat) (b : Byte) : List Host.Cell := tabSetD 0 m a b

/-- The `n` bytes at an address. -/
def memBytes (m : List Host.Cell) (a : Nat) : Nat → List Byte
  | 0 => []
  | n + 1 => memGet m a :: memBytes m (a + 1) n

/-- The little-endian number in the `n` bytes at an address (R2). -/
def memNat (m : List Host.Cell) (a n : Nat) : Nat := leNat (memBytes m a n)

/-- Write bytes at an address. -/
def memWrite (m : List Host.Cell) (a : Nat) : List Byte → List Host.Cell
  | [] => m
  | b :: bs => memWrite (memPut m a b) (a + 1) bs

/-- The canonical form of memory: addresses strictly rising, no listed byte equal to what an unlisted one reads. -/
def Memory.wf (m : List Host.Cell) : Bool := tabSorted m && m.all fun c => c.2 != 0

/-- HBM4E (Table 10-2). -/
def isHbm (pa : Nat) : Bool := decide (pa < 0x8000000000)

/-- The device aperture (Table 10-2). -/
def isAperture (pa : Nat) : Bool := decide (0x4000000000000 ≤ pa) && decide (pa < 0x4000001000000)

/-- Host memory (Table 10-2). -/
def isHost (pa : Nat) : Bool := decide (0x8000000000000 ≤ pa) && decide (pa < 0x10000000000000)

/-- A physical address inside Table 10-2 (R215); of each block of the aperture only the counters are backed (R395). -/
def isBacked (pa : Nat) : Bool := isHbm pa || (isAperture pa && decide (pa % 0x10000 < 0x800)) || isHost pa

/-- The core of a writer identifier (Table 11-4). -/
def coreOf (wid : Nat) : Nat := wid / 16

/-- The cluster of a core: the eight cores with the same CORE[7:3]. -/
def clusterOf (core : Nat) : Nat := core / 8

/-- The Facet die of a core. -/
def facetOf (core : Nat) : Nat := core / 64

/-- A core; one that nothing has changed since reset is not listed. -/
def State.core (s : State) (c : Nat) : Core := tabGetD {} s.cores c

/-- Replace a core. -/
def State.setCore (s : State) (c : Nat) (x : Core) : State := { s with cores := tabSetD {} s.cores c x }

/-- A cluster; one that nothing has changed since reset is not listed. -/
def State.cluster (s : State) (c : Nat) : Cluster := tabGetD {} s.clusters c

/-- Replace a cluster. -/
def State.setCluster (s : State) (c : Nat) (x : Cluster) : State :=
  { s with clusters := tabSetD {} s.clusters c x }

/-- The team in the slot of a writer identifier. -/
def State.team? (s : State) (wid : Nat) : Option Team := tabGet s.teams wid

/-- Put a team into the slot of a writer identifier. -/
def State.setTeam (s : State) (wid : Nat) (t : Team) : State := { s with teams := tabSet s.teams wid t }

/-- Change the team of a writer identifier, if there is one. -/
def State.modTeam (s : State) (wid : Nat) (f : Team → Team) : State := { s with teams := tabMod s.teams wid f }

/-- The region of a node; a node that is not loaded gives the default record. -/
def State.region (s : State) (n : Nat) : Region := tabGetD {} s.dev.nodes n

end Sys2Proof.Machine
end

