-- ==== Sys2Proof/Machine/Xlate.lean ====
section
/-!
DEFINITION. Machine/Xlate.lean: translation of virtual addresses: the context table (R337), double-backed objects
(R245 to R248), the five-level walk (R227, R228) and the look-aside buffers (R230).
-/
namespace Sys2Proof.Machine

/-- What a translation gives: no mapping (0x081), a malformed entry (0x088), an unbacked table (0x089), a page that is
mapped and not resident, a walk that waits for a shootdown (R387), or a page with the physical address. -/
inductive Xlated where
  | unmapped
  | malformed
  | unbacked
  | absent (leaf : Leaf)
  | held
  | hit (leaf : Leaf) (pa : Nat)
  deriving DecidableEq, Repr

/-- Entry `c` of the context table (R337): the address of the root table when it is valid, and of the double-backing
table. -/
def ctxRoot (s : State) (c : Nat) : Option Nat :=
  let e := memNat s.mem (s.dev.ctxBase + 64 * c) 8
  if e % 2 = 1 then some (bitsOf e 51 12 * 4096) else none

/-- The address of a context's double-backing table, 0 for none (R337). -/
def ctxDouble (s : State) (c : Nat) : Nat := memNat s.mem (s.dev.ctxBase + 64 * c + 8) 8

/-- An entry of a double-backing table (Table 11-3). -/
structure Double where
  index : Nat
  obase : Nat
  len : Nat
  flips : Nat
  back0 : Nat
  back1 : Nat
  valid : Bool
  word : Nat
  deriving DecidableEq, Repr

/-- Entry `i` of the table at `a`. -/
def doubleAt (m : List Host.Cell) (a i : Nat) : Double :=
  let b := a + 32 * i
  let w := memNat m (b + 24) 8
  { index := i, obase := memNat m b 8, len := memNat m (b + 8) 4 * 0x10000, flips := memNat m (b + 12) 4,
    back0 := memNat m (b + 16) 8, back1 := bitsOf w 51 0, valid := bitsOf w 57 57 = 1, word := bitsOf w 63 58 }

/-- The valid entries of a context's double-backing table; a context that is not valid translates nothing (R337). -/
def doubles (s : State) (c : Nat) : List Double :=
  let a := ctxDouble s c
  if a = 0 || (ctxRoot s c).isNone then [] else ((List.range 16).map (doubleAt s.mem a)).filter (·.valid)

/-- The object that an address lies in (R247). -/
def doubleOf (s : State) (c va : Nat) : Option Double :=
  (doubles s c).find? fun d => decide (d.obase ≤ va) && decide (va < d.obase + d.len)

/-- The physical base of the visible backing, or of the shadow (R245, R246). -/
def Double.base (d : Double) (shadow : Bool) : Nat :=
  if (d.flips % 2 = 1) != shadow then d.back1 else d.back0

/-- The attributes of an object's bytes (R247). -/
def doubleAttr : PageAttr := { resident := true, w := true, cls := 2 }

/-- The attributes in a leaf entry (Table 10-5). -/
def leafAttr (e : Nat) (psize : BitVec 2) : PageAttr :=
  let b := BitVec.ofNat 64 e
  { resident := bit b 2, w := bit b 3, x := bit b 4, h := bit b 5, cls := b.extractLsb' 6 2, nc := bit b 52,
    ste := bit b 53, steer := b.extractLsb' 54 7, psize := psize }

/-- The levels of Table 10-4: lowest index bit, index width, the page size code of a leaf there, and the alignment of
the next table. -/
def walkLevels : List (Nat × Nat × Option (BitVec 2) × Nat) :=
  [(48, 9, none, 4096), (39, 9, none, 4096), (30, 9, some 2, 4096), (21, 9, some 1, 256), (16, 5, some 0, 0)]

/-- Walk the levels from a table (R227, R228). -/
def walkFrom (m : List Host.Cell) (va : Nat) : List (Nat × Nat × Option (BitVec 2) × Nat) → Nat → Xlated
  | [], _ => .malformed
  | (lo, n, ps, align) :: rest, tbl =>
    let at_ := tbl + 8 * (va >>> lo % 2 ^ n)
    if !(isHbm at_ || isHost at_) then .unbacked else
    let e := memNat m at_ 8
    if e % 2 = 0 then .unmapped else
    if bitsOf e 63 61 ≠ 0 then .malformed else
    let addr := bitsOf e 51 8 * 256
    if bitsOf e 1 1 = 1 then
      match ps with
      | none => .malformed
      | some p =>
        if addr % 2 ^ lo ≠ 0 then .malformed else
        let leaf : Leaf := { vbase := va / 2 ^ lo * 2 ^ lo, size := 2 ^ lo, pbase := addr, attr := leafAttr e p }
        if leaf.attr.resident then .hit leaf (addr + va % 2 ^ lo) else .absent leaf
    else if align = 0 then .malformed
    else if addr % align ≠ 0 then .malformed
    else walkFrom m va rest addr

/-- A shootdown that is under way covers an address of a context (R387). -/
def shotDown (s : State) (ctx va : Nat) : Bool :=
  let d := s.dev.shoot
  d.busy && d.ctx == ctx && (d.all || (decide (d.base ≤ va) && decide (va < d.base + d.count * 0x10000)))

/-- Walk a context's tables. A context that is not valid maps nothing (R337). -/
def walkCtx (s : State) (ctx va : Nat) : Xlated :=
  match ctxRoot s ctx with
  | none => .unmapped
  | some root => walkFrom s.mem va walkLevels root

/-- The entry of a buffer that maps an address in a context. -/
def tlbFind (l : List TlbEntry) (ctx va : Nat) : Option TlbEntry :=
  l.find? fun e => e.ctx = ctx && decide (e.leaf.vbase ≤ va) && decide (va < e.leaf.vbase + e.leaf.size)

/-- Enter a page into a buffer of `cap` entries; a full one loses a freely chosen entry (R230, assumption 3). -/
def tlbEnter (tick cap : Nat) (l : List TlbEntry) (e : TlbEntry) : List TlbEntry :=
  if l.length < cap then e :: l else e :: l.eraseIdx (Config.tlbVictim tick % cap)

/-- A walk's result fills the first-level and the cluster buffer (R230). -/
def tlbFill (s : State) (core ctx : Nat) (leaf : Leaf) : State :=
  let e : TlbEntry := { ctx := ctx, leaf := leaf }
  let c := s.core core
  let s := s.setCore core { c with tlb := tlbEnter s.tick 256 c.tlb e }
  let k := s.cluster (clusterOf core)
  let set := Config.tlbSet ctx (leaf.vbase / leaf.size) % 512
  s.setCluster (clusterOf core) { k with tlb := tabSet k.tlb set (tlbEnter s.tick 8 (tabGetD [] k.tlb set) e) }

/-- The entry of the first-level buffer, else of the cluster's, that maps an address (R230). -/
def tlbLook (s : State) (core ctx va : Nat) : Option TlbEntry :=
  match tlbFind (s.core core).tlb ctx va with
  | some e => some e
  | none => ((s.cluster (clusterOf core)).tlb.findSome? fun p => tlbFind p.2 ctx va)

/-- Translate an address for a core: a double-backed object first (R247), then the buffers, then a walk (R230).
`shadow` selects the shadow backing (R246). -/
def xlate (s : State) (core ctx va : Nat) (shadow : Bool := false) : Xlated :=
  match doubleOf s ctx va with
  | some d =>
    .hit { vbase := d.obase, size := d.len, pbase := d.base shadow, attr := doubleAttr } (d.base shadow + (va - d.obase))
  | none =>
    match tlbLook s core ctx va with
    | some e => .hit e.leaf (e.leaf.pbase + (va - e.leaf.vbase))
    | none => if shotDown s ctx va then .held else walkCtx s ctx va

/-- The state after that translation: a walk that finds a resident leaf has filled the buffers (R230). -/
def xlateFill (s : State) (core ctx va : Nat) : State :=
  match doubleOf s ctx va, tlbLook s core ctx va with
  | none, none =>
    if shotDown s ctx va then s else
    match walkCtx s ctx va with
    | .hit leaf _ => tlbFill s core ctx leaf
    | _ => s
  | _, _ => s

end Sys2Proof.Machine
end

