-- ==== Sys2Proof/Machine/Cache.lean ====
section
/-!
DEFINITION. Machine/Cache.lean: L1 and L2 tags and reuse classes (R218 to R226), race tags, the generation table, the
release records and the acquired-from tables (R251 to R257), and one access to physical memory with all of them.
-/
namespace Sys2Proof.Machine

/-! ## L2 -/

/-- The slice and set of a line (R224). `region` is the L2 partition of the access, none where it belongs to no
region. -/
def l2Place (parts : Nat) (part : Option Nat) (pa : Nat) (attr : PageAttr) : Nat × Nat :=
  let l := pa / 128
  let home := if pa < 2 ^ 51 then (bitsOf pa 14 12 ^^^ bitsOf pa 23 21 ^^^ bitsOf pa 32 30) / 2 else l % 4
  let h := bitsOf l 4 0 ^^^ bitsOf l 9 5 ^^^ bitsOf l 14 10 ^^^ bitsOf l 19 15 ^^^ bitsOf l 24 20 ^^^ bitsOf l 29 25 ^^^
    bitsOf l 34 30 ^^^ bitsOf l 39 35 ^^^ bitsOf l 44 40
  let slice :=
    match part, decide (parts ≤ 1) with
    | some p, false =>
      let first := 4 / parts * (p % parts)
      if attr.ste then 32 * first + attr.steer.toNat % (128 / parts) else 32 * (first + home % (4 / parts)) + h
    | _, _ => if attr.ste then attr.steer.toNat else 32 * home + h
  (slice, l % 1024)

/-- The reuse class of an access: the first non-zero source, and reuse when every source is 0 (R225). -/
def reuseClass (own page : BitVec 2) : BitVec 2 :=
  if own ≠ 0 then own else if page ≠ 0 then page else 2

/-- The way a fill takes in a set, if any (R226): `mask` is the fill mask. -/
def l2Victim (set : L2Set) (mask : BitVec 16) : Option Nat :=
  let allowed := (List.range 16).filter fun w => bit mask w
  match allowed.find? fun w => (tabGet set.ways w).isNone with
  | some w => some w
  | none =>
    let old := set.order.reverse.filter fun w => bit mask w
    let ofCls := fun (c : BitVec 2) => old.find? fun w => (tabGet set.ways w).any fun x => x.cls = c
    match ofCls 1 with
    | some w => some w
    | none => ofCls 2

/-- How many pinned lines a set holds. -/
def l2Pinned (set : L2Set) : Nat := (set.ways.filter fun x => x.2.cls = 3).length

/-- One access to a set: a hit raises the class, a miss fills by R226. The class pinned gives way to reuse where
twelve lines are pinned. -/
def l2Access (set : L2Set) (line : Nat) (sector : Nat) (cls : BitVec 2) (node : Option Nat) (mask : BitVec 16) : L2Set :=
  let cls := if cls = 3 ∧ 12 ≤ l2Pinned set then 2 else cls
  let sbit : BitVec 2 := if sector = 0 then 1 else 2
  match set.ways.find? fun x => x.2.line = line with
  | some (w, x) =>
    let up := decide (x.cls.toNat < cls.toNat)
    { ways := tabSet set.ways w
        { x with sectors := x.sectors ||| sbit, cls := if up then cls else x.cls,
                 pinNode := if up ∧ cls = 3 then node else x.pinNode },
      order := w :: set.order.filter (· ≠ w) }
  | none =>
    match l2Victim set mask with
    | none => set
    | some w =>
      { ways := tabSet set.ways w
          { line := line, cls := cls, node := node, pinNode := if cls = 3 then node else none, sectors := sbit },
        order := w :: set.order.filter (· ≠ w) }

/-- The tables of L2 after an access to an address on behalf of a region, or of none (R224 to R226). Host memory is
cached only with the H attribute, the aperture never (R215). -/
def l2Touch (s : State) (node : Option Nat) (pa : Nat) (attr : PageAttr) (cls : BitVec 2) : State :=
  if isHbm pa || (isHost pa && attr.h) then
    let r := node.map s.region
    let (slice, set) := l2Place s.dev.l2Parts (r.map (·.l2part)) pa attr
    let key := slice * 1024 + set
    let mask := match r with | some r => r.fmask | none => 0xFFFF
    let new := l2Access (tabGetD {} s.dev.l2 key) (pa / 128) (pa / 64 % 2) (reuseClass cls attr.cls) node mask
    { s with dev := { s.dev with l2 := tabSetD {} s.dev.l2 key new } }
  else s

/-! ## L1 -/

/-- The L1 set of a line: L1 has (L1 size ÷ 512) sets (R218). -/
def l1Set (c : Core) (line : Nat) : Nat := line % (c.l1Units * 128)

/-- A read of a sector through L1: a hit makes its line the latest; a miss starts or joins an outstanding fill
(R218, R222). A read of class stream-once does not allocate. -/
def l1Read (c : Core) (pa : Nat) (cls : BitVec 2) : Core :=
  let line := pa / 128
  let sbit : BitVec 2 := if pa / 64 % 2 = 0 then 1 else 2
  let key := l1Set c line
  let set := tabGetD [] c.l1 key
  match set.find? fun x => x.line = line ∧ x.valid &&& sbit ≠ 0 with
  | some x => { c with l1 := tabSetD [] c.l1 key (x :: set.filter (·.line ≠ line)) }
  | none =>
    match c.fills.find? (·.line = line) with
    | some f =>
      { c with fills := { f with sectors := f.sectors ||| sbit, alloc := f.alloc || cls ≠ 1 } ::
          c.fills.filter (·.line ≠ line) }
    | none =>
      if c.fills.length < 64 then { c with fills := { line := line, sectors := sbit, alloc := cls ≠ 1 } :: c.fills } else c

/-- A fill lands: unless it is stale or does not allocate, its sectors become valid in L1, and the set keeps its four
latest lines (R218, R221). -/
def l1Install (c : Core) (f : Fill) : Core :=
  let c := { c with fills := c.fills.filter (·.line ≠ f.line) }
  if f.stale || !f.alloc then c else
  let key := l1Set c f.line
  let set := tabGetD [] c.l1 key
  let old := (set.find? (·.line = f.line)).elim 0 (·.valid)
  { c with l1 := tabSetD [] c.l1 key (({ line := f.line, valid := old ||| f.sectors } :: set.filter (·.line ≠ f.line)).take 4) }

/-- A write by another agent drops the line from a core's L1 and marks its outstanding fill stale (R220, R221). -/
def l1Drop (line : Nat) (c : Core) : Core :=
  let key := l1Set c line
  { c with l1 := tabSetD [] c.l1 key ((tabGetD [] c.l1 key).filter (·.line ≠ line)),
           fills := c.fills.map fun f => if f.line = line then { f with stale := true } else f }

/-- Invalidate a line in every core but one (R220). -/
def invalidateOthers (s : State) (keep : Option Nat) (line : Nat) : State :=
  { s with cores := s.cores.map fun p => if some p.1 = keep then p else (p.1, l1Drop line p.2) }

/-! ## Race tags and generations -/

/-- The tag of the sector of an address; an unlisted tag has MASK 0 (R251). -/
def tagAt (s : State) (pa : Nat) : RaceTag := tabGetD {} s.dev.tags (pa / 64)

/-- The current generation of a writer identifier (R252). -/
def genOf (s : State) (wid : Nat) : GenEntry := tabGetD {} s.dev.gens wid

/-- The mask bits of the aligned words that `n` bytes at an address touch, within its sector. -/
def wordBits (pa n : Nat) : BitVec 8 :=
  let lo := pa % 64 / 8
  let hi := min 7 ((pa % 64 + n - 1) / 8)
  BitVec.ofNat 8 ((2 ^ (hi + 1) - 1) - (2 ^ lo - 1))

/-- How a write acts on the tag (Table 11-5). -/
inductive TagWrite where
  | plain (wid : Nat)
  | release (wid : Nat)
  | clear
  deriving DecidableEq, Repr

/-- The new tag of a sector (Table 11-5). -/
def tagAfter (t : RaceTag) (g : BitVec 4) (bits : BitVec 8) : TagWrite → RaceTag
  | .plain w =>
    if t.wid = BitVec.ofNat 12 w ∧ t.gen = g then { t with mask := t.mask ||| bits }
    else { wid := BitVec.ofNat 12 w, gen := g, mask := bits }
  | .release w => { wid := BitVec.ofNat 12 w, gen := g, mask := 0 }
  | .clear => { t with mask := t.mask &&& ~~~bits }

/-- Update the tag of the sector that a write of `n` bytes touches; only HBM carries tags (R251, R253). -/
def writeTag (s : State) (pa n : Nat) (k : TagWrite) : State :=
  if isHbm pa then
    let g := match k with | .plain w => (genOf s w).cur | .release w => (genOf s w).cur | .clear => 0
    { s with dev := { s.dev with tags := tabSetD {} s.dev.tags (pa / 64) (tagAfter (tagAt s pa) g (wordBits pa n) k) } }
  else s

/-- The race check of R256 for team `wid` with acquired-from table `acq`: none where there is no race, else whether the
second test held. -/
def raceTest (s : State) (wid : Nat) (acq : List (Nat × Nat)) (checked : Bool) (nc : Bool) (pa n : Nat) : Option Bool :=
  let t := tagAt s pa
  let w := t.wid.toNat
  if !checked || nc || !isHbm pa || t.mask &&& wordBits pa n = 0 || w = wid || (genOf s w).lap then none
  else if t.gen = (genOf s w).cur then some false
  else if acq.any fun e => e.1 = w && decide (e.2 ≤ t.gen.toNat) then some true
  else none

/-- Drop a writer identifier from every acquired-from table (R252, R255). -/
def dropAcquired (s : State) (wid : Nat) : State :=
  { s with teams := s.teams.map fun p => (p.1, { p.2 with acq := p.2.acq.filter (·.1 ≠ wid) }) }

/-- Advance the release generation of a writer identifier (R252): its release records go (R254), and a wrap sets LAP
and drops it from the acquired-from tables. -/
def advanceGen (s : State) (wid : Nat) : State :=
  let g := genOf s wid
  let wrap := decide (g.cur = 15)
  let s := { s with dev := { s.dev with
    gens := tabSetD {} s.dev.gens wid { cur := g.cur + 1, lap := g.lap || wrap },
    relRecords := s.dev.relRecords.map fun p => (p.1, p.2.filter (·.wid ≠ wid)) } }
  if wrap then
    let s := dropAcquired s wid
    { s with dev := { s.dev with scrubWraps := wid :: s.dev.scrubWraps.filter (· ≠ wid) } }
  else s

/-- The slice that keeps the release record of a word (R254): the word's home slice in shared mode. -/
def relSlice (pa : Nat) : Nat := (l2Place 1 none pa {}).1

/-- A write of any kind removes the release record of its word (R254). -/
def dropRelease (s : State) (pa : Nat) : State :=
  let l := tabMod s.dev.relRecords (relSlice pa) fun l => l.filter fun r => r.word ≠ pa / 8
  { s with dev := { s.dev with relRecords := l } }

/-- Record a release at its word; a slice keeps the 256 latest (R254). -/
def recordRelease (s : State) (pa wid : Nat) : State :=
  let l := tabGetD [] s.dev.relRecords (relSlice pa)
  let r : RelRecord := { word := pa / 8, wid := wid, gen := (genOf s wid).cur }
  let l := tabSetD [] s.dev.relRecords (relSlice pa) ((r :: l.filter fun x => x.word ≠ pa / 8).take 256)
  { s with dev := { s.dev with relRecords := l } }

/-- An acquire of a word by a team: the table holds the identified releaser, or nothing (R254, R255). -/
def acquire (s : State) (wid pa : Nat) : State :=
  let l := tabGetD [] s.dev.relRecords (relSlice pa)
  match l.find? fun r => r.word = pa / 8 with
  | some r => if r.wid = wid then s else s.modTeam wid fun t => { t with acq := [(r.wid, r.gen.toNat)] }
  | none => s.modTeam wid fun t => { t with acq := [] }

/-- Empty a team's acquired-from table (the rows of Table 11-2 marked "Clear"). -/
def clearAcquired (s : State) (wid : Nat) : State := s.modTeam wid fun t => { t with acq := [] }

/-! ## One access to physical memory -/

/-- On whose behalf an access is made: the core whose L1 it may use, the region it belongs to, and the team that is
checked for races (none: an engine, the firmware or the host). -/
structure Accessor where
  core : Option Nat := none
  node : Option Nat := none
  wid : Option Nat := none
  deriving DecidableEq, Repr

/-- The test of a watch (R352, Table 17-6). -/
def Watch.holds (w : Watch) (v : Nat) : Bool :=
  let n := 8 * w.size
  let a := v &&& w.mask
  let b := w.val &&& w.mask
  let sgn := fun (x : Nat) => (BitVec.ofNat n x).toInt
  match w.cmp with
  | 0 => a == b
  | 1 => a != b
  | 2 => decide (a % 2 ^ n < b % 2 ^ n)
  | 3 => decide (b % 2 ^ n ≤ a % 2 ^ n)
  | 4 => decide (sgn a < sgn b)
  | _ => decide (sgn b ≤ sgn a)

/-- Install pending WAITs while the watch table has room: each is tested as it is installed, and one that holds frees its entry again. -/
def installWatches (m : List Host.Cell) : Nat → List Watch → List Watch
  | _, [] => []
  | room, w :: ws =>
    if w.installed then w :: installWatches m room ws
    else match room with
      | 0 => w :: ws
      | n + 1 =>
        let hit := w.holds (memNat m w.pa w.size)
        { w with installed := true, hit := hit } :: installWatches m (if hit then n + 1 else n) ws

/-- The WAITs after the watch table, of 4,096 entries, has taken those that it has room for (R352). -/
def settleWatches (m : List Host.Cell) (ws : List Watch) : List Watch :=
  installWatches m (4096 - (ws.filter fun w => w.installed && !w.hit).length) ws

/-- Test the watches of the words that a write of `n` bytes has touched (R352). -/
def testWatches (s : State) (pa n : Nat) : State :=
  if s.fw.watches.any fun w => decide (w.pa < pa + n) && decide (pa < w.pa + w.size) then
    let test := fun (w : Watch) =>
      if w.installed && decide (w.pa < pa + n) && decide (pa < w.pa + w.size) then
        { w with hit := w.hit || w.holds (memNat s.mem w.pa w.size) }
      else w
    { s with fw := { s.fw with watches := settleWatches s.mem (s.fw.watches.map test) } }
  else s

/-- A line of a team's stash holds a physical line. -/
def stashHolds (s : State) (wid : Nat) (t : Team) (line vline : Nat) : Bool :=
  match xlate s (coreOf wid) t.info.ctx (128 * vline) with
  | .hit _ pa => pa / 128 == line
  | _ => false

/-- The directory recalls a line from the stashes of every team but one (R161, R220): dirty bytes are written back, and the line goes
for a write. -/
def recallStash (s : State) (keep : Option Nat) (line : Nat) (write : Bool) : State :=
  if s.teams.all fun p => p.2.stash.isEmpty then s else
  let one := fun (wid : Nat) (t : Team) (m : StashMap) =>
    if write then { m with lines := m.lines.filter fun x => !stashHolds s wid t line x.1 }
    else { m with lines := m.lines.map fun x => if stashHolds s wid t line x.1 then (x.1, false) else x }
  let team := fun (p : Nat × Team) =>
    if some p.1 = keep then p else (p.1, { p.2 with stash := p.2.stash.map fun m => (m.1, one p.1 p.2 m.2) })
  { s with teams := s.teams.map team }

/-- Read bytes at a physical address, with the tables of the caches it goes through. `l1` is true for the reads that
L1 serves (R218). -/
def physTouchRead (s : State) (by_ : Accessor) (pa : Nat) (attr : PageAttr) (cls : BitVec 2) (l1 : Bool) : State :=
  let s := recallStash (l2Touch s by_.node pa attr cls) by_.wid (pa / 128) false
  match by_.core, l1 && (isHbm pa || attr.h) with
  | some c, true => s.setCore c (l1Read (s.core c) pa (reuseClass cls attr.cls))
  | _, _ => s

/-- Write bytes at a physical address within one sector: memory, the tag (Table 11-5), the release record (R254), the
copies of other cores (R220) and the L2 tables. -/
def physWrite (s : State) (by_ : Accessor) (pa : Nat) (bs : List Byte) (attr : PageAttr) (cls : BitVec 2)
    (k : TagWrite) : State :=
  let s := l2Touch s by_.node pa attr cls
  let s := recallStash (invalidateOthers s by_.core (pa / 128)) by_.wid (pa / 128) true
  let s := dropRelease s pa
  let s := writeTag s pa bs.length k
  testWatches { s with mem := memWrite s.mem pa bs } pa bs.length

end Sys2Proof.Machine
end

