-- ==== Sys2Proof/Machine/FaultRing.lean ====
section
/-!
DEFINITION. Machine/FaultRing.lean: fault records and the rings and coalescers of fault domains (R338, R353, R437,
Tables 17-3, 25-5 and 25-6).
-/
namespace Sys2Proof.Machine

/-- A field of a record in memory: first byte, length in bytes, value. -/
abbrev RecField := Nat × Nat × Nat

/-- The `n` bytes of a record with these fields; every other byte is zero. -/
def recordBytes (n : Nat) (fs : List RecField) : List Byte :=
  (List.range n).map fun i =>
    match fs.find? fun f => decide (f.1 ≤ i) && decide (i < f.1 + f.2.1) with
    | some (o, _, v) => BitVec.ofNat 8 (v >>> (8 * (i - o)))
    | none => 0

/-- An accessor for the reads and writes of the Apex die, which belong to no region (R224). -/
def apexAccess : Accessor := {}

/-- The Apex die writes a record or a word at a physical address. -/
def apexWrite (s : State) (pa : Nat) (bs : List Byte) : State :=
  physWrite s apexAccess pa bs {} 0 .clear

/-- The Apex die writes bytes at a physical address, sector by sector. -/
def apexWriteAll : Nat → State → Nat → List Byte → State
  | 0, s, _, _ => s
  | fuel + 1, s, pa, bs =>
    if bs.isEmpty then s
    else
      let n := 64 - pa % 64
      apexWriteAll fuel (apexWrite s pa (bs.take n)) (pa + n) (bs.drop n)

/-- The number of save frames of a core (R371, Table 27-3). -/
def frameCount (s : State) (core : Nat) : Nat := bitsOf (tabGetD 0 s.host.bring.saves core) 6 0

/-- The physical address of a save frame of a core (R371). -/
def frameAddr (s : State) (core frame : Nat) : Nat := bitsOf (tabGetD 0 s.host.bring.saves core) 51 22 * 2 ^ 22 + 2 ^ 22 * frame

/-- The device time base: units of 64 ns, 128 Apex cycles (R320). -/
def timeBase (s : State) : Nat := s.dev.time / 128 % 2 ^ 64

/-- Apex cycles in a microsecond (R320). -/
def microsecond : Nat := 2000

/-- A ring size that Table 17-3 allows. -/
def ringSizeOk (n : Nat) : Bool := decide (16 ≤ n) && decide (n ≤ 65536) && decide (2 ^ Nat.log2 n = n)

/-- Count one event at the coalescer of a domain (R338, R353). -/
def countEvent (s : State) (dom : Nat) : State :=
  let c := tabGetD {} s.dev.coalescers dom
  let c := { pending := c.pending + 1, oldest := if c.pending = 0 then s.dev.time else c.oldest, newest := s.dev.time }
  { s with dev := { s.dev with coalescers := tabSetD {} s.dev.coalescers dom c } }

/-- Write one 64-byte record into a domain's fault ring; a full ring drops it and FOVF rises (R338). -/
def writeFaultSlot (s : State) (dom : Nat) (bs : List Byte) : State :=
  let ring := memNat s.mem dom 8
  let ent := memNat s.mem (dom + 8) 4
  let head := memNat s.mem (dom + 12) 4
  let tail := memNat s.mem (dom + 16) 4
  let ok := ringSizeOk ent && decide (ring % 64 = 0)
  let s := { s with host := { s.host with lastFaults := (s.host.lastFaults ++ [bs]).drop (s.host.lastFaults.length - 255) } }
  let s :=
    if !ok || (tail + 1) % ent = head % ent then
      apexWrite s (dom + 20) (natLe 4 (min (memNat s.mem (dom + 20) 4 + 1) 0xFFFFFFFF))
    else apexWrite (apexWrite s (ring + 64 * (tail % ent)) bs) (dom + 16) (natLe 4 ((tail + 1) % ent))
  countEvent s dom

/-- The fault domain of a region, or the device's for work of none (R338). -/
def faultDomain (s : State) (node : Option Nat) : Nat :=
  match node with
  | some n => (s.region n).fdom
  | none => s.dev.devFdom

/-- A fault record (R437): header fields and one body for the record and for each continuation. -/
def faultRecord (s : State) (node : Option Nat) (cause source core teamId : Nat) (bodies : List (List RecField)) : State :=
  let conts := bodies.length - 1
  let head := fun (cont : Nat) =>
    cause + cont * 2 ^ 9 + (if cont = 0 then conts * 2 ^ 10 else 0) + source * 2 ^ 16 + core * 2 ^ 20
  let hdr := fun (cont : Nat) =>
    [(0, 4, head cont), (4, 2, node.getD 0), (8, 8, timeBase s), (16, 8, teamId)]
  (enum 0 bodies).foldl (fun s b =>
    writeFaultSlot s (faultDomain s node) (recordBytes 64 (hdr (if b.1 = 0 then 0 else 1) ++ b.2))) s

end Sys2Proof.Machine
end

