-- ==== Sys2Proof/Machine/PageReq.lean ====
section
/-!
DEFINITION. Machine/PageReq.lean: page requests, the fault filters that collapse them, and the answers (R104, R232 to
R234, R339, Table 10-7).
-/
namespace Sys2Proof.Machine

/-- A page that an access needs and that is not resident: its base, its size and the access types of Table 10-7. A size of 0 stands
for a walk that waits for a shootdown, and requests nothing (R387). -/
structure PageNeed where
  page : Nat
  size : Nat
  types : BitVec 8
  deriving DecidableEq, Repr

/-- Bytes 12 to 15 of a page-request record (Table 10-7). -/
def requesterFields (types : BitVec 8) : Requester → List RecField
  | .team wid _ => [(12, 1, types.toNat), (13, 1, coreOf wid % 8 + wid % 16 * 8), (14, 2, coreOf wid / 8)]
  | .engine core team _ => [(12, 1, types.toNat), (13, 1, core % 8 + team % 16 * 8 + 128), (14, 2, core / 8)]
  | .apex _ => [(12, 1, types.toNat), (13, 1, 0), (14, 2, 32)]

/-- Post the record of a cluster or Apex filter entry into the page-request ring of its region's domain, unless the
ring is full (R233, R338). -/
def postRecord (s : State) (e : FilterEntry) : State × FilterEntry :=
  let dom := faultDomain s (some e.node)
  let ring := memNat s.mem (dom + 24) 8
  let ent := memNat s.mem (dom + 32) 4
  let head := memNat s.mem (dom + 36) 4
  let tail := memNat s.mem (dom + 40) 4
  if !(ringSizeOk ent && decide (ring % 32 = 0)) || (tail + 1) % ent = head % ent then (s, e) else
  let first := (e.waiters.head?).elim [] (requesterFields e.types)
  let bs := recordBytes 32 ([(0, 8, e.page), (8, 2, e.ctx), (10, 2, min e.waiters.length 65535)] ++ first)
  (countEvent (apexWrite (apexWrite s (ring + 32 * (tail % ent)) bs) (dom + 40) (natLe 4 ((tail + 1) % ent))) dom,
    { e with posted := true })

/-- The entry of a filter with a key. -/
def filterFind (l : List FilterEntry) (ctx page : Nat) : Option FilterEntry :=
  l.find? fun e => e.ctx = ctx && e.page = page

/-- Replace the entry with the same key. -/
def filterPut (l : List FilterEntry) (e : FilterEntry) : List FilterEntry :=
  l.map fun x => if x.ctx = e.ctx ∧ x.page = e.page then e else x

/-- A core entry joins or takes an entry of its cluster's filter (R233). -/
def clusterRequest (s : State) (core : Nat) (e : FilterEntry) : State :=
  let k := clusterOf core
  let c := s.cluster k
  let joined := fun (s : State) =>
    let x := s.core core
    s.setCore core { x with filter := filterPut x.filter { e with joined := true } }
  match filterFind c.filter e.ctx e.page with
  | some f =>
    if f.posted then joined s
    else
      let (s, f) := postRecord s f
      joined (s.setCluster k { s.cluster k with filter := filterPut (s.cluster k).filter f })
  | none =>
    if c.filter.length < 64 then
      let (s, f) := postRecord s { e with joined := false, posted := false }
      joined (s.setCluster k { s.cluster k with filter := (s.cluster k).filter ++ [f] })
    else s

/-- A request of a core's page filter: it joins the entry of its key, or takes a free one, and goes on to the cluster;
with no free entry the requester goes on waiting (R232). -/
def requestPage (s : State) (core ctx node : Nat) (who : Requester) (n : PageNeed) : State :=
  if n.size = 0 then s else
  let c := s.core core
  match filterFind c.filter ctx n.page with
  | some e =>
    let e := { e with types := e.types ||| n.types, waiters := if who ∈ e.waiters then e.waiters else e.waiters ++ [who] }
    let s := s.setCore core { c with filter := filterPut c.filter e }
    if e.joined then s else clusterRequest s core e
  | none =>
    if c.filter.length < 32 then
      let e : FilterEntry :=
        { ctx := ctx, page := n.page, size := n.size, types := n.types, waiters := [who], node := node }
      clusterRequest (s.setCore core { c with filter := c.filter ++ [e] }) core e
    else s

/-- A request of firmware or of the census root, through the Apex die's own filter of 32 entries (R233). -/
def requestApex (s : State) (ctx node id : Nat) (n : PageNeed) : State :=
  if n.size = 0 then s else
  let l := s.dev.apexFilter
  match filterFind l ctx n.page with
  | some e =>
    let e := { e with types := e.types ||| n.types,
                      waiters := if Requester.apex id ∈ e.waiters then e.waiters else e.waiters ++ [.apex id] }
    let (s, e) := if e.posted then (s, e) else postRecord s e
    { s with dev := { s.dev with apexFilter := filterPut s.dev.apexFilter e } }
  | none =>
    if l.length < 32 then
      let (s, e) := postRecord s
        { ctx := ctx, page := n.page, size := n.size, types := n.types, waiters := [.apex id], node := node }
      { s with dev := { s.dev with apexFilter := s.dev.apexFilter ++ [e] } }
    else s

/-- A declined request is remembered for its requester until it looks again (R234). -/
def noteDeclined (page : Nat) (s : State) : Requester → State
  | .team wid stream => s.modTeam wid fun t => { t with declined := (stream, page) :: t.declined }
  | r => { s with dev := { s.dev with declined := (r, page) :: s.dev.declined } }

/-- A declined page among those that an engine or the Apex die needs. -/
def wasRefused (s : State) (who : Requester) (needs : List PageNeed) : Bool :=
  needs.any fun n => n.size ≠ 0 && s.dev.declined.contains (who, n.page)

/-- The requester has looked at its answers, or its work has ended. -/
def forgetRefused (s : State) (who : Requester) : State :=
  { s with dev := { s.dev with declined := s.dev.declined.filter fun p => p.1 ≠ who } }

/-- An answer frees every entry of its key and wakes its waiters; a declined one is noted for them (R234, R339). -/
def answerPage (s : State) (ctx page : Nat) (granted : Bool) : State :=
  let mine := fun (e : FilterEntry) => e.ctx = ctx && e.page = page
  let ws := (s.cores.flatMap fun p => (p.2.filter.filter mine).flatMap (·.waiters)) ++
    (s.dev.apexFilter.filter mine).flatMap (·.waiters)
  let s := { s with
    cores := s.cores.map fun (p : Nat × Core) => (p.1, { p.2 with filter := p.2.filter.filter fun e => !mine e }),
    clusters := s.clusters.map fun (p : Nat × Cluster) => (p.1, { p.2 with filter := p.2.filter.filter fun e => !mine e }) }
  let s := { s with dev := { s.dev with apexFilter := s.dev.apexFilter.filter fun e => !mine e } }
  if granted then s else ws.foldl (noteDeclined page) s

/-- A team that is pre-empted or ends leaves its entries (R234). -/
def leaveFilters (s : State) (wid : Nat) : State :=
  let mine := fun (r : Requester) => match r with | .team w _ => w == wid | _ => false
  { s with cores := s.cores.map fun (p : Nat × Core) =>
      (p.1, { p.2 with filter := p.2.filter.map fun e => { e with waiters := e.waiters.filter fun r => !mine r } }) }

end Sys2Proof.Machine
end

