-- ==== Sys2Proof/Machine/Ops.lean ====
section
/-!
DEFINITION. Machine/Ops.lean: what every instruction shares: the issuing stream, window registers with spill and fill
(R46 to R50), taking a trap and returning from one (R428 to R436), waiting (R88, R459) and a team's own accesses to
virtual memory.
-/
namespace Sys2Proof.Machine

/-- Why an instruction's effect stops: a cause with its trap value where the cause names one (`imp`: raised from a
pending cause), or a wait with the pages to request. Nothing the effect did so far remains (R6, R459). -/
inductive Stop where
  | trap (cause : Nat) (value : Option TrapValue) (imp : Bool)
  | wait (w : Wait) (needs : List PageNeed)
  deriving DecidableEq, Repr

/-- The effect of an instruction, or why it stops. -/
abbrev Act (α : Type) := Except Stop α

/-- Raise a precise cause whose trap value is the default of Table 25-3. -/
def raise {α : Type} (cause : Nat) : Act α := .error (.trap cause none false)

/-- Raise a precise cause with a trap value. -/
def raiseWith {α : Type} (cause : Nat) (v : TrapValue) : Act α := .error (.trap cause (some v) false)

/-- Raise a cause when a condition holds. -/
def raiseIf (c : Bool) (cause : Nat) : Act Unit := if c then raise cause else .ok ()

/-- Wait. -/
def waitOn {α : Type} (w : Wait) : Act α := .error (.wait w [])

/-- Wait while a condition holds. -/
def waitWhile (c : Bool) (w : Wait) : Act Unit := if c then waitOn w else .ok ()

/-! ## The issuing stream -/

/-- An instruction at its issue: its team and stream, its address, the address that TRAPPC would take (its hint's or
its chain hint's, R54, R75), the hint that applies, and the cycle counter that CYCLO reads. -/
structure Issue where
  wid : Nat
  stream : StreamId
  pc : DWord
  trapPc : DWord
  hint : Option Hint := none
  cyclo : Word := 0
  deriving DecidableEq, Repr

/-- The fragment number of the issuing stream; 0 for the A-stream. -/
def Issue.frag (i : Issue) : Nat := match i.stream with | .a => 0 | .e n => n

/-- The issuing stream is in the E-stream. -/
def Issue.estr (i : Issue) : Bool := match i.stream with | .a => false | .e _ => true

/-- The core of the issuing team. -/
def Issue.core (i : Issue) : Nat := coreOf i.wid

/-- A stream of a team can issue: it lives, waits at no barrier and for no COLL, the team is not terminated, and while a handler runs
only its stream issues (R211, R433, R434). -/
def Team.canIssue (t : Team) (x : StreamId) : Bool :=
  !t.terminated &&
  (match t.trap.stream with | some y => x == y | none => true) &&
  (match x with
    | .a => !t.a.ended && t.a.bar.isNone
    | .e n => match tabGet t.frags n with | some f => f.bar.isNone && f.hold.isNone | none => false)

/-- The issue context of the current stream, with its team. -/
def issueOf (s : State) : Option (Issue × Team) :=
  match s.cur with
  | none => none
  | some c =>
    match s.team? c.wid with
    | none => none
    | some t =>
      if t.canIssue c.stream && !s.host.fatal then
        match c.stream with
        | .a =>
          some ({ wid := c.wid, stream := .a, pc := t.a.pc, trapPc := (t.a.hint.map (·.pc)).getD t.a.pc,
                  hint := t.a.hint.map (·.hint), cyclo := Config.cyclo s.tick }, t)
        | .e n =>
          match tabGet t.frags n with
          | none => none
          | some f =>
            let pc := match f.chain with | some c => c.hintPc | none => (f.hint.map (·.pc)).getD f.pc
            some ({ wid := c.wid, stream := .e n, pc := f.pc, trapPc := pc, hint := f.hint.map (·.hint),
                    cyclo := Config.cyclo s.tick }, t)
      else none

/-- Change the A-stream of the issuing team. -/
def Team.modA (t : Team) (f : AStream → AStream) : Team := { t with a := f t.a }

/-- Change a fragment. -/
def Team.modFrag (t : Team) (n : Nat) (f : Frag → Frag) : Team := { t with frags := tabMod t.frags n f }

/-- The stream goes on at the next word, its hint consumed and its wait over (R60, R74). -/
def Team.advance (t : Team) (x : StreamId) : Team :=
  match x with
  | .a => t.modA fun a => { a with pc := a.pc + 4, hint := none, wait := none }
  | .e n => t.modFrag n fun f => { f with pc := f.pc + 4, hint := none, wait := none }

/-- Set the program counter of a stream. -/
def Team.setPc (t : Team) (x : StreamId) (pc : DWord) : Team :=
  match x with
  | .a => t.modA fun a => { a with pc := pc }
  | .e n => t.modFrag n fun f => { f with pc := pc }

/-- An instruction of a chain has issued: one fewer is left, and after the last the chain is over (R53). -/
def Team.chainStep (t : Team) (x : StreamId) : Team :=
  match x with
  | .a => t
  | .e n => t.modFrag n fun f => match f.chain with
    | some c => { f with chain := if c.left ≤ 1 then none else some { c with left := c.left - 1 } }
    | none => f

/-- The lanes of a team that have not ended: those of every fragment and every parked set (R195, R56). -/
def Team.live (t : Team) : Mask :=
  t.parked.foldl (fun m p => m ||| p.frag.mask) (t.frags.foldl (fun m p => m ||| p.2.mask) 0)

/-- Every lane has ended (R204). -/
def Team.eEnded (t : Team) : Bool := t.frags.isEmpty && t.parked.isEmpty

/-- A fragment's abandoned chain or pending hint: it goes back to the hint (R54, R75, R88). -/
def Frag.rollback (f : Frag) : Frag :=
  { f with pc := match f.chain with | some c => c.hintPc | none => (f.hint.map (·.pc)).getD f.pc,
           hint := none, chain := none, wait := none }

/-- The same for the A-stream. -/
def AStream.rollback (a : AStream) : AStream :=
  { a with pc := (a.hint.map (·.pc)).getD a.pc, hint := none, wait := none }

/-- A reply to SOLICIT.MOVE that moved an entry; a refusal is forgotten with the wait for it. -/
def Team.kept (t : Team) : Option (Nat × Nat × Option Nat) := t.moveReply.filter fun r => r.2.2.isSome

/-- Every stream of a team gives up what it waits on and any issue pair or chain it is within (R373 step 1); so does a TASKSTEAL whose
commit has not been performed (R368). -/
def Team.rollback (t : Team) : Team :=
  { t with a := t.a.rollback, frags := t.frags.map fun p => (p.1, p.2.rollback), lend := none, moveReply := t.kept }

/-! ## A team's own accesses -/

/-- The accessor of a team. -/
def teamAccess (t : Team) (wid : Nat) : Accessor := { core := some (coreOf wid), node := some t.info.node, wid := some wid }

/-- Cut a range at the boundaries of aligned blocks of `m` bytes: start and length of each part. -/
def cutRange (m : Nat) : Nat → Nat → Nat → List (Nat × Nat)
  | 0, _, _ => []
  | fuel + 1, a, n =>
    if n = 0 then [] else
    let k := min n (m - a % m)
    (a, k) :: cutRange m fuel (a + k) (n - k)

/-- The aligned parts of a range, at most `m` bytes each. -/
def partsOf (m a n : Nat) : List (Nat × Nat) := cutRange m (n / m + 2) a n

/-- The memory causes in the order in which an access checks them (R107); a malformed entry and an unbacked address
stand after them (assumption 5). -/
def memCauseOrder : List Nat := [0x080, 0x084, 0x083, 0x081, 0x082, 0x088, 0x089, 0x08E, 0x0C0]

/-- The cause of the list that stands highest in an order. -/
def highest (order : List Nat) (cs : List Nat) : Option Nat := order.find? fun c => cs.contains c

/-- What an access to a page, other than one by a memory instruction, meets: a cause, a page to wait for, or neither. It may not
reach the device aperture (R395). -/
def pageCheck (x : Xlated) (write : Bool) (types : BitVec 8) : Option Nat × Option PageNeed :=
  match x with
  | .unmapped => (some 0x081, none)
  | .malformed => (some 0x088, none)
  | .unbacked => (some 0x089, none)
  | .absent l => if write && !l.attr.w then (some 0x082, none) else (none, some ⟨l.vbase, l.size, types⟩)
  | .held => (none, some ⟨0, 0, types⟩)
  | .hit l pa =>
    (if write && !l.attr.w then some 0x082 else if !isBacked pa then some 0x089 else if isAperture pa then some 0x08E else none, none)

/-- A page that the issuing stream asked for and that was declined (R234). -/
def Team.wasDeclined (t : Team) (x : StreamId) (page : Nat) : Bool := t.declined.contains (x, page)

/-- After the checks have passed, wait for the pages that are not resident; a declined one raises 0x081 with the address in it that
the access names first (R459, Table 25-3). `starts` are the first addresses of the ranges that the access names. -/
def awaitPages (t : Team) (x : StreamId) (starts : List Nat) (needs : List PageNeed) : Act Unit :=
  match needs.find? fun n => n.size ≠ 0 && t.wasDeclined x n.page with
  | some n =>
    let va := (starts.find? fun a => decide (n.page ≤ a) && decide (a < n.page + n.size)).getD n.page
    raiseWith 0x081 { value := BitVec.ofNat 64 va }
  | none => match needs with
    | [] => .ok ()
    | n :: _ => .error (.wait (.page n.page) needs)

/-- Probe every page of a range through the team's translation (R50, R160, R261): the highest cause, or the pages to
wait for. -/
def probeRange (s : State) (core ctx va n : Nat) (write : Bool) (types : BitVec 8) : Option Nat × List PageNeed :=
  let rs := (partsOf 0x10000 va n).map fun p => pageCheck (xlate s core ctx p.1) write types
  (highest memCauseOrder (rs.filterMap (·.1)), rs.filterMap (·.2))

/-- The first address of a range at which a probe meets a cause. -/
def firstMeeting (s : State) (core ctx va n : Nat) (write : Bool) (c : Nat) : Nat :=
  (((partsOf 0x10000 va n).find? fun p => (pageCheck (xlate s core ctx p.1) write 0).1 = some c).map (·.1)).getD va

/-- Bytes of a translated range; a part that does not translate reads 0. -/
def readVirt (s : State) (core ctx va n : Nat) (shadow : Bool := false) : List Byte :=
  (partsOf 8 va n).flatMap fun p =>
    match xlate s core ctx p.1 shadow with
    | .hit _ pa => memBytes s.mem pa p.2
    | _ => List.replicate p.2 0

/-- Write bytes to a translated range, in aligned words of 8 bytes (R237); a part that does not translate is dropped. -/
def writeVirt (s : State) (acc : Accessor) (core ctx va : Nat) (bs : List Byte) (cls : BitVec 2) (k : TagWrite)
    (shadow : Bool := false) : State :=
  (partsOf 8 va bs.length).foldl (fun s p =>
    match xlate s core ctx p.1 shadow with
    | .hit l pa => physWrite s acc pa ((bs.drop (p.1 - va)).take p.2) l.attr cls k
    | _ => s) s

/-! ## Register windows -/

/-- Size of the current frame (WBASE.F). -/
def Window.size (w : Window) : Nat := (w.frames.head?.map (·.size)).getD 0

/-- Size of the caller's frame (WBASE.G). -/
def Window.caller (w : Window) : Nat := (w.frames.head?.map (·.caller)).getD 0

/-- The physical register of window register `n` among `phys` (R46): cause 0x010 beyond the window's reach. -/
def Window.reg (w : Window) (phys n : Nat) : Act Nat :=
  if n < min 64 (w.size + w.caller) then .ok ((w.base + 64 * phys - n) % phys) else raise 0x010

/-- How many of the frames, newest first, stay resident when `c` registers must be free: the older ones are spilled,
the current one never (R47). -/
def framesKept (room : Nat) : Nat → List Frame → Nat
  | _, [] => 0
  | used, f :: fs => if used + f.size ≤ room then 1 + framesKept room (used + f.size) fs else 0

/-- The base of the frame at a position in the list, newest first. -/
def frameBase (w : Window) (phys i : Nat) : Nat :=
  (w.base + 64 * phys - ((w.frames.take i).map (·.size)).sum % phys) % phys

/-- The frames a call spills, oldest first, each with its base, and the frames that stay (R47). -/
def spillPlan (w : Window) (phys c : Nat) : List (Nat × Frame) × List Frame :=
  let keep := max 1 (framesKept (phys - c) 0 w.frames)
  (((enum 0 w.frames).drop keep).reverse.map fun p => (frameBase w phys p.1, p.2), w.frames.take keep)

/-- The header of a spill record (R49, R101, R432). -/
def frameHeader (code : Nat) (f : Frame) : Nat :=
  f.size + f.caller * 2 ^ 8 + (if f.trap then 2 ^ 15 else (f.link.toNat - code) / 4 % 2 ^ 48 * 2 ^ 16)

/-- The frame that a header describes. -/
def frameOfHeader (code h : Nat) : Frame :=
  { size := bitsOf h 6 0, caller := bitsOf h 14 8, trap := bitsOf h 15 15 = 1,
    link := if bitsOf h 15 15 = 1 then 0 else BitVec.ofNat 64 (code + 4 * bitsOf h 63 16) }

/-- Probe every page of some ranges for a spill or fill: the highest cause, with the first address that meets it, or the wait for the
pages that are not resident (R50). -/
def probeRanges (s : State) (i : Issue) (t : Team) (rs : List (Nat × Nat)) (write : Bool) : Act Unit :=
  let ps := rs.flatMap fun r => (partsOf 0x10000 r.1 r.2).map fun p =>
    (p.1, pageCheck (xlate s i.core t.info.ctx p.1) write (if write then 2 else 1))
  match highest memCauseOrder (ps.filterMap (·.2.1)) with
  | some c => raiseWith c { value := BitVec.ofNat 64 (((ps.find? fun p => p.2.1 = some c).map (·.1)).getD 0) }
  | none => awaitPages t i.stream (rs.map (·.1)) (ps.filterMap (·.2.2))

/-- The spill record of a scalar frame (R49). -/
def scalarRecord (t : Team) (p : Nat × Frame) : List Byte :=
  natLe 8 (frameHeader t.info.kernel.code p.2) ++
    (List.range p.2.size).flatMap fun n => natLe 8 (tabGetD 0 t.a.s ((p.1 + 256 - n) % 256)).toNat

/-- Slide the scalar window to a new frame of `c` registers (R47), spilling first (R49, R50). -/
def slideA (s : State) (i : Issue) (t : Team) (c : Nat) (link : DWord) (trap : Bool) : Act (State × Team) := do
  let plan := spillPlan t.a.win 256 c
  let bytes := plan.1.flatMap (scalarRecord t)
  let at_ := t.a.sspill.toNat
  raiseIf (decide (t.info.sslim.toNat < at_ + bytes.length) && !bytes.isEmpty) 0x011
  probeRanges s i t [(at_, bytes.length)] true
  let s := writeVirt s (teamAccess t i.wid) i.core t.info.ctx at_ bytes 0 .clear
  let frame : Frame := { size := c, caller := t.a.win.size, link := link, trap := trap }
  .ok (s, t.modA fun a => { a with
    sspill := a.sspill + BitVec.ofNat 57 bytes.length,
    win := { base := (a.win.base + c) % 256, depth := a.win.depth + 1, frames := frame :: plan.2 } })

/-- Slide the scalar window back to the caller's frame, and fill that frame's own caller if it was spilled (R47, R49,
R50). -/
def slideBackA (s : State) (i : Issue) (t : Team) : Act Team := do
  let w := t.a.win
  let base := (w.base + 256 - w.size % 256) % 256
  let rest := w.frames.tail
  let cur := rest.head?.getD { size := 0, caller := 0 }
  if rest.length = 1 ∧ 1 < w.depth then
    let n := 8 + 8 * cur.caller
    let at_ := t.a.sspill.toNat - n
    probeRanges s i t [(at_, n)] false
    let bs := readVirt s i.core t.info.ctx at_ n
    let f := frameOfHeader t.info.kernel.code (leNat (bs.take 8))
    let b := (base + 256 - cur.size % 256) % 256
    let regs := (List.range cur.caller).foldl (fun r k =>
      tabSetD 0 r ((b + 256 - k) % 256) (BitVec.ofNat 64 (leNat ((bs.drop (8 + 8 * k)).take 8)))) t.a.s
    let win : Window := { base := base, depth := w.depth - 1, frames := rest ++ [f] }
    .ok (t.modA fun a => { a with s := regs, sspill := BitVec.ofNat 57 at_, win := win })
  else
    .ok (t.modA fun a => { a with win := { base := base, depth := w.depth - 1, frames := rest } })

/-- The key of a lane's physical register. -/
def vKey (lane phys : Nat) : Nat := lane * 1024 + phys

/-- The address of the next free byte of a lane's vector stack (R49). -/
def laneStack (t : Team) (lane : Nat) : Nat := t.info.vspill.toNat + lane * t.info.vspsz + tabGetD 0 t.vtop lane

/-- The spill record of a vector frame in one lane (R49). -/
def vectorRecord (t : Team) (lane : Nat) (p : Nat × Frame) : List Byte :=
  natLe 8 (frameHeader t.info.kernel.code p.2) ++
    (List.range p.2.size).flatMap fun n =>
      natLe 4 (tabGetD 0 t.v (vKey lane ((p.1 + 64 * t.info.vphys - n) % t.info.vphys))).toNat

/-- Slide a fragment's vector window to a new frame of `c` registers, spilling in every lane of `mask` (R47 to R50). The
result is the state, the team with the spills made, and the new window. -/
def slideE (s : State) (i : Issue) (t : Team) (w : Window) (mask : Mask) (c : Nat) (link : DWord) (trap : Bool) :
    Act (State × Team × Window) := do
  let plan := spillPlan w t.info.vphys c
  let lanes := maskLanes t.info.lanes mask
  let size : Nat := (plan.1.map fun p => 8 + 4 * p.2.size).sum
  raiseIf (decide (0 < size) && lanes.any fun l => decide (t.info.vspsz < tabGetD 0 t.vtop l + size)) 0x011
  probeRanges s i t (if size = 0 then [] else lanes.map fun l => (laneStack t l, size)) true
  let s := if size = 0 then s else lanes.foldl (fun s l =>
    writeVirt s (teamAccess t i.wid) i.core t.info.ctx (laneStack t l) (plan.1.flatMap (vectorRecord t l)) 0 .clear) s
  let t := if size = 0 then t else
    { t with vtop := lanes.foldl (fun v l => tabSetD 0 v l (tabGetD 0 v l + size)) t.vtop }
  let frame : Frame := { size := c, caller := w.size, link := link, trap := trap }
  .ok (s, t, { base := (w.base + c) % t.info.vphys, depth := w.depth + 1, frames := frame :: plan.2 })

/-- Slide a fragment's vector window back (R47), filling the caller's caller in every lane if it was spilled. -/
def slideBackE (s : State) (i : Issue) (t : Team) (w : Window) (mask : Mask) : Act (Team × Window) := do
  let phys := t.info.vphys
  let base := (w.base + 64 * phys - w.size) % phys
  let rest := w.frames.tail
  let cur := rest.head?.getD { size := 0, caller := 0 }
  if rest.length = 1 ∧ 1 < w.depth then
    let n := 8 + 4 * cur.caller
    let lanes := maskLanes t.info.lanes mask
    let from_ := fun l => laneStack t l - n
    probeRanges s i t (lanes.map fun l => (from_ l, n)) false
    let rec_ := fun l => readVirt s i.core t.info.ctx (from_ l) n
    let f := frameOfHeader t.info.kernel.code (leNat ((rec_ ((lanes.head?).getD 0)).take 8))
    let b := (base + 64 * phys - cur.size) % phys
    let v := lanes.foldl (fun v l =>
      let bs := rec_ l
      (List.range cur.caller).foldl (fun v k =>
        tabSetD 0 v (vKey l ((b + 64 * phys - k) % phys)) (BitVec.ofNat 32 (leNat ((bs.drop (8 + 4 * k)).take 4)))) v) t.v
    let vtop := lanes.foldl (fun v l => tabSetD 0 v l (tabGetD 0 v l - n)) t.vtop
    .ok ({ t with v := v, vtop := vtop }, { base := base, depth := w.depth - 1, frames := rest ++ [f] })
  else .ok (t, { base := base, depth := w.depth - 1, frames := rest })

/-- The entry of the call-target table at an offset, of a stream's kind (R100, R345). -/
def callTarget (t : Team) (estr : Bool) (off : Nat) : Option CallEntry :=
  t.info.kernel.calls.find? fun e => e.off = off && e.estr = estr

/-! ## Traps -/

/-- TEAMID (Table 3-4). -/
def teamIdWord (t : Team) (wid : Nat) : Nat := wid % 16 + t.info.seq.toNat * 2 ^ 16

/-- The CAUSE word of a trap (Table 25-2). -/
def causeWord (i : Issue) (cause : Nat) (imp : Bool) (v : TrapValue) : DWord :=
  BitVec.ofNat 64 (cause + (if imp then 2 ^ 9 else 0) + (if i.estr then 2 ^ 10 else 0) + i.frag * 2 ^ 11 + 2 ^ 16 +
    (match v.lane with | some l => l * 2 ^ 17 + 2 ^ 27 | none => 0) + v.detail.toNat * 2 ^ 32)

/-- End a team by a cause that cannot be taken (R434): the record with cause 0x023, nothing issues again, and its
pending causes are discarded. Its retirement follows under R193. -/
def terminate (s : State) (wid : Nat) (t : Team) (cause : DWord) (pc : DWord) (v : TrapValue) : State :=
  let s := s.setTeam wid { t with terminated := true, pend := [], trap := { t.trap with stream := none } }
  faultRecord s (some t.info.node) 0x023 0 (coreOf wid) (teamIdWord t wid)
    [[(24, 8, pc.toNat), (32, 8, cause.toNat), (40, 8, v.value.toNat)]]

/-- Take a cause in the issuing stream (R432): into the team's handler, or, where the cause cannot be taken, to the end
of the team (R433, R434). A handler frame whose spill must wait for a page makes the instruction wait (R50). -/
def enterTrap (s : State) (i : Issue) (t : Team) (cause : Nat) (imp : Bool) (v : TrapValue) : Act State :=
  let word := causeWord i cause imp v
  let en := if i.estr then bit t.trap.tvec 32 else bit t.trap.tvec 0
  let off := if i.estr then (t.trap.tvec.extractLsb' 34 30).toNat * 4 else (t.trap.tvec.extractLsb' 2 30).toNat * 4
  let stop := fun (c : Nat) => terminate s i.wid t (causeWord i c imp v) i.trapPc v
  if t.trap.stream.isSome then .ok (terminate s i.wid t word i.trapPc v) else
  if !en then .ok (terminate s i.wid t word i.trapPc v) else
  match callTarget t i.estr off with
  | none => .ok (stop 0x019)
  | some h =>
    let h_ := BitVec.ofNat 64 (t.info.kernel.code + off)
    let t' := { t.rollback with
      trap := { t.trap with cause := word, pc := i.trapPc, value := v.value, stream := some i.stream } }
    match i.stream with
    | .a =>
      if t.a.win.depth = 65535 then .ok (stop 0x01A) else
      match slideA s i t' h.fs 0 true with
      | .ok (s, t) => .ok (s.setTeam i.wid (t.setPc .a h_))
      | .error (.wait w n) => .error (.wait w n)
      | .error (.trap c _ _) => .ok (stop c)
    | .e n =>
      match tabGet t'.frags n with
      | none => .ok s
      | some f =>
        if f.win.depth = 65535 then .ok (stop 0x01A) else
        match slideE s i t' f.win f.mask h.fv 0 true with
        | .ok (s, t, w) => .ok (s.setTeam i.wid ((t.modFrag n fun f => { f with win := w }).setPc i.stream h_))
        | .error (.wait w n) => .error (.wait w n)
        | .error (.trap c _ _) => .ok (stop c)

/-- The current frame of the issuing stream is a trap frame (R432, R436). -/
def inTrapFrame (t : Team) (x : StreamId) : Bool :=
  match x with
  | .a => (t.a.win.frames.head?.map (·.trap)).getD false
  | .e n => ((tabGet t.frags n).bind fun f => f.win.frames.head?.map (·.trap)).getD false

/-- Return from a trap (R436): 0x022 outside a trap frame; else the window slides back, ACTIVE becomes 0 and the stream
goes on at TRAPPC. -/
def returnTrap (s : State) (i : Issue) (t : Team) : Act State := do
  raiseIf (!inTrapFrame t i.stream) 0x022
  let trap := { t.trap with cause := t.trap.cause &&& ~~~(0x10000 : DWord), stream := none }
  match i.stream with
  | .a =>
    let t ← slideBackA s i t
    .ok (s.setTeam i.wid (({ t with trap := trap }).setPc .a t.trap.pc))
  | .e n =>
    match tabGet t.frags n with
    | none => .ok s
    | some f =>
      let (t, w) ← slideBackE s i t f.win f.mask
      .ok (s.setTeam i.wid ((({ t with trap := trap }).modFrag n fun f => { f with win := w }).setPc i.stream t.trap.pc))

/-! ## Waiting -/

/-- An instruction that waits: it has no effect but that its stream is marked with what it waits on, the answers it was
woken by are used up, and the pages it needs are requested (R88, R108, R208, R232). -/
def noteWait (s : State) (i : Issue) (w : Wait) (needs : List PageNeed) : State :=
  let mark := fun (t : Team) =>
    let t := { t with declined := t.declined.filter (·.1 ≠ i.stream) }
    match i.stream with
    | .a => t.modA fun a => { a with wait := some w, since := if a.wait = some w then a.since else s.dev.time }
    | .e n => t.modFrag n fun f => { f with wait := some w, since := if f.wait = some w then f.since else s.dev.time }
  let s := s.modTeam i.wid mark
  match s.team? i.wid with
  | none => s
  | some t => needs.foldl (fun s n => requestPage s i.core t.info.ctx t.info.node (.team i.wid i.stream) n) s

end Sys2Proof.Machine
end

