-- ==== Sys2Proof/Machine/Operands.lean ====
section
/-!
DEFINITION. Machine/Operands.lean: the operand forms: source fields of the A-stream (R65, R66, R44, R85), window
registers, predicates, and the address of a Format M operand (R64).
-/
namespace Sys2Proof.Machine

/-- CORE (Table 3-4): core in cluster, cluster and Facet die are bits [7:0]; the device identifier stands above. -/
def coreWord (s : State) (core : Nat) : Nat := core % 256 + s.dev.devId * 2 ^ 8

/-- A special that both streams may read (Table 3-3). -/
def commonSpecial (i : Issue) (t : Team) (core : Nat) : Nat → Nat
  | 89 => t.info.lanes
  | 90 => core
  | 91 => i.wid % 16
  | 95 => i.cyclo.toNat
  | _ => 0

/-- A special marked "E only" (Table 3-3). -/
def eOnlySpecial (n : Nat) : Bool := n == 88 || n == 92 || n == 93 || n == 94

/-- Read window register s`n` (R46). -/
def readS (t : Team) (n : Nat) : Act DWord := do
  let p ← t.a.win.reg 256 n
  .ok (tabGetD 0 t.a.s p)

/-- Write window register s`n` (R46). -/
def writeS (t : Team) (n : Nat) (x : DWord) : Act Team := do
  let p ← t.a.win.reg 256 n
  .ok (t.modA fun a => { a with s := tabSetD 0 a.s p x })

/-- The value of a source field of the A-stream (Table 4-3, R66, R85): a latch raises 0x013, a special marked "E only"
0x017; queues were refused at decode. `core` is the value of CORE. -/
def sourceA (i : Issue) (t : Team) (core : Nat) (f : BitVec 7) : Act DWord :=
  let n := f.toNat
  if n < 64 then readS t n
  else if n < 72 then raise 0x013
  else if n < 88 then raise 0x009
  else if n < 96 then
    if eOnlySpecial n then raise 0x017 else .ok (BitVec.ofNat 64 (commonSpecial i t core n))
  else .ok (BitVec.ofNat 64 (n - 96))

/-- A predicate: p0 reads as true (R41). -/
def readP (t : Team) (n : Nat) : Bool := if n = 0 then true else bit t.a.p n

/-- Write a predicate; a write to p0 is discarded (R41). -/
def writeP (t : Team) (n : Nat) (v : Bool) : Team :=
  if n = 0 then t
  else t.modA fun a =>
    { a with p := if v then a.p ||| BitVec.ofNat 8 (1 <<< n) else a.p &&& ~~~(BitVec.ofNat 8 (1 <<< n)) }

/-- A translation register (Table 3-2); one never written is not valid. -/
def readT (t : Team) (n : Nat) : TReg := tabGetD {} t.a.t n

/-- Write a translation register. -/
def writeT (t : Team) (n : Nat) (r : TReg) : Team := t.modA fun a => { a with t := tabSetD {} a.t n r }

/-- The signed offset of an offset-layout operand, in units of the access size (R64). -/
def offsetUnits (h : Option Hint) (off6 : BitVec 6) : Int :=
  match h with
  | some (.imm p) => (p ++ off6).toInt
  | _ => off6.toInt

/-- The signed offset of a function-layout operand, in units of the access size (R64). -/
def functionUnits (h : Option Hint) : Int :=
  match h with
  | some (.imm p) => p.toInt
  | _ => 0

/-- The address that a Format M operand forms: VBASE + index + off × size, wrapping (R64). -/
def formAddr (r : TReg) (index : Nat) (off : Int) (size : Nat) : Nat :=
  (BitVec.ofInt 64 ((r.vbase.toNat + index : Nat) + off * (size : Int))).toNat

end Sys2Proof.Machine
end

