-- ==== Sys2Proof/Machine/Queues.lean ====
section
/-!
DEFINITION. Machine/Queues.lean: the eight queues between the streams (R55 to R58, R194).
-/
namespace Sys2Proof.Machine

/-- A queue of the team (unlisted: capacity 0). -/
def Team.queue (t : Team) (q : Nat) : Queue := tabGetD {} t.q q

/-- Replace a queue. -/
def Team.setQueue (t : Team) (q : Nat) (x : Queue) : Team := { t with q := tabSetD {} t.q q x }

/-- Bytes of queue store that one entry of a queue takes (R55). -/
def entryBytes (t : Team) (q : Nat) : Nat := if q = 6 then 8 else 128 * ((t.info.lanes + 31) / 32)

/-- A queue has room for one more entry, the entries that the gather engine is to push counted (R56, R57). -/
def hasRoom (t : Team) (q : Nat) : Bool :=
  decide (((t.queue q).entries.length + (t.gather.filter (·.q = q)).length + 1) * entryBytes t q ≤ (t.queue q).cap)

/-- The causes of naming a queue: capacity 0 (0x015), or a direction or stream that Table 3-6 does not give (0x014). -/
def queueCause (t : Team) (q : Nat) (ok : Bool) : Act Unit := do
  raiseIf (!ok) 0x014
  raiseIf ((t.queue q).cap = 0) 0x015

/-- Entries at the head whose mask is empty retire (R56). -/
def retireEntries : List QEntry → List QEntry
  | [] => []
  | e :: es => if e.pend = 0 then retireEntries es else e :: es

/-- Commit an entry at the tail of an A-to-E queue; its pending lanes are the team's live lanes (R56). -/
def pushAtoE (t : Team) (q : Nat) (e : QEntry) : Team :=
  let x := t.queue q
  t.setQueue q { x with entries := retireEntries (x.entries ++ [{ e with pend := t.live }]) }

/-- The oldest entry of an A-to-E queue in which a lane is pending (R56). -/
def laneEntry (x : Queue) (lane : Nat) : Option QEntry := x.entries.find? fun e => bit e.pend lane

/-- The entries of a queue after each lane of a mask has had its first `n` pending entries popped (R56, R58). -/
def popLanes (x : Queue) (lanes : List Nat) : Queue :=
  let step := fun (es : List QEntry) (l : Nat) =>
    match es.findIdx? fun e => bit e.pend l with
    | some k => es.modify k fun e => { e with pend := e.pend &&& ~~~(laneBit l) }
    | none => es
  { x with entries := retireEntries (lanes.foldl step x.entries) }

/-- An E-to-A entry is complete: every expected lane that still lives has written it (R57). -/
def entryComplete (t : Team) (e : QEntry) : Bool := e.expected &&& t.live &&& ~~~e.written = 0

/-- The entry that the A-stream pops or peeks from an E-to-A queue (R57): it waits until the oldest is complete, and
raises 0x01B when every lane has ended and it never will be (R194). `skip` names a later entry. -/
def headEtoA (t : Team) (q : Nat) (skip : Nat := 0) : Act QEntry :=
  match (t.queue q).entries[skip]? with
  | some e => if entryComplete t e then .ok e else if t.eEnded then raise 0x01B else waitOn (.queue q)
  | none => if t.eEnded then raise 0x01B else waitOn (.queue q)

/-- Drop the oldest entry of an E-to-A queue. -/
def dropEtoA (t : Team) (q : Nat) : Team :=
  let x := t.queue q
  t.setQueue q { x with entries := x.entries.tail }

/-- One lane of an E-stream push: it goes into the oldest entry that expects the lane and that the lane has not
written, or opens a new one (R57). -/
def pushLane (live : Mask) (v : DWord) (void : Bool) (lane : Nat) : List QEntry → List QEntry
  | [] => [{ vals := tabSetD 0 [] lane v, void := if void then laneBit lane else 0, expected := live, written := laneBit lane }]
  | e :: es =>
    if bit e.expected lane && !bit e.written lane then
      { e with vals := tabSetD 0 e.vals lane v, void := if void then e.void ||| laneBit lane else e.void,
               written := e.written ||| laneBit lane } :: es
    else e :: pushLane live v void lane es

/-- Wait for room in a destination queue; when the consumer's stream has ended it never comes (R88, R194). -/
def awaitRoom (t : Team) (q : Nat) : Act Unit :=
  if hasRoom t q then .ok () else waitOn (.queue q)

/-- A uniform entry of q6 (R55). -/
def uniformEntry (v : DWord) (resid : Bool) : QEntry :=
  { vals := tabSetD 0 [] 0 v, resid := if resid then BitVec.allOnes 1024 else 0 }

end Sys2Proof.Machine
end

