-- ==== Sys2Proof/Machine/EOperands.lean ====
section
/-!
DEFINITION. Machine/EOperands.lean: the source fields of the E-stream, lane by lane (Table 6-1, R44, R46, R53, R56, R58,
R66, R117).
-/
namespace Sys2Proof.Machine

/-- The operand type that a constant is delivered in (Table 4-4). -/
inductive OpType where
  | int
  | f32
  | f16x2
  | bf16x2
  | e4m3x4
  | e5m2x4
  deriving DecidableEq, Repr

/-- The constant `c` in an operand type (R66). -/
def constantBits (ty : OpType) (c : Nat) : Word :=
  let rep := fun (n : Nat) (x : Nat) => BitVec.ofNat 32 (if n = 2 then x + x * 2 ^ 16 else x * 0x01010101)
  match ty with
  | .int => BitVec.ofNat 32 c
  | .f32 => BitVec.ofNat 32 (roundNat .f32 c)
  | .f16x2 => rep 2 (roundNat .f16 c)
  | .bf16x2 => rep 2 (roundNat .bf16 c)
  | .e4m3x4 => rep 4 (roundNat .e4m3 c)
  | .e5m2x4 => rep 4 (roundNat .e5m2 c)

/-- The lane-set size that a PARTN code gives (Table 3-4). -/
def setSize (partn : BitVec 3) : Nat := 2 ^ partn.toNat

/-- The special of a lane (Table 3-3). -/
def laneSpecial (i : Issue) (t : Team) (core : Nat) (f : Frag) (lane : Nat) (n : Nat) : Nat :=
  match n with
  | 88 => lane
  | 92 => lane / setSize f.partn
  | 93 => lane % setSize f.partn
  | 94 => i.frag
  | _ => commonSpecial i t core n

/-- The queue that a source field pops or peeks (Table 4-3). -/
def fieldQueue (f : BitVec 7) : Option Nat := if isQueueField f then some ((f.toNat - 72) % 8) else none

/-- The pending entries of a lane, oldest first (R56). -/
def pendingEntries (x : Queue) (lane : Nat) : List QEntry := x.entries.filter fun e => bit e.pend lane

/-- Which of a lane's pending entries the field at a position reads: a pop takes the one after those that earlier fields
pop, a peek the first (R58). -/
def entryIndex (fs : List (BitVec 7)) (pos : Nat) : Nat :=
  match fs[pos]? with
  | none => 0
  | some f => if isPopField f then ((fs.take pos).filter (· = f)).length else 0

/-- Every queue that the fields name may be read by the E-stream and is declared, and every lane of the fragment has the
entries pending that they read; else the causes or the wait of R55, R56 and R194. -/
def awaitEntries (t : Team) (f : Frag) (fs : List (BitVec 7)) : Act Unit := do
  let qs := fs.filterMap fieldQueue
  raiseIf (qs.any fun q => !(decide (q < 4) || q == 6)) 0x014
  raiseIf (qs.any fun q => (tabGetD {} t.q q).cap = 0) 0x015
  let short := (enum 0 fs).find? fun p =>
    match fieldQueue p.2 with
    | none => false
    | some q => (maskLanes t.info.lanes f.mask).any fun l =>
        decide ((pendingEntries (tabGetD {} t.q q) l).length ≤ entryIndex fs p.1)
  match short.bind fun p => fieldQueue p.2 with
  | none => .ok ()
  | some q => if t.a.ended && t.gather.isEmpty then raise 0x01B else waitOn (.queue q)

/-- The entry that a field reads for a lane. -/
def fieldEntry (t : Team) (fs : List (BitVec 7)) (pos q lane : Nat) : QEntry :=
  ((pendingEntries (tabGetD {} t.q q) lane)[entryIndex fs pos]?).getD {}

/-- The value of the field at a position in every lane: a window register, a latch, a queue entry, a special or a
constant (Table 6-1). -/
def laneSource (i : Issue) (t : Team) (core : Nat) (f : Frag) (fs : List (BitVec 7)) (pos : Nat) (ty : OpType) :
    Act (Nat → Word) :=
  match fs[pos]? with
  | none => .ok fun _ => 0
  | some x =>
    let n := x.toNat
    if n < 64 then do
      let p ← f.win.reg t.info.vphys n
      .ok fun l => tabGetD 0 t.v (vKey l p)
    else if n < 72 then
      match f.chain.bind fun c => tabGet c.latches (n - 64) with
      | some vals => .ok fun l => tabGetD 0 vals l
      | none => raise 0x013
    else if n < 88 then
      let q := (n - 72) % 8
      .ok fun l => (tabGetD 0 (fieldEntry t fs pos q l).vals (if q = 6 then 0 else l)).extractLsb' 0 32
    else if n < 96 then .ok fun l => BitVec.ofNat 32 (laneSpecial i t core f l n)
    else .ok fun _ => constantBits ty (n - 96)

/-- The residency bits that the fields deliver (R118); none when no field reads a queue. -/
def residency (t : Team) (f : Frag) (fs : List (BitVec 7)) : Option Mask :=
  if fs.any isQueueField then
    some (lanesMask ((maskLanes t.info.lanes f.mask).filter fun l => (enum 0 fs).any fun p =>
      match fieldQueue p.2 with
      | none => false
      | some q => bit (fieldEntry t fs p.1 q l).resid l))
  else none

/-- Pop what the fields pop, in every lane of the fragment (R56, R58). -/
def popFields (t : Team) (f : Frag) (fs : List (BitVec 7)) : Team :=
  fs.foldl (fun t x =>
    match isPopField x, fieldQueue x with
    | true, some q => { t with q := tabSetD {} t.q q (popLanes (tabGetD {} t.q q) (maskLanes t.info.lanes f.mask)) }
    | _, _ => t) t

/-- A flag register: f0 is all ones (R41). -/
def readF (t : Team) (n : Nat) : Mask := if n = 0 then BitVec.allOnes 1024 else tabGetD 0 t.f n

/-- Write the flag of the lanes in `lanes`; a write to f0 is discarded (R41). -/
def writeF (t : Team) (n : Nat) (lanes bits : Mask) : Team :=
  if n = 0 then t else { t with f := tabSetD 0 t.f n ((tabGetD 0 t.f n &&& ~~~lanes) ||| (bits &&& lanes)) }

/-- A uniform register (unlisted 0). -/
def readK (t : Team) (n : Nat) : DWord := tabGetD 0 t.k n

/-- Write a uniform register (R42). -/
def writeK (t : Team) (n : Nat) (x : DWord) : Team := { t with k := tabSetD 0 t.k n x }

/-- The value of a source field in the lowest lane of the issuing fragment, zero-extended (R211, R436, Table 25-3). -/
def lowestSource (i : Issue) (t : Team) (core : Nat) (x : BitVec 7) : Act DWord :=
  match tabGet t.frags i.frag with
  | none => .ok 0
  | some f => do
    let v ← laneSource i t core f [x] 0 .int
    .ok ((v ((lowLane f.mask).getD 0)).zeroExtend 64)

end Sys2Proof.Machine
end

