-- ==== Sys2Proof/Machine/Issue.lean ====
section
/-!
DEFINITION. Machine/Issue.lean: the issue of one instruction: the causes that stand before its own effect (R77, R78,
R429, R53), its effect, and what becomes of a cause or a wait.
-/
namespace Sys2Proof.Machine

/-- The word of a hint (Hints: 0xFC00_0000 + (kind << 22) + payload). -/
def hintWord : Hint → BitVec 32
  | .imm p => encode (.imm p)
  | .mod c o s n r => encode (.mod c o s n r)
  | .ext g e => encode (.ext g e)
  | .sched h y => encode (.sched h y)
  | .chain l => encode (.chain l)

/-- The trap value of a decode cause: the word, with the hint word above it (Table 25-3). -/
def decodeValue (h : Option Hint) (word : BitVec 32) : TrapValue :=
  { value := (match h with | some x => hintWord x | none => 0#32) ++ word }

/-- An instruction that R53 and R436 forbid in a chain. -/
def forbiddenInChain (i : Instr) : Bool :=
  let op := majorOf i
  (decide (0x19 ≤ op) && decide (op ≤ 0x1E)) || op == 0x2F || op == 0x3F || op == 0x70 || op == 0x78 || op == 0x7B ||
  op == 0x7E || (sourceFields i).any isPopField ||
  match i with
  | .srw .. => true
  | .liKQ6 _ p => p == 0
  | _ => false

/-- An SRR or SRW of the E-stream whose d has a set bit above the k register's number: cause 0x005 (R435). -/
def srBad : Instr → Bool
  | .srr d _ | .srw d _ => d.extractLsb' 4 2 != 0
  | _ => false

/-- The causes of Table 4-8 that the stream, the hint and the operand fields of an instruction give it, with 0x018 after
them (R53, R77, R78). -/
def issueCause (estr : Bool) (h : Option Hint) (c : Option Chain) (i : Instr) : Option Nat :=
  let op := majorOf i
  let r := hintRule i
  let first := c.any fun c => c.left == c.len
  if !majorIn estr op then some 0x007
  else if op = 0x7E then
    if c.isSome then some (if first then 0x006 else 0x018)
    else match i, estr with
      | .chain _, false => some 0x006
      | _, _ => if h.isSome then some 0x006 else none
  else
    let hinted : Option Nat := match h with
      | some (.mod cls ord scope ns rm) =>
        match r.mod with
        | some m => if modBad m cls ord scope ns rm then some 0x008 else none
        | none => some 0x006
      | some (.imm _) => if r.imm then none else some 0x006
      | some (.ext g _) => if r.ext = 0 then some 0x006 else if r.ext = 1 ∧ g ≠ 0 then some 0x005 else none
      | _ => none
    if hinted = some 0x005 || (estr && srBad i) then some 0x005
    else if fnRmBad i || hinted = some 0x008 then some 0x008
    else if hinted.isSome || (first && (forbiddenInChain i || r.ext != 0)) then some 0x006
    else if r.ext != 0 && !(match h with | some (.ext ..) => true | _ => false) then some 0x00A
    else if operandBad h i || (!estr && aClassBad i) then some 0x009
    else if c.isSome && !first && forbiddenInChain i then some 0x018
    else none

/-- The first pending cause that an instruction raises (R429); none in trap mode. -/
def pendingAt (t : Team) (may : PendCause → Bool) : Option PendCause :=
  if t.trap.stream.isSome then none else t.pend.find? may

/-- Raise a pending cause of the kinds that the instruction may raise. -/
def raisePending (t : Team) (may : PendCause → Bool) : Act Unit :=
  match pendingAt t may with
  | some p => .error (.trap p.cause (some p.value) true)
  | none => .ok ()

/-- The value of field a for the trap value of a cause that names nothing else; 0 for an instruction that has none: the A-stream's
memory instructions, SRR and SRW (Table 25-3). -/
def valueOfA (i : Issue) (t : Team) (core : Nat) (x : Instr) : DWord :=
  let op := majorOf x
  if op == 0x79 || (decide (0x20 ≤ op) && decide (op ≤ 0x2B)) then 0 else
  match sourceFields x with
  | [] => 0
  | f :: _ =>
    match (if i.estr then lowestSource i t core f else sourceA i t core f) with
    | .ok v => v
    | .error _ => 0

/-- What becomes of an instruction's stop: a wait is noted (R88), a cause is taken as a trap (R432); a pending cause
that is raised is no longer held (R429). -/
def settle (s : State) (i : Issue) (t : Team) (dflt : TrapValue) : Act State → State
  | .ok s => s
  | .error (.wait w needs) => noteWait s i w needs
  | .error (.trap cause v imp) =>
    let t := { t with declined := t.declined.filter (·.1 ≠ i.stream),
                      pend := if imp then t.pend.eraseP (fun p => p.cause = cause ∧ some p.value = v) else t.pend }
    match enterTrap s i t cause imp (v.getD dflt) with
    | .ok s => s
    | .error (.wait w needs) => noteWait s i w needs
    | .error _ => s

/-- Issue an instruction of the current stream: pending causes first, then the causes of its word and hint, then its
effect, which sees the stream advanced past it. -/
def issue (x : Instr) (may : Issue → Team → PendCause → Bool) (s : State) (body : Issue → Team → State → Act State) :
    Host.Outcome State Fault Refusal :=
  match issueOf s with
  | none => .fault .noIssuer
  | some (i, t) =>
    let chain := match i.stream with | .a => none | .e n => (tabGet t.frags n).bind (·.chain)
    let r : Act State := do
      raisePending t fun p => (p.kind == .taskLimit && !i.estr) || may i t p
      match issueCause i.estr i.hint chain x with
      | some c => if c = 0x018 then raise c else raiseWith c (decodeValue i.hint (encode x))
      | none => .ok ()
      let t' := t.advance i.stream
      let s' ← body i t' (s.setTeam i.wid t')
      .ok (s'.modTeam i.wid fun t => { t.chainStep i.stream with declined := t.declined.filter (·.1 ≠ i.stream) })
    .next (settle s i t { value := valueOfA i t (coreWord s i.core) x } r)

/-- An instruction that raises no pending cause of its own. -/
def plain (_ : Issue) (_ : Team) (_ : PendCause) : Bool := false

/-- The effect of an instruction on the issuing team alone. -/
def onTeam (f : Issue → Team → Act Team) : Issue → Team → State → Act State := fun i t s => do
  let t ← f i t
  .ok (s.setTeam i.wid t)

end Sys2Proof.Machine
end

