-- ==== Sys2Proof/Machine/Flags.lean ====
section
/-!
DEFINITION. Machine/Flags.lean: the sticky flags of FSTAT (R35, R36).
-/
namespace Sys2Proof.Machine

/-- FSTAT.NV, invalid (R35). -/
def flagNV : BitVec 7 := 1
/-- FSTAT.DZ, division by zero (R35). -/
def flagDZ : BitVec 7 := 2
/-- FSTAT.OF, overflow (R35). -/
def flagOF : BitVec 7 := 4
/-- FSTAT.UF, underflow (R35). -/
def flagUF : BitVec 7 := 8
/-- FSTAT.NX, inexact (R35). -/
def flagNX : BitVec 7 := 16
/-- FSTAT.SAT, integer saturation (R35). -/
def flagSAT : BitVec 7 := 32
/-- FSTAT.WIN, fabric-window loss (R35). -/
def flagWIN : BitVec 7 := 64

/-- Set flags of a team; a flag stays set until software clears it (R35). -/
def orFlags (t : Team) (f : BitVec 7) : Team := { t with fstat := t.fstat ||| f }

end Sys2Proof.Machine
end

