-- ==== Sys2Proof/Machine/AArith.lean ====
section
/-!
DEFINITION. Machine/AArith.lean: the A-stream's arithmetic, logical, bit-field, compare, select and load-immediate
instructions (R85 to R98).
-/
namespace Sys2Proof.Machine

/-- The width of a typed form (R86). -/
def typeWidth (t : BitVec 3) : Nat := 8 <<< (t.extractLsb' 0 2).toNat

/-- Extend the low bits of a result to 64 bits (R86). -/
def typeExt (t : BitVec 3) (x : Int) : DWord :=
  if bit t 2 then BitVec.ofInt 64 (x.bmod (2 ^ typeWidth t)) else BitVec.ofInt 64 (x % (2 ^ typeWidth t : Nat))

/-- An operand of a typed form as an integer (R86). -/
def typeInt (t : BitVec 3) (x : DWord) : Int :=
  if bit t 2 then (x.toNat : Int).bmod (2 ^ typeWidth t) else ((x.toNat % 2 ^ typeWidth t : Nat) : Int)

/-- Read a and b, then check that d is in reach (R46): the operands of a Format A instruction that writes s_d. -/
def operandsAB (i : Issue) (t : Team) (core : Nat) (d : BitVec 6) (a b : BitVec 7) : Act (DWord × DWord) := do
  let x ← sourceA i t core a
  let y ← sourceA i t core b
  let _ ← t.a.win.reg 256 d.toNat
  .ok (x, y)

/-- An instruction s_d := f(a, b). -/
def binA (x : Instr) (d : BitVec 6) (a b : BitVec 7) (f : DWord → DWord → Act DWord) (s : State) :
    Host.Outcome State Fault Refusal :=
  issue x plain s fun i t s => do
    let (u, v) ← operandsAB i t (coreWord s i.core) d a b
    let r ← f u v
    let t ← writeS t d.toNat r
    .ok (s.setTeam i.wid t)

/-- A typed instruction s_d := ext(f(A, B)) (R86). -/
def typedA (x : Instr) (d : BitVec 6) (a b : BitVec 7) (ty : BitVec 3) (f : Int → Int → Int) (s : State) :
    Host.Outcome State Fault Refusal :=
  binA x d a b (fun u v => .ok (typeExt ty (f (typeInt ty u) (typeInt ty v)))) s

/-- An instruction s_d := f(a). -/
def unA (x : Instr) (d : BitVec 6) (a : BitVec 7) (f : Issue → DWord → DWord → Act DWord) (s : State) :
    Host.Outcome State Fault Refusal :=
  issue x plain s fun i t s => do
    let u ← sourceA i t (coreWord s i.core) a
    let old ← readS t d.toNat
    let r ← f i u old
    let t ← writeS t d.toNat r
    .ok (s.setTeam i.wid t)

/-- ADD (R90). -/
def execAddA (d : BitVec 6) (a b : BitVec 7) (t : BitVec 3) : State → Host.Outcome State Fault Refusal :=
  typedA (.addA d a b t) d a b t fun x y => x + y

/-- SUB (R90). -/
def execSubA (d : BitVec 6) (a b : BitVec 7) (t : BitVec 3) : State → Host.Outcome State Fault Refusal :=
  typedA (.subA d a b t) d a b t fun x y => x - y

/-- ADD immediate (R91). -/
def execAddImmA (d : BitVec 6) (a : BitVec 7) (i : BitVec 11) : State → Host.Outcome State Fault Refusal :=
  unA (.addImmA d a i) d a fun is u _ => .ok (u + (signedImm is.hint i).signExtend 64)

/-- MUL (R90). -/
def execMulA (d : BitVec 6) (a b : BitVec 7) (t : BitVec 3) : State → Host.Outcome State Fault Refusal :=
  typedA (.mulA d a b t) d a b t fun x y => x * y

/-- MULH: the upper half of the product (R90). -/
def execMulhA (d : BitVec 6) (a b : BitVec 7) (t : BitVec 3) : State → Host.Outcome State Fault Refusal :=
  typedA (.mulhA d a b t) d a b t fun x y => x * y / (2 ^ typeWidth t : Nat)

/-- DIVS: division by zero raises 0x040 (R90). -/
def execDivs (d : BitVec 6) (a b : BitVec 7) (t : BitVec 3) : State → Host.Outcome State Fault Refusal :=
  binA (.divs d a b t) d a b fun u v =>
    if typeInt t v = 0 then raise 0x040 else .ok (typeExt t ((typeInt t u).tdiv (typeInt t v)))

/-- DIVZ: division by zero gives 0 and sets DZ (R90). -/
def execDivz (d : BitVec 6) (a b : BitVec 7) (t : BitVec 3) (s : State) : Host.Outcome State Fault Refusal :=
  issue (.divz d a b t) plain s fun i tm s => do
    let (u, v) ← operandsAB i tm (coreWord s i.core) d a b
    let zero := decide (typeInt t v = 0)
    let tm ← writeS tm d.toNat (if zero then 0 else typeExt t ((typeInt t u).tdiv (typeInt t v)))
    .ok (s.setTeam i.wid (if zero then orFlags tm flagDZ else tm))

/-- AND (R93). -/
def execAndA (d : BitVec 6) (a b : BitVec 7) : State → Host.Outcome State Fault Refusal :=
  binA (.andA d a b) d a b fun u v => .ok (u &&& v)

/-- OR (R93). -/
def execOrA (d : BitVec 6) (a b : BitVec 7) : State → Host.Outcome State Fault Refusal :=
  binA (.orA d a b) d a b fun u v => .ok (u ||| v)

/-- XOR (R93). -/
def execXorA (d : BitVec 6) (a b : BitVec 7) : State → Host.Outcome State Fault Refusal :=
  binA (.xorA d a b) d a b fun u v => .ok (u ^^^ v)

/-- ANDN (R93). -/
def execAndnA (d : BitVec 6) (a b : BitVec 7) : State → Host.Outcome State Fault Refusal :=
  binA (.andnA d a b) d a b fun u v => .ok (u &&& ~~~v)

/-- AND immediate (R93). -/
def execAndImm (d : BitVec 6) (a : BitVec 7) (i : BitVec 9) : State → Host.Outcome State Fault Refusal :=
  unA (.andImm d a i) d a fun _ u _ => .ok (u &&& i.zeroExtend 64)

/-- OR immediate (R93). -/
def execOrImm (d : BitVec 6) (a : BitVec 7) (i : BitVec 9) : State → Host.Outcome State Fault Refusal :=
  unA (.orImm d a i) d a fun _ u _ => .ok (u ||| i.zeroExtend 64)

/-- XOR immediate (R93). -/
def execXorImm (d : BitVec 6) (a : BitVec 7) (i : BitVec 9) : State → Host.Outcome State Fault Refusal :=
  unA (.xorImm d a i) d a fun _ u _ => .ok (u ^^^ i.zeroExtend 64)

/-- The four shifts on the low `w` bits of a value (R93); the amount is any number. -/
inductive ShiftOp where
  | shl
  | shr
  | sar
  | rot
  deriving DecidableEq, Repr

/-- A shift of the low `w` bits of `x` by `n`, as a number of `w` bits (R93). -/
def shiftW (op : ShiftOp) (w x n : Nat) : Nat :=
  let x := x % 2 ^ w
  match op with
  | .shl => if w ≤ n then 0 else x * 2 ^ n % 2 ^ w
  | .shr => if w ≤ n then 0 else x / 2 ^ n
  | .sar => ((x : Int).bmod (2 ^ w) / (2 ^ (min n w) : Nat) % (2 ^ w : Nat)).toNat
  | .rot => let k := n % w; (x / 2 ^ k + x * 2 ^ (w - k)) % 2 ^ w

/-- The 64-bit result of a shift: SAR sign-extends, the others zero-extend (R93). -/
def shiftExt (op : ShiftOp) (w : Nat) (y : Nat) : DWord :=
  match op with
  | .sar => BitVec.ofInt 64 ((y : Int).bmod (2 ^ w))
  | _ => BitVec.ofNat 64 y

/-- A shift by a register (R93). -/
def shiftA (x : Instr) (op : ShiftOp) (d : BitVec 6) (a b : BitVec 7) (w : BitVec 2) :
    State → Host.Outcome State Fault Refusal :=
  binA x d a b fun u v => .ok (shiftExt op (8 <<< w.toNat) (shiftW op (8 <<< w.toNat) u.toNat v.toNat))

/-- A shift by an immediate (R93). -/
def shiftImmA (x : Instr) (op : ShiftOp) (d : BitVec 6) (a : BitVec 7) (w : BitVec 2) (m : BitVec 7) :
    State → Host.Outcome State Fault Refusal :=
  unA x d a fun _ u _ => .ok (shiftExt op (8 <<< w.toNat) (shiftW op (8 <<< w.toNat) u.toNat m.toNat))

/-- SHL (R93). -/
def execShlA (d : BitVec 6) (a b : BitVec 7) (w : BitVec 2) : State → Host.Outcome State Fault Refusal :=
  shiftA (.shlA d a b w) .shl d a b w

/-- SHR (R93). -/
def execShrA (d : BitVec 6) (a b : BitVec 7) (w : BitVec 2) : State → Host.Outcome State Fault Refusal :=
  shiftA (.shrA d a b w) .shr d a b w

/-- SAR (R93). -/
def execSarA (d : BitVec 6) (a b : BitVec 7) (w : BitVec 2) : State → Host.Outcome State Fault Refusal :=
  shiftA (.sarA d a b w) .sar d a b w

/-- ROT (R93). -/
def execRotA (d : BitVec 6) (a b : BitVec 7) (w : BitVec 2) : State → Host.Outcome State Fault Refusal :=
  shiftA (.rotA d a b w) .rot d a b w

/-- SHL immediate (R93). -/
def execShlImmA (d : BitVec 6) (a : BitVec 7) (w : BitVec 2) (m : BitVec 7) : State → Host.Outcome State Fault Refusal :=
  shiftImmA (.shlImmA d a w m) .shl d a w m

/-- SHR immediate (R93). -/
def execShrImmA (d : BitVec 6) (a : BitVec 7) (w : BitVec 2) (m : BitVec 7) : State → Host.Outcome State Fault Refusal :=
  shiftImmA (.shrImmA d a w m) .shr d a w m

/-- SAR immediate (R93). -/
def execSarImmA (d : BitVec 6) (a : BitVec 7) (w : BitVec 2) (m : BitVec 7) : State → Host.Outcome State Fault Refusal :=
  shiftImmA (.sarImmA d a w m) .sar d a w m

/-- ROT immediate (R93). -/
def execRotImmA (d : BitVec 6) (a : BitVec 7) (w : BitVec 2) (m : BitVec 7) : State → Host.Outcome State Fault Refusal :=
  shiftImmA (.rotImmA d a w m) .rot d a w m

/-- The field of `w` bits at `o`, sign- or zero-extended (R94). -/
def extractField (signed : Bool) (o w : Nat) (x : DWord) : DWord :=
  let y := x.toNat / 2 ^ o % 2 ^ w
  if signed then BitVec.ofInt 64 ((y : Int).bmod (2 ^ w)) else BitVec.ofNat 64 y

/-- The old value with the field of `w` bits at `o` replaced (R94). -/
def insertField (o w : Nat) (old x : DWord) : DWord :=
  let mask : DWord := BitVec.ofNat 64 ((2 ^ w - 1) * 2 ^ o)
  (old &&& ~~~mask) ||| (x <<< o &&& mask)

/-- BFX.S (R94). -/
def execBfxSA (d : BitVec 6) (a : BitVec 7) (w : BitVec 4) (o : BitVec 6) : State → Host.Outcome State Fault Refusal :=
  unA (.bfxSA d a w o) d a fun is u _ =>
    let f := fieldOf false (rawImm is.hint (1#1 ++ w ++ o))
    .ok (extractField true f.1 f.2.1 u)

/-- BFX.Z (R94). -/
def execBfxZA (d : BitVec 6) (a : BitVec 7) (w : BitVec 4) (o : BitVec 6) : State → Host.Outcome State Fault Refusal :=
  unA (.bfxZA d a w o) d a fun is u _ =>
    let f := fieldOf false (rawImm is.hint (0#1 ++ w ++ o))
    .ok (extractField false f.1 f.2.1 u)

/-- BFI (R94). -/
def execBfiA (d : BitVec 6) (a : BitVec 7) (w : BitVec 5) (o : BitVec 6) : State → Host.Outcome State Fault Refusal :=
  unA (.bfiA d a w o) d a fun is u old =>
    let f := fieldOf true (rawImm is.hint (w ++ o))
    .ok (insertField f.1 f.2.1 old u)

/-- A funnel shift (R95): `y` picks the field from d, a, offset and width. -/
def funnelA (x : Instr) (d : BitVec 6) (a b : BitVec 7) (sgn : BitVec 1) (y : Nat → Nat → Nat → Nat) (s : State) :
    Host.Outcome State Fault Refusal :=
  issue x plain s fun i t s => do
    let (u, v) ← operandsAB i t (coreWord s i.core) d a b
    let old ← readS t d.toNat
    let o := v.toNat % 128
    let w := v.toNat / 256 % 128
    if w = 0 ∨ 64 < w then raise 0x041
    let t ← writeS t d.toNat (extractField (sgn == 1) 0 w (BitVec.ofNat 64 (y old.toNat u.toNat o % 2 ^ w)))
    .ok (s.setTeam i.wid t)

/-- FSHL (R95). -/
def execFshlA (d : BitVec 6) (a b : BitVec 7) (sg : BitVec 1) : State → Host.Outcome State Fault Refusal :=
  funnelA (.fshlA d a b sg) d a b sg fun old u o => (old * 2 ^ 64 + u) * 2 ^ o / 2 ^ 64 % 2 ^ 64

/-- FSHR (R95). -/
def execFshrA (d : BitVec 6) (a b : BitVec 7) (sg : BitVec 1) : State → Host.Outcome State Fault Refusal :=
  funnelA (.fshrA d a b sg) d a b sg fun old u o => (u * 2 ^ 64 + old) / 2 ^ o

/-- How many leading zero bits a number of `w` bits has (R93). -/
def leadingZeros (w x : Nat) : Nat := if x = 0 then w else w - 1 - Nat.log2 x

/-- How many one bits a number of `w` bits has (R93). -/
def oneBits (w x : Nat) : Nat := ((List.range w).filter fun i => x.testBit i).length

/-- CLZ (R93). -/
def execClzA (d : BitVec 6) (a : BitVec 7) (w : BitVec 2) : State → Host.Outcome State Fault Refusal :=
  unA (.clzA d a w) d a fun _ u _ => .ok (BitVec.ofNat 64 (leadingZeros (8 <<< w.toNat) (u.toNat % 2 ^ (8 <<< w.toNat))))

/-- POPC (R93). -/
def execPopcA (d : BitVec 6) (a : BitVec 7) (w : BitVec 2) : State → Host.Outcome State Fault Refusal :=
  unA (.popcA d a w) d a fun _ u _ => .ok (BitVec.ofNat 64 (oneBits (8 <<< w.toNat) (u.toNat % 2 ^ (8 <<< w.toNat))))

/-- MIN (R90). -/
def execMinA (d : BitVec 6) (a b : BitVec 7) (t : BitVec 3) : State → Host.Outcome State Fault Refusal :=
  typedA (.minA d a b t) d a b t fun x y => min x y

/-- MAX (R90). -/
def execMaxA (d : BitVec 6) (a b : BitVec 7) (t : BitVec 3) : State → Host.Outcome State Fault Refusal :=
  typedA (.maxA d a b t) d a b t fun x y => max x y

/-- The conditions of Table 5-6 between two words of any width. -/
def compareHolds {w : Nat} (c : BitVec 4) (a b : BitVec w) : Bool :=
  match c.toNat with
  | 0 => a == b
  | 1 => a != b
  | 2 => decide (a.toInt < b.toInt)
  | 3 => decide (b.toInt ≤ a.toInt)
  | 4 => decide (a.toNat < b.toNat)
  | 5 => decide (b.toNat ≤ a.toNat)
  | 6 => decide (b.toInt < a.toInt)
  | 7 => decide (a.toInt ≤ b.toInt)
  | 8 => decide (b.toNat < a.toNat)
  | _ => decide (a.toNat ≤ b.toNat)

/-- CMP: predicate p (R96). -/
def execCmpA (p : BitVec 3) (a b : BitVec 7) (c : BitVec 4) (s : State) : Host.Outcome State Fault Refusal :=
  issue (.cmpA p a b c) plain s fun i t s => do
    let u ← sourceA i t (coreWord s i.core) a
    let v ← sourceA i t (coreWord s i.core) b
    .ok (s.setTeam i.wid (writeP t p.toNat (compareHolds c u v)))

/-- SEL (R97): d is read as Format C requires, and its value is not used. -/
def execSelA (d : BitVec 6) (a b : BitVec 7) (p : BitVec 3) (s : State) : Host.Outcome State Fault Refusal :=
  issue (.selA d a b p) plain s fun i t s => do
    let (u, v) ← operandsAB i t (coreWord s i.core) d a b
    let t ← writeS t d.toNat (if readP t p.toNat then u else v)
    .ok (s.setTeam i.wid t)

/-- LI (R98). -/
def execLiA (d : BitVec 6) (i : BitVec 11) (s : State) : Host.Outcome State Fault Refusal :=
  issue (.liA d i) plain s <| onTeam fun is t => writeS t d.toNat ((signedImm is.hint i).signExtend 64)

/-- LI.HI (R98): the low half of d stays, V goes above it. -/
def execLiHiA (d : BitVec 6) (i : BitVec 11) (s : State) : Host.Outcome State Fault Refusal :=
  issue (.liHiA d i) plain s <| onTeam fun is t => do
    let old ← readS t d.toNat
    writeS t d.toNat ((signedImm is.hint i).extractLsb' 0 32 ++ old.extractLsb' 0 32)

end Sys2Proof.Machine
end

