-- ==== Sys2Proof/Machine/EOps.lean ====
section
/-!
DEFINITION. Machine/EOps.lean: what every lane-parallel instruction shares: its operands in every active lane, and the
writing of its result to registers, flags, latches and FSTAT (R52, R116 to R120).
-/
namespace Sys2Proof.Machine

/-- The operands of one E-stream instruction: its fragment, the active lanes in ascending order, the source fields, and
the value of each operand (a 0, b 1, d 2, e 3, g 4) in each lane. -/
structure ELanes where
  frag : Frag
  lanes : List Nat
  fields : List (BitVec 7)
  resid : Option Mask
  arg : Nat → Nat → Word

/-- The source fields that an operand list reads, d after b, and e and g after d (R58, R71). -/
abbrev ESources := List (BitVec 7 × OpType)

/-- Read the sources of an E-stream instruction in every active lane (R116, R117): it waits for queue entries first
(R459). `d` is the third source of Format C. -/
def eOperands (i : Issue) (t : Team) (core : Nat) (fs : ESources) (d : Option (BitVec 6)) : Act ELanes :=
  match tabGet t.frags i.frag with
  | none => raise 0x007
  | some f => do
    let names := fs.map (·.1)
    awaitEntries t f names
    let vals : List (Nat → Word) ← (enum 0 fs).mapM fun p => laneSource i t core f names p.1 p.2.2
    let third : Nat → Word ← match d with
      | none => .ok fun _ => (0 : Word)
      | some d => do
        let p ← f.win.reg t.info.vphys d.toNat
        .ok fun l => tabGetD 0 t.v (vKey l p)
    let all := vals.take 2 ++ (List.replicate (2 - vals.length) fun _ => (0 : Word)) ++ third :: vals.drop 2
    .ok { frag := f, lanes := maskLanes t.info.lanes f.mask, fields := names, resid := residency t f names,
          arg := fun k l => (all.getD k fun _ => 0) l }

/-- The results of an instruction in its lanes, the flags of its active lanes, and the random states it advanced. -/
structure EResult where
  vals : Tab Word := []
  flags : FpFlags := 0
  rng : Tab DWord := []
  deriving DecidableEq, Repr

/-- Compute each lane on its own (R34, R116). -/
def eachLane (o : ELanes) (f : Nat → Word × FpFlags) : EResult :=
  let rs := o.lanes.map fun l => (l, f l)
  { vals := rs.map fun r => (r.1, r.2.1), flags := rs.foldl (fun a r => a ||| r.2.2) 0 }

/-- A result without flags in each lane. -/
def eachWord (o : ELanes) (f : Nat → Word) : EResult := eachLane o fun l => (f l, 0)

/-- The lowest lane that meets a cause raises it, before anything is written (R119, Table 25-3). -/
def laneCause (o : ELanes) (cause : Nat) (bad : Nat → Bool) : Act Unit :=
  match o.lanes.find? bad with
  | some l => raiseWith cause { lane := some l, value := o.arg 1 l ++ o.arg 0 l }
  | none => .ok ()

/-- Write a v register in the lanes of a result. -/
def writeV (t : Team) (p : Nat) (vals : Tab Word) : Team :=
  { t with v := vals.foldl (fun v x => tabSetD 0 v (vKey x.1 p) x.2) t.v }

/-- A chain instruction with a v result writes the latch of its pipe; an ALU write moves b0 to b1 (R52, Table 3-5). -/
def Chain.latch (c : Chain) (pipe : Nat) (vals : Tab Word) : Chain :=
  let moved := match pipe, tabGet c.latches 0 with
    | 0, some old => tabSet c.latches 1 old
    | _, _ => c.latches
  { c with latches := tabSet moved pipe vals }

/-- What every completed lane instruction does beside its own result: pops, residency flags (R118) and FSTAT (R35). -/
def eFinish (t : Team) (o : ELanes) (ownF7 : Bool) (flags : FpFlags) : Team :=
  let t := popFields t o.frag o.fields
  let t := match o.resid with
    | some m => if ownF7 then t else writeF t 7 o.frag.mask m
    | none => t
  orFlags t flags

/-- Check a v destination: nw outside a chain is 0x013 (R53), a register out of reach 0x010 (R46). -/
def destV (t : Team) (o : ELanes) (n : BitVec 1) (d : BitVec 6) : Act Nat := do
  raiseIf (n == 1 && o.frag.chain.isNone) 0x013
  o.frag.win.reg t.info.vphys d.toNat

/-- Deliver a v result: the register unless nw is 1, and in a chain the latch of the pipe. -/
def deliverV (i : Issue) (t : Team) (o : ELanes) (n : BitVec 1) (p pipe : Nat) (r : EResult) : Team :=
  let t := eFinish t o false r.flags
  let t := { t with rng := r.rng.foldl (fun g x => tabSet g x.1 x.2) t.rng }
  let t := if n = 1 then t else writeV t p r.vals
  t.modFrag i.frag fun f => { f with chain := f.chain.map fun c => c.latch pipe r.vals }

/-- An instruction whose result is v_d: `fs` its sources, `third` whether d is one of them, `pipe` its latch. -/
def vOp (x : Instr) (n : BitVec 1) (d : BitVec 6) (fs : ESources) (third : Bool) (pipe : Nat)
    (f : Issue → Team → ELanes → Act EResult) (s : State) : Host.Outcome State Fault Refusal :=
  issue x plain s fun i t s => do
    let o ← eOperands i t (coreWord s i.core) fs (if third then some d else none)
    let p ← destV t o n d
    let r ← f i t o
    .ok (s.setTeam i.wid (deliverV i t o n p pipe r))

/-- An instruction whose result is a flag of each lane (R127, R133). -/
def fOp (x : Instr) (d : BitVec 3) (fs : ESources) (f : ELanes → Nat → Bool × FpFlags) (s : State) :
    Host.Outcome State Fault Refusal :=
  issue x plain s fun i t s => do
    let o ← eOperands i t (coreWord s i.core) fs none
    let rs := o.lanes.map fun l => (l, f o l)
    let bits := lanesMask ((rs.filter fun r => r.2.1).map (·.1))
    let t := eFinish t o (d == 7) (rs.foldl (fun a r => a ||| r.2.2) 0)
    .ok (s.setTeam i.wid (writeF t d.toNat o.frag.mask bits))

/-- A pure function of a and b in each lane, on integers. -/
def abOp (x : Instr) (n : BitVec 1) (d : BitVec 6) (a b : BitVec 7) (f : Word → Word → Word) :
    State → Host.Outcome State Fault Refusal :=
  vOp x n d [(a, .int), (b, .int)] false 0 fun _ _ o => .ok (eachWord o fun l => f (o.arg 0 l) (o.arg 1 l))

/-- A pure function of a in each lane; `f` also receives the hint and the old v_d, which is read when `third` holds. -/
def aOp (x : Instr) (n : BitVec 1) (d : BitVec 6) (a : BitVec 7) (third : Bool) (f : Option Hint → Word → Word → Word) :
    State → Host.Outcome State Fault Refusal :=
  vOp x n d [(a, .int)] third 0 fun i _ o => .ok (eachWord o fun l => f i.hint (o.arg 0 l) (o.arg 2 l))

end Sys2Proof.Machine
end

