-- ==== Sys2Proof/Machine/EArith.lean ====
section
/-!
DEFINITION. Machine/EArith.lean: the E-stream's integer, bit-field, compare, select, load-immediate and push instructions
(R122 to R130).
-/
namespace Sys2Proof.Machine

/-- The width of a typed E-stream form; code 3 is the saturating 32-bit form (R122). -/
def typeWidthE (w : BitVec 2) : Nat := if w = 3 then 32 else 8 <<< w.toNat

/-- An operand of a typed E-stream form as an integer (R122). -/
def typeIntE (sg : BitVec 1) (w : BitVec 2) (x : Word) : Int :=
  let m := 2 ^ typeWidthE w
  if sg = 1 then (x.toNat : Int).bmod m else ((x.toNat % m : Nat) : Int)

/-- The result of a typed E-stream form from the exact integer, and SAT (R122). -/
def typeExtE (sg : BitVec 1) (w : BitVec 2) (x : Int) : Word × FpFlags :=
  if w = 3 then
    let lo : Int := if sg = 1 then -(2 ^ 31) else 0
    let hi : Int := if sg = 1 then 2 ^ 31 - 1 else 2 ^ 32 - 1
    (BitVec.ofInt 32 (max lo (min hi x)), if x < lo ∨ hi < x then flagSAT else 0)
  else
    let m := 2 ^ typeWidthE w
    (BitVec.ofInt 32 (if sg = 1 then x.bmod m else x % (m : Nat)), 0)

/-- The major that a typed E-stream instruction issues to: its pipe's latch. -/
def typedE (x : Instr) (n : BitVec 1) (d : BitVec 6) (a b : BitVec 7) (sg : BitVec 1) (w : BitVec 2) (third : Bool)
    (pipe : Nat) (f : Int → Int → Int → Int) : State → Host.Outcome State Fault Refusal :=
  vOp x n d [(a, .int), (b, .int)] third pipe fun _ _ o => .ok (eachLane o fun l =>
    typeExtE sg w (f (typeIntE sg w (o.arg 0 l)) (typeIntE sg w (o.arg 1 l)) (typeIntE sg w (o.arg 2 l))))

/-- ADD of the E-stream (R122). -/
def execAddE (n : BitVec 1) (d : BitVec 6) (a b : BitVec 7) (s : BitVec 1) (w : BitVec 2) :
    State → Host.Outcome State Fault Refusal :=
  typedE (.addE n d a b s w) n d a b s w false 0 fun x y _ => x + y

/-- SUB of the E-stream (R122). -/
def execSubE (n : BitVec 1) (d : BitVec 6) (a b : BitVec 7) (s : BitVec 1) (w : BitVec 2) :
    State → Host.Outcome State Fault Refusal :=
  typedE (.subE n d a b s w) n d a b s w false 0 fun x y _ => x - y

/-- ADD immediate of the E-stream (R123). -/
def execAddImmE (n : BitVec 1) (d : BitVec 6) (a : BitVec 7) (i : BitVec 11) : State → Host.Outcome State Fault Refusal :=
  aOp (.addImmE n d a i) n d a false fun h u _ => u + (signedImm h i).extractLsb' 0 32

/-- MUL of the E-stream (R122). -/
def execMulE (n : BitVec 1) (d : BitVec 6) (a b : BitVec 7) (s : BitVec 1) (w : BitVec 2) :
    State → Host.Outcome State Fault Refusal :=
  typedE (.mulE n d a b s w) n d a b s w false 2 fun x y _ => x * y

/-- MULH of the E-stream (R122). -/
def execMulhE (n : BitVec 1) (d : BitVec 6) (a b : BitVec 7) (s : BitVec 1) (w : BitVec 2) :
    State → Host.Outcome State Fault Refusal :=
  typedE (.mulhE n d a b s w) n d a b s w false 2 fun x y _ => x * y / (2 ^ typeWidthE w : Nat)

/-- MAD (R122). -/
def execMad (n : BitVec 1) (d : BitVec 6) (a b : BitVec 7) (s : BitVec 1) (w : BitVec 2) :
    State → Host.Outcome State Fault Refusal :=
  typedE (.mad n d a b s w) n d a b s w true 2 fun x y z => x * y + z

/-- MIN of the E-stream (R122). -/
def execMinE (n : BitVec 1) (d : BitVec 6) (a b : BitVec 7) (s : BitVec 1) (w : BitVec 2) :
    State → Host.Outcome State Fault Refusal :=
  typedE (.minE n d a b s w) n d a b s w false 0 fun x y _ => min x y

/-- MAX of the E-stream (R122). -/
def execMaxE (n : BitVec 1) (d : BitVec 6) (a b : BitVec 7) (s : BitVec 1) (w : BitVec 2) :
    State → Host.Outcome State Fault Refusal :=
  typedE (.maxE n d a b s w) n d a b s w false 0 fun x y _ => max x y

/-- AND of the E-stream (R124). -/
def execAndE (n : BitVec 1) (d : BitVec 6) (a b : BitVec 7) : State → Host.Outcome State Fault Refusal :=
  abOp (.andE n d a b) n d a b fun u v => u &&& v

/-- OR of the E-stream (R124). -/
def execOrE (n : BitVec 1) (d : BitVec 6) (a b : BitVec 7) : State → Host.Outcome State Fault Refusal :=
  abOp (.orE n d a b) n d a b fun u v => u ||| v

/-- XOR of the E-stream (R124). -/
def execXorE (n : BitVec 1) (d : BitVec 6) (a b : BitVec 7) : State → Host.Outcome State Fault Refusal :=
  abOp (.xorE n d a b) n d a b fun u v => u ^^^ v

/-- ANDN of the E-stream (R124). -/
def execAndnE (n : BitVec 1) (d : BitVec 6) (a b : BitVec 7) : State → Host.Outcome State Fault Refusal :=
  abOp (.andnE n d a b) n d a b fun u v => u &&& ~~~v

/-- The 32-bit result of a shift (R124). -/
def shiftE (op : ShiftOp) (w : BitVec 2) (u : Word) (k : Nat) : Word :=
  (shiftExt op (8 <<< w.toNat) (shiftW op (8 <<< w.toNat) u.toNat k)).extractLsb' 0 32

/-- SHL of the E-stream (R124). -/
def execShlE (n : BitVec 1) (d : BitVec 6) (a b : BitVec 7) (w : BitVec 2) : State → Host.Outcome State Fault Refusal :=
  abOp (.shlE n d a b w) n d a b fun u v => shiftE .shl w u v.toNat

/-- SHR of the E-stream (R124). -/
def execShrE (n : BitVec 1) (d : BitVec 6) (a b : BitVec 7) (w : BitVec 2) : State → Host.Outcome State Fault Refusal :=
  abOp (.shrE n d a b w) n d a b fun u v => shiftE .shr w u v.toNat

/-- SAR of the E-stream (R124). -/
def execSarE (n : BitVec 1) (d : BitVec 6) (a b : BitVec 7) (w : BitVec 2) : State → Host.Outcome State Fault Refusal :=
  abOp (.sarE n d a b w) n d a b fun u v => shiftE .sar w u v.toNat

/-- ROT of the E-stream (R124). -/
def execRotE (n : BitVec 1) (d : BitVec 6) (a b : BitVec 7) (w : BitVec 2) : State → Host.Outcome State Fault Refusal :=
  abOp (.rotE n d a b w) n d a b fun u v => shiftE .rot w u v.toNat

/-- SHL immediate of the E-stream (R124). -/
def execShlImmE (n : BitVec 1) (d : BitVec 6) (a : BitVec 7) (w : BitVec 2) (m : BitVec 7) :
    State → Host.Outcome State Fault Refusal :=
  aOp (.shlImmE n d a w m) n d a false fun _ u _ => shiftE .shl w u m.toNat

/-- SHR immediate of the E-stream (R124). -/
def execShrImmE (n : BitVec 1) (d : BitVec 6) (a : BitVec 7) (w : BitVec 2) (m : BitVec 7) :
    State → Host.Outcome State Fault Refusal :=
  aOp (.shrImmE n d a w m) n d a false fun _ u _ => shiftE .shr w u m.toNat

/-- SAR immediate of the E-stream (R124). -/
def execSarImmE (n : BitVec 1) (d : BitVec 6) (a : BitVec 7) (w : BitVec 2) (m : BitVec 7) :
    State → Host.Outcome State Fault Refusal :=
  aOp (.sarImmE n d a w m) n d a false fun _ u _ => shiftE .sar w u m.toNat

/-- ROT immediate of the E-stream (R124). -/
def execRotImmE (n : BitVec 1) (d : BitVec 6) (a : BitVec 7) (w : BitVec 2) (m : BitVec 7) :
    State → Host.Outcome State Fault Refusal :=
  aOp (.rotImmE n d a w m) n d a false fun _ u _ => shiftE .rot w u m.toNat

/-- The field of `w` bits at `o` of a lane's value (R125). -/
def extractE (signed : Bool) (o w : Nat) (x : Word) : Word :=
  (extractField signed o w (x.zeroExtend 64)).extractLsb' 0 32

/-- BFX.S of the E-stream (R125). -/
def execBfxSE (n : BitVec 1) (d : BitVec 6) (a : BitVec 7) (w : BitVec 4) (o : BitVec 6) :
    State → Host.Outcome State Fault Refusal :=
  aOp (.bfxSE n d a w o) n d a false fun h u _ =>
    let f := fieldOf false (rawImm h (1#1 ++ w ++ o))
    extractE true f.1 f.2.1 u

/-- BFX.Z of the E-stream (R125). -/
def execBfxZE (n : BitVec 1) (d : BitVec 6) (a : BitVec 7) (w : BitVec 4) (o : BitVec 6) :
    State → Host.Outcome State Fault Refusal :=
  aOp (.bfxZE n d a w o) n d a false fun h u _ =>
    let f := fieldOf false (rawImm h (0#1 ++ w ++ o))
    extractE false f.1 f.2.1 u

/-- BFI of the E-stream (R125). -/
def execBfiE (n : BitVec 1) (d : BitVec 6) (a : BitVec 7) (w : BitVec 5) (o : BitVec 6) :
    State → Host.Outcome State Fault Refusal :=
  aOp (.bfiE n d a w o) n d a true fun h u old =>
    let f := fieldOf true (rawImm h (w ++ o))
    (insertField f.1 f.2.1 (old.zeroExtend 64) (u.zeroExtend 64)).extractLsb' 0 32

/-- A funnel shift of the E-stream (R126): 0x041 for a width that is 0 or above 32, in any lane. -/
def funnelE (x : Instr) (n : BitVec 1) (d : BitVec 6) (a b : BitVec 7) (sg : BitVec 1) (y : Nat → Nat → Nat → Nat) :
    State → Host.Outcome State Fault Refusal :=
  vOp x n d [(a, .int), (b, .int)] true 0 fun _ _ o => do
    let w := fun l => (o.arg 1 l).toNat / 256 % 64
    laneCause o 0x041 fun l => decide (w l = 0) || decide (32 < w l)
    .ok (eachWord o fun l =>
      extractE (sg == 1) 0 (w l) (BitVec.ofNat 32 (y (o.arg 2 l).toNat (o.arg 0 l).toNat ((o.arg 1 l).toNat % 64) % 2 ^ w l)))

/-- FSHL of the E-stream (R126). -/
def execFshlE (n : BitVec 1) (d : BitVec 6) (a b : BitVec 7) (s : BitVec 1) : State → Host.Outcome State Fault Refusal :=
  funnelE (.fshlE n d a b s) n d a b s fun old u o => (old * 2 ^ 32 + u) * 2 ^ o / 2 ^ 32 % 2 ^ 32

/-- FSHR of the E-stream (R126). -/
def execFshrE (n : BitVec 1) (d : BitVec 6) (a b : BitVec 7) (s : BitVec 1) : State → Host.Outcome State Fault Refusal :=
  funnelE (.fshrE n d a b s) n d a b s fun old u o => (u * 2 ^ 32 + old) / 2 ^ o

/-- CLZ of the E-stream (R124). -/
def execClzE (n : BitVec 1) (d : BitVec 6) (a : BitVec 7) (w : BitVec 2) : State → Host.Outcome State Fault Refusal :=
  aOp (.clzE n d a w) n d a false fun _ u _ =>
    BitVec.ofNat 32 (leadingZeros (8 <<< w.toNat) (u.toNat % 2 ^ (8 <<< w.toNat)))

/-- POPC of the E-stream (R124). -/
def execPopcE (n : BitVec 1) (d : BitVec 6) (a : BitVec 7) (w : BitVec 2) : State → Host.Outcome State Fault Refusal :=
  aOp (.popcE n d a w) n d a false fun _ u _ =>
    BitVec.ofNat 32 (oneBits (8 <<< w.toNat) (u.toNat % 2 ^ (8 <<< w.toNat)))

/-- CMP of the E-stream (R127). -/
def execCmpE (f : BitVec 3) (a b : BitVec 7) (c : BitVec 4) : State → Host.Outcome State Fault Refusal :=
  fOp (.cmpE f a b c) f [(a, .int), (b, .int)] fun o l => (compareHolds c (o.arg 0 l) (o.arg 1 l), 0)

/-- SEL of the E-stream (R128): d is read as Format C requires, and its value is not used. -/
def execSelE (n : BitVec 1) (d : BitVec 6) (a b : BitVec 7) (f : BitVec 3) : State → Host.Outcome State Fault Refusal :=
  vOp (.selE n d a b f) n d [(a, .int), (b, .int)] true 0 fun _ t o =>
    .ok (eachWord o fun l => if bit (readF t f.toNat) l then o.arg 0 l else o.arg 1 l)

/-- LI form 0 (R129). -/
def execLiE (n : BitVec 1) (d : BitVec 6) (i : BitVec 11) : State → Host.Outcome State Fault Refusal :=
  vOp (.liE n d i) n d [] false 0 fun is _ o => .ok (eachWord o fun _ => (signedImm is.hint i).extractLsb' 0 32)

/-- LI form 1, the low half of a k register; its latch is b5 (R129, Table 6-2). -/
def execLiFromK (n : BitVec 1) (d : BitVec 6) (k : BitVec 4) : State → Host.Outcome State Fault Refusal :=
  vOp (.liFromK n d k) n d [] false 5 fun _ t o => .ok (eachWord o fun _ => (readK t k.toNat).extractLsb' 0 32)

/-- LI.HI form 1, the high half of a k register (R129). -/
def execLiHiFromK (n : BitVec 1) (d : BitVec 6) (k : BitVec 4) : State → Host.Outcome State Fault Refusal :=
  vOp (.liHiFromK n d k) n d [] false 5 fun _ t o => .ok (eachWord o fun _ => (readK t k.toNat).extractLsb' 32 32)

/-- LI form 2: a k register takes the whole q6 entry, popped by every lane of the fragment, or peeked (R129, R56). -/
def execLiKQ6 (k : BitVec 4) (p : BitVec 1) (s : State) : Host.Outcome State Fault Refusal :=
  issue (.liKQ6 k p) plain s fun i t s =>
    match tabGet t.frags i.frag with
    | none => raise 0x007
    | some f => do
      let field : BitVec 7 := if p = 1 then 86 else 78
      awaitEntries t f [field]
      let e := fieldEntry t [field] 0 6 ((lowLane f.mask).getD 0)
      let r := residency t f [field]
      let t := popFields t f [field]
      let t := writeF t 7 f.mask (r.getD 0)
      .ok (s.setTeam i.wid (writeK t k.toNat (tabGetD 0 e.vals 0)))

/-- LI form 3 (R129). -/
def execLiKImm (k : BitVec 4) (i : BitVec 11) (s : State) : Host.Outcome State Fault Refusal :=
  issue (.liKImm k i) plain s <| onTeam fun is t => .ok (writeK t k.toNat ((signedImm is.hint i).signExtend 64))

/-- A lane has no open entry of an E-to-A queue that it has yet to write (R57). -/
def needsEntry (x : Queue) (lane : Nat) : Bool := x.entries.all fun e => !(bit e.expected lane && !bit e.written lane)

/-- QPUSH of the E-stream (R130, R57): void where the flag is 0. -/
def execQpushE (d : BitVec 6) (a : BitVec 7) (f : BitVec 3) (s : State) : Host.Outcome State Fault Refusal :=
  issue (.qpushE d a f) plain s fun i t s => do
    let q := d.toNat
    let o ← eOperands i t (coreWord s i.core) [(a, .int)] none
    queueCause t q (q == 4 || q == 5 || q == 7)
    let opens := o.lanes.any (needsEntry (t.queue q))
    if opens && !hasRoom t q then
      if t.a.ended then raise 0x01B else waitOn (.queue q)
    else
      let flag := readF t f.toNat
      let t := eFinish t o false 0
      let x := t.queue q
      let es := o.lanes.foldl (fun es l =>
        pushLane t.live ((o.arg 0 l).zeroExtend 64) (!bit flag l) l es) x.entries
      .ok (s.setTeam i.wid (t.setQueue q { x with entries := es }))

end Sys2Proof.Machine
end

