-- ==== Sys2Proof/Machine/EFloat.lean ====
section
/-!
DEFINITION. Machine/EFloat.lean: FP32 and packed floating-point arithmetic, comparison and sign operations of the E-stream
(R131 to R136).
-/
namespace Sys2Proof.Machine

/-- The operations that compute exactly and round once, and the selections of R132. -/
inductive FpOp where
  | add
  | sub
  | mul
  | fma
  | fms
  | min (num : Bool)
  | max (num : Bool)
  deriving DecidableEq, Repr

/-- One floating-point operation on the bits of a format (R131, R132, R135): a, b and d. -/
def fpOp (op : FpOp) (f : FpFmt) (mode : Rm) (sat : Bool) (a b d : Nat) : Nat × FpFlags :=
  let x := fpDecode f a
  let y := fpDecode f b
  let z := fpDecode f d
  match op with
  | .add => fpFinish f mode sat (fpAdd mode x y)
  | .sub => fpFinish f mode sat (fpAdd mode x y.negate)
  | .mul => fpFinish f mode sat (fpTimes x y)
  | .fma => fpFinish f mode sat (fpFma mode false x y z)
  | .fms => fpFinish f mode sat (fpFma mode true x y z)
  | .min num => fpMinMax f false num a b
  | .max num => fpMinMax f true num a b

/-- Sub-element `i` of a packed value (Table 2-1). -/
def subElem (w i : Nat) (x : Word) : Nat := x.toNat / 2 ^ (w * i) % 2 ^ w

/-- Each sub-element on its own, their flags joined (R34, R135). -/
def packedMap (w : Nat) (g : Nat → Nat × FpFlags) : Word × FpFlags :=
  (List.range (32 / w)).foldl (fun acc i =>
    let r := g i
    (acc.1 ||| BitVec.ofNat 32 (r.1 * 2 ^ (w * i)), acc.2 ||| r.2)) (0, 0)

/-- An FP32 instruction (R131, R132). -/
def fpE (x : Instr) (n : BitVec 1) (d : BitVec 6) (a b : BitVec 7) (third : Bool) (pipe : Nat) (op : FpOp) (mode : Rm) :
    State → Host.Outcome State Fault Refusal :=
  vOp x n d [(a, .f32), (b, .f32)] third pipe fun _ _ o => .ok (eachLane o fun l =>
    let r := fpOp op .f32 mode true (o.arg 0 l).toNat (o.arg 1 l).toNat (o.arg 2 l).toNat
    (BitVec.ofNat 32 r.1, r.2))

/-- The rm and ns fields of a MOD hint (Table 4-6). -/
def roundOf (h : Option Hint) : Nat × Bool :=
  match h with
  | some (.mod _ _ _ ns rm) => (rm.toNat, ns == 1)
  | _ => (0, false)

/-- The format of a packed type bit (Table 6-6). -/
def packedFmt (fp8 : Bool) (t : BitVec 1) : FpFmt :=
  if fp8 then (if t = 1 then .e5m2 else .e4m3) else (if t = 1 then .bf16 else .f16)

/-- The type in which a format's packed operands take constants (Table 4-4). -/
def opTypeOf : FpFmt → OpType
  | .f16 => .f16x2
  | .bf16 => .bf16x2
  | .e4m3 => .e4m3x4
  | .e5m2 => .e5m2x4
  | _ => .f32

/-- A packed instruction (R135): FP8 results saturate unless ns is set, the others never do. -/
def packedE (x : Instr) (n : BitVec 1) (d : BitVec 6) (a b : BitVec 7) (third : Bool) (op : FpOp) (f : FpFmt) :
    State → Host.Outcome State Fault Refusal :=
  vOp x n d [(a, opTypeOf f), (b, opTypeOf f)] third 2 fun i _ o => .ok (eachLane o fun l =>
    let m := roundOf i.hint
    packedMap f.width fun k =>
      fpOp op f (rmOf m.1) (!m.2) (subElem f.width k (o.arg 0 l)) (subElem f.width k (o.arg 1 l))
        (subElem f.width k (o.arg 2 l)))

/-- A packed comparison (R136). -/
def packedCmp (x : Instr) (n : BitVec 1) (d : BitVec 6) (a b : BitVec 7) (f : FpFmt) (c : BitVec 3) :
    State → Host.Outcome State Fault Refusal :=
  vOp x n d [(a, opTypeOf f), (b, opTypeOf f)] false 0 fun _ _ o => .ok (eachLane o fun l =>
    packedMap f.width fun k =>
      let r := fpCompare c.toNat (fpDecode f (subElem f.width k (o.arg 0 l))) (fpDecode f (subElem f.width k (o.arg 1 l)))
      (if r.1 then 2 ^ f.width - 1 else 0, r.2))

/-- FADD (R131). -/
def execFadd (n : BitVec 1) (d : BitVec 6) (a b : BitVec 7) (r : BitVec 3) :
    State → Host.Outcome State Fault Refusal :=
  fpE (.fadd n d a b r) n d a b false 2 .add (rmOf r.toNat)

/-- FSUB (R131). -/
def execFsub (n : BitVec 1) (d : BitVec 6) (a b : BitVec 7) (r : BitVec 3) :
    State → Host.Outcome State Fault Refusal :=
  fpE (.fsub n d a b r) n d a b false 2 .sub (rmOf r.toNat)

/-- FMUL (R131). -/
def execFmul (n : BitVec 1) (d : BitVec 6) (a b : BitVec 7) (r : BitVec 3) :
    State → Host.Outcome State Fault Refusal :=
  fpE (.fmul n d a b r) n d a b false 2 .mul (rmOf r.toNat)

/-- FFMA (R131). -/
def execFfma (n : BitVec 1) (d : BitVec 6) (a b : BitVec 7) (r : BitVec 3) :
    State → Host.Outcome State Fault Refusal :=
  fpE (.ffma n d a b r) n d a b true 2 .fma (rmOf r.toNat)

/-- FFMS (R131). -/
def execFfms (n : BitVec 1) (d : BitVec 6) (a b : BitVec 7) (r : BitVec 3) :
    State → Host.Outcome State Fault Refusal :=
  fpE (.ffms n d a b r) n d a b true 2 .fms (rmOf r.toNat)

/-- FMIN (R132). -/
def execFmin (n : BitVec 1) (d : BitVec 6) (a b : BitVec 7) (u : BitVec 1) :
    State → Host.Outcome State Fault Refusal :=
  fpE (.fmin n d a b u) n d a b false 0 (.min (u == 1)) .rne

/-- FMAX (R132). -/
def execFmax (n : BitVec 1) (d : BitVec 6) (a b : BitVec 7) (u : BitVec 1) :
    State → Host.Outcome State Fault Refusal :=
  fpE (.fmax n d a b u) n d a b false 0 (.max (u == 1)) .rne

/-- FCMP (R133). -/
def execFcmp (f : BitVec 3) (a b : BitVec 7) (c : BitVec 3) : State → Host.Outcome State Fault Refusal :=
  fOp (.fcmp f a b c) f [(a, .f32), (b, .f32)] fun o l =>
    fpCompare c.toNat (fpDecode .f32 (o.arg 0 l).toNat) (fpDecode .f32 (o.arg 1 l).toNat)

/-- The type in which FSGN takes constants: the word does not tell the two formats of a narrow width apart, so the
choice is the machine's (assumption 7). -/
def signType (w : BitVec 2) : OpType :=
  match w.toNat with
  | 0 => .f32
  | 1 => if Config.signConst 16 then .bf16x2 else .f16x2
  | _ => if Config.signConst 8 then .e5m2x4 else .e4m3x4

/-- The sign operations of FSGN on one sub-element of `w` bits (R134). -/
def signOp (o : BitVec 2) (w a b : Nat) : Nat :=
  let top := 2 ^ (w - 1)
  let sa := a / top % 2
  let sb := b / top % 2
  let s := match o.toNat with | 0 => sb | 1 => 1 - sb | 2 => (sa + sb) % 2 | _ => 1 - sa
  a % top + s * top

/-- FSGN (R134). -/
def execFsgn (n : BitVec 1) (d : BitVec 6) (a b : BitVec 7) (w o : BitVec 2) : State → Host.Outcome State Fault Refusal :=
  vOp (.fsgn n d a b w o) n d [(a, signType w), (b, signType w)] false 0 fun _ _ e => .ok (eachLane e fun l =>
    let k := 32 >>> w.toNat
    packedMap k fun i => (signOp o k (subElem k i (e.arg 0 l)) (subElem k i (e.arg 1 l)), 0))

/-- HADD (R135). -/
def execHadd (n : BitVec 1) (d : BitVec 6) (a b : BitVec 7) (t : BitVec 1) :
    State → Host.Outcome State Fault Refusal :=
  packedE (.hadd n d a b t) n d a b false .add (packedFmt false t)

/-- HSUB (R135). -/
def execHsub (n : BitVec 1) (d : BitVec 6) (a b : BitVec 7) (t : BitVec 1) :
    State → Host.Outcome State Fault Refusal :=
  packedE (.hsub n d a b t) n d a b false .sub (packedFmt false t)

/-- HMUL (R135). -/
def execHmul (n : BitVec 1) (d : BitVec 6) (a b : BitVec 7) (t : BitVec 1) :
    State → Host.Outcome State Fault Refusal :=
  packedE (.hmul n d a b t) n d a b false .mul (packedFmt false t)

/-- HMIN (R135). -/
def execHmin (n : BitVec 1) (d : BitVec 6) (a b : BitVec 7) (t : BitVec 1) :
    State → Host.Outcome State Fault Refusal :=
  packedE (.hmin n d a b t) n d a b false (.min false) (packedFmt false t)

/-- HMAX (R135). -/
def execHmax (n : BitVec 1) (d : BitVec 6) (a b : BitVec 7) (t : BitVec 1) :
    State → Host.Outcome State Fault Refusal :=
  packedE (.hmax n d a b t) n d a b false (.max false) (packedFmt false t)

/-- HFMA (R135). -/
def execHfma (n : BitVec 1) (d : BitVec 6) (a b : BitVec 7) (t : BitVec 1) :
    State → Host.Outcome State Fault Refusal :=
  packedE (.hfma n d a b t) n d a b true .fma (packedFmt false t)

/-- HFMS (R135). -/
def execHfms (n : BitVec 1) (d : BitVec 6) (a b : BitVec 7) (t : BitVec 1) :
    State → Host.Outcome State Fault Refusal :=
  packedE (.hfms n d a b t) n d a b true .fms (packedFmt false t)

/-- HCMP (R136). -/
def execHcmp (n : BitVec 1) (d : BitVec 6) (a b : BitVec 7) (t : BitVec 1) (c : BitVec 3) :
    State → Host.Outcome State Fault Refusal :=
  packedCmp (.hcmp n d a b t c) n d a b (packedFmt false t) c

/-- F8ADD (R135). -/
def execF8add (n : BitVec 1) (d : BitVec 6) (a b : BitVec 7) (t : BitVec 1) :
    State → Host.Outcome State Fault Refusal :=
  packedE (.f8add n d a b t) n d a b false .add (packedFmt true t)

/-- F8SUB (R135). -/
def execF8sub (n : BitVec 1) (d : BitVec 6) (a b : BitVec 7) (t : BitVec 1) :
    State → Host.Outcome State Fault Refusal :=
  packedE (.f8sub n d a b t) n d a b false .sub (packedFmt true t)

/-- F8MUL (R135). -/
def execF8mul (n : BitVec 1) (d : BitVec 6) (a b : BitVec 7) (t : BitVec 1) :
    State → Host.Outcome State Fault Refusal :=
  packedE (.f8mul n d a b t) n d a b false .mul (packedFmt true t)

/-- F8MIN (R135). -/
def execF8min (n : BitVec 1) (d : BitVec 6) (a b : BitVec 7) (t : BitVec 1) :
    State → Host.Outcome State Fault Refusal :=
  packedE (.f8min n d a b t) n d a b false (.min false) (packedFmt true t)

/-- F8MAX (R135). -/
def execF8max (n : BitVec 1) (d : BitVec 6) (a b : BitVec 7) (t : BitVec 1) :
    State → Host.Outcome State Fault Refusal :=
  packedE (.f8max n d a b t) n d a b false (.max false) (packedFmt true t)

/-- F8FMA (R135). -/
def execF8fma (n : BitVec 1) (d : BitVec 6) (a b : BitVec 7) (t : BitVec 1) :
    State → Host.Outcome State Fault Refusal :=
  packedE (.f8fma n d a b t) n d a b true .fma (packedFmt true t)

/-- F8FMS (R135). -/
def execF8fms (n : BitVec 1) (d : BitVec 6) (a b : BitVec 7) (t : BitVec 1) :
    State → Host.Outcome State Fault Refusal :=
  packedE (.f8fms n d a b t) n d a b true .fms (packedFmt true t)

/-- F8CMP (R136). -/
def execF8cmp (n : BitVec 1) (d : BitVec 6) (a b : BitVec 7) (t : BitVec 1) (c : BitVec 3) :
    State → Host.Outcome State Fault Refusal :=
  packedCmp (.f8cmp n d a b t c) n d a b (packedFmt true t) c

end Sys2Proof.Machine
end

