-- ==== Sys2Proof/Machine/EConv.lean ====
section
/-!
DEFINITION. Machine/EConv.lean: conversions (R137 to R140) with stochastic rounding (R31), and the special-function seeds
(R141).
-/
namespace Sys2Proof.Machine

/-! ## Stochastic rounding -/

/-- The random state that a write of RNGSEED gives a lane (R31). -/
def rngSeeded (z : DWord) (lane : Nat) : DWord :=
  let x := z ^^^ BitVec.ofNat 64 (lane * 0x9E3779B97F4A7C15)
  if x = 0 then 1 else x

/-- The random state of a lane: an unlisted one is as the last write of RNGSEED left it. -/
def rngState (t : Team) (lane : Nat) : DWord := (tabGet t.rng lane).getD (rngSeeded t.rngSeed lane)

/-- The next random state (R31). -/
def rngNext (x : DWord) : DWord :=
  let x := x ^^^ (x <<< 13)
  let x := x ^^^ (x >>> 7)
  x ^^^ (x <<< 17)

/-- Round one element in mode `rm`; a finite element rounded stochastically advances the lane's state (R31). -/
def convRound {α : Type} (rm : Nat) (g : Rm → Fp → α) (x : Fp) (st : DWord) : α × DWord :=
  match x with
  | .fin .. => if rm = 4 then let st := rngNext st; (g (.sto (st.toNat / 2 ^ 32)) x, st) else (g (rmOf rm) x, st)
  | _ => (g (rmOf rm) x, st)

/-- NV for a signalling operand (R17). -/
def sigFlag (x : Fp) : FpFlags := if x.sig then flagNV else 0

/-- Convert one value to a format (R33, R138). -/
def convElem (f : FpFmt) (rm : Nat) (sat : Bool) (x : Fp) (st : DWord) : (Nat × FpFlags) × DWord :=
  convRound rm (fun mode x => let r := fpRound f mode sat x; (r.1, r.2 ||| sigFlag x)) x st

/-- Convert elements in ascending order into fields of `w` bits (R31, R34). -/
def convAll (w : Nat) (g : Nat → DWord → (Nat × FpFlags) × DWord) (n : Nat) (st : DWord) : (Word × FpFlags) × DWord :=
  (List.range n).foldl (fun acc i =>
    let r := g i acc.2
    ((acc.1.1 ||| BitVec.ofNat 32 (r.1.1 * 2 ^ (w * i)), acc.1.2 ||| r.1.2), r.2)) ((0, 0), st)

/-- Compute each lane with its random state, which is kept when the mode is stochastic. -/
def eachLaneRng (t : Team) (o : ELanes) (rm : Nat) (f : Nat → DWord → (Word × FpFlags) × DWord) : EResult :=
  let rs := o.lanes.map fun l => (l, f l (rngState t l))
  { vals := rs.map fun r => (r.1, r.2.1.1), flags := rs.foldl (fun a r => a ||| r.2.1.2) 0,
    rng := if rm = 4 then rs.map fun r => (r.1, r.2.2) else [] }

/-! ## CVT -/

/-- The floating-point result formats of CVT and CVTD (R137, R139). -/
def cvtFmt (c : Nat) : FpFmt := match c with | 0 => .f32 | 1 => .f16 | _ => .bf16

/-- An integer as an exact value. -/
def fpOfInt (x : Int) : Fp := .fin (decide (x < 0)) x.natAbs 0

/-- CVT on one lane (R137): the exact product with the scale, rounded once. -/
def cvtLane (f : BitVec 4) (rm : Nat) (a b : Word) (st : DWord) : (Word × FpFlags) × DWord :=
  let scale := fpDecode .f32 b.toNat
  let sg := bit f 2
  let c := (f.extractLsb' 0 2).toNat
  if bit f 3 then
    let p := fpTimes (fpDecode .f32 a.toNat) scale
    let r := convRound rm (fun mode x => fpToInt sg (8 <<< c) mode x) p.1 st
    ((BitVec.ofInt 32 r.1.1, r.1.2 ||| p.2), r.2)
  else
    let p := fpTimes (fpOfInt (if sg then a.toInt else (a.toNat : Int))) scale
    let r := convElem (cvtFmt c) rm true p.1 st
    ((BitVec.ofNat 32 r.1.1, r.1.2 ||| p.2), r.2)

/-- CVT (R137). -/
def execCvt (n : BitVec 1) (d : BitVec 6) (a b : BitVec 7) (f : BitVec 4) : State → Host.Outcome State Fault Refusal :=
  vOp (.cvt n d a b f) n d [(a, if bit f 3 then .f32 else .int), (b, .f32)] false 2 fun i t o =>
    let rm := (roundOf i.hint).1
    .ok (eachLaneRng t o rm fun l => cvtLane f rm (o.arg 0 l) (o.arg 1 l))

/-! ## CVTF -/

/-- Source and result formats of a CVTF form (Table 6-7). -/
def cvtfFmts (f : Nat) : FpFmt × FpFmt :=
  match f with
  | 0 => (.f32, .f16) | 1 => (.f32, .bf16) | 2 => (.f16, .f32) | 3 => (.bf16, .f32)
  | 4 => (.f16, .e4m3) | 5 => (.f16, .e5m2) | 6 => (.bf16, .e4m3) | 7 => (.bf16, .e5m2)
  | 8 => (.e4m3, .f16) | 9 => (.e5m2, .f16) | 10 => (.e4m3, .bf16) | 11 => (.e5m2, .bf16)
  | 12 => (.e4m3, .e2m1) | 13 => (.e2m1, .e4m3) | 14 => (.f32, .e4m3) | _ => (.f32, .e5m2)

/-- The form narrows. -/
def cvtfNarrow (f : Nat) : Bool := decide ((cvtfFmts f).2.width < (cvtfFmts f).1.width)

/-- The operand type of a CVTF source (Table 4-4); a packed E2M1 source is a bit string. -/
def cvtfType (f : Nat) : OpType := match (cvtfFmts f).1 with | .e2m1 => .int | x => opTypeOf x

/-- CVTF on one lane: `arg` gives a, b, and for forms 14 and 15 e and g (R138). -/
def cvtfLane (f rm : Nat) (ns : Bool) (arg : Nat → Word) (st : DWord) : (Word × FpFlags) × DWord :=
  let (src, dst) := cvtfFmts f
  let per := 32 / src.width
  let source := fun i =>
    if cvtfNarrow f then
      let k := i / per
      fpDecode src (subElem src.width (i % per) (arg (if k < 2 then k else k + 1)))
    else fpDecode src (subElem src.width ((arg 1).toNat % 2 * (32 / dst.width) + i) (arg 0))
  let rm := if 14 ≤ f then 0 else rm
  convAll dst.width (fun i => convElem dst rm (14 ≤ f || !ns) (source i)) (32 / dst.width) st

/-- CVTF (R138). -/
def execCvtf (n : BitVec 1) (d : BitVec 6) (a b : BitVec 7) (f : BitVec 4) (s : State) : Host.Outcome State Fault Refusal :=
  issue (.cvtf n d a b f) plain s fun i t s => do
    let ty := cvtfType f.toNat
    let extra : ESources := match i.hint with
      | some (.ext g e) => if 14 ≤ f.toNat then [(e, ty), (g, ty)] else []
      | _ => []
    let o ← eOperands i t (coreWord s i.core) ([(a, ty), (b, if cvtfNarrow f.toNat then ty else .int)] ++ extra) none
    let p ← destV t o n d
    let m := roundOf i.hint
    let r := eachLaneRng t o m.1 fun l => cvtfLane f.toNat m.1 m.2 fun k => o.arg k l
    .ok (s.setTeam i.wid (deliverV i t o n p 2 r))

/-! ## CVTD -/

/-- What a described element holds (Table 2-3). -/
inductive DescKind where
  | float (f : FpFmt)
  | int (w : Nat)
  | ternary
  deriving DecidableEq, Repr

/-- The format of a descriptor code; none for a reserved code (Table 2-3). -/
def descKind (code : Nat) : Option DescKind :=
  match code with
  | 0 => some (.float .f32) | 1 => some (.float .bf16) | 2 => some (.float .f16) | 3 => some (.float .e4m3)
  | 4 => some (.float .e5m2) | 5 => some (.float .e2m1) | 6 => some (.int 8) | 7 => some (.int 4) | 8 => some .ternary
  | _ => none

/-- Bits of an element. -/
def DescKind.bits : DescKind → Nat
  | .float f => f.width
  | .int w => w
  | .ternary => 2

/-- A value times 2^k. -/
def Fp.scale (k : Int) : Fp → Fp
  | .fin n m e => .fin n m (e + k)
  | x => x

/-- An integer of `w` bits in two's complement. -/
def signedOf (w x : Nat) : Int := ((x % 2 ^ w : Nat) : Int).bmod (2 ^ w)

/-- The exact value of an element (R13 to R15); ternary 0b10 counts as 0 here and is refused by its consumers. -/
def DescKind.value (k : DescKind) (x : Nat) : Fp :=
  match k with
  | .float f => fpDecode f x
  | .int w => fpOfInt (signedOf w x)
  | .ternary => fpOfInt (match x with | 1 => 1 | 3 => -1 | _ => 0)

/-- The element that CVTD decodes in a lane: its kind and its bits, or none for a reserved format (R139). -/
def cvtdElem (a b : Word) : Option (DescKind × Nat) :=
  (descKind (b.toNat % 256)).map fun k =>
    let j := b.toNat / 2 ^ 16 % 32
    (k, subElem k.bits (j % (32 / k.bits)) a)

/-- CVTD on one lane (R139, R19, R24). -/
def cvtdLane (f : FpFmt) (rm : Nat) (a b : Word) (st : DWord) : (Word × FpFlags) × DWord :=
  let scale := b.toNat / 256 % 256
  match cvtdElem a b with
  | none => ((0, 0), st)
  | some (k, x) =>
    if scale = 255 then ((BitVec.ofNat 32 f.nanBits, 0), st)
    else
      let r := convElem f rm false ((k.value x).scale ((scale : Int) - 127)) st
      ((BitVec.ofNat 32 r.1.1, r.1.2), r.2)

/-- CVTD (R139): 0x049 for a reserved format in any lane, then 0x048 for a malformed ternary element (assumption 9). -/
def execCvtd (n : BitVec 1) (d : BitVec 6) (a b : BitVec 7) (r : BitVec 2) : State → Host.Outcome State Fault Refusal :=
  vOp (.cvtd n d a b r) n d [(a, .int), (b, .int)] false 2 fun i t o => do
    laneCause o 0x049 fun l => (cvtdElem (o.arg 0 l) (o.arg 1 l)).isNone
    laneCause o 0x048 fun l => cvtdElem (o.arg 0 l) (o.arg 1 l) == some (.ternary, 2)
    let rm := (roundOf i.hint).1
    .ok (eachLaneRng t o rm fun l => cvtdLane (cvtFmt r.toNat) rm (o.arg 0 l) (o.arg 1 l))

/-! ## CVTMX -/

/-- The element formats of CVTMX with their emax (R21, R140). -/
def mxFmt (e : Nat) : FpFmt × Int :=
  match e with
  | 0 => (.e4m3, 8) | 1 => (.e5m2, 15) | 2 => (.e3m2, 4) | 3 => (.e2m3, 2) | _ => (.e2m1, 2)

/-- The exponent floor(log2 |x|) of a non-zero finite value. -/
def fpLog (m : Nat) (e : Int) : Int := (Nat.log2 m : Int) + e

/-- The scale of an MX block (R21): 255 with a NaN or infinity in it. -/
def mxScale (emax : Int) (xs : List Fp) : Nat :=
  if xs.any fun x => match x with | .fin .. => false | _ => true then 255 else
  let logs := xs.filterMap fun x => match x with | .fin _ m e => if m = 0 then none else some (fpLog m e) | _ => none
  match logs with
  | [] => 0
  | l :: ls => (min (max (ls.foldl max l - emax) (-127)) 127 + 127).toNat

/-- CVTMX quantize on one lane, given its block's scale (R21, R140). -/
def mxQuantize (e rm scale : Nat) (a : Word) (st : DWord) : (Word × FpFlags) × DWord :=
  let x := fpDecode .f32 a.toNat
  if scale = 255 then ((BitVec.ofNat 32 (255 * 256), sigFlag x), st)
  else
    let r := convElem (mxFmt e).1 rm true (x.scale (127 - (scale : Int))) st
    ((BitVec.ofNat 32 (scale * 256 + r.1.1), r.1.2), r.2)

/-- CVTMX dequantize on one lane (R19, R140). -/
def mxDequantize (e rm : Nat) (a b : Word) (st : DWord) : (Word × FpFlags) × DWord :=
  let scale := b.toNat % 256
  let f := (mxFmt e).1
  if scale = 255 then ((BitVec.ofNat 32 FpFmt.f32.nanBits, 0), st)
  else
    let r := convElem .f32 rm false ((fpDecode f (a.toNat % 2 ^ f.width)).scale ((scale : Int) - 127)) st
    ((BitVec.ofNat 32 r.1.1, r.1.2), r.2)

/-- CVTMX (R140): a block is the active lanes of one mask word. -/
def execCvtmx (n : BitVec 1) (d : BitVec 6) (a b : BitVec 7) (q : BitVec 1) (e : BitVec 3) :
    State → Host.Outcome State Fault Refusal :=
  vOp (.cvtmx n d a b q e) n d [(a, if q = 0 then .f32 else .int), (b, .int)] false 2 fun i t o =>
    let rm := (roundOf i.hint).1
    let block := fun (l : Nat) => (o.lanes.filter fun k => k / 32 = l / 32).map fun k => fpDecode .f32 (o.arg 0 k).toNat
    .ok (eachLaneRng t o rm fun l =>
      if q = 0 then mxQuantize e.toNat rm (mxScale (mxFmt e.toNat).2 (block l)) (o.arg 0 l)
      else mxDequantize e.toNat rm (o.arg 0 l) (o.arg 1 l))

/-! ## Seeds (R141) -/

/-- A finite FP32 value as a count of 2^−320. -/
def fixOf : Fp → Int
  | .fin n m e => let v : Int := (m * 2 ^ (e + 320).toNat : Nat); if n then -v else v
  | _ => 0

/-- A count of 2^−320 rounded to FP32, with the flags of the rounding. -/
def fixRound (v : Int) : Nat × FpFlags := fpRound .f32 .rne true (.fin (decide (v < 0)) v.natAbs (-320))

/-- The integer square root, from bit `k` − 1 down. -/
def isqrtFrom (n : Nat) : Nat → Nat → Nat
  | 0, r => r
  | k + 1, r => isqrtFrom n k (if (r + 2 ^ k) * (r + 2 ^ k) ≤ n then r + 2 ^ k else r)

/-- A power series at scale 2^96 for x: the next term is the last one times `x` over the two numbers that `f` gives for
its position, with the sign that `f` gives. -/
def series96 (x : Int) (f : Nat → Int) : Nat → Nat → Int → Int
  | 0, _, _ => 0
  | n + 1, k, term => term + series96 x f n (k + 1) (term * x / (f k * 2 ^ 96))

/-- 2^f at scale 2^96 for f in [0, 1) at that scale: the exponential series of f × ln 2. -/
def exp2Frac (f : Int) : Int :=
  series96 (f * 54916777467707473351141471128 / 2 ^ 96) (fun k => (k : Int) + 1) 32 0 (2 ^ 96)

/-- sin x at scale 2^96 for x at that scale in [0, π ÷ 2]. -/
def sinSeries (x : Int) : Int :=
  series96 (x * x / 2 ^ 96) (fun k => -((2 * k + 2 : Int) * (2 * k + 3))) 20 0 x

/-- sin(π × r) at scale 2^96 for r at that scale in [0, 2). -/
def sinPi (r : Int) : Int :=
  let one : Int := 2 ^ 96
  let neg := decide (one ≤ r)
  let r := if neg then r - one else r
  let r := if one < 2 * r then one - r else r
  let y := sinSeries (r * 248902613312231085230521944622 / 2 ^ 96)
  if neg then -y else y

/-- The first `n` fraction bits of log2 y, for y in [1, 2) at scale 2^200. -/
def log2Bits : Nat → Nat → Nat → Nat
  | 0, _, acc => acc
  | n + 1, y, acc =>
    let z := y * y / 2 ^ 200
    if 2 ^ 201 ≤ z then log2Bits n (z / 2) (2 * acc + 1) else log2Bits n z (2 * acc)

/-- A seed whose exact value lies within `tol` of `v`, both counts of 2^−320: the function that R141 leaves open where its
value keeps the bound, and the rounded value elsewhere (assumption 8). -/
def seedPick (fn : Nat) (a : Word) (v tol : Int) : Word :=
  let raw := Config.seed fn a
  match fpDecode .f32 raw.toNat with
  | .fin n m e => if (fixOf (.fin n m e) - v).natAbs ≤ tol.natAbs then raw else BitVec.ofNat 32 (fixRound v).1
  | _ => BitVec.ofNat 32 (fixRound v).1

/-- A relative bound of 2^−k, or the absolute bound 2^−140 where the result is subnormal (R141). -/
def seedTol (k : Nat) (v : Int) : Int := if v.natAbs < 2 ^ 194 then 2 ^ 180 else v.natAbs / 2 ^ k

/-- The number 0xFF80_0000 or 0x7F80_0000. -/
def infWord (neg : Bool) : Word := if neg then 0xFF800000 else 0x7F800000

/-- RCPS (Table 6-8). -/
def seedRcp (a : Word) : Fp → Word × FpFlags
  | .fin neg 0 _ => (infWord neg, flagDZ)
  | .fin neg m e =>
    let v : Int := (2 ^ 640 : Int).tdiv (fixOf (.fin neg m e))
    if (fixRound v).2 &&& flagOF ≠ 0 then (infWord neg, flagOF) else (seedPick 0 a v (seedTol 14 v), 0)
  | .inf neg => (if neg then 0x80000000 else 0, 0)
  | _ => (0, 0)

/-- RSQS (Table 6-8). -/
def seedRsq (a : Word) : Fp → Word × FpFlags
  | .fin neg 0 _ => (infWord neg, flagDZ)
  | .fin false m e =>
    let v : Int := isqrtFrom (2 ^ 960 / (fixOf (.fin false m e)).natAbs) 420 0
    (seedPick 1 a v (seedTol 14 v), 0)
  | .inf false => (0, 0)
  | _ => (0x7FC00000, flagNV)

/-- EXPS (Table 6-8). -/
def seedExp (a : Word) : Fp → Word × FpFlags
  | .inf neg => (if neg then 0 else infWord false, 0)
  | x =>
    let f := fixOf x
    let n := f / 2 ^ 320
    if 128 ≤ n then (infWord false, flagOF)
    else if f < -149 * 2 ^ 320 then (0, flagUF)
    else if f % 2 ^ 320 = 0 then (BitVec.ofNat 32 (fpRound .f32 .rne true (.fin false 1 n)).1, 0)
    else
      let v := exp2Frac (f % 2 ^ 320 / 2 ^ 224) * 2 ^ (n + 224).toNat
      (seedPick 2 a v (seedTol 22 v), 0)

/-- LOGS (Table 6-8). -/
def seedLog (a : Word) : Fp → Word × FpFlags
  | .fin _ 0 _ => (infWord true, flagDZ)
  | .fin false m e =>
    let k := fpLog m e
    let frac := log2Bits 64 (m * 2 ^ 200 / 2 ^ Nat.log2 m) 0
    if m = 2 ^ Nat.log2 m then (BitVec.ofNat 32 (fpRound .f32 .rne true (fpOfInt k)).1, 0)
    else
      let v := k * 2 ^ 320 + (frac : Int) * 2 ^ 256
      (seedPick 3 a v (if k = -1 ∨ k = 0 then 2 ^ 298 else v.natAbs / 2 ^ 22), 0)
  | .inf false => (infWord false, 0)
  | _ => (0x7FC00000, flagNV)

/-- |a| mod 2 at scale 2^320. -/
def mod2 (x : Fp) : Int := (fixOf x).natAbs % (2 ^ 321 : Nat)

/-- SINS (Table 6-8). -/
def seedSin (a : Word) : Fp → Word × FpFlags
  | .fin neg m e =>
    let r := mod2 (.fin neg m e)
    if r % 2 ^ 320 = 0 then (if neg then 0x80000000 else 0, 0)
    else if r % 2 ^ 319 = 0 then (if neg != decide (2 ^ 320 ≤ r) then 0xBF800000 else 0x3F800000, 0)
    else
      let y := sinPi (r / 2 ^ 224) * 2 ^ 224
      (seedPick 4 a (if neg then -y else y) (2 ^ 299), 0)
  | _ => (0x7FC00000, flagNV)

/-- COSS (Table 6-8). -/
def seedCos (a : Word) : Fp → Word × FpFlags
  | .fin neg m e =>
    let r := mod2 (.fin neg m e)
    if r % 2 ^ 320 = 0 then (if r = 0 then 0x3F800000 else 0xBF800000, 0)
    else if r % 2 ^ 319 = 0 then (0, 0)
    else (seedPick 5 a (sinPi ((r / 2 ^ 224 + 2 ^ 95) % 2 ^ 97) * 2 ^ 224) (2 ^ 299), 0)
  | _ => (0x7FC00000, flagNV)

/-- A seed instruction: a NaN gives the NaN of R17, NV for a signalling one; `f` gives the rest. -/
def seedE (x : Instr) (n : BitVec 1) (d : BitVec 6) (a : BitVec 7) (f : Word → Fp → Word × FpFlags) :
    State → Host.Outcome State Fault Refusal :=
  vOp x n d [(a, .f32)] false 3 fun _ _ o => .ok (eachLane o fun l =>
    let v := fpDecode .f32 (o.arg 0 l).toNat
    match v with
    | .nan neg sig => (BitVec.ofNat 32 (fpNan .f32 neg).1, if sig then flagNV else 0)
    | _ => f (o.arg 0 l) v)

/-- RCPS (R141). -/
def execRcps (n : BitVec 1) (d : BitVec 6) (a : BitVec 7) : State → Host.Outcome State Fault Refusal :=
  seedE (.rcps n d a) n d a seedRcp

/-- RSQS (R141). -/
def execRsqs (n : BitVec 1) (d : BitVec 6) (a : BitVec 7) : State → Host.Outcome State Fault Refusal :=
  seedE (.rsqs n d a) n d a seedRsq

/-- EXPS (R141). -/
def execExps (n : BitVec 1) (d : BitVec 6) (a : BitVec 7) : State → Host.Outcome State Fault Refusal :=
  seedE (.exps n d a) n d a seedExp

/-- LOGS (R141). -/
def execLogs (n : BitVec 1) (d : BitVec 6) (a : BitVec 7) : State → Host.Outcome State Fault Refusal :=
  seedE (.logs n d a) n d a seedLog

/-- SINS (R141). -/
def execSins (n : BitVec 1) (d : BitVec 6) (a : BitVec 7) : State → Host.Outcome State Fault Refusal :=
  seedE (.sins n d a) n d a seedSin

/-- COSS (R141). -/
def execCoss (n : BitVec 1) (d : BitVec 6) (a : BitVec 7) : State → Host.Outcome State Fault Refusal :=
  seedE (.coss n d a) n d a seedCos

end Sys2Proof.Machine
end

