-- ==== Sys2Proof/Machine/ECross.lean ====
section
/-!
DEFINITION. Machine/ECross.lean: votes, shuffles, reductions, scans and arg-min/max across the lanes of a set or of a team
(R142 to R147).
-/
namespace Sys2Proof.Machine

/-- The participants of a lane's group, ascending: those of its lane set, or of the whole team (R142). -/
def groupOf (o : ELanes) (team : Bool) (lane : Nat) : List Nat :=
  let n := setSize o.frag.partn
  if team then o.lanes else o.lanes.filter fun k => k / n = lane / n

/-- The number of positions of a group: the set size, or LANES (R142). -/
def groupSize (t : Team) (o : ELanes) (team : Bool) : Nat := if team then t.info.lanes else setSize o.frag.partn

/-- The position of a lane in its group: SETLANE, or LANEID (R142). -/
def position (t : Team) (o : ELanes) (team : Bool) (lane : Nat) : Nat := lane % groupSize t o team

/-- The result of a vote for a lane (R143). -/
def voteLane (t : Team) (o : ELanes) (team : Bool) (op : BitVec 3) (lane : Nat) : Word :=
  let g := groupOf o team lane
  let yes := g.filter fun l => o.arg 0 l ≠ 0
  match op.toNat with
  | 0 => if yes.length = g.length then 1 else 0
  | 1 => if yes.isEmpty then 0 else 1
  | 2 => if g.all fun l => o.arg 0 l == o.arg 0 lane then 1 else 0
  | 3 =>
    let first := if team then (o.arg 1 lane).toNat % 32 * 32 else 0
    BitVec.ofNat 32 ((yes.filter fun l => decide (first ≤ position t o team l) && decide (position t o team l < first + 32)).foldl
      (fun acc l => acc + 2 ^ (position t o team l - first)) 0)
  | _ => BitVec.ofNat 32 yes.length

/-- VOTE (R143). -/
def execVote (n : BitVec 1) (d : BitVec 6) (a : BitVec 7) (o : BitVec 3) : State → Host.Outcome State Fault Refusal :=
  vOp (.vote n d a o) n d [(a, .int)] false 6 fun _ t e => .ok (eachWord e (voteLane t e false o))

/-- VOTET (R143). -/
def execVotet (n : BitVec 1) (d : BitVec 6) (a b : BitVec 7) (o : BitVec 3) : State → Host.Outcome State Fault Refusal :=
  vOp (.votet n d a b o) n d [(a, .int), (b, .int)] false 6 fun _ t e => .ok (eachWord e (voteLane t e true o))

/-- The source position of a shuffle, if there is one (R144). -/
def shuffleSource (op : BitVec 2) (size p b : Nat) : Option Nat :=
  match op.toNat with
  | 0 => some (b % size)
  | 1 => if b ≤ p then some (p - b) else none
  | 2 => if p + b < size then some (p + b) else none
  | _ => if p ^^^ (b % size) < size then some (p ^^^ (b % size)) else none

/-- The result of a shuffle for a lane (R144). -/
def shuffleLane (t : Team) (o : ELanes) (team : Bool) (op : BitVec 2) (lane : Nat) : Word :=
  let src := shuffleSource op (groupSize t o team) (position t o team lane) (o.arg 1 lane).toNat
  match src.bind fun p => (groupOf o team lane).find? fun l => position t o team l = p with
  | some l => o.arg 0 l
  | none => o.arg 0 lane

/-- SHFL (R144). -/
def execShfl (n : BitVec 1) (d : BitVec 6) (a b : BitVec 7) (o : BitVec 2) : State → Host.Outcome State Fault Refusal :=
  vOp (.shfl n d a b o) n d [(a, .int), (b, .int)] false 6 fun _ t e => .ok (eachWord e (shuffleLane t e false o))

/-- SHFLT (R144). -/
def execShflt (n : BitVec 1) (d : BitVec 6) (a b : BitVec 7) (o : BitVec 2) : State → Host.Outcome State Fault Refusal :=
  vOp (.shflt n d a b o) n d [(a, .int), (b, .int)] false 6 fun _ t e => .ok (eachWord e (shuffleLane t e true o))

/-- A combining operation of REDS and REDT on two words (Table 6-9, R145). -/
def combine (op : BitVec 4) (x y : Word) : Word × FpFlags :=
  let fp := fun (r : Nat × FpFlags) => (BitVec.ofNat 32 r.1, r.2)
  match op.toNat with
  | 0 => fp (fpOp .add .f32 .rne true x.toNat y.toNat 0)
  | 1 => fp (fpOp (.min false) .f32 .rne true x.toNat y.toNat 0)
  | 2 => fp (fpOp (.max false) .f32 .rne true x.toNat y.toNat 0)
  | 3 => (x + y, 0)
  | 4 => (if x.toInt ≤ y.toInt then x else y, 0)
  | 5 => (if x.toInt ≤ y.toInt then y else x, 0)
  | 6 => (x &&& y, 0)
  | 7 => (x ||| y, 0)
  | 8 => (x ^^^ y, 0)
  | 9 => (if x ≤ y then x else y, 0)
  | _ => (if x ≤ y then y else x, 0)

/-- The pairwise tree of R39 over the positions of a lane's group, an absent position for each that takes no part. -/
def reduceLane (t : Team) (o : ELanes) (team : Bool) (op : BitVec 4) (lane : Nat) : Word × FpFlags :=
  let size := groupSize t o team
  let g := groupOf o team lane
  let first := if team then 0 else lane / size * size
  let r := treeFold (combine op) 10 ((List.range size).map fun p =>
    if g.contains (first + p) then some (o.arg 0 (first + p)) else none) 0
  (r.1.getD 0, r.2)

/-- The type in which a cross-lane source takes constants (Table 4-4). -/
def crossType (fp : Bool) : OpType := if fp then .f32 else .int

/-- REDS (R145). -/
def execReds (n : BitVec 1) (d : BitVec 6) (a : BitVec 7) (o : BitVec 4) : State → Host.Outcome State Fault Refusal :=
  vOp (.reds n d a o) n d [(a, crossType (decide (o.toNat < 3)))] false 6 fun _ t e =>
    .ok (eachLane e (reduceLane t e false o))

/-- REDT (R145). -/
def execRedt (n : BitVec 1) (d : BitVec 6) (a : BitVec 7) (o : BitVec 4) : State → Host.Outcome State Fault Refusal :=
  vOp (.redt n d a o) n d [(a, crossType (decide (o.toNat < 3)))] false 6 fun _ t e =>
    .ok (eachLane e (reduceLane t e true o))

/-- The operation of a SCAN and its identity (R146). -/
def scanOp (o : BitVec 2) : BitVec 4 × Word :=
  match o.toNat with | 0 => (0, 0) | 1 => (3, 0) | 2 => (5, 0x80000000) | _ => (7, 0)

/-- The fold of a SCAN up to a lane, or before it (R146). -/
def scanLane (o : ELanes) (excl : Bool) (op : BitVec 2) (lane : Nat) : Word × FpFlags :=
  let g := (groupOf o false lane).filter fun l => decide (l < lane) || (!excl && l == lane)
  match g with
  | [] => ((scanOp op).2, 0)
  | l :: ls => ls.foldl (fun acc k =>
      let r := combine (scanOp op).1 acc.1 (o.arg 0 k)
      (r.1, acc.2 ||| r.2)) (o.arg 0 l, 0)

/-- SCAN (R146). -/
def execScan (n : BitVec 1) (d : BitVec 6) (a : BitVec 7) (x : BitVec 1) (o : BitVec 2) :
    State → Host.Outcome State Fault Refusal :=
  vOp (.scan n d a x o) n d [(a, crossType (o == 0))] false 6 fun _ _ e => .ok (eachLane e (scanLane e (x == 1) o))

/-- A value ranks strictly above another for ARGM: by FP32, .i32 or .n32 (R147, Table 6-9). -/
def argmAbove (ty : BitVec 2) (x y : Word) : Bool :=
  match ty.toNat with
  | 0 => fpBelow (fpDecode .f32 y.toNat) (fpDecode .f32 x.toNat)
  | 1 => decide (y.toInt < x.toInt)
  | _ => decide (y.toNat < x.toNat)

/-- The winning lane among participants in ascending order; equal values go to the lowest (R147). -/
def argmWinner (ty : BitVec 2) (isMin : Bool) (val : Nat → Word) : List Nat → Nat
  | [] => 0
  | l :: ls =>
    let isNan := fun k => ty == 0 && (fpDecode .f32 (val k).toNat).isNan
    match (l :: ls).find? isNan with
    | some k => k
    | none => ls.foldl (fun w k => if (if isMin then argmAbove ty (val w) (val k) else argmAbove ty (val k) (val w)) then k else w) l

/-- ARGM (R147). -/
def execArgm (n : BitVec 1) (d : BitVec 6) (a : BitVec 7) (t : BitVec 2) (m : BitVec 1) :
    State → Host.Outcome State Fault Refusal :=
  vOp (.argm n d a t m) n d [(a, crossType (t == 0))] false 6 fun _ tm e => .ok (eachLane e fun l =>
    (BitVec.ofNat 32 (position tm e false (argmWinner t (m == 1) (e.arg 0) (groupOf e false l))),
      if t == 0 && (fpDecode .f32 (e.arg 0 l).toNat).sig then flagNV else 0))

end Sys2Proof.Machine
end

