-- ==== Sys2Proof/Machine/Access.lean ====
section
/-!
DEFINITION. Machine/Access.lean: the accesses of A-stream memory instructions: address checks in every lane (R107),
race checks (R256), and reads, writes and atomics performed at one instant (R107 to R113, R153, R158, R161).
-/
namespace Sys2Proof.Machine

/-- The modifiers of a MOD hint that memory instructions take: class, ord and scope; all 0 without one (Table 4-6). -/
def modOf (h : Option Hint) : BitVec 2 × BitVec 2 × Nat :=
  match h with
  | some (.mod c o s _ _) => (c, o, s.toNat)
  | _ => (0, 0, 0)

/-- An access that passed its address checks: lane (none for a uniform access), virtual and physical address and the
attributes of the page. -/
structure Located where
  lane : Option Nat
  va : Nat
  pa : Nat
  attr : PageAttr
  deriving DecidableEq, Repr

/-- What the checks of one access give (R107): a cause, a page to wait for, or the located access. -/
inductive Checked where
  | cause (c : Nat)
  | need (n : PageNeed)
  | at_ (l : Located)
  deriving DecidableEq, Repr

/-- What an access is: for the permissions, the access types of a page request and the device aperture, which takes 8-byte loads,
stores and ATOM.ADDs alone (R395). -/
inductive AccessKind where
  | read
  | write
  | queueRead
  | queueWrite
  | counterAdd
  | atomic
  deriving DecidableEq, Repr

/-- An access that writes, for the permission check. -/
def AccessKind.writes (k : AccessKind) : Bool := k != .read && k != .queueRead

/-- The access types of a page request (Table 10-7). -/
def AccessKind.types : AccessKind → BitVec 8
  | .read => 1
  | .queueRead => 1
  | .write => 2
  | .queueWrite => 2
  | .counterAdd => 8
  | .atomic => 8

/-- The cause of an access to a physical address: unbacked (R215), a form that the counter aperture does not take (R395), or an
uncorrectable sector (R443; no access of an instruction replaces all its bytes). -/
def targetCause (s : State) (k : AccessKind) (size pa : Nat) : Option Nat :=
  if !isBacked pa then some 0x089
  else if isAperture pa && !((k == .read || k == .write || k == .counterAdd) && size == 8) then some 0x08E
  else if s.dev.bad.contains (pa / 64) then some 0x0C0
  else none

/-- The run of a translation register reaches an access (R107): its physical address. -/
def runAddr (r : TReg) (va size : Nat) : Option Nat :=
  let rel := (va + 2 ^ 64 - r.vbase.toNat) % 2 ^ 64
  if rel + size ≤ r.limit.toNat ∧ r.attr.resident then some (r.pbase.toNat + rel) else none

/-- Check one access through a translation register, in the order of R107. -/
def checkAccess (s : State) (core ctx : Nat) (r : TReg) (lane : Option Nat) (va size : Nat) (k : AccessKind) : Checked :=
  if !r.valid then .cause 0x080
  else if 2 ^ 57 ≤ va then .cause 0x084
  else if va % size ≠ 0 then .cause 0x083
  else
    let found := fun (attr : PageAttr) (pa : Nat) =>
      if k.writes && !attr.w then Checked.cause 0x082
      else match targetCause s k size pa with
        | some c => .cause c
        | none => .at_ { lane := lane, va := va, pa := pa, attr := attr }
    match runAddr r va size with
    | some pa => found r.attr pa
    | none =>
      match xlate s core ctx va with
      | .unmapped => .cause 0x081
      | .malformed => .cause 0x088
      | .unbacked => .cause 0x089
      | .absent l => if k.writes && !l.attr.w then .cause 0x082 else .need ⟨l.vbase, l.size, k.types⟩
      | .held => .need ⟨0, 0, k.types⟩
      | .hit l pa => found l.attr pa

/-- A list of lanes with their addresses; a uniform access has no lane. -/
abbrev Addressed := List (Option Nat × Nat)

/-- An access to a page that is not resident, and whose request has been declined (R234). -/
def Checked.refuse (declined : Nat → Bool) : Checked → Checked
  | .need n => if n.size ≠ 0 && declined n.page then .cause 0x081 else .need n
  | c => c

/-- Check every access of an instruction: the highest cause among all lanes, with the lowest lane that meets it (R107, R234);
else the pages to wait for and the located accesses. -/
def checkAll (s : State) (core ctx : Nat) (r : TReg) (declined : Nat → Bool) (as : Addressed) (size : Nat) (k : AccessKind) :
    Act (List PageNeed × List Located) :=
  let cs := as.map fun a => (a, (checkAccess s core ctx r a.1 a.2 size k).refuse declined)
  let causes := cs.filterMap fun p => match p.2 with | .cause c => some c | _ => none
  match highest memCauseOrder causes with
  | some c =>
    match cs.find? fun p => p.2 = .cause c with
    | some p => raiseWith c { lane := p.1.1, value := BitVec.ofNat 64 p.1.2 }
    | none => raise c
  | none => .ok (cs.filterMap fun p => match p.2 with | .need n => some n | _ => none,
      cs.filterMap fun p => match p.2 with | .at_ l => some l | _ => none)

/-- The race check of an instruction's accesses (R256): 0x0A0 at a read, 0x0A1 at a write or atomic, naming the lowest
racing lane. -/
def checkRaces (s : State) (wid : Nat) (t : Team) (ls : List Located) (size : Nat) (writes : Bool) : Act Unit :=
  let on := (s.region t.info.node).racechk
  match ls.find? fun l => (raceTest s wid t.acq on l.attr.nc l.pa size).isSome with
  | some l =>
    let tag := tagAt s l.pa
    let second := (raceTest s wid t.acq on l.attr.nc l.pa size).getD false
    raiseWith (if writes then 0x0A1 else 0x0A0)
      { lane := l.lane, value := BitVec.ofNat 64 l.va,
        detail := (if second then 1#8 else 0#8) ++ tag.mask ++ tag.gen ++ tag.wid }
  | none => .ok ()

/-- The index of the stash map that holds an address (R161). -/
def stashMapOf (t : Team) (va : Nat) : Option Nat :=
  (t.stash.find? fun p => decide (p.2.base ≤ va) && decide (va < p.2.base + p.2.len)).map (·.1)

/-- Touch the stash line of an address, dirty after a store (R161). -/
def touchStash (t : Team) (va : Nat) (dirty : Bool) : Team :=
  match stashMapOf t va with
  | none => t
  | some i => { t with stash := tabMod t.stash i fun m =>
      { m with lines := tabSet m.lines (va / 128) (dirty || (tabGetD false m.lines (va / 128))) } }

/-- Fill the look-aside buffers for an address outside the register's run (R107, R230). -/
def fillFor (s : State) (core ctx : Nat) (r : TReg) (va size : Nat) : State :=
  if (runAddr r va size).isSome then s else xlateFill s core ctx va

/-- Perform one read of a team: the buffers, the caches or the stash, and for an acquire at a scope wider than lane the
acquired-from table (R158, R255). -/
def performRead (s : State) (wid : Nat) (t : Team) (r : TReg) (l : Located) (size : Nat) (cls ord : BitVec 2) (scope : Nat) :
    State :=
  let s := fillFor s (coreOf wid) t.info.ctx r l.va size
  let s :=
    if (stashMapOf t l.va).isSome then s.modTeam wid fun t => touchStash t l.va false
    else physTouchRead s (teamAccess t wid) l.pa l.attr cls true
  if bit ord 0 && scope != 0 then acquire s wid l.pa else s

/-- The team writes tags of its own (Table 11-5): checking is on in its region and the page is not NC. -/
def tagsOn (s : State) (t : Team) (attr : PageAttr) : Bool := (s.region t.info.node).racechk && !attr.nc

/-- Perform one write of a team at a located address. A release has advanced the generation before it (R252); its tag
and record are those of a release (Table 11-5, R254). -/
def performWrite (s : State) (wid : Nat) (t : Team) (r : TReg) (l : Located) (bs : List Byte) (cls : BitVec 2)
    (release : Bool) : State :=
  let s := fillFor s (coreOf wid) t.info.ctx r l.va bs.length
  let k : TagWrite := if !tagsOn s t l.attr then .clear else if release then .release wid else .plain wid
  let s := physWrite s (teamAccess t wid) l.pa bs l.attr cls k
  let s := if (stashMapOf t l.va).isSome then s.modTeam wid fun t => touchStash t l.va true else s
  if release then recordRelease s l.pa wid else s

/-- What an atomic's read finds for the acquired-from table (R239, R254): an acquire uses it at once, another atomic at the FENCE that
follows it. -/
def atomicSees (s : State) (wid pa : Nat) (ord : BitVec 2) (scope : Nat) : State :=
  if bit ord 0 && scope != 0 then acquire s wid pa
  else
    let l := tabGetD [] s.dev.relRecords (relSlice pa)
    let r := (l.find? fun r => r.word = pa / 8).map fun r => (r.wid, r.gen.toNat)
    s.modTeam wid fun t => { t with seen := some r }

/-- A FENCE makes the latest atomic before it an acquire, and every later one a release (R239). -/
def fenceTable (wid : Nat) (t : Team) : Team :=
  let acq := match t.seen with
    | none => t.acq
    | some none => []
    | some (some r) => if r.1 = wid then t.acq else [r]
  { t with acq := acq, seen := none, fenced := true }

/-- Perform one atomic of a team (R153, R157): its own stash line is dropped, the words' bits are cleared, or with a
release the tag and record are a release's. A new value of none writes nothing. -/
def performAtomic (s : State) (wid : Nat) (t : Team) (r : TReg) (l : Located) (size : Nat) (new : Option Nat)
    (cls ord : BitVec 2) (scope : Nat) : State :=
  let s := fillFor s (coreOf wid) t.info.ctx r l.va size
  let release := bit ord 1 && scope != 0
  let s := s.modTeam wid fun t =>
    match stashMapOf t l.va with
    | none => t
    | some i => { t with stash := tabMod t.stash i fun m => { m with lines := tabDel m.lines (l.va / 128) } }
  let s := atomicSees s wid l.pa ord scope
  let acc := { teamAccess t wid with core := none }
  match new with
  | none => physTouchRead s acc l.pa l.attr cls false
  | some v =>
    let k : TagWrite := if release && tagsOn s t l.attr then .release wid else .clear
    let s := physWrite s acc l.pa (natLe size v) l.attr cls k
    if release || t.fenced then recordRelease s l.pa wid else s

/-- The trigger counter at an address of the aperture (R395). -/
def counterAt (s : State) (pa : Nat) : DWord :=
  tabGetD 0 (s.core (pa / 0x10000 % 0x100)).ctrs (pa % 0x10000 / 8)

/-- The value of a located access. -/
def loadNat (s : State) (l : Located) (size : Nat) : Nat :=
  if isAperture l.pa then (counterAt s l.pa).toNat else memNat s.mem l.pa size

/-- A release at system scope waits until the outstanding-acknowledgement counter reads zero (R158, R244). -/
def awaitAcks (t : Team) (scope : Nat) : Act Unit := waitWhile (scope == 5 && t.acks != 0) (.other 0)

/-- Write back the team's dirty stash lines: the lines stay, clean (R158, R159, R161). -/
def cleanStash (t : Team) : Team :=
  { t with stash := t.stash.map fun p => (p.1, { p.2 with lines := p.2.lines.map fun l => (l.1, false) }) }

end Sys2Proof.Machine
end

