-- ==== Sys2Proof/Machine/Tree.lean ====
section
/-!
DEFINITION. Machine/Tree.lean: the leaves of the rank tree and the order of their items (R311, R318 to R324).
-/
namespace Sys2Proof.Machine

/-- Leaf identifiers (R332): kind × 4096 + index. -/
def leafId (kind index : Nat) : Nat := kind * 4096 + index

/-- An identifier that names a leaf (R332, Table 16-1). -/
def leafExists (id : Nat) : Bool :=
  let k := id / 4096
  let i := id % 4096
  match k with
  | 0 => decide (i < 256) | 1 => decide (i < 256) | 2 => decide (i < 256) | 3 => decide (i < 256)
  | 4 => decide (i < 16) | 5 => decide (i < 16) | 6 => decide (i < 2) | _ => false

/-- A leaf (unlisted: no parent, empty). -/
def State.leaf (s : State) (id : Nat) : PifoLeaf := tabGetD {} s.dev.leaves id

/-- Replace a leaf. -/
def State.setLeaf (s : State) (id : Nat) (l : PifoLeaf) : State :=
  { s with dev := { s.dev with leaves := tabSetD {} s.dev.leaves id l } }

/-- Replace a region. -/
def State.setRegion (s : State) (n : Nat) (r : Region) : State :=
  { s with dev := { s.dev with nodes := tabSetD {} s.dev.nodes n r } }

/-- The margin of a leaf: that of its parent (R312). -/
def State.margin (s : State) (id : Nat) : Nat := (s.leaf id).parent.elim 0 fun n => (s.region n).margin

/-- NOW: bits [31:0] of the time base (R320). -/
def State.now (s : State) : Nat := timeBase s % 2 ^ 32

/-- A rank is due at a time (R319). -/
def isDue (now rank : Nat) : Bool := decide ((now + 2 ^ 32 - rank) % 2 ^ 32 < 2 ^ 31)

/-- Entries of a leaf (Table 16-1). -/
def leafCap (id : Nat) : Nat := if id / 4096 = 2 then 32 else 64

/-- Place an item in the order of R318: ascending rank, equal ranks in push order. -/
def insertItem (x : LeafItem) : List LeafItem → List LeafItem
  | [] => [x]
  | y :: ys =>
    if x.rank < y.rank ∨ (x.rank = y.rank ∧ x.stamp < y.stamp) then x :: y :: ys else y :: insertItem x ys

/-- The item that a leaf yields: the head of a PIFO leaf, the most overdue due item of a calendar leaf (R318, R319). -/
def leafHead (now : Nat) (l : PifoLeaf) : Option LeafItem :=
  if l.calendar then
    let due := l.items.filter fun x => isDue now x.rank
    due.foldl (fun best x => match best with
      | none => some x
      | some b =>
        let late := fun (r : Nat) => (now + 2 ^ 32 - r) % 2 ^ 32
        if late b.rank < late x.rank ∨ (late b.rank = late x.rank ∧ x.stamp < b.stamp) then some x else some b) none
  else l.items.head?

/-- The running work is to stop when r + M ≤ q (R322). -/
def EngineRun.test (m rank : Nat) (r : EngineRun) : EngineRun := { r with stop := r.stop || decide (rank + m ≤ r.item.rank) }

/-- An item of a rank has become visible in a copy-engine or stream leaf: the leaf compares it with the work that its engine, the one
that the item is for, runs (R322). -/
def comparePush (s : State) (id : Nat) (x : LeafItem) : State :=
  let m := s.margin id
  if (s.leaf id).calendar || m = 0 then s
  else match id / 4096, x.work with
    | 4, _ => { s with eng := { s.eng with running := tabMod s.eng.running id (EngineRun.test m x.rank) } }
    | 3, .stream c =>
      let k := s.core (id % 4096)
      let e := (tabGetD {} s.eng.copies c).engine
      s.setCore (id % 4096) { k with streams := tabMod k.streams e (EngineRun.test m x.rank) }
    | _, _ => s

/-- A push reaches its leaf: it enters, or waits in arrival order (R321). A push that enters the leaf directly takes its
place in push order here. A fatal error stops every push (R446). -/
def enterLeaf (s : State) (id : Nat) (x : LeafItem) : State :=
  let l := s.leaf id
  if s.host.fatal then s
  else if l.waiting.isEmpty && decide (l.items.length < leafCap id) then
    comparePush (s.setLeaf id { l with items := insertItem x l.items }) id x
  else s.setLeaf id { l with waiting := l.waiting ++ [{ x with since := s.dev.time }] }

/-- A direct push at a rank (R313). -/
def directPush (s : State) (id rank : Nat) (w : Work) : State :=
  let s' := { s with dev := { s.dev with pushSeq := s.dev.pushSeq + 1 } }
  enterLeaf s' id { rank := rank % 2 ^ 32, stamp := s.dev.pushSeq, work := w }

/-- Work that re-enters a leaf after pre-emption keeps its rank and push order, and is placed even when the leaf is full
(R324). -/
def reenterLeaf (s : State) (id : Nat) (x : LeafItem) : State :=
  let l := s.leaf id
  s.setLeaf id { l with items := insertItem x l.items }

/-- The engine of a leaf takes an item; the first waiting push enters the freed place (R318, R321). -/
def takeItem (s : State) (id : Nat) (x : LeafItem) : State :=
  let l := s.leaf id
  let items := l.items.filter fun y => y.stamp ≠ x.stamp
  match l.waiting with
  | w :: ws =>
    if items.length < leafCap id then s.setLeaf id { l with items := insertItem w items, waiting := ws }
    else s.setLeaf id { l with items := items }
  | [] => s.setLeaf id { l with items := items }

/-- A region's node lies at or above another node (R313, R342). -/
def nodeAbove (s : State) (top : Nat) : Nat → Nat → Bool
  | 0, _ => false
  | fuel + 1, n => if n = top then true else match (s.region n).parent with
    | some p => nodeAbove s top fuel p
    | none => false

/-- The nodes from an entry node down to a leaf's parent, in order (R313); none when the leaf does not lie below. -/
def pathTo (s : State) (entry : Nat) : Nat → Nat → List Nat → Option (List Nat)
  | 0, _, _ => none
  | fuel + 1, n, acc =>
    if n = entry then some (n :: acc)
    else match (s.region n).parent with
      | some p => pathTo s entry fuel p (n :: acc)
      | none => none

/-- The path of a push to a leaf. -/
def leafPath (s : State) (entry leaf : Nat) : Option (List Nat) :=
  match (s.leaf leaf).parent with
  | some p => if (s.region p).loaded then pathTo s entry 8 p [] else none
  | none => none

end Sys2Proof.Machine
end

