-- ==== Sys2Proof/Machine/Counters.lean ====
section
/-!
DEFINITION. Machine/Counters.lean: trigger counters (R394 to R396), the firing of acorns (R399), the choice of a port (R411) and the
leaves that fired operations enter.
-/
namespace Sys2Proof.Machine

/-- A trigger counter of a core (R394). -/
def State.ctr (s : State) (core n : Nat) : DWord := tabGetD 0 (s.core core).ctrs n

/-- Set a trigger counter. -/
def State.setCtr (s : State) (core n : Nat) (v : DWord) : State :=
  let c := s.core core
  s.setCore core { c with ctrs := tabSetD 0 c.ctrs n v }

/-- Change an acorn of a core, if its entry is in use. -/
def State.modAcorn (s : State) (core n : Nat) (f : Acorn → Acorn) : State :=
  let c := s.core core
  s.setCore core { c with acorns := tabMod c.acorns n f }

/-- Free an acorn's entry. -/
def State.freeAcorn (s : State) (core n : Nat) : State :=
  let c := s.core core
  s.setCore core { c with acorns := tabDel c.acorns n }

/-- The copy-engine leaf that serves a core: cluster div 2 of its Facet die (R259, R399). -/
def copyLeaf (core : Nat) : Nat := leafId 4 (facetOf core * 4 + clusterOf core % 8 / 2)

/-- The entry of the route table for a device (R410): the ports toward it, and REACH. -/
def routeEntry (s : State) (dev : Nat) : Nat := tabGetD 0 s.fab.routes dev

/-- The device is reached; the device's own identifier always is (R410). -/
def reaches (s : State) (dev : Nat) : Bool := dev == s.dev.devId || bitsOf (routeEntry s dev) 16 16 == 1

/-- A Jenile port (unlisted: as after reset). -/
def State.port (s : State) (p : Nat) : Port := tabGetD {} s.fab.ports p

/-- The port that a packet toward a device takes (R411): of those in the mask whose link is up, the one whose fabric leaf holds the
fewest entries, and the lowest among them. -/
def choosePort (s : State) (dev : Nat) : Option Nat :=
  let ups := (List.range 16).filter fun p => bitsOf (routeEntry s dev) p p = 1 && (s.port p).up
  let load := fun (p : Nat) => (s.leaf (leafId 5 p)).items.length
  ups.foldl (fun b p => match b with
    | none => some p
    | some q => if load p < load q then some p else some q) none

/-- The pieces of an operation's destination, divided at 4 KiB boundaries (R405): source, destination and length of each. -/
def opPieces (d : AcornDesc) : List (Nat × Nat × Nat) :=
  if d.op = 0 ∨ d.op = 1 ∨ d.op = 2 then (partsOf 4096 d.dst d.len).map fun p => (d.src + (p.1 - d.dst), p.1, p.2)
  else [(d.src, d.dst, 0)]

/-- Enter a new operation of the fabric into its leaf or leaves (R399, R411, R413): the copy-engine leaf for the own device, else
the leaf of the port each packet takes. A packet that finds no port up fails the operation (R402). -/
def startOp (s : State) (o : FabOp) (rank : Nat) : State :=
  let id := s.fab.opSeq
  let pieces := opPieces o.desc
  let s := { s with fab := { s.fab with
    opSeq := id + 1, ops := tabSet s.fab.ops id { o with unsent := if o.desc.op = 4 then 1 else pieces.length } } }
  if o.desc.op = 4 then s
  else pieces.foldl (fun s p =>
    if o.desc.dev = s.dev.devId then directPush s (copyLeaf o.core) rank (.op id p.1 p.2.1 p.2.2)
    else match choosePort s o.desc.dev with
      | some q => directPush s (leafId 5 q) rank (.op id p.1 p.2.1 p.2.2)
      | none => { s with fab := { s.fab with ops := tabMod s.fab.ops id fun x =>
          { x with failed := true, cause := 0x155, addr := p.2.1, unsent := x.unsent - 1 } } }) s

/-- A pause holds an operation of a reduction group that names a chunk (R384). -/
def paused (s : State) (group chunk : Nat) : Bool :=
  match tabGet s.fab.pauses group with
  | none => false
  | some p => decide (p.limit ≤ chunk)

/-- A reduction acorn of a paused chunk does not fire (R399). -/
def acornPaused (s : State) (d : AcornDesc) : Bool := d.op == 2 && decide (9 ≤ d.rfn) && paused s d.group d.chunk

/-- Fire an acorn when its counter has reached its threshold (R399). -/
def testAcorn (s : State) (core n : Nat) : State :=
  match tabGet (s.core core).acorns n with
  | none => s
  | some a =>
    if a.firing || acornPaused s a.desc || decide ((s.ctr core a.desc.ctr).toNat < a.desc.thresh) then s
    else startOp (s.modAcorn core n fun a => { a with firing := true })
      { desc := a.desc, source := .acorn core n, core := core, node := a.node, ctx := a.ctx, owner := some a.owner } a.rank

/-- Test the acorns that watch a counter, in ascending index (R399). -/
def testAcorns (s : State) (core ctr : Nat) : State :=
  (List.range 64).foldl (fun s n =>
    if (tabGet (s.core core).acorns n).any fun a => a.desc.ctr = ctr then testAcorn s core n else s) s

/-- Raise a trigger counter (R394, R396). -/
def raiseCtr (s : State) (core n : Nat) (amount : DWord) : State :=
  testAcorns (s.setCtr core n (s.ctr core n + amount)) core n

/-- Raise the counter at an address of the aperture (R395). -/
def raiseCounter (s : State) (pa v : Nat) : State :=
  raiseCtr s (pa / 0x10000 % 0x100) (pa % 0x10000 / 8) (BitVec.ofNat 64 v)

end Sys2Proof.Machine
end

