-- ==== Sys2Proof/Machine/AMem.lean ====
section
/-!
DEFINITION. Machine/AMem.lean: the A-stream's memory and queue instructions LDS, STS, LDQ, STQ, GATHQ, SCATQ and QPUSH
(R106 to R115).
-/
namespace Sys2Proof.Machine

/-- The access size of sz (R64). -/
def szBytes (sz : BitVec 2) : Nat := 1 <<< sz.toNat

/-- The address of a uniform offset-layout operand (R64). -/
def uniformAddr (i : Issue) (t : Team) (core : Nat) (tn : BitVec 4) (x : BitVec 7) (sz : BitVec 2) (off : BitVec 6) :
    Act Nat := do
  let idx ← sourceA i t core x
  .ok (formAddr (readT t tn.toNat) idx.toNat (offsetUnits i.hint off) (szBytes sz))

/-- LDS (R107 to R109, R158). -/
def execLds (d : BitVec 6) (tn : BitVec 4) (x : BitVec 7) (sz : BitVec 2) (off : BitVec 6) (s : State) :
    Host.Outcome State Fault Refusal :=
  issue (.lds d tn x sz off) plain s fun i t s => do
    let va ← uniformAddr i t (coreWord s i.core) tn x sz off
    let _ ← t.a.win.reg 256 d.toNat
    let r := readT t tn.toNat
    let (needs, ls) ← checkAll s i.core t.info.ctx r (t.wasDeclined i.stream) [(none, va)] (szBytes sz) .read
    checkRaces s i.wid t ls (szBytes sz) false
    awaitPages t i.stream [] needs
    match ls with
    | [] => .ok s
    | l :: _ =>
      let (cls, ord, scope) := modOf i.hint
      let v := loadNat s l (szBytes sz)
      let t ← writeS t d.toNat (BitVec.ofNat 64 v)
      .ok (performRead (s.setTeam i.wid t) i.wid t r l (szBytes sz) cls ord scope)

/-- A store to the counter aperture raises a trigger counter (R396). -/
def storeAt (s : State) (i : Issue) (t : Team) (r : TReg) (l : Located) (size v : Nat) (cls : BitVec 2) (release : Bool) :
    State :=
  if isAperture l.pa then raiseCounter (advanceGen s i.wid) l.pa v
  else performWrite s i.wid t r l (natLe size v) cls release

/-- STS (R107 to R109, R158, R396). -/
def execSts (d : BitVec 6) (tn : BitVec 4) (x : BitVec 7) (sz : BitVec 2) (off : BitVec 6) (s : State) :
    Host.Outcome State Fault Refusal :=
  issue (.sts d tn x sz off) plain s fun i t s => do
    let va ← uniformAddr i t (coreWord s i.core) tn x sz off
    let v ← readS t d.toNat
    let r := readT t tn.toNat
    let (cls, ord, scope) := modOf i.hint
    let (needs, ls) ← checkAll s i.core t.info.ctx r (t.wasDeclined i.stream) [(none, va)] (szBytes sz) .write
    checkRaces s i.wid t ls (szBytes sz) true
    awaitPages t i.stream [] needs
    let release := bit ord 1 && scope != 0
    if release then awaitAcks t scope
    match ls with
    | [] => .ok s
    | l :: _ =>
      let s := if release then advanceGen s i.wid else s
      let s := if release && scope == 5 then s.modTeam i.wid cleanStash else s
      .ok (storeAt s i t r l (szBytes sz) v.toNat cls release)

/-- The lanes that access, each with its address `base` + L × size (R110, R111). -/
def laneAddrs (t : Team) (mask : Mask) (base size : Nat) : Addressed :=
  (maskLanes t.info.lanes mask).map fun l => (some l, (base + l * size) % 2 ^ 64)

/-- The check of a queue load: a lane whose page is not resident accesses nothing (Table 5-10). -/
def queueLoad (s : State) (i : Issue) (t : Team) (r : TReg) (as : Addressed) (size : Nat) (cls : BitVec 2) :
    Act (State × QEntry) := do
  let (_, ls) ← checkAll s i.core t.info.ctx r (fun _ => false) as size .queueRead
  checkRaces s i.wid t ls size false
  let vals := ls.foldl (fun v l => tabSetD 0 v (l.lane.getD 0) (BitVec.ofNat 64 (loadNat s l size))) []
  let got := lanesMask (ls.map fun l => l.lane.getD 0)
  let asked := lanesMask (as.map fun a => a.1.getD 0)
  let s := ls.foldl (fun s l => performRead s i.wid t r l size cls 0 0) s
  let resid := if (as.head?.map (·.1)) = some none ∧ ls.isEmpty then BitVec.allOnes 1024 else asked &&& ~~~got
  .ok (s, { vals := vals, resid := resid })

/-- The entry of a queue load goes to the gather engine, which pushes it when every lane is done (R89, R110). -/
def handGather (s : State) (wid q : Nat) (e : QEntry) : State :=
  s.modTeam wid fun t => { t with gather := t.gather ++ [{ q := q, entry := e }] }

/-- LDQ (R106, R108, R110). -/
def execLdq (d : BitVec 6) (tn : BitVec 4) (x : BitVec 7) (sz : BitVec 2) (off : BitVec 6) (s : State) :
    Host.Outcome State Fault Refusal :=
  issue (.ldq d tn x sz off) plain s fun i t s => do
    queueCause t d.toNat (decide (d.toNat < 4) || d == 6)
    let va ← uniformAddr i t (coreWord s i.core) tn x sz off
    let r := readT t tn.toNat
    let as : Addressed := if d = 6 then [(none, va)] else laneAddrs t t.live va (szBytes sz)
    let (s', e) ← queueLoad s i t r as (szBytes sz) (modOf i.hint).1
    awaitRoom t d.toNat
    .ok (handGather s' i.wid d.toNat e)

/-- The lanes of an index entry that access, each with the address its index forms (R112). -/
def indexAddrs (i : Issue) (t : Team) (tn : BitVec 4) (off : BitVec 6) (size : Nat) (e : QEntry) (mask : Mask) : Addressed :=
  (maskLanes t.info.lanes mask).map fun l =>
    (some l, formAddr (readT t tn.toNat) ((tabGetD 0 e.vals l).toNat % 2 ^ 32) (offsetUnits i.hint off) size)

/-- The queue that an index field names (Table 5-9). -/
def indexQueue (x : BitVec 7) : Nat := if x = 76 ∨ x = 84 then 4 else 5

/-- Pop the index entry where the field pops (R58). -/
def popIndex (t : Team) (x : BitVec 7) : Team := if isPopField x then dropEtoA t (indexQueue x) else t

/-- GATHQ (R108, R112). -/
def execGathq (d : BitVec 6) (tn : BitVec 4) (x : BitVec 7) (sz : BitVec 2) (off : BitVec 6) (s : State) :
    Host.Outcome State Fault Refusal :=
  issue (.gathq d tn x sz off) plain s fun i t s => do
    queueCause t d.toNat (decide (d.toNat < 4))
    queueCause t (indexQueue x) true
    let idx ← headEtoA t (indexQueue x)
    let r := readT t tn.toNat
    let as := indexAddrs i t tn off (szBytes sz) idx (t.live &&& ~~~idx.void)
    let (s', e) ← queueLoad s i t r as (szBytes sz) (modOf i.hint).1
    awaitRoom t d.toNat
    .ok (handGather (s'.modTeam i.wid fun t => popIndex t x) i.wid d.toNat e)

/-- Store the lanes of a data entry in ascending lane order (R111, R113). -/
def storeLanes (s : State) (i : Issue) (t : Team) (r : TReg) (ls : List Located) (size : Nat) (data : QEntry)
    (cls : BitVec 2) : State :=
  ls.foldl (fun s l => storeAt s i t r l size ((tabGetD 0 data.vals (l.lane.getD 0)).toNat % 2 ^ (8 * size)) cls false) s

/-- STQ (R108, R111). -/
def execStq (tn : BitVec 4) (x : BitVec 7) (sz : BitVec 2) (off : BitVec 6) (s : State) :
    Host.Outcome State Fault Refusal :=
  issue (.stq tn x sz off) plain s fun i t s => do
    queueCause t 7 true
    let data ← headEtoA t 7
    let va ← uniformAddr i t (coreWord s i.core) tn x sz off
    let r := readT t tn.toNat
    let as := laneAddrs t (data.written &&& ~~~data.void) va (szBytes sz)
    let (needs, ls) ← checkAll s i.core t.info.ctx r (t.wasDeclined i.stream) as (szBytes sz) .queueWrite
    checkRaces s i.wid t ls (szBytes sz) true
    awaitPages t i.stream [] needs
    .ok (storeLanes (s.modTeam i.wid fun t => dropEtoA t 7) i t r ls (szBytes sz) data (modOf i.hint).1)

/-- SCATQ (R108, R113): the index entry pops first, then the data entry. -/
def execScatq (tn : BitVec 4) (x : BitVec 7) (sz : BitVec 2) (off : BitVec 6) (s : State) :
    Host.Outcome State Fault Refusal :=
  issue (.scatq tn x sz off) plain s fun i t s => do
    queueCause t 7 true
    queueCause t (indexQueue x) true
    let idx ← headEtoA t (indexQueue x)
    let data ← headEtoA t 7
    let r := readT t tn.toNat
    let as := indexAddrs i t tn off (szBytes sz) idx (idx.written &&& data.written &&& ~~~idx.void &&& ~~~data.void)
    let (needs, ls) ← checkAll s i.core t.info.ctx r (t.wasDeclined i.stream) as (szBytes sz) .queueWrite
    checkRaces s i.wid t ls (szBytes sz) true
    awaitPages t i.stream [] needs
    .ok (storeLanes (s.modTeam i.wid fun t => dropEtoA (popIndex t x) 7) i t r ls (szBytes sz) data (modOf i.hint).1)

/-- QPUSH of the A-stream (R106, R114). -/
def execQpushA (d : BitVec 6) (a b : BitVec 7) (s : State) : Host.Outcome State Fault Refusal :=
  issue (.qpushA d a b) plain s fun i t s => do
    let q := d.toNat
    queueCause t q (decide (q < 4) || q == 6)
    let u ← sourceA i t (coreWord s i.core) a
    let v ← if q = 6 then .ok 0 else sourceA i t (coreWord s i.core) b
    waitWhile (t.gather.any (·.q = q)) (.queue q)
    awaitRoom t q
    let e : QEntry :=
      if q = 6 then uniformEntry u false
      else { vals := (maskLanes t.info.lanes t.live).foldl (fun m l =>
        tabSetD 0 m l (BitVec.ofNat 64 ((u.toNat + l * v.toNat) % 2 ^ 32))) [] }
    .ok (s.setTeam i.wid (pushAtoE t q e))

end Sys2Proof.Machine
end

