-- ==== Sys2Proof/Machine/Atomics.lean ====
section
/-!
DEFINITION. Machine/Atomics.lean: ATOM, ATOMQ and AGGADD (R152 to R157).
-/
namespace Sys2Proof.Machine

/-- The smaller or larger of two numbers of `w` bits, signed or not. -/
def atomicPick (signed isMax : Bool) (w a b : Nat) : Nat :=
  let less := if signed then decide ((BitVec.ofNat w a).toInt < (BitVec.ofNat w b).toInt) else decide (a < b)
  if less != isMax then a else b

/-- FADD of an atomic: FP32, to nearest-even, setting no flag (R153). -/
def atomicFadd (f : FpFmt) (a b : Nat) : Nat := (fpFinish f .rne false (fpAdd .rne (fpDecode f a) (fpDecode f b))).1

/-- The new value of an atomic on `w` bits (R153): none where CAS does not write. -/
def atomicNew (fn w old v c : Nat) : Option Nat :=
  match fn with
  | 0 => some ((old + v) % 2 ^ w)
  | 1 => some (old &&& v)
  | 2 => some (old ||| v)
  | 3 => some (old ^^^ v)
  | 4 => some (atomicPick true false w old v)
  | 5 => some (atomicPick true true w old v)
  | 6 => some (atomicPick false false w old v)
  | 7 => some (atomicPick false true w old v)
  | 8 => some v
  | 9 => if old = c then some v else none
  | _ => some (atomicFadd .f32 old v)

/-- The kind of an atomic access: an ADD of 8 bytes may name a trigger counter (R395). -/
def atomicKind (fn size : Nat) : AccessKind := if fn = 0 ∧ size = 8 then .counterAdd else .atomic

/-- Perform one atomic at its home and answer the old value (R153, R395). -/
def atomicAt (s : State) (i : Issue) (t : Team) (r : TReg) (l : Located) (size fn v c : Nat) : State × Nat :=
  let old := loadNat s l size
  if isAperture l.pa then (raiseCounter (advanceGen s i.wid) l.pa v, old)
  else
    let (cls, ord, scope) := modOf i.hint
    (performAtomic s i.wid t r l size (atomicNew fn (8 * size) old v c) cls ord scope, old)

/-- What a release atomic does before it is performed (R158, R252). -/
def atomicRelease (s : State) (i : Issue) : State :=
  let (_, ord, scope) := modOf i.hint
  if bit ord 1 && scope != 0 then
    let s := advanceGen s i.wid
    if scope == 5 then s.modTeam i.wid cleanStash else s
  else s

/-- The waits of an atomic that has passed its checks: its pages, and a system-scope release's acknowledgements (R158). -/
def atomicWaits (i : Issue) (t : Team) (needs : List PageNeed) : Act Unit := do
  awaitPages t i.stream [] needs
  let (_, ord, scope) := modOf i.hint
  if bit ord 1 && scope != 0 then awaitAcks t scope

/-- ATOM (R152, R153). -/
def execAtom (d : BitVec 6) (tn : BitVec 4) (x : BitVec 7) (sz : BitVec 2) (f : BitVec 4) (s : State) :
    Host.Outcome State Fault Refusal :=
  issue (.atom d tn x sz f) plain s fun i t s => do
    let size := szBytes sz
    let m := 2 ^ (8 * size)
    let idx ← sourceA i t (coreWord s i.core) x
    let v := (← readS t d.toNat).toNat % m
    let c ← if f = 9 then readS t (d.toNat + 1) else .ok 0
    let c := c.toNat % m
    let r := readT t tn.toNat
    let va := formAddr r idx.toNat (functionUnits i.hint) size
    let (needs, ls) ← checkAll s i.core t.info.ctx r (t.wasDeclined i.stream) [(none, va)] size (atomicKind f.toNat size)
    let writes := match ls with | l :: _ => (atomicNew f.toNat (8 * size) (loadNat s l size) v c).isSome | [] => true
    checkRaces s i.wid t ls size writes
    atomicWaits i t needs
    match ls with
    | [] => .ok s
    | l :: _ =>
      let s := if writes then atomicRelease s i else s
      let (s, old) := atomicAt s i t r l size f.toNat v c
      match s.team? i.wid with
      | none => .ok s
      | some t => do
        let t ← writeS t d.toNat (BitVec.ofNat 64 old)
        .ok (s.setTeam i.wid t)

/-- The result queue of ATOMQ or AGGADD is ready to take an entry (R152, R156); 7 returns nothing. -/
def awaitResult (t : Team) (q : Nat) : Act Unit := do
  if q = 7 then .ok ()
  else
    waitWhile (t.gather.any (·.q = q)) (.queue q)
    awaitRoom t q

/-- The causes of naming a result queue (R152). -/
def resultCause (t : Team) (q : Nat) (uniform : Bool) : Act Unit :=
  if q = 7 then .ok () else queueCause t q (decide (q < 4) || (uniform && q == 6))

/-- Perform the lanes' atomics in ascending lane order; answers the old values by lane (R154, R156). -/
def atomicLanes (s : State) (i : Issue) (t : Team) (r : TReg) (ls : List Located) (fn : Nat) (v c : QEntry) :
    State × Tab DWord :=
  ls.foldl (fun acc l =>
    let lane := l.lane.getD 0
    let (s, old) := atomicAt acc.1 i t r l 4 fn ((tabGetD 0 v.vals lane).toNat % 2 ^ 32) ((tabGetD 0 c.vals lane).toNat % 2 ^ 32)
    (s, tabSetD 0 acc.2 lane (BitVec.ofNat 64 old))) (s, [])

/-- ATOMQ (R152, R154, R156). -/
def execAtomq (d : BitVec 6) (tn : BitVec 4) (x : BitVec 7) (sz : BitVec 2) (f : BitVec 4) (s : State) :
    Host.Outcome State Fault Refusal :=
  issue (.atomq d tn x sz f) plain s fun i t s => do
    resultCause t d.toNat false
    queueCause t (indexQueue x) true
    queueCause t 7 true
    let idx ← headEtoA t (indexQueue x)
    let v ← headEtoA t 7
    let c ← if f = 9 then headEtoA t 7 1 else .ok {}
    let r := readT t tn.toNat
    let mask := t.live &&& ~~~idx.void &&& ~~~v.void &&& ~~~c.void
    let as := (maskLanes t.info.lanes mask).map fun l =>
      (some l, formAddr r ((tabGetD 0 idx.vals l).toNat % 2 ^ 32) (functionUnits i.hint) 4)
    let (needs, ls) ← checkAll s i.core t.info.ctx r (t.wasDeclined i.stream) as 4 .atomic
    checkRaces s i.wid t ls 4 true
    atomicWaits i t needs
    awaitResult t d.toNat
    let s := atomicRelease s i
    let (s, olds) := atomicLanes s i t r ls f.toNat v c
    .ok (s.modTeam i.wid fun t =>
      let t := dropEtoA (popIndex t x) 7
      let t := if f = 9 then dropEtoA t 7 else t
      if d = 7 then t else pushAtoE t d.toNat { vals := olds })

/-- The running sums of AGGADD before each lane, and the total (R155). -/
def aggSums (t : Team) (e : QEntry) (one : Bool) : Tab DWord × Nat :=
  (maskLanes t.info.lanes t.live).foldl (fun acc l =>
    let inc := if bit e.void l then 0 else if one then 1 else (tabGetD 0 e.vals l).toNat % 2 ^ 32
    (acc.1 ++ [(l, BitVec.ofNat 64 acc.2)], acc.2 + inc)) ([], 0)

/-- AGGADD and AGGADD.ONE (R152, R155, R156). -/
def aggregate (ins : Instr) (d : BitVec 6) (tn : BitVec 4) (x : BitVec 7) (sz : BitVec 2) (one : Bool) (s : State) :
    Host.Outcome State Fault Refusal :=
  issue ins plain s fun i t s => do
    let size := szBytes sz
    resultCause t d.toNat true
    queueCause t (indexQueue x) true
    let e ← headEtoA t (indexQueue x)
    let r := readT t tn.toNat
    let va := formAddr r 0 (functionUnits i.hint) size
    let (needs, ls) ← checkAll s i.core t.info.ctx r (t.wasDeclined i.stream) [(none, va)] size .atomic
    checkRaces s i.wid t ls size true
    atomicWaits i t needs
    awaitResult t d.toNat
    match ls with
    | [] => .ok s
    | l :: _ =>
      let (bases, total) := aggSums t e one
      let s := atomicRelease s i
      let (s, old) := atomicAt s i t r l size 0 (total % 2 ^ (8 * size)) 0
      .ok (s.modTeam i.wid fun t =>
        let t := popIndex t x
        if d = 7 then t
        else if d = 6 then pushAtoE t 6 (uniformEntry (BitVec.ofNat 64 old) false)
        else pushAtoE t d.toNat { vals := bases.foldl (fun m b =>
          tabSetD 0 m b.1 (BitVec.ofNat 64 ((old + b.2.toNat) % 2 ^ 32))) [] })

/-- AGGADD (R155). -/
def execAggadd (d : BitVec 6) (tn : BitVec 4) (x : BitVec 7) (sz : BitVec 2) : State → Host.Outcome State Fault Refusal :=
  aggregate (.aggadd d tn x sz) d tn x sz false

/-- AGGADD.ONE (R155). -/
def execAggaddOne (d : BitVec 6) (tn : BitVec 4) (x : BitVec 7) (sz : BitVec 2) : State → Host.Outcome State Fault Refusal :=
  aggregate (.aggaddOne d tn x sz) d tn x sz true

end Sys2Proof.Machine
end

