-- ==== Sys2Proof/Machine/EngineMem.lean ====
section
/-!
DEFINITION. Machine/EngineMem.lean: the accesses of engines and of firmware to virtual memory, outside race checking (R236),
with their page requests, and the causes that work of a team meets and holds (R428, R429).
-/
namespace Sys2Proof.Machine

/-- What the pages of an engine's access give: the cause it meets, the pages it must wait for, or neither. -/
inductive Probe where
  | cause (c : Nat)
  | wait (needs : List PageNeed)
  | ready
  deriving DecidableEq, Repr

/-- An engine's access to a range meets an uncorrectable sector (R442, R443): a read of any byte of it, or a write of a part. -/
def badRange (s : State) (core ctx : Nat) (write : Bool) (r : Nat × Nat) : Bool :=
  !s.dev.bad.isEmpty && (partsOf 64 r.1 r.2).any fun p =>
    match xlate s core ctx p.1 with
    | .hit _ pa => s.dev.bad.contains (pa / 64) && !(write && p.2 == 64)
    | _ => false

/-- Probe the ranges of an engine's access; an address of 2^57 or more has no mapping (assumption 14). -/
def engineProbe (s : State) (core ctx : Nat) (who : Requester) (rs : List (Nat × Nat)) (write : Bool) (types : BitVec 8) :
    Probe :=
  if rs.any fun r => decide (2 ^ 57 < r.1 + r.2) then .cause 0x081 else
  let ps := rs.map fun r => probeRange s core ctx r.1 r.2 write types
  match highest memCauseOrder (ps.filterMap (·.1)) with
  | some c => .cause c
  | none =>
    match ps.flatMap (·.2) with
    | [] => if rs.any (badRange s core ctx write) then .cause 0x0C1 else .ready
    | needs => if wasRefused s who needs then .cause 0x081 else .wait needs

/-- Request the pages that an engine of a core waits for (R232). -/
def engineWait (s : State) (core ctx node : Nat) (who : Requester) (needs : List PageNeed) : State :=
  needs.foldl (fun s n => requestPage s core ctx node who n) s

/-- Little-endian bytes at a virtual address. -/
def virtNat (s : State) (core ctx a n : Nat) : Nat := leNat (readVirt s core ctx a n)

/-- The sectors that ranges touch, each once. -/
def rangeSectors (rs : List (Nat × Nat)) : List Nat :=
  (rs.flatMap fun r => (List.range ((r.1 + r.2 + 63) / 64 - r.1 / 64)).map fun k => r.1 / 64 + k).eraseDups

/-- The look-aside buffers and the L2 tables after an engine has read ranges (R225, R230). -/
def engineTouch (s : State) (acc : Accessor) (core ctx : Nat) (rs : List (Nat × Nat)) (cls : BitVec 2) : State :=
  (rangeSectors rs).foldl (fun s k =>
    let s := xlateFill s core ctx (64 * k)
    match xlate s core ctx (64 * k) with
    | .hit l pa => physTouchRead s acc pa l.attr cls false
    | _ => s) s

/-- Hold a cause for a team (R428, R429): a team holds at most 64. -/
def holdCause (t : Team) (p : PendCause) : Team :=
  if t.terminated then t else if t.pend.length < 64 then { t with pend := t.pend ++ [p] } else t

end Sys2Proof.Machine
end

