-- ==== Sys2Proof/Machine/Pecan.lean ====
section
/-!
DEFINITION. Machine/Pecan.lean: Pecan-packed tiles (R25 to R29): the header, the three bit streams, the checks of Table 2-6
and the expanded elements.
-/
namespace Sys2Proof.Machine

/-- Exponent and raw widths of a format in Pecan packing (Table 2-3); none where the table gives none. -/
def pecanWidths (code : Nat) : Option (Nat × Nat) :=
  match code with
  | 1 => some (8, 8) | 2 => some (5, 11) | 3 => some (4, 4) | 4 => some (5, 3) | 5 => some (2, 2) | 8 => some (0, 2)
  | _ => none

/-- The header of a tile (Table 2-5). -/
structure PecanHead where
  magic : Nat
  fmt : Nat
  n : Nat
  escapes : Nat
  dict : List Nat
  len : Nat
  crc : Nat
  deriving DecidableEq, Repr

/-- Byte `i` of a list, 0 beyond it. -/
def byteAt (bs : List Byte) (i : Nat) : Nat := (bs.getD i 0).toNat

/-- Read the header of a tile. -/
def pecanHead (bs : List Byte) : PecanHead :=
  { magic := byteAt bs 0, fmt := byteAt bs 1, n := byteAt bs 2, escapes := byteAt bs 4 + 256 * byteAt bs 5,
    dict := (List.range 16).map fun j => byteAt bs (6 + j), len := byteAt bs 22 + 256 * byteAt bs 23,
    crc := byteAt bs 24 + 256 * byteAt bs 25 }

/-- One step of the CRC-16 of R28 for a bit. -/
def crcBit (c : Nat) (b : Bool) : Nat :=
  let x := c * 2 % 65536
  if decide (32768 ≤ c) != b then x ^^^ 0x1021 else x

/-- CRC-16 with polynomial 0x1021 and initial value 0xFFFF (R28). -/
def crc16 (bs : List Byte) : Nat :=
  bs.foldl (fun c b => (List.range 8).foldl (fun c i => crcBit c (bit b (7 - i))) c) 0xFFFF

/-- The width of a dictionary index: ceil(log2 n) (R27). -/
def indexWidth (n : Nat) : Nat := if n ≤ 1 then 0 else Nat.log2 (n - 1) + 1

/-- Payload bytes of the escape list (R27). -/
def escapeBytes (c ew : Nat) : Nat := (c * (13 + ew) + 7) / 8

/-- The bits of a field of `w` bits, number `e`, in a stream held as a little-endian number. -/
def streamField (x w e : Nat) : Nat := x / 2 ^ (w * e) % 2 ^ w

/-- The first header field that cause 0x121 finds wrong, by its first byte (Table 2-6). -/
def pecanBadField (h : PecanHead) (head : List Byte) : Option Nat :=
  match pecanWidths h.fmt with
  | none => some 1
  | some (ew, _) =>
    if h.n = 0 ∨ 16 < h.n ∨ (h.fmt = 8 ∧ h.n ≠ 1) then some 2
    else if byteAt head 3 ≠ 0 then some 3
    else match (List.range h.n).find? fun j => decide (2 ^ ew ≤ h.dict.getD j 0) with
      | some j => some (6 + j)
      | none => (List.range 6).findSome? fun k => if byteAt head (26 + k) ≠ 0 then some (26 + k) else none

/-- The lower of two offending bytes with its cause. -/
def firstOffence (a b : Option (Nat × Nat)) : Option (Nat × Nat) :=
  match a, b with
  | some x, some y => some (if x.2 ≤ y.2 then x else y)
  | some x, none => some x
  | none, y => y

/-- Check a tile (R29): `head` its 32 header bytes, `pay` its payload, `seg` bits [5:0] of its segment-table entry. Either
one cause with its byte offset, or the bits of its 8,192 elements (R28). -/
def pecanTile (head pay : List Byte) (seg : Nat) : Except (Nat × Nat) (List Nat) :=
  let h := pecanHead head
  if h.magic ≠ 0xA7 then .error (0x120, 0) else
  match pecanBadField h head with
  | some o => .error (0x121, o)
  | none =>
    let (ew, rw) := (pecanWidths h.fmt).getD (0, 0)
    let iw := indexWidth h.n
    if h.len ≠ 1024 * iw + 1024 * rw + escapeBytes h.escapes ew ∨ (32 + h.len + 63) / 64 % 64 ≠ seg then .error (0x122, 22)
    else if crc16 (head.take 24 ++ (head.drop 26).take 6 ++ pay) ≠ h.crc then .error (0x125, 24)
    else
      let idx := leNat (pay.take (1024 * iw))
      let raw := leNat ((pay.drop (1024 * iw)).take (1024 * rw))
      let esc := leNat (pay.drop (1024 * (iw + rw)))
      let escBase := 32 + 1024 * (iw + rw)
      let ew' := 13 + ew
      let pos := fun j => streamField esc ew' j % 8192
      let badCount := if 8192 < h.escapes ∨ (h.fmt = 8 ∧ h.escapes ≠ 0) then some (0x124, 4) else none
      let badOrder := ((List.range h.escapes).find? fun j => decide (0 < j) && decide (pos j ≤ pos (j - 1))).map
        fun j => (0x124, escBase + ew' * j / 8)
      let escaped := (List.range h.escapes).map fun j => (pos j, streamField esc ew' j / 8192)
      let badIndex := ((List.range 8192).find? fun e =>
        decide (h.n ≤ streamField idx iw e) && !(escaped.any fun p => p.1 = e)).map fun e => (0x123, 32 + iw * e / 8)
      let badCode := if h.fmt = 8 then ((List.range 8192).find? fun e => streamField raw rw e = 2).map
        fun e => (0x126, 32 + 1024 * iw + rw * e / 8) else none
      match firstOffence (firstOffence badCount badOrder) (firstOffence badIndex badCode) with
      | some c => .error c
      | none => .ok ((List.range 8192).map fun e =>
          let r := streamField raw rw e
          if h.fmt = 8 then r else
          let m := rw - 1
          let x := match escaped.find? fun p => p.1 = e with
            | some p => p.2
            | none => h.dict.getD (streamField idx iw e) 0
          r / 2 ^ m * 2 ^ (ew + m) + x * 2 ^ m + r % 2 ^ m)

end Sys2Proof.Machine
end

