-- ==== Sys2Proof/Machine/LatticeOps.lean ====
section
/-!
DEFINITION. Machine/LatticeOps.lean: tile handles and descriptors (R171 to R173), operand words and planes (R169, R179), the
elements of operands in memory and in scratch, and the sums of the Lattice (R38, R170).
-/
namespace Sys2Proof.Machine

/-! ## Modes (Table 8-1) -/

/-- Bytes of a weight plane in scratch (R169). -/
def planeBytes (mode : Nat) : Nat := match mode with | 0 => 16384 | 1 => 16384 | 4 => 4096 | 6 => 2048 | _ => 8192

/-- Bytes of an activation row in scratch (R169). -/
def rowBytes (mode : Nat) : Nat := match mode with | 0 => 256 | 1 => 256 | 4 => 64 | _ => 128

/-- The mode takes MX scales. -/
def isMx (mode : Nat) : Bool := mode == 3 || mode == 4

/-- The mode adds integers. -/
def isIntMode (mode : Nat) : Bool := mode == 5 || mode == 6

/-- The element format of a plane (`weights`) or of activations, by mode and fn[3] (R168). -/
def modeFmt (mode : Nat) (sel weights : Bool) : Nat :=
  match mode with
  | 0 => 1 | 1 => 2 | 2 => if sel then 4 else 3 | 3 => if sel then 4 else 3 | 4 => 5 | 5 => 6
  | _ => if weights then 8 else 6

/-- The bits of an element of a format code; 0 for a reserved code. -/
def fmtBits (code : Nat) : Nat := ((descKind code).map DescKind.bits).getD 0

/-! ## Handles and descriptors -/

/-- The causes of 0x100 of a memory handle (Table 8-2): `isA` for an A operand, `ndesc` the descriptors of the table. -/
def memHandleBad (isA : Bool) (ndesc : Nat) (h : DWord) : Bool :=
  let ks := bitsOf h.toNat 63 56
  bitsOf h.toNat 15 12 != 0 || decide (ndesc ≤ bitsOf h.toNat 11 0) || (if isA then ks == 0 else ks != 0)

/-- The cause of 0x100 of an AM handle (Table 8-2). -/
def amHandleBad (h : DWord) : Bool := bitsOf h.toNat 63 4 != 0x100

/-- The packings and element formats that a mode takes for an operand (Table 8-1). -/
def modeTakes (mode : Nat) (isA : Bool) (pack fmt : Nat) : Bool :=
  let plain := fun (fs : List Nat) => fs.contains fmt
  match mode, isA, pack with
  | 0, _, 0 => plain [1]
  | 1, _, 0 => plain [2]
  | 2, _, 0 => plain [3, 4]
  | 5, _, 0 => plain [6]
  | 6, true, 0 => plain [6]
  | 6, false, 0 => plain [8]
  | 0, false, 2 => plain [1]
  | 1, false, 2 => plain [2]
  | 2, false, 2 => plain [3, 4]
  | 6, false, 2 => plain [8]
  | 2, false, 1 => plain [3, 4, 5]
  | 5, false, 1 => plain [6, 7, 8]
  | 3, _, 3 => plain [3, 4]
  | 4, _, 3 => plain [5]
  | _, _, _ => false

/-- Resolve a handle with its 64 descriptor bytes and the launch argument words (Table 8-3): none is cause 0x101. -/
def resolveTile (mode : Nat) (isA hasScratch : Bool) (args : List DWord) (h : DWord) (d : List Byte) : Option TileSrc :=
  let w := fun (k : Nat) => leNat ((d.drop (8 * k)).take 8)
  let w0 := w 0
  let scratch := bitsOf w0 5 5 = 1
  let fmt := bitsOf w0 15 8
  let pack := bitsOf w0 17 16
  let base := if scratch ∨ bitsOf w0 4 4 = 1 then 0 else (args.getD (bitsOf w0 3 0) 0).toNat
  if bitsOf w0 7 6 ≠ 0 ∨ bitsOf w0 63 20 ≠ 0 ∨ w 6 ≠ 0 ∨ w 7 ≠ 0 ∨ 8 < fmt ∨ !modeTakes mode isA pack fmt ∨
      (scratch ∧ !hasScratch) then none
  else some { scratch := scratch, fmt := fmt, pack := pack, cls := BitVec.ofNat 2 (bitsOf w0 19 18),
              base := (base + w 1) % 2 ^ 64, aux := (base + w 4) % 2 ^ 64, stride := w 2, auxStride := w 5,
              rows := w 3 % 2 ^ 32, cols := w 3 / 2 ^ 32, i := bitsOf h.toNat 35 16, j := bitsOf h.toNat 55 36 }

/-- The origin of the tile of K step `s` (R173). -/
def TileSrc.origin (t : TileSrc) (isA : Bool) (s : Nat) : Nat × Nat :=
  if isA then (64 * t.i, 128 * (t.j + s)) else (128 * (t.i + s), 64 * t.j)

/-- A tile of some K step lies beyond the tensor: cause 0x102 (R173). -/
def TileSrc.beyond (t : TileSrc) (isA : Bool) (ks : Nat) : Bool :=
  (List.range ks).any fun s => decide (t.rows ≤ (t.origin isA s).1) || decide (t.cols ≤ (t.origin isA s).2)

/-- Where an element lies: the byte offset from the base, the bit in the byte, its format and scale. -/
structure Place where
  off : Nat
  bit : Nat
  fmt : Nat
  scale : Nat := 127
  deriving DecidableEq, Repr

/-- Walk the 64-byte blocks of a described row from byte offset `o` to column `c` (R22, R173): each block holds as many
elements as its own format packs (assumption 11). `rd` reads little-endian bytes. -/
def describedWalk (rd : Nat → Nat → Nat) (aux : Nat) : Nat → Nat → Nat → Place
  | 0, o, _ => { off := o, bit := 0, fmt := 255 }
  | fuel + 1, o, c =>
    let d := rd (aux + o / 64 * 2) 2
    let bits := fmtBits (d % 256)
    if bits = 0 then { off := o, bit := 0, fmt := 255 }
    else
      let room := (64 - o % 64) * 8 / bits
      if c < room then { off := o + c * bits / 8, bit := c * bits % 8, fmt := d % 256, scale := d / 256 }
      else describedWalk rd aux fuel ((o / 64 + 1) * 64) (c - room)

/-- Where element (y, x) of a plain, described or MX operand lies (R173). -/
def TileSrc.place (t : TileSrc) (isA : Bool) (rd : Nat → Nat → Nat) (y x : Nat) : Place :=
  if t.pack = 1 then describedWalk rd t.aux (x / 16 + 2) (y * t.stride) x
  else
    let bits := fmtBits t.fmt
    let scale :=
      if t.pack = 3 then
        rd (if isA then t.aux + y * t.auxStride + x / 32 else t.aux + y / 32 * t.auxStride + x) 1
      else 127
    { off := y * t.stride + x * bits / 8, bit := x * bits % 8, fmt := t.fmt, scale := scale }

/-- The elements (y, x) of the tile of a K step, in row order; none where they lie beyond the tensor. -/
def TileSrc.grid (t : TileSrc) (isA : Bool) (s : Nat) : List (Option (Nat × Nat)) :=
  let o := t.origin isA s
  let (h, w) := if isA then (64, 128) else (128, 64)
  (List.range (h * w)).map fun e =>
    let y := o.1 + e / w
    let x := o.2 + e % w
    if y < t.rows ∧ x < t.cols then some (y, x) else none

/-- The segment-table entry's address and index of the Pecan tile of a K step (R173). -/
def TileSrc.segment (t : TileSrc) (s : Nat) : Nat × Nat :=
  let idx := (t.i + s) * ((t.cols + 63) / 64) + t.j
  (t.aux + 4 * idx, idx)

/-- The byte ranges of a Pecan tile (R25): the segment entry at `a`, the header and the payload. -/
def pecanRanges (rd : Nat → Nat → Nat) (base a : Nat) : List (Nat × Nat) :=
  let p := base + rd a 4 / 64 * 64
  [(a, 4), (p, 32), (p + 32, rd (p + 22) 2)]

/-- The byte ranges that a K step of an operand reads (R173): elements, scales, descriptors, or the segment entry and the
packed tile. -/
def TileSrc.ranges (t : TileSrc) (isA : Bool) (s : Nat) (rd : Nat → Nat → Nat) : List (Nat × Nat) :=
  if t.pack = 2 then
    pecanRanges rd t.base (t.segment s).1
  else
    (t.grid isA s).flatMap fun g => match g with
      | none => []
      | some (y, x) =>
        let p := t.place isA rd y x
        let n := max 1 (fmtBits p.fmt / 8)
        let aux :=
          if t.pack = 1 then [(t.aux + p.off / 64 * 2, 2)]
          else if t.pack = 3 then [(if isA then t.aux + y * t.auxStride + x / 32 else t.aux + y / 32 * t.auxStride + x, 1)]
          else []
        (t.base + p.off, n) :: aux

/-- The formats that a described operand may hold in a mode (Table 8-1). -/
def describedTakes (mode fmt : Nat) : Bool := if mode = 5 then [6, 7, 8].contains fmt else [3, 4, 5].contains fmt

/-- The elements of the Pecan tile whose segment entry lies at `a`, or the cause with its byte offset (R25 to R29). -/
def pecanAt (rd : Nat → Nat → Nat) (fmt base a : Nat) : Except (Nat × Nat) (List Nat) :=
  let e := rd a 4
  let p := base + e / 64 * 64
  let head := natLe 32 (rd p 32)
  let h := pecanHead head
  if h.magic = 0xA7 ∧ h.fmt ≠ fmt then .error (0x121, 1) else pecanTile head (natLe h.len (rd (p + 32) h.len)) (e % 64)

/-- The elements of a K step of an operand, or the cause that its content gives (R170, R176, R29). -/
def TileSrc.elems (t : TileSrc) (mode : Nat) (isA : Bool) (s : Nat) (rd : Nat → Nat → Nat) :
    Except OperandCause (List Elem) :=
  if t.pack = 2 then
    let (a, idx) := t.segment s
    match pecanAt rd t.fmt t.base a with
    | .error (c, o) => .error { cause := c, seg := t.aux, tile := idx, off := o }
    | .ok es => .ok ((enum 0 (t.grid isA s)).map fun g =>
        match g.2 with
        | none => { fmt := t.fmt, bits := 0, absent := true }
        | some _ => { fmt := t.fmt, bits := es.getD g.1 0 })
  else
    let es := (t.grid isA s).map fun g => match g with
      | none => ({ fmt := t.fmt, bits := 0, absent := true } : Elem)
      | some (y, x) =>
        let p := t.place isA rd y x
        let bits := fmtBits p.fmt
        { fmt := p.fmt, bits := rd (t.base + p.off) (max 1 (bits / 8)) / 2 ^ p.bit % 2 ^ bits, scale := p.scale }
    let live := es.filter fun e => !e.absent
    if t.pack = 1 ∧ live.any (fun e => !describedTakes mode e.fmt) then .error { cause := 0x049 }
    else if t.pack = 1 ∧ mode = 5 ∧ live.any (fun e => e.scale != 127) then .error { cause := 0x04A }
    else if live.any fun e => e.fmt = 8 && e.bits = 2 then .error { cause := 0x048 }
    else .ok es

/-! ## Operand words and planes in scratch -/

/-- A byte of a team's scratch (unlisted 0). -/
def scratchByte (t : Team) (off : Nat) : Byte := tabGetD 0 t.scratch off

/-- Little-endian bytes of scratch. -/
def scratchNat (t : Team) (off n : Nat) : Nat := leNat ((List.range n).map fun k => scratchByte t (off + k))

/-- Write bytes to scratch. -/
def scratchWrite (t : Team) (off : Nat) (bs : List Byte) : Team :=
  { t with scratch := (enum 0 bs).foldl (fun m b => tabSetD 0 m (off + b.1) b.2) t.scratch }

/-- The fields of an operand word (R179): data offset, scale offset, row0 and row count. -/
def wordData (w : DWord) : Nat := bitsOf w.toNat 19 0
/-- Scale offset of an operand word. -/
def wordScale (w : DWord) : Nat := bitsOf w.toNat 59 40
/-- First row of an operand word. -/
def wordRow0 (w : DWord) : Nat := bitsOf w.toNat 25 20
/-- Row count of an operand word. -/
def wordRows (w : DWord) : Nat := bitsOf w.toNat 37 32 + 1

/-- Cause 0x106 of an operand word (R179): `size` data bytes and `scales` scale bytes must lie within scratch. -/
def wordBad (t : Team) (w : DWord) (size scales : Nat) : Bool :=
  bitsOf w.toNat 31 26 != 0 || bitsOf w.toNat 39 38 != 0 || bitsOf w.toNat 63 60 != 0 || wordData w % 128 != 0 ||
  wordScale w % 4 != 0 || decide (t.info.scratchBytes < wordData w + size) ||
  (scales != 0 && decide (t.info.scratchBytes < wordScale w + scales))

/-- The weights of a plane in scratch, by K row × 64 + N column (R169). -/
def planeElems (t : Team) (mode : BitVec 4) (w : DWord) : List Elem :=
  let m := (mode.extractLsb' 0 3).toNat
  let fmt := modeFmt m (bit mode 3) true
  let bits := fmtBits fmt
  (List.range 8192).map fun e =>
    let raw := scratchNat t (wordData w + e * bits / 8) (max 1 (bits / 8))
    { fmt := fmt, bits := raw / 2 ^ (e * bits % 8) % 2 ^ bits,
      scale := if isMx m then scratchNat t (wordScale w + 64 * (e / 64 / 32) + e % 64) 1 else 127 }

/-- Activation row `r` of an operand word (R169). -/
def rowElems (t : Team) (mode : BitVec 4) (w : DWord) (r : Nat) : List Elem :=
  let m := (mode.extractLsb' 0 3).toNat
  let fmt := modeFmt m (bit mode 3) false
  let bits := fmtBits fmt
  (List.range 128).map fun k =>
    let raw := scratchNat t (wordData w + r * rowBytes m + k * bits / 8) (max 1 (bits / 8))
    { fmt := fmt, bits := raw / 2 ^ (k * bits % 8) % 2 ^ bits,
      scale := if isMx m then scratchNat t (wordScale w + 4 * r + k / 32) 1 else 127 }

/-! ## Sums -/

/-- The exact value of an element: a scale of 0xFF gives NaN (R19). -/
def Elem.value (e : Elem) : Fp :=
  if e.scale = 255 then .nan false false
  else match descKind e.fmt with
    | some k => (k.value e.bits).scale ((e.scale : Int) - 127)
    | none => .nan false false

/-- The exact product of two factors (R38): an element beyond the tensor gives +0. -/
def elemProduct (a b : Elem) : Fp × FpFlags :=
  if a.absent || b.absent then (.fin false 0 0, 0)
  else
    let x := a.value
    let y := b.value
    if x.isNan || y.isNan then (.nan false false, sigFlag x ||| sigFlag y)
    else match fpMul x y with
      | some p => (p, 0)
      | none => (.nan false false, flagNV)

/-- One group of 8 products added to an FP32 accumulator and rounded once (R38). -/
def groupSum (acc : Word) (ps : List (Elem × Elem)) : Word × FpFlags :=
  let prods := ps.map fun p => elemProduct p.1 p.2
  let fl := prods.foldl (fun f p => f ||| p.2) 0
  let c := fpDecode .f32 acc.toNat
  if c.isNan || prods.any (fun p => p.1.isNan) then (0x7FC00000, fl)
  else
    let r := fpSum .rne (c :: prods.map (·.1))
    let y := fpRound .f32 .rne true r.1
    (BitVec.ofNat 32 y.1, fl ||| r.2 ||| y.2)

/-- The integer value of an element. -/
def Elem.int (e : Elem) : Int :=
  if e.absent then 0 else
  match e.fmt with
  | 8 => (match e.bits with | 1 => 1 | 3 => -1 | _ => 0)
  | f => signedOf (fmtBits f) e.bits

/-- One group of 8 integer products added to an INT32 accumulator with saturation (R38). -/
def groupSumInt (acc : Word) (ps : List (Elem × Elem)) : Word × FpFlags :=
  let x := acc.toInt + (ps.map fun p => p.1.int * p.2.int).sum
  (BitVec.ofInt 32 (max (-(2 ^ 31)) (min (2 ^ 31 - 1) x)), if x < -(2 ^ 31) ∨ 2 ^ 31 - 1 < x then flagSAT else 0)

/-- The 16 groups of a row for one column (R38, R170). -/
def columnSum (int : Bool) (acc : Word) (row : List Elem) (col : List Elem) : Word × FpFlags :=
  let ps := row.zip col
  (List.range 16).foldl (fun r g =>
    let group := (ps.drop (8 * g)).take 8
    let x := if int then groupSumInt r.1 group else groupSum r.1 group
    (x.1, r.2 ||| x.2)) (acc, 0)

/-- Add one row of activations into a row of an accumulator tile (R170). -/
def addRow (mode : Nat) (weights : List Elem) (r : Tab Word × FpFlags) (m : Nat) (row : List Elem) : Tab Word × FpFlags :=
  (List.range 64).foldl (fun r n =>
    let col := (List.range 128).map fun k => weights.getD (64 * k + n) { fmt := 0, bits := 0, absent := true }
    let x := columnSum (isIntMode mode) (tabGetD 0 r.1 (64 * m + n)) row col
    (tabSetD 0 r.1 (64 * m + n) x.1, r.2 ||| x.2)) r

/-- Add the rows of a landing into its tile. -/
def addRows (l : Landing) (data : Tab Word) : Tab Word × FpFlags :=
  (enum l.row0 l.rows).foldl (fun r p => addRow l.mode l.weights r p.1 p.2) (data, 0)

end Sys2Proof.Machine
end

