-- ==== Sys2Proof/Machine/Lattice.lean ====
section
/-!
DEFINITION. Machine/Lattice.lean: the Lattice instructions (R175 to R187): what they check and place at issue, the accumulator
tiles, and AMRD.
-/
namespace Sys2Proof.Machine

/-- An accumulator tile of a core (unlisted: free and zero). -/
def Core.tile (c : Core) (k : Nat) : AmTile := tabGetD {} c.lat.am k

/-- Replace an accumulator tile. -/
def Core.setTile (c : Core) (k : Nat) (x : AmTile) : Core := { c with lat := { c.lat with am := tabSetD {} c.lat.am k x } }

/-- The tiles that a team holds, ascending (AMCTL). -/
def heldTiles (c : Core) (wid : Nat) : List Nat := (List.range 16).filter fun k => (c.tile k).owner = some wid

/-- The tile that a command names, if it names one. -/
def LatOp.tile : LatOp → Option Nat
  | .mstream _ t _ => some t
  | .mtile _ _ _ _ t => some t
  | .amclr t => some t
  | .amld t _ => some t
  | .amst t _ => some t
  | _ => none

/-- The command writes the tile it names. -/
def LatOp.writesTile : LatOp → Bool
  | .amst .. => false
  | _ => true

/-- What a command that executes makes of the plane record (R178 to R180). -/
def LatOp.record (p : Planes) : LatOp → Planes
  | .mls m w => { p with shadow := some { mode := m, word := w } }
  | .mflip => { stationary := p.shadow, shadow := p.stationary }
  | _ => p

/-- The plane record as it will stand after the team's unstarted commands (R175, R180, R181). -/
def planesAfter (t : Team) : Planes := (t.lat.filter fun c => !c.started).foldl (fun p c => c.op.record p) t.planes

/-- A command of the team is incomplete (R187). -/
def latticeBusy (t : Team) : Bool := !t.lat.isEmpty

/-- The Lattice instructions of the A-stream raise the pending Lattice causes (R176, R429). -/
def latRaises (_ : Issue) (_ : Team) (p : PendCause) : Bool := p.kind == .lattice

/-- Place a checked command in the team's queue of 8 entries; it waits while the queue is full (R175). -/
def placeCommand (t : Team) (op : LatOp) (word : Word := 0) (vals : List DWord := []) : Act Team := do
  waitWhile (decide (8 ≤ (t.lat.filter fun c => !c.started).length)) (.lattice t.latSeq)
  .ok { t with lat := t.lat ++ [{ seq := t.latSeq, op := op, word := word, vals := vals }], latSeq := (t.latSeq + 1) % 2 ^ 32 }

/-- The accumulator tile that an AM handle names: 0x100 when it is malformed, 0x103 when the team does not hold it
(R171, R181). -/
def heldTile (s : State) (i : Issue) (h : DWord) : Act Nat := do
  raiseIf (amHandleBad h) 0x100
  let k := h.toNat % 16
  raiseIf ((s.core i.core).tile k |>.owner |> (· != some i.wid)) 0x103
  .ok k

/-- The checks of MLS (R179). -/
def checkMls (t : Team) (m : BitVec 4) (w : DWord) : Act LatOp := do
  let mode := (m.extractLsb' 0 3).toNat
  raiseIf (wordBad t w (planeBytes mode) (if isMx mode then 256 else 0)) 0x106
  .ok (.mls m w)

/-- The checks of MSTREAM (R181). -/
def checkMstream (s : State) (i : Issue) (t : Team) (m : BitVec 4) (h w : DWord) : Act LatOp := do
  let mode := (m.extractLsb' 0 3).toNat
  raiseIf (amHandleBad h) 0x100
  raiseIf (wordBad t w (wordRows w * rowBytes mode) (if isMx mode then 4 * wordRows w else 0)) 0x106
  raiseIf (decide (64 < wordRow0 w + wordRows w)) 0x102
  let k ← heldTile s i h
  raiseIf (!((planesAfter t).stationary.any fun p => (p.mode.extractLsb' 0 3).toNat == mode)) 0x105
  .ok (.mstream m k w)

/-- The checks of AMLD and AMST: the handle and the operand word (R179, R185). -/
def checkAmCopy (s : State) (i : Issue) (t : Team) (h w : DWord) (op : Nat → DWord → LatOp) : Act LatOp := do
  raiseIf (amHandleBad h) 0x100
  raiseIf (wordBad t w 16384 0) 0x106
  let k ← heldTile s i h
  .ok (op k w)

/-- MLS (R168, R169, R179). -/
def execMls (a : BitVec 7) (m : BitVec 4) (s : State) : Host.Outcome State Fault Refusal :=
  issue (.mls a m) latRaises s fun i t s => do
    let w ← sourceA i t (coreWord s i.core) a
    let op ← checkMls t m w
    let t ← placeCommand t op (encode (.mls a m)) [w]
    .ok (s.setTeam i.wid t)

/-- MFLIP (R180). -/
def execMflip (s : State) : Host.Outcome State Fault Refusal :=
  issue .mflip latRaises s fun i t s => do
    raiseIf (planesAfter t).shadow.isNone 0x105
    let t ← placeCommand t .mflip (encode .mflip)
    .ok (s.setTeam i.wid t)

/-- MSTREAM (R181). -/
def execMstream (a b : BitVec 7) (m : BitVec 4) (s : State) : Host.Outcome State Fault Refusal :=
  issue (.mstream a b m) latRaises s fun i t s => do
    let h ← sourceA i t (coreWord s i.core) a
    let w ← sourceA i t (coreWord s i.core) b
    let op ← checkMstream s i t m h w
    let t ← placeCommand t op (encode (.mstream a b m)) [h, w]
    .ok (s.setTeam i.wid t)

/-- The 64 bytes of descriptor `n` of a kernel's table, at offset 0 of its constant space (R172). -/
def kernelDescriptor (t : Team) (n : Nat) : List Byte :=
  (List.range 64).map fun k => tabGetD 0 t.info.kernel.const (64 * n + k)

/-- A scratch operand reads a byte outside the team's scratch in some K step: cause 0x086 (R173). -/
def TileSrc.outside (x : TileSrc) (t : Team) (isA : Bool) (ks : Nat) : Bool :=
  x.scratch && (List.range ks).any fun st =>
    (x.ranges isA st (scratchNat t)).any fun r => decide (t.info.scratchBytes < r.1 + r.2)

/-- MTILE (R171 to R173, R182): the checks in the order of those rules, then 0x103. -/
def execMtile (d : BitVec 6) (a b : BitVec 7) (m : BitVec 3) (s : State) : Host.Outcome State Fault Refusal :=
  issue (.mtile d a b m) latRaises s fun i t s => do
    let ha ← sourceA i t (coreWord s i.core) a
    let hb ← sourceA i t (coreWord s i.core) b
    let hc ← readS t d.toNat
    let n := t.info.kernel.ntiles
    raiseIf (amHandleBad hc || memHandleBad true n ha || memHandleBad false n hb) 0x100
    let ks := bitsOf ha.toNat 63 56
    let desc := fun (isA : Bool) (h : DWord) =>
      resolveTile m.toNat isA true t.info.args h (kernelDescriptor t (bitsOf h.toNat 11 0))
    match desc true ha, desc false hb with
    | some sa, some sb =>
      raiseIf (sa.beyond true ks || sb.beyond false ks) 0x102
      raiseIf (sa.outside t true ks || sb.outside t false ks) 0x086
      let k ← heldTile s i hc
      let t ← placeCommand t (.mtile m.toNat sa sb ks k) (encode (.mtile d a b m)) [ha, hb, hc]
      .ok (s.setTeam i.wid t)
    | _, _ => raise 0x101

/-- AMALLOC (R184): the lowest free tile of team space, zeroed. -/
def execAmalloc (d : BitVec 6) (s : State) : Host.Outcome State Fault Refusal :=
  issue (.amalloc d) latRaises s fun i t s => do
    let c := s.core i.core
    let _ ← t.a.win.reg 256 d.toNat
    raiseIf (decide (t.info.amq ≤ (heldTiles c i.wid).length)) 0x104
    match (List.range (16 - c.ttiles)).find? fun k => (c.tile k).owner.isNone with
    | none => waitOn .amalloc
    | some k =>
      let t ← writeS t d.toNat (BitVec.ofNat 64 (0x1000 + k))
      .ok ((s.setCore i.core (c.setTile k { owner := some i.wid })).setTeam i.wid t)

/-- AMFREE (R184). -/
def execAmfree (a : BitVec 7) (s : State) : Host.Outcome State Fault Refusal :=
  issue (.amfree a) latRaises s fun i t s => do
    let h ← sourceA i t (coreWord s i.core) a
    let k ← heldTile s i h
    waitWhile (t.lat.any fun c => c.op.tile == some k) (.lattice t.latSeq)
    .ok (s.setCore i.core ((s.core i.core).setTile k {}))

/-- AMCLR (R185). -/
def execAmclr (a : BitVec 7) (s : State) : Host.Outcome State Fault Refusal :=
  issue (.amclr a) latRaises s fun i t s => do
    let h ← sourceA i t (coreWord s i.core) a
    let k ← heldTile s i h
    let t ← placeCommand t (.amclr k) (encode (.amclr a)) [h]
    .ok (s.setTeam i.wid t)

/-- AMLD and AMST at issue: the handle and the operand word (R179, R185). -/
def amCopy (x : Instr) (a b : BitVec 7) (op : Nat → DWord → LatOp) (s : State) : Host.Outcome State Fault Refusal :=
  issue x latRaises s fun i t s => do
    let h ← sourceA i t (coreWord s i.core) a
    let w ← sourceA i t (coreWord s i.core) b
    let c ← checkAmCopy s i t h w op
    let t ← placeCommand t c (encode x) [h, w]
    .ok (s.setTeam i.wid t)

/-- AMLD (R185). -/
def execAmld (a b : BitVec 7) : State → Host.Outcome State Fault Refusal := amCopy (.amld a b) a b .amld

/-- AMST (R185). -/
def execAmst (a b : BitVec 7) : State → Host.Outcome State Fault Refusal := amCopy (.amst a b) a b .amst

/-- MWAIT (R187). -/
def execMwait (a : BitVec 7) (s : State) : Host.Outcome State Fault Refusal :=
  issue (.mwait a) latRaises s fun i t s => do
    let n ← sourceA i t (coreWord s i.core) a
    waitWhile (decide (n.toNat < t.lat.length)) (.lattice t.latSeq)
    .ok s

/-- A command of the team that writes the tile is executing: it runs, or its sums are landing (R186). -/
def tileWriting (c : Core) (t : Team) (wid k : Nat) : Bool :=
  (c.lat.run == some (.team wid) && t.lat.any fun x => x.started && x.op.writesTile && x.op.tile == some k) ||
  c.lat.landing.any fun l => l.item == .team wid && l.tile == k

/-- AMRD (R186): 0x103 in any lane, then 0x102, before anything is written; it waits for a running command that writes a
tile it reads. -/
def execAmrd (n : BitVec 1) (d : BitVec 6) (a b : BitVec 7) (r : BitVec 2) (s : State) : Host.Outcome State Fault Refusal :=
  let core := fun (i : Issue) => s.core i.core
  vOp (.amrd n d a b r) n d [(a, .int), (b, .int)] false 7 (fun i t o => do
    let c := core i
    let k := fun l => (o.arg 0 l).toNat % 16
    laneCause o 0x103 fun l => (c.tile (k l)).owner != some i.wid
    laneCause o 0x102 fun l => decide (4096 ≤ (o.arg 1 l).toNat)
    waitWhile (o.lanes.any fun l => tileWriting c t i.wid (k l)) (.lattice t.latSeq)
    .ok (eachLane o fun l =>
      let x := tabGetD 0 (c.tile (k l)).data (o.arg 1 l).toNat
      if r = 0 then (x, 0)
      else
        let v := fpDecode .f32 x.toNat
        let y := fpRound (if r = 1 then .bf16 else .f16) .rne true v
        (BitVec.ofNat 32 y.1, y.2 ||| sigFlag v))) s

end Sys2Proof.Machine
end

