-- ==== Sys2Proof/Machine/LatticeRun.lean ====
section
/-!
DEFINITION. Machine/LatticeRun.lean: how Lattice commands and tile tasks run: the sequencer's choice (R177), execution (R175,
R178), operand fetch and staging (R326, R458), K steps (R182) and the ends of commands and tasks (R176, R351).
-/
namespace Sys2Proof.Machine

/-- Replace the Lattice of a core. -/
def State.setLat (s : State) (c : Nat) (l : Lattice) : State := s.setCore c { s.core c with lat := l }

/-- The rank of an item (R177). -/
def itemRank (s : State) (x : LatItem) : Nat :=
  match x with
  | .team w => ((s.team? w).map (·.info.rank)).getD 0
  | .task t => t.rank

/-- The oldest command of a team. -/
def oldestCommand (s : State) (wid : Nat) : Option LatCmd := (s.team? wid).bind (·.lat.head?)

/-- The same item: a team, or a tile task by its push order. -/
def sameItem (a b : LatItem) : Bool :=
  match a, b with
  | .team x, .team y => x == y
  | .task x, .task y => x.stamp == y.stamp
  | _, _ => false

/-- The head of the core's Lattice leaf, when it is a tile task. -/
def latticeHead (s : State) (core : Nat) : Option (LeafItem × TileTask) :=
  match leafHead s.now (s.leaf (leafId 1 core)) with
  | some x => match x.work with
    | .tile t => some (x, { t with rank := x.rank, stamp := x.stamp })
    | _ => none
  | none => none

/-- The item is a tile task. -/
def LatItem.isTask : LatItem → Bool
  | .task _ => true
  | .team _ => false

/-- The candidates of a decision in the order of their preference among equal ranks (R177): items held aside, the head of
the leaf, then teams by slot. No tile task starts during an L2 mode switch (R391). -/
def candidates (s : State) (core : Nat) : List LatItem :=
  let off := s.dev.l2Next.isSome
  let held := (s.core core).lat.held.filter fun x => !(off && x.isTask)
  let leaf := if off then [] else match latticeHead s core with | some (_, t) => [LatItem.task t] | none => []
  let teams := ((List.range 16).filter fun k =>
    (oldestCommand s (core * 16 + k)).any fun c => !c.started && c.after.isNone).map fun k => LatItem.team (core * 16 + k)
  held ++ leaf ++ teams

/-- The first item of least rank. -/
def bestItem (s : State) : List LatItem → Option LatItem
  | [] => none
  | x :: xs => some (xs.foldl (fun b y => if itemRank s y < itemRank s b then y else b) x)

/-- The sequencer takes an item: from those held aside, from the leaf, or a team's command. -/
def takeLatItem (s : State) (core : Nat) (x : LatItem) : State :=
  let l := (s.core core).lat
  let heldBefore := l.held.any (sameItem x)
  let s := s.setLat core { l with run := some x, boundary := false, buf := [], held := l.held.filter fun y => !sameItem x y }
  match x, heldBefore with
  | .task _, false => match latticeHead s core with
    | some (i, _) => takeItem s (leafId 1 core) i
    | none => s
  | _, _ => s

/-- SEQUENCER_DECISION (R177, R421). -/
def sequencerDecision (s : State) (core : Nat) : State :=
  let l := (s.core core).lat
  match l.run with
  | none => match bestItem s (candidates s core) with
    | some x => takeLatItem s core x
    | none => s
  | some r =>
    if s.dev.l2Next.isSome && r.isTask && (l.boundary || l.landing.isEmpty) then
      s.setLat core { l with held := l.held ++ [r], run := none, boundary := false }
    else if !l.boundary then s else
    let m := s.margin (leafId 1 core)
    match bestItem s (candidates s core) with
    | some x =>
      if m ≠ 0 ∧ itemRank s x + m ≤ itemRank s r then
        takeLatItem (s.setLat core { l with held := l.held ++ [r], run := none }) core x
      else s.setLat core { l with boundary := false }
    | none => s.setLat core { l with boundary := false }

/-- A command of a team has completed: it leaves the team's sequence. -/
def finishCommand (s : State) (wid : Nat) : State := s.modTeam wid fun t => { t with lat := t.lat.tail }

/-- A cause met while a team's command executes (R176): a record, the cause held, later commands discarded. -/
def commandCause (s : State) (core wid : Nat) (cmd : LatCmd) (steps : Nat) (c : OperandCause) : State :=
  match s.team? wid with
  | none => s
  | some t =>
    let body : List RecField :=
      if 0x120 ≤ c.cause then [(24, 8, c.seg), (32, 4, c.tile), (36, 4, c.off), (40, 4, cmd.seq)]
      else [(24, 4, steps), (56, 4, cmd.seq)]
    let s := faultRecord s (some t.info.node) c.cause 1 core (teamIdWord t wid) [body]
    let v : TrapValue := { detail := BitVec.ofNat 32 cmd.seq, value := BitVec.ofNat 64 (steps % 256) }
    let s := s.modTeam wid fun t => holdCause { t with lat := [] } { cause := c.cause, kind := .lattice, value := v }
    let k := s.core core
    let k := match cmd.op.tile with
      | some n => k.setTile n { k.tile n with progress := 0 }
      | none => k
    let l := k.lat
    s.setCore core { k with lat := { l with
      run := if l.run = some (.team wid) then none else l.run, boundary := false, buf := [],
      held := l.held.filter fun x => !sameItem x (.team wid) } }

/-- A malformed weight of a ternary plane (R170). -/
def badTernary (es : List Elem) : Bool := es.any fun e => e.fmt = 8 && e.bits = 2

/-- Reload the planes that another item has displaced from the team's plane record (R178). -/
def reloadPlanes (l : Lattice) (t : Team) (wid : Nat) : Lattice :=
  let l := match t.planes.stationary with
    | some p => if l.stationaryOf = some wid then l else
        { l with stationaryOf := some wid, stationary := planeElems t p.mode p.word }
    | none => l
  match t.planes.shadow with
  | some p => if l.shadowOf = some wid then l else { l with shadowOf := some wid, shadow := planeElems t p.mode p.word }
  | none => l

/-- The 16 KiB of a tile in the layout of R185. -/
def tileBytes (x : AmTile) : List Byte := (List.range 4096).flatMap fun k => natLe 4 (tabGetD 0 x.data k).toNat

/-- LATTICE_COMMAND_EXECUTE (R175, R178, R181, R185): the chosen team's oldest command begins. -/
def latticeExecute (s : State) (core : Nat) : State :=
  let k := s.core core
  match k.lat.run with
  | some (.team wid) =>
    match s.team? wid with
    | none => s
    | some t =>
      match t.lat with
      | [] => s
      | cmd :: rest =>
        if cmd.started then s else
        let t := { t with lat := { cmd with started := true } :: rest, planes := cmd.op.record t.planes }
        let t0 := { t with planes := ((s.team? wid).map (·.planes)).getD {} }
        let l := k.lat
        let fail := commandCause (s.setTeam wid t) core wid cmd 0 { cause := 0x048 }
        match cmd.op with
        | .mls m w =>
          let es := planeElems t m w
          if badTernary es then fail
          else (s.setTeam wid t).setLat core { l with shadow := es, shadowOf := some wid }
        | .mflip =>
          let l := reloadPlanes l t0 wid
          if badTernary l.stationary || badTernary l.shadow then fail
          else (s.setTeam wid t).setLat core { l with
            stationary := l.shadow, shadow := l.stationary, stationaryOf := l.shadowOf, shadowOf := l.stationaryOf }
        | .mstream m tile w =>
          let l := reloadPlanes l t0 wid
          if badTernary l.stationary then fail
          else
            let x : Landing := { item := .team wid, mode := (m.extractLsb' 0 3).toNat, tile := tile, row0 := wordRow0 w,
                                 rows := (List.range (wordRows w)).map (rowElems t m w), weights := l.stationary,
                                 step := none }
            (s.setTeam wid t).setLat core { l with run := none, landing := l.landing ++ [x] }
        | .amclr n => (s.setTeam wid t).setCore core (k.setTile n { k.tile n with data := [], progress := 0 })
        | .amld n w =>
          let data := (List.range 4096).foldl (fun d e =>
            tabSetD 0 d e (BitVec.ofNat 32 (scratchNat t (wordData w + 4 * e) 4))) []
          (s.setTeam wid t).setCore core (k.setTile n { k.tile n with data := data })
        | .amst n w => s.setTeam wid (scratchWrite t (wordData w) (tileBytes (k.tile n)))
        | .mtile .. => s.setTeam wid t
  | _ => s

/-- Add the oldest landing sums into their tile; the flags go to the team's FSTAT (R170, R182) and are returned. -/
def land (s : State) (core : Nat) (x : Landing) (rest : List Landing) : State × FpFlags :=
  let k := s.core core
  let tile := k.tile x.tile
  let r := addRows x tile.data
  let progress := match x.step with
    | some n => if x.last then 0 else n + 1
    | none => tile.progress
  let k := k.setTile x.tile { tile with data := r.1, progress := progress }
  let s := s.setCore core { k with lat := { k.lat with landing := rest } }
  (match x.item with
    | .team w => s.modTeam w fun t => { t with fstat := t.fstat ||| r.2 }
    | .task _ => s, r.2)

/-- LATTICE_COMMAND_COMPLETION (R187): a command other than MTILE finishes; an MSTREAM's sums land. -/
def latticeCompletion (s : State) (core : Nat) : State :=
  let l := (s.core core).lat
  match l.landing with
  | x :: rest =>
    match x.step, x.item with
    | none, .team w => finishCommand (land s core x rest).1 w
    | _, _ => s
  | [] =>
    match l.run with
    | some (.team w) =>
      match oldestCommand s w with
      | some { op := .mtile .., .. } => s
      | some c => if c.started then finishCommand (s.setLat core { l with run := none }) w else s
      | none => s
    | _ => s

/-! ## Operands of K steps -/

/-- What fetching an operand gives. -/
inductive Fetched where
  | wait (needs : List PageNeed)
  | bad (c : OperandCause)
  | got (es : List Elem)
  deriving DecidableEq, Repr

/-- Fetch one operand of a K step from memory (R173, R182), or from the scratch of `t`. -/
def fetchOperand (s : State) (core ctx : Nat) (who : Requester) (t : Option Team) (x : TileSrc) (mode : Nat) (isA : Bool)
    (step : Nat) : Fetched :=
  let rd := match x.scratch, t with
    | true, some t => scratchNat t
    | _, _ => virtNat s core ctx
  let give := match x.elems mode isA step rd with
    | .ok es => Fetched.got es
    | .error c => .bad c
  if x.scratch then give else
  match engineProbe s core ctx who (x.ranges isA step rd) false 17 with
  | .cause c => .bad { cause := c }
  | .wait needs => .wait needs
  | .ready => give

/-- Fetch both operands of a K step: the operands or their cause, or the pages to wait for. -/
def fetchStep (s : State) (core ctx : Nat) (who : Requester) (t : Option Team) (a b : TileSrc) (mode step : Nat) :
    Except (List PageNeed) KOperands :=
  match fetchOperand s core ctx who t a mode true step, fetchOperand s core ctx who t b mode false step with
  | .bad c, _ => .ok { step := step, a := [], b := [], cause := some c }
  | .wait n, _ => .error n
  | _, .bad c => .ok { step := step, a := [], b := [], cause := some c }
  | _, .wait n => .error n
  | .got x, .got y => .ok { step := step, a := x, b := y }

/-- The caches after a K step's fetch. -/
def touchStep (s : State) (core ctx node : Nat) (a b : TileSrc) (step : Nat) : State :=
  let one := fun (s : State) (x : TileSrc) (isA : Bool) =>
    if x.scratch then s else
    engineTouch s { node := some node } core ctx (x.ranges isA step (virtNat s core ctx)) x.cls
  one (one s a true) b false

/-- The K step that an item starts next: those landed and those still to land stand before it (R182). -/
def nextStep (s : State) (core : Nat) (x : LatItem) : Nat :=
  let k := s.core core
  let flying := (k.lat.landing.filter fun y => sameItem y.item x).length
  match x with
  | .task t => t.progress + flying
  | .team w => match oldestCommand s w with
    | some { op := .mtile _ _ _ _ n, .. } => (k.tile n).progress + flying
    | _ => 0

/-- OPERAND_FETCH (R458): the running MTILE's fetch of its next K step completes, or waits for pages. -/
def operandFetch (s : State) (core : Nat) : State :=
  let l := (s.core core).lat
  match l.run with
  | some (.team w) =>
    match s.team? w, oldestCommand s w with
    | some t, some { op := .mtile mode a b ks _, started := true, .. } =>
      let n := nextStep s core (.team w)
      if ks ≤ n ∨ l.buf.any (fun x => x.step = n) then s else
      let who := Requester.engine core (w % 16) 0
      match fetchStep s core t.info.ctx who (some t) a b mode n with
      | .error needs => engineWait s core t.info.ctx t.info.node who needs
      | .ok o => (forgetRefused (touchStep s core t.info.ctx t.info.node a b n) who).setLat core { l with buf := l.buf ++ [o] }
    | _, _ => s
  | _ => s

/-! ## Tile tasks -/

/-- The K steps of a tile task. -/
def TileTask.steps (t : TileTask) : Nat := bitsOf t.a.toNat 63 56

/-- The stager of a core as a requester (R326). -/
def stager (core stamp : Nat) : Requester := .engine core 0 (2 * stamp + 1)

/-- Check and resolve a tile task's handles and descriptors (R171 to R173, R422): the operands, the pages to wait for, or
the cause that ends the task. -/
def taskSources (s : State) (core : Nat) (t : TileTask) : Except (List PageNeed ⊕ Nat) (TileSrc × TileSrc) :=
  if memHandleBad true t.ndesc t.a || memHandleBad false t.ndesc t.b then .error (.inr 0x100) else
  let at_ := fun (h : DWord) => t.table + 64 * bitsOf h.toNat 11 0
  match engineProbe s core t.ctx (stager core t.stamp) [(at_ t.a, 64), (at_ t.b, 64)] false 17 with
  | .cause c => .error (.inr c)
  | .wait n => .error (.inl n)
  | .ready =>
    let get := fun (isA : Bool) (h : DWord) =>
      resolveTile t.mode isA false t.args h (readVirt s core t.ctx (at_ h) 64)
    match get true t.a, get false t.b with
    | some a, some b => if a.beyond true t.steps || b.beyond false t.steps then .error (.inr 0x102) else .ok (a, b)
    | _, _ => .error (.inr 0x101)

/-- Change a tile task wherever the Lattice holds it. -/
def Lattice.modTask (l : Lattice) (stamp : Nat) (f : TileTask → TileTask) : Lattice :=
  let g := fun x => match x with
    | .task t => if t.stamp = stamp then LatItem.task (f t) else x
    | _ => x
  { l with run := l.run.map g, held := l.held.map g, landing := l.landing.map fun y => { y with item := g y.item } }

/-- Bytes of a K step in the staging area (R335): an A tile and a B tile of the mode. -/
def stepBytes (mode : Nat) : Nat := 64 * rowBytes mode + planeBytes mode

/-- The staging window of a core (R325): the first D of the items held aside and of the leaf, in ascending rank. -/
def stagingWindow (s : State) (core : Nat) : List LatItem :=
  let leaf := s.leaf (leafId 1 core)
  let depth := leaf.parent.elim 0 fun n => (s.region n).depth
  let items := leaf.items.filterMap fun x => match x.work with
    | .tile t => some (LatItem.task { t with rank := x.rank, stamp := x.stamp })
    | _ => none
  let all := (s.core core).lat.held ++ items
  let place := fun (acc : List LatItem) x =>
    let lower := acc.takeWhile fun y => itemRank s y ≤ itemRank s x
    lower ++ x :: acc.drop lower.length
  (all.foldl place []).take depth

/-- Change a tile task in the Lattice and in its leaf. -/
def modTileTask (s : State) (core stamp : Nat) (f : TileTask → TileTask) : State :=
  let s := s.setLat core ((s.core core).lat.modTask stamp f)
  let leaf := s.leaf (leafId 1 core)
  s.setLeaf (leafId 1 core) { leaf with items := leaf.items.map fun x =>
    match x.work with
    | .tile t => if x.stamp = stamp then { x with work := .tile (f { t with rank := x.rank, stamp := x.stamp }) } else x
    | _ => x }

/-- The tile tasks that may stage, in the order of R420: the running one, then those of the window. -/
def stagingOrder (s : State) (core : Nat) : List TileTask :=
  let run := match (s.core core).lat.run with | some (.task t) => [t] | _ => []
  run ++ (stagingWindow s core).filterMap fun x => match x with | .task t => some t | _ => none

/-- Bytes staged by a task. -/
def stagedBytes (t : TileTask) : Nat := t.staged.length * stepBytes t.mode

/-- A task may stage its next K step: within its share, or a single K step where the area has room (R326). -/
def mayStage (area depth : Nat) (running : Bool) (others : Nat) (t : TileTask) : Bool :=
  let share := area / (depth + 1)
  let b := stepBytes t.mode
  (decide (stagedBytes t + b ≤ share) || (t.staged.isEmpty && (running || decide (share < b)))) &&
    decide (others + stagedBytes t + b ≤ area)

/-- The task releases the K steps it has staged and not started. -/
def releaseStaged (s : State) (core stamp : Nat) : State := modTileTask s core stamp fun t => { t with staged := [] }

/-- The running task's next K step finds no room: window tasks release theirs, beginning with the last (R326). -/
def makeRoom (s : State) (core : Nat) (area : Nat) (run : TileTask) : List TileTask → State
  | [] => s
  | t :: ts =>
    let used := ((stagingOrder s core).map stagedBytes).sum
    if used + stepBytes run.mode ≤ area then s else makeRoom (releaseStaged s core t.stamp) core area run ts

/-- Fetch the next K step of the first task in order that may stage and whose pages are resident (R326, R327, R420). -/
def stageFirst (s : State) (core area depth : Nat) (running : Option Nat) : List TileTask → State
  | [] => s
  | t :: ts =>
    let n := nextStep s core (.task t) + t.staged.length
    let others := (((stagingOrder s core).filter fun u => u.stamp ≠ t.stamp).map stagedBytes).sum
    if t.steps ≤ n ∨ !mayStage area depth (running == some t.stamp) others t then stageFirst s core area depth running ts
    else match taskSources s core t with
      | .error (.inl needs) => stageFirst (engineWait s core t.ctx t.node (stager core t.stamp) needs) core area depth running ts
      | .error (.inr _) => stageFirst s core area depth running ts
      | .ok (a, b) =>
        match fetchStep s core t.ctx (stager core t.stamp) none a b t.mode n with
        | .error needs => stageFirst (engineWait s core t.ctx t.node (stager core t.stamp) needs) core area depth running ts
        | .ok o =>
          let s := forgetRefused (touchStep s core t.ctx t.node a b n) (stager core t.stamp)
          modTileTask s core t.stamp fun t => { t with staged := t.staged ++ [o] }

/-- STAGING_FETCH (R325, R326, R420). -/
def stagingFetch (s : State) (core : Nat) : State :=
  let keep := (stagingOrder s core).map (·.stamp)
  let tasks := ((s.leaf (leafId 1 core)).items.map (·.stamp)) ++
    (s.core core).lat.held.filterMap fun x => match x with | .task t => some t.stamp | _ => none
  let s := (tasks.filter fun n => !keep.contains n).foldl (fun s n => releaseStaged s core n) s
  let area := (s.core core).stage * 4096
  let depth := (s.leaf (leafId 1 core)).parent.elim 0 fun n => (s.region n).depth
  match (s.core core).lat.run with
  | some (.task t) =>
    let s := if t.staged.isEmpty then makeRoom s core area t ((stagingOrder s core).tail.reverse) else s
    stageFirst s core area depth (some t.stamp) (stagingOrder s core)
  | _ => stageFirst s core area depth none (stagingOrder s core)

/-- A tile task ends with a cause, or with none: it is to write its results (R351, R422). -/
def endTask (s : State) (core : Nat) (t : TileTask) (cause : Nat) : State :=
  let k := s.core core
  let l := k.lat
  let l := { l with run := match l.run with | some r => if sameItem r (.task t) then none else some r | none => none,
                    boundary := false, finishing := l.finishing ++ [({ t with staged := [] }, cause)] }
  let k := { k with lat := l }
  s.setCore core (if cause = 0 then k else k.setTile t.c { k.tile t.c with progress := 0 })

/-- Send the staged operands of a K step into the array (R182). -/
def startStep (l : Lattice) (item : LatItem) (mode tile ks : Nat) (o : KOperands) : Lattice :=
  let x : Landing := { item := item, mode := mode, tile := tile, row0 := 0,
                       rows := (List.range 64).map fun m => (o.a.drop (128 * m)).take 128, weights := o.b,
                       step := some o.step, last := o.step + 1 = ks }
  { l with landing := l.landing ++ [x], stationaryOf := none, shadowOf := none, boundary := true,
           run := if o.step + 1 = ks then none else l.run, buf := l.buf.filter fun y => y.step ≠ o.step }

/-- Sums of the item are still to land. -/
def flying (l : Lattice) (x : LatItem) : Bool := l.landing.any fun y => sameItem y.item x

/-- K_STEP of a team's MTILE (R176, R182). Operands in scratch are read now (R458). -/
def kStepTeam (s : State) (core w : Nat) : State :=
  let l := (s.core core).lat
  match s.team? w, oldestCommand s w with
  | some t, some cmd =>
    match cmd with
    | { op := .mtile mode a b ks tile, started := true, .. } =>
      let n := nextStep s core (.team w)
      match l.buf.find? fun x => x.step = n with
      | none => s
      | some o =>
        let again := fun (x : TileSrc) (isA : Bool) (old : List Elem) =>
          if x.scratch then x.elems mode isA n (scratchNat t) else .ok old
        let cause := match o.cause, again a true o.a, again b false o.b with
          | some c, _, _ => some c
          | none, .error c, _ => some c
          | none, _, .error c => some c
          | none, .ok _, .ok _ => none
        match cause with
        | some c => if flying l (.team w) then s else commandCause s core w cmd n c
        | none =>
          let o := { o with a := (again a true o.a).toOption.getD o.a, b := (again b false o.b).toOption.getD o.b }
          s.setLat core (startStep l (.team w) mode tile ks o)
    | _ => s
  | _, _ => s

/-- K_STEP of a tile task (R183, R422): the checks and CLEAR at its start, then the staged K step. -/
def kStepTask (s : State) (core : Nat) (t : TileTask) : State :=
  match t.srcs with
  | none =>
    match taskSources s core t with
    | .error (.inl needs) => engineWait s core t.ctx t.node (stager core t.stamp) needs
    | .error (.inr c) => endTask s core t c
    | .ok p =>
      let s := if t.clear then s.setCore core ((s.core core).setTile t.c {}) else s
      modTileTask s core t.stamp fun t => { t with srcs := some p }
  | some _ =>
    let l := (s.core core).lat
    match t.staged with
    | [] => s
    | o :: rest =>
      match o.cause with
      | some c => if flying l (.task t) then s else endTask s core t c.cause
      | none =>
        let l := l.modTask t.stamp fun t => { t with staged := rest }
        s.setLat core (startStep l (.task { t with staged := rest }) t.mode t.c t.steps o)

/-- K_STEP (R182): only between decisions, and with the operands in the core store. -/
def kStep (s : State) (core : Nat) : State :=
  let l := (s.core core).lat
  if l.boundary then s else
  match l.run with
  | some (.team w) => kStepTeam s core w
  | some (.task t) => if s.dev.l2Next.isSome then s else kStepTask s core t
  | none => s

end Sys2Proof.Machine
end

