-- ==== Sys2Proof/Machine/Packets.lean ====
section
/-!
DEFINITION. Machine/Packets.lean: what the parts of a packet's work tell the firmware: that a part has ended (R344), and command
faults (R350).
-/
namespace Sys2Proof.Machine

/-- A packet that has not completed. -/
def State.packet? (s : State) (key : Nat) : Option Packet := tabGet s.fw.packets key

/-- Change a packet. -/
def State.modPacket (s : State) (key : Nat) (f : Packet → Packet) : State :=
  { s with fw := { s.fw with packets := tabMod s.fw.packets key f } }

/-- A part of a packet's work has ended (R344). -/
def packetPart (s : State) (key : Nat) : State := s.modPacket key fun p => { p with left := p.left - 1 }

/-- A command queue (unlisted: as after reset). -/
def State.queue (s : State) (q : Nat) : CmdQueue := tabGetD {} s.fw.queues q

/-- Replace a command queue. -/
def State.setCmdQueue (s : State) (q : Nat) (x : CmdQueue) : State :=
  { s with fw := { s.fw with queues := tabSetD {} s.fw.queues q x } }

/-- The region a fault of firmware work at a node is reported to: none where the node holds no loaded region (R338). -/
def loadedNode (s : State) (n : Nat) : Option Nat := if (s.region n).loaded then some n else none

/-- The fault record of firmware work (Table 25-6, source 4). -/
def commandRecord (s : State) (p : Packet) (cause ordinal : Nat) (more : List (List RecField)) : State :=
  faultRecord s (loadedNode s p.node) cause 4 0xFFF p.tag
    ([(24, 1, p.queue), (25, 1, p.depth), (32, 8, p.addr), (40, 1, ordinal)] :: more)

/-- A command fault (R350): the record for the region of the queue (R356) and its event, the queue halts, and the packet leaves without
its signal. -/
def commandFault (s : State) (key : Nat) (p : Packet) (cause : Nat) (ordinal : Nat := 0) (more : List (List RecField) := []) :
    State :=
  let q := s.queue p.queue
  let s := commandRecord s { p with node := q.node } cause ordinal more
  let s := s.setCmdQueue p.queue { q with halted := true }
  { s with fw := { s.fw with packets := tabDel s.fw.packets key } }

end Sys2Proof.Machine
end

