-- ==== Sys2Proof/Machine/CopyRun.lean ====
section
/-!
DEFINITION. Machine/CopyRun.lean: how copies run: batches (R268, R269), the ends of copies and stream records and their causes (R269,
R275), copy sectors (R262, R264 to R267) and their arrival at other cores.
-/
namespace Sys2Proof.Machine

/-- The resident team of a launch. -/
def State.teamOf (s : State) (seq : Nat) : Option (Nat × Team) := s.teams.find? fun p => p.2.info.seq.toNat = seq

/-- Change the team of a launch, resident or saved. -/
def modOwner (s : State) (seq : Nat) (f : Team → Team) : State :=
  match s.teamOf seq with
  | some (w, t) => s.setTeam w (f t)
  | none => { s with fw := { s.fw with saved := tabMod s.fw.saved seq fun x => { x with team := f x.team } } }

/-- The team of a launch, resident or saved. -/
def ownerTeam (s : State) (seq : Nat) : Option Team :=
  match s.teamOf seq with
  | some (_, t) => some t
  | none => (tabGet s.fw.saved seq).map (·.team)

/-- The launch number of a team. -/
def Team.seqNo (t : Team) : Nat := t.info.seq.toNat

/-! ## Batches -/

/-- The batches, of those of a launch, in which a copy, a stream record or a COLL has not completed. -/
def pendingBatches (s : State) (seq : Nat) : List Nat :=
  ((s.eng.copies.filter fun p => p.2.owner = some seq).map fun p => p.2.batch) ++
  (s.fab.colls.filter fun p => p.2.owner = seq).map fun p => p.2.batch

/-- How far a batch lies behind the next one of the team. -/
def batchAge (t : Team) (b : Nat) : Nat := (t.batch + 2 ^ 32 - b) % 2 ^ 32

/-- How many sealed batches of the team are unfinished (R268): those from the oldest that is incomplete. -/
def unfinished (s : State) (t : Team) : Nat := (pendingBatches s t.seqNo).foldl (fun n b => max n (batchAge t b)) 0

/-- The oldest unfinished batch of the team (R268). -/
def oldestBatch (s : State) (t : Team) : Nat := (t.batch + 2 ^ 32 - unfinished s t) % 2 ^ 32

/-- The value of BATCH (Table 3-4). -/
def batchWord (s : State) (t : Team) : DWord := BitVec.ofNat 64 (t.batch + oldestBatch s t * 2 ^ 32)

/-- Raise the counters of the batches sealed by CTRSEAL that are complete (R404). -/
def checkSeals (s : State) : State :=
  let ready := fun (x : SealRaise) => !(pendingBatches s x.owner).contains x.batch
  let due := s.eng.seals.filter ready
  let s := { s with eng := { s.eng with seals := s.eng.seals.filter fun x => !ready x } }
  due.foldl (fun s x => raiseCtr s x.core x.ctr 1) s

/-! ## The ends of copies and stream records -/

/-- What the end of a copy leaves in its team: flags, stale batches, and the Lattice command that waited for it (R263, R267, R273). -/
def copyEnds (c : Copy) (id : Nat) (ok : Bool) (t : Team) : Team :=
  let wake := fun (x : LatCmd) => if ok ∧ x.after = some id then { x with after := none } else x
  { t with fstat := if ok then t.fstat ||| c.flags else t.fstat,
           stale := if c.stale then c.batch :: t.stale else t.stale, lat := t.lat.map wake }

/-- A copy or stream record leaves the table (R268): its batch may be complete, its packet has one part fewer. -/
def retireCopy (s : State) (id : Nat) (c : Copy) (ok : Bool) : State :=
  let s := { s with eng := { s.eng with copies := tabDel s.eng.copies id } }
  let s := match c.owner with
    | some seq => modOwner s seq (copyEnds c id ok)
    | none => s
  let s := match c.origin with | some k => packetPart s k | none => s
  checkSeals s

/-- The progress record of a copy (Table 12-4), from byte `o` of a record. A stream record keeps the index of the first element of
its next slot (R277). -/
def progressFields (o : Nat) (c : Copy) : List RecField :=
  let flags := c.dkind + (if c.srcScratch then 4 else 0) + (if c.shadow then 8 else 0) + c.cls.toNat * 16 + c.rcore * 64 +
    c.rslot * 2 ^ 14 + c.rgen * 2 ^ 18
  let state := (if c.stopped then 1 else 0) + (if c.moved then 2 else 0) + (if c.stale then 4 else 0)
  let common : List RecField := [(o + 20, 4, c.batch), (o + 28, 1, c.kind + 16 * c.fn), (o + 29, 1, state)]
  if c.kind = 3 then (o, 8, c.done / c.size) :: common
  else [(o, 8, c.src + c.done), (o + 8, 8, c.dst + c.done), (o + 16, 4, c.len - c.done), (o + 24, 4, flags)] ++ common

/-- A cause met while a copy or a stream record runs (R266, R275): the record of its region, and the cause held for its team
(R269). The copy leaves its batch. `pecan` is the body of a Pecan cause. -/
def failCopy (s : State) (id : Nat) (c : Copy) (cause : Nat) (pecan : Option (Nat × Nat × Nat) := none) : State :=
  let body : List RecField := match pecan with
    | some (seg, tile, off) => [(24, 8, seg), (32, 4, tile), (36, 4, off), (40, 4, c.batch)]
    | none => progressFields 24 c
  let mine := c.owner.bind s.teamOf
  let team := match mine with | some (w, t) => teamIdWord t w | none => 0
  let s := faultRecord s (loadedNode s c.node) cause 2 (if c.owner.isSome || c.kind = 3 then c.core else 0xFFF) team [body]
  let v : TrapValue := { detail := BitVec.ofNat 32 c.batch, value := BitVec.ofNat 64 c.entry }
  let s := match mine with
    | some (w, _) => s.modTeam w fun t =>
        holdCause t { cause := cause, kind := .copy, object := (c.srec.map fun r => r.ring + 1).getD 0, value := v }
    | none => s
  retireCopy s id c false

/-- The requester of a copy's engine: the team's slot while it is resident (Table 10-7). -/
def copyWho (s : State) (id : Nat) (c : Copy) : Requester :=
  .engine c.core (((c.owner.bind s.teamOf).map fun p => p.1 % 16).getD 0) (2 * id + 2)

/-! ## Copies -/

/-- Where a copy writes what it reads: its kind of element update (Table 12-3). -/
def copyReduce (fn size old v : Nat) : Nat :=
  let w := 8 * size
  match fn with
  | 0 => atomicFadd .f32 old v
  | 1 => atomicFadd .bf16 old v
  | 2 => (old + v) % 2 ^ w
  | 3 => atomicPick true false w old v
  | 4 => atomicPick true true w old v
  | 5 => atomicPick false false w old v
  | 6 => atomicPick false true w old v
  | 7 => old &&& v
  | 8 => old ||| v
  | 9 => old ^^^ v
  | 10 => (fpMinMax .f32 false false old v).1
  | _ => (fpMinMax .f32 true false old v).1

/-- Combine the elements of two lists of bytes (R264). -/
def reduceBytes (fn size : Nat) (old new : List Byte) : List Byte :=
  (List.range (new.length / size)).flatMap fun k =>
    natLe size (copyReduce fn size (leNat ((old.drop (k * size)).take size)) (leNat ((new.drop (k * size)).take size)))

/-- Bytes of the next sector of a copy (R265). -/
def sectorLen (c : Copy) : Nat := min (4096 - (c.dst + c.done) % 4096) (c.len - c.done)

/-- The index of the sector that a copy moves next, from its first. -/
def sectorIndex (c : Copy) : Nat := (c.dst + c.done) / 4096 - c.dst / 4096

/-- The segments of a copy: 64 sectors each (R259). -/
def segmentCount (c : Copy) : Nat := ((c.dst + c.len - 1) / 4096 - c.dst / 4096) / 64 + 1

/-- The result of two probes together: the highest cause, else the pages of both. -/
def Probe.both : Probe → Probe → Probe
  | .cause a, .cause b => .cause ((highest (memCauseOrder ++ [0x0C1]) [a, b]).getD a)
  | .cause a, _ => .cause a
  | _, .cause b => .cause b
  | .wait a, .wait b => .wait (a ++ b)
  | .wait a, .ready => .wait a
  | .ready, b => b

/-- Probe the next `n` bytes of a copy's ranges (R261, R266). -/
def probeCopy (s : State) (c : Copy) (who : Requester) (n : Nat) : Probe :=
  let src := if c.srcScratch then .ready else engineProbe s c.core c.ctx who [(c.src + c.done, n)] false 17
  let dst := if c.dkind ≠ 0 then .ready else engineProbe s c.core c.ctx who [(c.dst + c.done, n)] true 18
  src.both dst

/-- The bytes that a copy reads: memory, or the scratch of its team; of a team that has retired they are free (assumption 17). -/
def copyBytes (s : State) (id : Nat) (c : Copy) (n : Nat) : List Byte :=
  if c.srcScratch then
    match c.owner.bind s.teamOf with
    | some (_, t) => (List.range n).map fun k => scratchByte t (c.src + c.done + k)
    | none => (List.range n).map fun k => Config.lostByte id (c.done + k)
  else readVirt s c.core c.ctx (c.src + c.done) n

/-- An engine's write makes the sectors that it replaces whole correctable again (R443). -/
def clearBad (s : State) (core ctx va n : Nat) : State :=
  if s.dev.bad.isEmpty then s
  else (partsOf 64 va n).foldl (fun s p =>
    if p.2 ≠ 64 then s
    else match xlate s core ctx p.1 with
      | .hit _ pa => { s with dev := { s.dev with bad := s.dev.bad.filter (· ≠ pa / 64) } }
      | _ => s) s

/-- An engine writes bytes to virtual memory; its writes clear tag bits (R259, Table 11-5). -/
def engineWrite (s : State) (node core ctx va : Nat) (bs : List Byte) (cls : BitVec 2) (shadow : Bool) : State :=
  let s := (rangeSectors [(va, bs.length)]).foldl (fun s k => xlateFill s core ctx (64 * k)) s
  clearBad (writeVirt s { node := some node } core ctx va bs cls .clear shadow) core ctx va bs.length

/-- Perform one sector of a copy (R262, R264, R267). -/
def moveSector (s : State) (id : Nat) (c : Copy) (n : Nat) : State :=
  let bs := copyBytes s id c n
  let s := if c.srcScratch then s else engineTouch s { node := some c.node } c.core c.ctx [(c.src + c.done, n)] c.cls
  match c.dkind with
  | 0 =>
    let new := if c.kind = 2 then reduceBytes c.fn c.size (readVirt s c.core c.ctx (c.dst + c.done) n c.shadow) bs else bs
    engineWrite s c.node c.core c.ctx (c.dst + c.done) new c.cls c.shadow
  | 1 => match c.owner.bind s.teamOf with
    | some (w, t) => s.setTeam w (scratchWrite t (c.dst + c.done) bs)
    | none => s
  | _ =>
    let x : SectorFlight := { copy := id, core := c.rcore, slot := c.rslot, gen := c.rgen, off := c.dst + c.done, bytes := bs }
    { s with eng := { s.eng with sectors := s.eng.sectors ++ [x] } }

/-- Change a copy. -/
def State.modCopy (s : State) (id : Nat) (f : Copy → Copy) : State :=
  { s with eng := { s.eng with copies := tabMod s.eng.copies id f } }

/-- The copy engine of a leaf runs nothing. -/
def stopEngine (s : State) (leaf : Nat) : State := { s with eng := { s.eng with running := tabDel s.eng.running leaf } }

/-- COPY_SEGMENT (R262, R265, R266): the engine of a copy leaf moves one sector of its segment. At a sector boundary it gives way to
better ranks; pages that a shootdown covered are probed again. -/
def copySegment (s : State) (leaf : Nat) : State :=
  match tabGet s.eng.running leaf with
  | none => s
  | some r =>
    match r.item.work with
    | .seg id part =>
      match tabGet s.eng.copies id with
      | none => stopEngine s leaf
      | some c =>
        if r.stop then reenterLeaf (stopEngine s leaf) leaf r.item
        else if c.moved && s.dev.shoot.busy then s
        else
          let who := copyWho s id c
          match probeCopy s c who (if c.moved then c.len - c.done else sectorLen c) with
          | .cause k => failCopy (forgetRefused (stopEngine s leaf) who) id c k
          | .wait needs => engineWait s c.core c.ctx c.node who needs
          | .ready =>
            let n := sectorLen c
            let s := moveSector s id c n
            let c := { c with done := c.done + n, moved := false, flying := if c.dkind = 2 then c.flying + 1 else c.flying }
            let ended := decide (c.done = c.len)
            let c := { c with out := ended }
            let s := if ended || decide (64 * (part + 1) ≤ sectorIndex c) then stopEngine s leaf else s
            if ended && c.flying == 0 then retireCopy s id c true else s.modCopy id fun _ => c
    | _ => s

/-- COPY_SECTOR_ARRIVAL (R267): a sector reaches the target core. It is written where the slot's team has the scratch generation
that the copy named, and dropped and counted otherwise. -/
def copySectorArrival (s : State) (n : Nat) : State :=
  match s.eng.sectors[n]? with
  | none => s
  | some x =>
    let s := { s with eng := { s.eng with sectors := s.eng.sectors.eraseIdx n } }
    let wid := x.core * 16 + x.slot
    let fresh := match s.team? wid with
      | some t => decide (t.info.scratchGen = x.gen) && t.info.scratchBytes != 0
      | none => false
    let s :=
      if fresh then s.modTeam wid fun t => scratchWrite t x.off (x.bytes.take (t.info.scratchBytes - x.off))
      else
        let k := s.core x.core
        s.setCore x.core { k with staleSectors := k.staleSectors + 1 }
    match tabGet s.eng.copies x.copy with
    | none => s
    | some c =>
      let c := { c with flying := c.flying - 1, stale := c.stale || !fresh }
      if c.out && c.flying == 0 then retireCopy s x.copy c true else s.modCopy x.copy fun _ => c

end Sys2Proof.Machine
end

