-- ==== Sys2Proof/Machine/Fabric.lean ====
section
/-!
DEFINITION. Machine/Fabric.lean: flits: performing one at its home (R284, R287, R400, R412), sending it (R405, R406, R411), and what
its acknowledgement does at the issuer (R244, R286, R402, R407).
-/
namespace Sys2Proof.Machine

/-! ## Translation for the Apex die -/

/-- A translation that uses no core's buffers: for the fabric and the firmware. -/
def xlateApex (s : State) (ctx va : Nat) : Xlated :=
  match doubleOf s ctx va with
  | some d => .hit { vbase := d.obase, size := d.len, pbase := d.base false, attr := doubleAttr } (d.base false + (va - d.obase))
  | none => if shotDown s ctx va then .held else walkCtx s ctx va

/-- The context of flits from a source device to an address of its fabric window, or the refusing cause (R412). -/
def windowOf (s : State) (src va n : Nat) : Except Nat Nat :=
  let e := memNat s.mem (s.host.bring.peers + 2 * src) 2
  let c := e % 4096
  let base := memNat s.mem (s.dev.ctxBase + 64 * c + 16) 8
  let len := memNat s.mem (s.dev.ctxBase + 64 * c + 24) 8
  let low := base / 0x10000 * 0x10000
  if bitsOf e 15 15 = 0 ∨ base % 2 = 0 ∨ va < low ∨ low + len < va + n then .error 0x157 else .ok c

/-- The source device may raise counters (R412). -/
def peerAllowed (s : State) (src : Nat) : Bool := bitsOf (memNat s.mem (s.host.bring.peers + 2 * src) 2) 15 15 == 1

/-- The home address of a flit from a source device, or the refusing cause (R412); none while a shootdown holds the translation. -/
def flitHome (s : State) (src va n : Nat) (write : Bool) : Option (Except Nat (Nat × PageAttr)) :=
  match windowOf s src va n with
  | .error c => some (.error c)
  | .ok ctx =>
    if 2 ^ 57 ≤ va then some (.error 0x084) else
    match xlateApex s ctx va with
    | .held => none
    | .absent _ => some (.error 0x081)
    | .hit l pa => match (pageCheck (.hit l pa) write 0).1 with
      | some c => some (.error c)
      | none => some (.ok (pa, l.attr))
    | x => some (.error ((pageCheck x write 0).1.getD 0x081))

/-! ## Operations -/

/-- The combination of two 32-bit data of an integer operation (Table 13-3); TYPE 1 is signed. -/
def collCombine (op ty a b : Nat) : Nat :=
  match op with
  | 3 => (a + b) % 2 ^ 32
  | 4 => a &&& b
  | 5 => a ||| b
  | 6 => a ^^^ b
  | 7 => atomicPick (ty == 1) false 32 a b
  | _ => atomicPick (ty == 1) true 32 a b

/-- The value that an operation leaves in a word (Table 13-3, R400). -/
def flitNew (f : Flit) (old v : Nat) : Nat :=
  match f.op with
  | 0 => v
  | 2 => v
  | 16 => (atomicNew f.fn 64 old v 0).getD old
  | 17 => v
  | _ => collCombine f.op f.ty old v

/-- Bytes of a word of a flit: 8 for an atomic or a SIGNAL of an acorn, else 4. -/
def Flit.wordBytes (f : Flit) : Nat := if f.op = 16 ∨ f.op = 17 then 8 else 4

/-- A flit's operation reads the words and returns them (Table 13-3). -/
def Flit.returns (f : Flit) : Bool := f.op == 1 || f.op == 2

/-- What performing a flit gives: the state, the refusing cause (0 for none), the stale mark and the words returned. -/
structure Performed where
  state : State
  cause : Nat := 0
  stale : Bool := false
  words : Tab Nat := []

/-- Perform a flit in the scratch of its slot, or drop it as stale (R284, R287). Bytes beyond the team's scratch are not there: they
read 0 and a write of them is dropped. -/
def performScratch (s : State) (f : Flit) : Performed :=
  let wid := f.core * 16 + f.slot
  match s.team? wid with
  | some t =>
    if t.info.scratchGen = f.gen then
      let one := fun (a : Team × Tab Nat) (w : Nat × Nat) =>
        let off := 64 * f.unit + 4 * w.1
        if t.info.scratchBytes < off + 4 then (a.1, tabSet a.2 w.1 0)
        else
          let old := scratchNat a.1 off 4
          (if f.op = 1 then a.1 else scratchWrite a.1 off (natLe 4 (flitNew f old w.2)), tabSet a.2 w.1 old)
      let r := f.words.foldl one (t, [])
      { state := s.setTeam wid r.1, words := if f.returns then r.2 else [] }
    else
      let k := s.core f.core
      { state := s.setCore f.core { k with staleSectors := k.staleSectors + 1 }, stale := true }
  | none =>
    let k := s.core f.core
    { state := s.setCore f.core { k with staleSectors := k.staleSectors + 1 }, stale := true }

/-- Perform a flit at its home in memory (R284, R400). -/
def performMemory (s : State) (f : Flit) (pa : Nat) (attr : PageAttr) : Performed :=
  let one := fun (a : State × Tab Nat) (w : Nat × Nat) =>
    let at_ := pa + 4 * w.1
    let old := memNat a.1.mem at_ f.wordBytes
    (if f.op = 1 then a.1 else physWrite a.1 apexAccess at_ (natLe f.wordBytes (flitNew f old w.2)) attr 0 .clear,
      tabSet a.2 w.1 old)
  if s.dev.bad.contains (pa / 64) then { state := s, cause := 0x0C1 }
  else
    let r := f.words.foldl one (physTouchRead s apexAccess pa attr 0 false, [])
    { state := r.1, words := if f.returns then r.2 else [] }

/-- Perform a home-path flit of a source device (R284, R287, R400, R412); none while a translation waits. -/
def performFlit (s : State) (src : Nat) (f : Flit) : Option Performed :=
  if f.op = 18 then
    some (if peerAllowed s src then { state := raiseCtr s f.core f.fn (BitVec.ofNat 64 (tabGetD 0 f.words 0)) }
      else { state := s, cause := 0x157 })
  else if f.scratch then some (performScratch s f)
  else match flitHome s src (64 * f.unit) 64 (f.op != 1) with
    | none => none
    | some (.error c) => some { state := s, cause := c }
    | some (.ok (pa, attr)) => some (performMemory s f pa attr)

/-! ## The issuer's side -/

/-- The TEAMID of a launch for a record: that of the resident team. -/
def ownerId (s : State) (seq : Nat) : Nat := match s.teamOf seq with | some (w, t) => teamIdWord t w | none => seq * 2 ^ 16

/-- A COLL is complete (R286): its WIN reaches FSTAT, and it leaves its batch. -/
def finishColl (s : State) (id : Nat) (c : Coll) : State :=
  let s := modOwner s c.owner fun t => if c.win then { t with fstat := t.fstat ||| flagWIN } else t
  checkSeals { s with fab := { s.fab with colls := tabDel s.fab.colls id } }

/-- The first address that a flit accesses: that of its first word. -/
def Flit.first (f : Flit) : Nat :=
  64 * f.unit + 4 * (match f.words with | [] => 0 | w :: ws => ws.foldl (fun m x => min m x.1) w.1)

/-- Report a refused access to the team that issued it (R286, R404, R406): the record of its region, that of a route that is lost, and
0x143 held. -/
def refuseTeam (s : State) (seq node core cause port addr batch : Nat) (v : DWord) : State :=
  let body : List RecField := [(26, 2, port), (32, 8, addr), (40, 2, cause)]
  let s := if cause = 0x155 then faultRecord s (loadedNode s node) 0x155 6 core (ownerId s seq) [body] else s
  let s := faultRecord s (loadedNode s node) 0x143 6 core (ownerId s seq) [body]
  modOwner s seq fun t => holdCause t { cause := 0x143, kind := .copy, value := { detail := BitVec.ofNat 32 batch, value := v } }

/-- A flit of a COLL is acknowledged (R285, R286). -/
def collAck (s : State) (id n : Nat) (o : OutFlit) (cause : Nat) (stale : Bool) (words : Tab Nat) : State :=
  match tabGet s.fab.colls id with
  | none => s
  | some c =>
    let replies := words.foldl (fun m w => tabSet m (n * 16 + w.1) w.2) c.replies
    let c := { c with pending := c.pending.filter (· ≠ n), replies := replies }
    let s := { s with fab := { s.fab with colls := tabSet s.fab.colls id c } }
    let s := if cause = 0 then s else refuseTeam s c.owner c.node c.core cause (o.port.getD 0) o.flit.first c.batch 0
    let s := if stale then modOwner s c.owner fun t => { t with stale := c.batch :: t.stale } else s
    if c.pending.isEmpty && c.op != 1 && c.op != 2 then finishColl s id c else s

/-- The streams of a core's teams that wait at a TRGCANCEL of an acorn. -/
def cancelWaiters (s : State) (core n : Nat) : List Nat :=
  (s.teams.filter fun p => coreOf p.1 = core ∧ p.2.a.wait = some (.cancel n)).map (·.1)

/-- Free an acorn, and tell the TRGCANCELs that wait for it how its operation ended (R404). -/
def releaseAcorn (s : State) (core n status : Nat) : State :=
  (cancelWaiters s core n).foldl (fun s w => s.modTeam w fun t => { t with cancelled := some (n, status) }) (s.freeAcorn core n)

/-- The records of a failed acorn or fabric operation: 0x155 when no route is left, and the issuer's 0x153 (R402, R406, Table 25-6). -/
def opRecord (s : State) (o : FabOp) : State :=
  let index := match o.source with | .acorn _ n => n | _ => 0
  let core := match o.source with | .packet _ => 0xFFF | _ => o.core
  let body : List RecField := [(24, 1, index), (25, 1, o.desc.op), (26, 2, o.port), (32, 8, o.addr), (40, 2, o.cause)]
  let s := if o.cause = 0x155 then faultRecord s (loadedNode s o.node) 0x155 6 core 0 [body] else s
  faultRecord s (loadedNode s o.node) 0x153 6 core 0 [body]

/-- The raise of RCTR that an operation on the own device makes once every flit of it is performed (R400). On the switch path the
root makes it. -/
def opRaises (s : State) (o : FabOp) : Bool := o.desc.rcen && o.desc.dev == s.dev.devId && !(o.desc.op == 2 && decide (9 ≤ o.desc.rfn))

/-- The operation is over once nothing of it is under way: it has completed locally, or it is a packet's (R407, R413). -/
def FabOp.leaves (o : FabOp) : Bool := o.localDone || (match o.source with | .packet _ => true | _ => false)

/-- An operation has nothing left under way: it fails (R402), or raises RCTR and leaves if it has completed locally; a packet's part
ends (R413). -/
def settleOp (s : State) (id : Nat) : State :=
  match tabGet s.fab.ops id with
  | none => s
  | some o =>
    if o.unsent ≠ 0 ∨ o.unacked ≠ 0 then s
    else
      let gone := fun (s : State) =>
        let s := { s with fab := { s.fab with ops := tabDel s.fab.ops id } }
        match o.source with | .packet k => packetPart s k | _ => s
      if o.failed then
        let s := opRecord s o
        gone (match o.source with
          | .acorn c n => if o.localDone then s else releaseAcorn s c n 2
          | _ => s)
      else if o.leaves then gone (if opRaises s o then raiseCtr s o.desc.rcore o.desc.rctr 1 else s)
      else s

/-- An operation meets a failure; its record names the first (R402). -/
def FabOp.fail (o : FabOp) (cause port addr : Nat) : FabOp :=
  if o.failed then o else { o with failed := true, cause := cause, port := port, addr := addr }

/-- A flit of an operation is acknowledged (R402, R407). A GET writes what it read to its local target. -/
def opAck (s : State) (id : Nat) (o : OutFlit) (cause : Nat) (words : Tab Nat) : State :=
  match tabGet s.fab.ops id with
  | none => s
  | some x =>
    let s := if cause = 0 ∧ o.flit.op = 1 then
        words.foldl (fun s w => engineWrite s x.node x.core x.ctx ((o.back + 4 * w.1) % 2 ^ 64) (natLe 4 w.2) 0 false) s
      else s
    let bad := cause ≠ 0
    let x := { x with unacked := x.unacked - 1 }
    let x := if bad then x.fail cause (o.port.getD 0) o.flit.first else x
    settleOp { s with fab := { s.fab with ops := tabSet s.fab.ops id x } } id

/-- A flit is acknowledged end to end (R244, R407): with a refusing cause, a stale mark, or the words that it read. -/
def completeFlit (s : State) (n cause : Nat) (stale : Bool) (words : Tab Nat) : State :=
  match tabGet s.fab.out n with
  | none => s
  | some o =>
    let s := { s with fab := { s.fab with out := tabDel s.fab.out n, flits := s.fab.flits.filter (· ≠ n) } }
    let s := match o.counted with
      | some seq => modOwner s seq fun t => { t with acks := t.acks - 1 }
      | none => s
    match o.owner with
    | .coll id => collAck s id n o cause stale words
    | .op id => opAck s id o cause words
    | .transit _ _ => s
    | .team seq ref =>
      let core := match s.teamOf seq with | some (w, _) => coreOf w | none => 0xFFF
      if cause = 0 then s else refuseTeam s seq o.node core cause (o.port.getD 0) 0 0 (BitVec.ofNat 64 ref)

/-! ## Sending -/

/-- A flit enters the retry buffer of a port under the next sequence number, once the buffer has room (R406). -/
def bufferAt (s : State) (p n : Nat) : State :=
  match tabGet s.fab.out n with
  | none => s
  | some o =>
    let q := s.port p
    if 1024 ≤ q.retry.length then s
    else
      let o := { o with port := some p, link := q.next, buffered := true, replays := 0 }
      let q := { q with next := (q.next + 1) % 2 ^ 20, retry := q.retry ++ [n] }
      { s with fab := { s.fab with out := tabSet s.fab.out n o, ports := tabSetD {} s.fab.ports p q } }

/-- A flit goes to the port that R411 chooses; with none its operation fails. -/
def bufferFlit (s : State) (n : Nat) : State :=
  match tabGet s.fab.out n with
  | none => s
  | some o => match choosePort s o.flit.dev with
    | none => completeFlit s n 0x155 false []
    | some p => bufferAt s p n

/-- The flits that wait for room in a retry buffer, oldest first, enter one where there is room (R406). -/
def pumpPorts (s : State) : State :=
  let waits := fun (p : Nat × OutFlit) => p.2.port.isNone && p.2.flit.dev != s.dev.devId
  (s.fab.out.filter waits).foldl (fun s p => bufferFlit s p.1) s

/-- Send a flit on its way: to its home on this device, to the root on this device, or through a port (R281, R288, R405). A counted flit
raises its team's outstanding-acknowledgement counter (R244). -/
def sendFlit (s : State) (o : OutFlit) : State :=
  let n := s.fab.outSeq
  let s := { s with fab := { s.fab with out := tabSet s.fab.out n o, outSeq := n + 1 } }
  let s := match o.counted with
    | some seq => modOwner s seq fun t => { t with acks := t.acks + 1 }
    | none => s
  if o.flit.dev = s.dev.devId then
    if o.flit.fields.isSome then
      { s with fab := { s.fab with rootIn := s.fab.rootIn ++ [{ flit := o.flit, src := s.dev.devId, num := n }] } }
    else { s with fab := { s.fab with flits := s.fab.flits ++ [n] } }
  else bufferFlit s n

/-- COLL_FLIT_HOME (R284, R286, R287): a flit whose home is on this device is performed there and acknowledged. -/
def collFlitHome (s : State) (n : Nat) : State :=
  if s.fab.flits.contains n then
    match tabGet s.fab.out n with
    | none => s
    | some o =>
      match performFlit s s.dev.devId o.flit with
      | none => s
      | some r => completeFlit r.state n r.cause r.stale r.words
  else s

/-- COLL_REPLY (R283, R285): every reply of a GET or SWAP has arrived, and its lanes receive their values; a lane whose access failed
or was stale receives 0. -/
def collReply (s : State) (id : Nat) : State :=
  match tabGet s.fab.colls id with
  | none => s
  | some c =>
    if !c.pending.isEmpty || !(c.op == 1 || c.op == 2) then s
    else
      let value := fun (l : CollLane) =>
        match l.given, tabGet c.replies (l.flit * 16 + l.word) with
        | some v, some _ => v
        | none, some v => v
        | _, none => 0
      let write := fun (t : Team) =>
        let v := c.lanes.foldl (fun m l => tabSetD 0 m (vKey l.lane c.reg) (BitVec.ofNat 32 (value l))) t.v
        ({ t with v := v }).modFrag c.frag fun f => { f with hold := none, wait := none }
      finishColl (modOwner s c.owner write) id c

end Sys2Proof.Machine
end

