-- ==== Sys2Proof/Machine/Coll.lean ====
section
/-!
DEFINITION. Machine/Coll.lean: COLL (R280 to R286), contributions to reductions (R40) and the reduction root (R288 to R291).
-/
namespace Sys2Proof.Machine

/-! ## Contributions -/

/-- The fixed-point integer of a contribution of window base `w`, and WIN (R40). -/
def contribOf (w : Int) (x : Nat) : Contrib × Bool :=
  match fpDecode .f32 x with
  | .nan _ _ => ({ nan := true }, false)
  | .inf n => ({ pinf := !n, ninf := n }, false)
  | .fin neg m e =>
    let k := e - w
    let mag := if 0 ≤ k then m * 2 ^ k.toNat else m / 2 ^ (-k).toNat
    let lost := decide (k < 0) && m % 2 ^ (-k).toNat != 0
    let big := decide (2 ^ 159 ≤ mag)
    let mag := if big then 2 ^ 159 - 1 else mag
    ({ val := if neg then -(mag : Int) else mag }, lost || big)

/-- Two contributions to a word, combined exactly (R40): FSUM adds, FMIN and FMAX choose. -/
def Contrib.join (op : Nat) (a b : Contrib) : Contrib :=
  { val := if op = 9 then a.val + b.val else if op = 10 then min a.val b.val else max a.val b.val,
    nan := a.nan || b.nan, pinf := a.pinf || b.pinf, ninf := a.ninf || b.ninf }

/-- The bits that the root delivers for a word, and their flags in the layout of FSTAT (R40, R290). -/
def Contrib.deliver (w : Int) (c : Contrib) : Nat × BitVec 7 :=
  if c.nan || (c.pinf && c.ninf) then (FpFmt.nanBits .f32, 1)
  else if c.pinf || c.ninf then (fpSign .f32 c.ninf + 0x7F800000, 0)
  else
    let v := max (-(2 ^ 159 : Int)) (min c.val (2 ^ 159 - 1))
    let r := fpRound .f32 .rne false (.fin (decide (v < 0)) v.natAbs w)
    (r.1, r.2 ||| (if v = c.val then 0 else flagWIN))

/-- Join tables of contributions, word by word. -/
def joinSums (op : Nat) (a b : Tab Contrib) : Tab Contrib :=
  b.foldl (fun m p => tabSet m p.1 (match tabGet m p.1 with | some x => x.join op p.2 | none => p.2)) a

/-! ## Descriptors -/

/-- A collective descriptor (Table 13-2). -/
structure CollDesc where
  op : Nat
  ty : Nat
  scratch : Bool
  barg : Nat
  abs : Bool
  offset : Nat
  fields : UnitFields
  group : Nat

/-- The descriptor at a byte offset of the kernel's constant space (R280). -/
def collDesc (t : Team) (off : Nat) : CollDesc :=
  let at_ := fun (o n : Nat) => leNat ((List.range n).map fun k => tabGetD 0 t.info.kernel.const (off + o + k))
  let a := at_ 0 4
  let g := at_ 4 4
  let c := at_ 20 4
  { op := bitsOf a 3 0, ty := bitsOf a 5 4, scratch := bitsOf a 6 6 = 1, barg := bitsOf a 11 8, abs := bitsOf a 12 12 = 1,
    offset := at_ 8 8, group := bitsOf g 27 16,
    fields := { op := bitsOf a 3 0, w := (BitVec.ofNat 11 (bitsOf a 26 16)).toInt, ncontrib := bitsOf g 12 0,
                units := at_ 16 3, crec := bitsOf (at_ 24 8) 56 0, cctr := bitsOf c 7 0, ccore := bitsOf c 15 8,
                cen := bitsOf c 16 16 = 1 } }

/-- Whether a TYPE is allowed for an operation (Table 13-3). -/
def collTypeOk (op ty : Nat) : Bool :=
  if op ≤ 2 then decide (ty ≤ 2) else if op ≤ 8 then decide (ty ≤ 1) else decide (op ≤ 11) && ty == 2

/-- A descriptor that breaks Table 13-2 or 13-3. -/
def collDescBad (t : Team) (off : Nat) : Bool :=
  let at_ := fun (o n : Nat) => leNat ((List.range n).map fun k => tabGetD 0 t.info.kernel.const (off + o + k))
  let d := collDesc t off
  let a := at_ 0 4
  let g := at_ 4 4
  let reserved := bitsOf a 7 7 + bitsOf a 15 13 + bitsOf a 31 27 + bitsOf g 15 13 + bitsOf g 31 28 + at_ 19 1 +
    bitsOf (at_ 20 4) 31 17 + bitsOf (at_ 24 8) 63 57
  let others := bitsOf a 26 16 + g + at_ 16 8 + at_ 24 8
  reserved != 0 || !collTypeOk d.op d.ty || (d.scratch && (d.barg != 0 || d.abs)) ||
  (if 9 ≤ d.op then d.scratch || d.fields.ncontrib == 0 || decide (4096 < d.fields.ncontrib) || d.fields.units == 0 ||
      d.fields.crec % 32 != 0
    else others != 0)

/-- A collective word, with its descriptor, that is malformed: cause 0x142 (R280, R282). -/
def collBad (t : Team) (w : DWord) : Bool :=
  let off := bitsOf w.toNat 19 0
  if off % 32 ≠ 0 ∨ t.info.kernel.constLen < off + 32 then true
  else
    let d := collDesc t off
    collDescBad t off || (if 9 ≤ d.op then decide (d.fields.ncontrib ≤ bitsOf w.toNat 31 20) else bitsOf w.toNat 63 20 != 0)

/-! ## COLL -/

/-- A lane of a COLL: its number, its peer word, the address or offset it names, and its data. -/
structure CollArg where
  lane : Nat
  peer : Nat
  addr : Nat
  data : Nat

/-- The address that a lane forms (R281). -/
def collAddr (t : Team) (d : CollDesc) (b : Nat) : Nat :=
  if d.scratch then (d.offset + b) % 2 ^ 32
  else ((if d.abs then 0 else (t.info.args.getD d.barg 0).toNat) + d.offset + b) % 2 ^ 64

/-- The flit that a lane's access belongs to, with no words yet (R283). -/
def collShell (d : CollDesc) (chunk : Nat) (cidx : Nat) (x : CollArg) : Flit :=
  let p := if d.scratch then x.peer else x.peer % 2 ^ 12
  let sw := 9 ≤ d.op
  { op := d.op, ty := d.ty, dev := bitsOf p 11 0, scratch := d.scratch, core := bitsOf p 19 12, slot := bitsOf p 23 20,
    gen := bitsOf p 31 24, unit := x.addr / 64, group := d.group, chunk := if sw then chunk else 0,
    contribs := if sw then [cidx] else [], fields := if sw then some d.fields else none }

/-- A flit with one more lane's data in its word (R283). -/
def collAdd (w : Int) (f : Flit) (x : CollArg) : Flit :=
  let k := x.addr % 64 / 4
  if f.fields.isSome then { f with sums := joinSums f.op f.sums [(k, (contribOf w x.data).1)] }
  else
    let new := match tabGet f.words k with
      | some old => if f.op ≤ 2 then x.data else collCombine f.op f.ty old x.data
      | none => x.data
    { f with words := tabSet f.words k (if f.op = 1 then 0 else new) }

/-- The same flit, but for its words. -/
def sameUnit (a b : Flit) : Bool :=
  a.dev == b.dev && a.scratch == b.scratch && a.core == b.core && a.slot == b.slot && a.gen == b.gen && a.unit == b.unit

/-- Place a lane in the flit of its unit, or in a new one. -/
def collPlace (w : Int) (shell : Flit) (x : CollArg) : List Flit → List Flit
  | [] => [collAdd w shell x]
  | f :: fs => if sameUnit f shell then collAdd w f x :: fs else f :: collPlace w shell x fs

/-- The flits of a COLL, its lanes taken in ascending order (R283). -/
def collFlits (d : CollDesc) (chunk cidx : Nat) (xs : List CollArg) : List Flit :=
  xs.foldl (fun fs x => collPlace d.fields.w (collShell d chunk cidx x) x fs) []

/-- The lanes of a GET or SWAP with the flit and word that answer them; of the lanes of a SWAP that name one word, each but the lowest
receives the data of the one before it (R283). -/
def collLanes (d : CollDesc) (base : Nat) (fs : List Flit) (xs : List CollArg) : List CollLane :=
  xs.map fun x =>
    let shell := collShell d 0 0 x
    let before := (xs.filter fun y => y.lane < x.lane ∧ sameUnit (collShell d 0 0 y) shell ∧ y.addr / 4 = x.addr / 4).getLast?
    { lane := x.lane, flit := base + (fs.findIdx fun f => sameUnit f shell), word := x.addr % 64 / 4,
      given := if d.op = 2 then before.map (·.data) else none }

/-- A group's highest chunk named on this device (R384), as one more than it. -/
def noteChunk (s : State) (group chunk : Nat) : State :=
  { s with fab := { s.fab with chunkMax := tabSet s.fab.chunkMax group (max (chunk + 1) (tabGetD 0 s.fab.chunkMax group)) } }

/-- Raise a cause in the lowest lane that meets it, with its address (R282). -/
def collCause (xs : List CollArg) (cause : Nat) (bad : CollArg → Bool) : Act Unit :=
  match xs.find? bad with
  | some x => raiseWith cause { lane := some x.lane, value := BitVec.ofNat 64 x.addr }
  | none => .ok ()

/-- COLL (R280 to R286). -/
def execColl (d : BitVec 6) (a b : BitVec 7) (k : BitVec 4) (s : State) : Host.Outcome State Fault Refusal :=
  issue (.coll d a b k) plain s fun i t s => do
    let o ← eOperands i t (coreWord s i.core) [(a, .int), (b, .int)] (some d)
    let w := readK t k.toNat
    if collBad t w then raiseWith 0x142 { lane := o.lanes.head? }
    let desc := collDesc t (bitsOf w.toNat 19 0)
    let chunk := bitsOf w.toNat 63 32
    let xs : List CollArg := o.lanes.map fun l =>
      { lane := l, peer := (o.arg 0 l).toNat, addr := collAddr t desc (o.arg 1 l).toNat, data := (o.arg 2 l).toNat }
    collCause xs 0x140 fun x => !reaches s (x.peer % 2 ^ 12)
    collCause xs 0x083 fun x => x.addr % 4 != 0
    collCause xs 0x141 fun x => desc.scratch && decide (2 ^ 20 < x.addr + 4)
    let p ← o.frag.win.reg t.info.vphys d.toNat
    let sw := decide (9 ≤ desc.op)
    let fs := collFlits desc chunk (bitsOf w.toNat 31 20) xs
    waitWhile (sw && paused s desc.group chunk) (.other 0)
    waitWhile (decide (2 ^ 24 ≤ t.acks + fs.length)) (.other 0)
    let id := s.fab.collSeq
    let base := s.fab.outSeq
    let back := desc.op == 1 || desc.op == 2
    let c : Coll := {
      owner := t.seqNo, core := i.core, node := t.info.node, frag := i.frag, reg := p, op := desc.op, group := desc.group,
      chunk := chunk, batch := t.batch, pending := (List.range fs.length).map (base + ·),
      lanes := if back then collLanes desc base fs xs else [],
      win := sw && xs.any fun x => (contribOf desc.fields.w x.data).2 }
    let t := eFinish t o false 0
    let t := if back then t.modFrag i.frag fun f => { f with hold := some id } else t
    let s := s.setTeam i.wid t
    let s := { s with fab := { s.fab with colls := tabSet s.fab.colls id c, collSeq := id + 1 } }
    let s := if sw then noteChunk s desc.group chunk else s
    .ok (fs.foldl (fun s f => sendFlit s
      { flit := f, owner := .coll id, node := t.info.node, ctx := t.info.ctx, counted := some t.seqNo }) s)

/-! ## The root -/

/-- Write bytes at a virtual address of a context for the Apex die; none when the address does not translate. -/
def apexVirtWrite (s : State) (ctx va : Nat) (bs : List Byte) : Option State :=
  match xlateApex s ctx va with
  | .hit l pa =>
    if (pageCheck (.hit l pa) true 0).1.isSome || decide (2 ^ 57 ≤ va) then none
    else some (physWrite s apexAccess pa bs l.attr 0 .clear)
  | _ => none

/-- The fault domain that a context's region reports to: the loaded region of lowest number that has the context. -/
def ctxNode (s : State) (ctx : Nat) : Option Nat := (s.dev.nodes.find? fun p => p.2.loaded && p.2.ctx == ctx).map (·.1)

/-- Change the record state of a chunk (R291). -/
def modChunk (s : State) (group chunk : Nat) (f : ChunkRec → ChunkRec) : State :=
  let one := fun (c : ChunkRec) => if c.group = group ∧ c.chunk = chunk then f c else c
  { s with fab := { s.fab with chunks := s.fab.chunks.map one } }

/-- The completion record of a chunk (Table 13-5). -/
def chunkRecord (c : ChunkRec) : List Byte :=
  recordBytes 32 [(0, 4, c.chunk), (4, 4, c.completed), (8, 4, c.rejected), (12, 4, c.abandoned), (16, 1, c.flags.toNat),
    (17, 1, 1)]

/-- Every unit of a chunk has completed or been abandoned: its record is written, and then its counter raised (R291). -/
def finishChunk (s : State) (group chunk : Nat) : State :=
  match s.fab.chunks.find? fun c => c.group = group ∧ c.chunk = chunk with
  | none => s
  | some c =>
    if c.completed + c.abandoned < c.fields.units then s
    else
      let s := { s with fab := { s.fab with chunks := s.fab.chunks.filter fun x => !(x.group = group ∧ x.chunk = chunk) } }
      let s :=
        if c.fields.crec = 0 then s
        else
          let at_ := c.fields.crec + 32 * (chunk % 16)
          match apexVirtWrite s c.ctx at_ (chunkRecord c) with
          | some s => s
          | none => faultRecord s (ctxNode s c.ctx) 0x143 5 0xFFF 0 [[(24, 2, group), (28, 4, chunk), (32, 8, at_)]]
      if c.fields.cen then raiseCtr s c.fields.ccore c.fields.cctr 1 else s

/-- A unit is complete: each present word is written once, and the unit is free (R290). -/
def finishUnit (s : State) (u : RootUnit) : State :=
  let one := fun (a : State × BitVec 7) (p : Nat × Contrib) =>
    let r := p.2.deliver u.fields.w
    ((apexVirtWrite a.1 u.ctx (64 * u.unit + 4 * p.1) (natLe 4 r.1)).getD a.1, a.2 ||| r.2)
  let r := u.sums.foldl one (s, 0)
  let s := { r.1 with fab := { r.1.fab with units := r.1.fab.units.filter fun x =>
    !(x.group = u.group ∧ x.chunk = u.chunk ∧ x.unit = u.unit) } }
  finishChunk (modChunk s u.group u.chunk fun c => { c with completed := c.completed + 1, flags := c.flags ||| r.2 })
    u.group u.chunk

/-- The acknowledgement of a flit of the switch path (R286). -/
def answerRoot (s : State) (x : RootFlit) (cause : Nat) : State :=
  if x.src = s.dev.devId then completeFlit s x.num cause false []
  else { s with fab := { s.fab with reply := some { dev := x.src, num := x.num, cause := cause, stale := false, words := [] } } }

/-- A flit joins the unit of its key, or is rejected (R288, R289). -/
def joinUnit (s : State) (x : RootFlit) (u : RootUnit) : State :=
  let f := x.flit
  if (f.contribs.any fun c => u.bitmap.contains c) || f.fields != some u.fields then
    answerRoot (modChunk s u.group u.chunk fun c => { c with rejected := c.rejected + 1 }) x 0
  else
    let u := { u with sums := joinSums u.fields.op u.sums f.sums, bitmap := u.bitmap ++ f.contribs }
    let key := fun (y : RootUnit) => y.group = u.group ∧ y.chunk = u.chunk ∧ y.unit = u.unit
    let put := fun (y : RootUnit) => if key y then u else y
    let s := answerRoot { s with fab := { s.fab with units := s.fab.units.map put } } x 0
    if u.fields.ncontrib ≤ u.bitmap.length then finishUnit s u else s

/-- ROOT_FLIT (R288, R289, R290): a flit that waits at the root is refused, joins its unit, claims a unit, or goes on waiting where none
is free. -/
def rootFlit (s : State) (n : Nat) : State :=
  match s.fab.rootIn[n]? with
  | none => s
  | some x =>
    let gone := { s with fab := { s.fab with rootIn := s.fab.rootIn.eraseIdx n } }
    let f := x.flit
    match flitHome s x.src (64 * f.unit) 64 true, f.fields with
    | none, _ => s
    | _, none => gone
    | some (.error c), _ => answerRoot gone x c
    | some (.ok _), some fields =>
      match s.fab.units.find? fun u => u.group = f.group ∧ u.chunk = f.chunk ∧ u.unit = f.unit with
      | some u => joinUnit gone x u
      | none =>
        if 2048 ≤ s.fab.units.length then s
        else
          let ctx := match windowOf s x.src (64 * f.unit) 64 with | .ok c => c | .error _ => 0
          let u : RootUnit := { group := f.group, chunk := f.chunk, unit := f.unit, ctx := ctx, fields := fields, since := s.dev.time }
          let known := s.fab.chunks.any fun c => c.group = f.group ∧ c.chunk = f.chunk
          let new : List ChunkRec := if known then [] else [{ group := f.group, chunk := f.chunk, ctx := ctx, fields := fields }]
          let s := { gone with fab := { gone.fab with units := gone.fab.units ++ [u], chunks := gone.fab.chunks ++ new } }
          joinUnit s x u

/-- UNIT_ABANDON (R290): a unit that has not completed 2^24 Apex cycles after its first flit. -/
def unitAbandon (s : State) (n : Nat) : State :=
  match s.fab.units[n]? with
  | none => s
  | some u =>
    if s.dev.time < u.since + 2 ^ 24 then s
    else
      let s := { s with fab := { s.fab with units := s.fab.units.eraseIdx n } }
      let s := faultRecord s (ctxNode s u.ctx) 0x144 5 0xFFF 0 [[(24, 2, u.group), (28, 4, u.chunk), (32, 8, 64 * u.unit)]]
      finishChunk (modChunk s u.group u.chunk fun c => { c with abandoned := c.abandoned + 1 }) u.group u.chunk

end Sys2Proof.Machine
end

