-- ==== Sys2Proof/Machine/TaskRing.lean ====
section
/-!
DEFINITION. Machine/TaskRing.lean: the task-queue leaf of a core with its spill ring in HBM (R357 to R360), and the responders' part in
a census (R299 to R301).
-/
namespace Sys2Proof.Machine

/-! ## The ring -/

/-- The task ring of a core (R358). -/
def taskRing (s : State) (core : Nat) : Nat := tabGetD 0 s.host.bring.tasks core

/-- HEAD, TAIL and COUNT of a ring (Table 18-2). -/
def ringWord (s : State) (core k : Nat) : Nat := memNat s.mem (taskRing s core + 4 * k) 4

/-- Set HEAD, TAIL or COUNT. -/
def setRingWord (s : State) (core k v : Nat) : State := apexWrite s (taskRing s core + 4 * k) (natLe 4 v)

/-- The address of a slot (Table 18-2). -/
def slotAddr (s : State) (core k : Nat) : Nat := taskRing s core + 64 + 64 * k

/-- STATE of a slot: 0 FREE, 1 QUEUED, 2 LENT, 3 TAKEN. -/
def slotState (s : State) (core k : Nat) : Nat := memNat s.mem (slotAddr s core k + 32) 1 % 4

/-- Set the state of a slot. -/
def setSlotState (s : State) (core k v : Nat) : State := apexWrite s (slotAddr s core k + 32) (natLe 1 v)

/-- The record in a slot. -/
def slotWords (s : State) (core k : Nat) : List Word :=
  (List.range 8).map fun i => BitVec.ofNat 32 (memNat s.mem (slotAddr s core k + 4 * i) 4)

/-- The task-queue leaf of a core (R332). -/
def taskLeaf (core : Nat) : Nat := leafId 2 core

/-- RESP and NOSTEAL of a record (Table 18-1). -/
def recordResp (ws : List Word) : Bool := bit (ws.getD 0 0) 16
def recordNosteal (ws : List Word) : Bool := bit (ws.getD 0 0) 17

/-- Note since when the record at the head of a core's task leaf has stood there (R361). -/
def noteHead (s : State) (core : Nat) : State :=
  let head := (leafHead s.now (s.leaf (taskLeaf core))).map (·.stamp)
  let k := s.core core
  if k.headStamp = head then s else s.setCore core { k with headStamp := head, headSince := s.dev.time }

/-- A record enters the leaf in push order (R360). -/
def enterTask (s : State) (core : Nat) (ws : List Word) : State :=
  let x : LeafItem := { rank := (ws.getD 1 0).toNat, stamp := s.dev.pushSeq, work := .task ws }
  noteHead (reenterLeaf { s with dev := { s.dev with pushSeq := s.dev.pushSeq + 1 } } (taskLeaf core) x) core

/-- Push a record to a core's task-queue leaf, or spill it (R359); none while it must wait. -/
def pushTask (s : State) (core : Nat) (ws : List Word) : Option State :=
  let count := ringWord s core 2
  if count = 0 ∧ (s.leaf (taskLeaf core)).items.length < leafCap (taskLeaf core) then some (enterTask s core ws)
  else if 4096 ≤ count then none
  else
    let tail := ringWord s core 1 % 4096
    let slot := (ws.flatMap fun w => natLe 4 w.toNat) ++ natLe 8 1 ++ natLe 8 (s.dev.time % 2 ^ 64)
    let s := apexWrite s (slotAddr s core tail) slot
    some (setRingWord (setRingWord s core 1 ((tail + 1) % 4096)) core 2 (count + 1))

/-- Waiting spawns of a core are placed while there is room (R359). -/
def placeSpawns (core : Nat) : Nat → State → State
  | 0, s => s
  | n + 1, s =>
    match (s.core core).spawns with
    | [] => s
    | ws :: rest =>
      match pushTask s core ws with
      | none => s
      | some s =>
        let k := s.core core
        placeSpawns core n (s.setCore core { k with spawns := rest })

/-- TASK_REFILL (R360): one slot of the ring at HEAD gives its record back to the leaf, or is passed over. -/
def refillTask (s : State) (core : Nat) : State :=
  let head := ringWord s core 0 % 4096
  let count := ringWord s core 2
  let free := fun (s : State) => setRingWord (setRingWord (setSlotState s core head 0) core 0 ((head + 1) % 4096)) core 2 (count - 1)
  let s :=
    if count = 0 ∨ leafCap (taskLeaf core) ≤ (s.leaf (taskLeaf core)).items.length then s
    else match slotState s core head with
      | 1 => enterTask (free s) core (slotWords s core head)
      | 3 => free s
      | _ => s
  placeSpawns core (s.core core).spawns.length s

/-! ## A census and its responders -/

/-- The combine operations of a solicit, with their identities (R295). -/
def censusJoin (op : Nat) (a b : DWord) : DWord :=
  match op with
  | 0 => a + b
  | 1 => if a.toNat ≤ b.toNat then a else b
  | 2 => if a.toNat ≤ b.toNat then b else a
  | _ => a ||| b

/-- The identity of an operation (R295). -/
def censusIdentity (op : Nat) : DWord := if op = 1 then BitVec.allOnes 64 else 0

/-- Change an entry of the census root. -/
def State.modCensus (s : State) (stamp : Nat) (f : Census → Census) : State :=
  { s with fab := { s.fab with census := tabMod s.fab.census stamp f } }

/-- A responder of a core has ended: its contribution joins the core's answer, and a failure marks the census (R300, R301). -/
def endResponder (s : State) (core stamp : Nat) (value : Option DWord) (failed : Bool) : State :=
  s.modCensus stamp fun c =>
    let k := tabGetD {} c.cores core
    let k := { k with waiting := k.waiting - 1, count := k.count + 1,
                      acc := censusJoin c.op k.acc (value.getD (censusIdentity c.op)) }
    { c with cores := tabSet c.cores core k, failed := c.failed || failed }

/-- A team's held task ends (R365, R366, R434). -/
def endHeld (s : State) (wid : Nat) (failed : Bool) : State :=
  match s.team? wid with
  | none => s
  | some t =>
    match t.task with
    | none => s
    | some h =>
      let s := s.setTeam wid { t with task := none }
      match h.resp with
      | none => s
      | some stamp => endResponder s (coreOf wid) stamp (if failed then none else h.given) failed

end Sys2Proof.Machine
end

