-- ==== Sys2Proof/Machine/Tasks.lean ====
section
/-!
DEFINITION. Machine/Tasks.lean: micro-tasks: TASKADD, TASKGET, TASKEND and TASKSTEAL (R362 to R368), and the task engine's watchdog,
limit, lends and leases (R361, R366, R367).
-/
namespace Sys2Proof.Machine

/-- A team may use a core's task-queue leaf: its region's node is the leaf's parent or an ancestor of it (R362). -/
def taskAllowed (s : State) (t : Team) (core : Nat) : Bool :=
  match (s.leaf (taskLeaf core)).parent with
  | some p => nodeAbove s t.info.node 16 p
  | none => false

/-- The four registers of a record, from s`d` on (R362). -/
def recordIn (t : Team) (d : Nat) : Act (List Word) := do
  let vs ← (List.range 4).mapM fun k => readS t (d + k)
  .ok (vs.flatMap fun v => [v.extractLsb' 0 32, v.extractLsb' 32 32])

/-- Write a record to four registers (R362). -/
def recordOut (t : Team) (d : Nat) (ws : List Word) : Act Team :=
  (List.range 4).foldlM (fun t k => writeS t (d + k) (ws.getD (2 * k + 1) 0 ++ ws.getD (2 * k) 0)) t

/-- The record that reports that nothing was found (R357). -/
def noRecord : List Word := [0xFFFFFFFF, 0, 0, 0, 0, 0, 0, 0]

/-- The task that a record gives the team that takes it from a leaf of a node (R362, R366). -/
def heldOf (ws : List Word) (node : Nat) : HeldTask :=
  { words := ws, node := node, resp := if recordResp ws then some (ws.getD 7 0).toNat else none }

/-- TASKADD (R363). -/
def execTaskadd (d : BitVec 6) (a : BitVec 7) (s : State) : Host.Outcome State Fault Refusal :=
  issue (.taskadd d a) plain s fun i t s => do
    let v := (← sourceA i t (coreWord s i.core) a).toNat
    let ws ← recordIn t d.toNat
    raiseIf (decide (2 ^ 9 ≤ v)) 0x114
    let core := if v < 256 then i.core else v % 256
    raiseIf (!taskAllowed s t core) 0x117
    raiseIf (bitsOf (ws.getD 0 0).toNat 31 18 != 0 || bitsOf (ws.getD 0 0).toNat 15 12 != 0 || recordResp ws) 0x115
    match pushTask (advanceGen s i.wid) core ws with
    | none => waitOn (.other (taskLeaf core))
    | some s => .ok s

/-- The record that a core's task-queue leaf has at its head. -/
def taskHead (s : State) (core : Nat) : Option (LeafItem × List Word) :=
  match leafHead s.now (s.leaf (taskLeaf core)) with
  | some x => match x.work with | .task ws => some (x, ws) | _ => none
  | none => none

/-- The teams of a core, other than one, whose TASKGET waits, each with the time since which it does. -/
def taskWaiters (s : State) (core wid : Nat) : List (Nat × Nat) :=
  (s.teams.filter fun p => coreOf p.1 = core ∧ p.1 ≠ wid ∧ p.2.a.wait = some .task ∧ p.2.canIssue .a).map fun p => (p.2.a.since, p.1)

/-- A team takes the head of its core's leaf (R364). -/
def takeTask (s : State) (i : Issue) (t : Team) (d : Nat) (x : LeafItem) (ws : List Word) : Act State := do
  let t ← recordOut t d ws
  let node := ((s.leaf (taskLeaf i.core)).parent).getD 0
  let t := { t with task := some (heldOf ws node), acq := [] }
  .ok (noteHead ((takeItem s (taskLeaf i.core) x).setTeam i.wid t) i.core)

/-- TASKGET (R362, R364): the head goes to the team that has waited longest, the lower slot among equals. -/
def execTaskget (d : BitVec 6) (s : State) : Host.Outcome State Fault Refusal :=
  issue (.taskget d) plain s fun i t s0 => do
    let _ ← recordIn t d.toNat
    raiseIf t.task.isSome 0x116
    raiseIf (!taskAllowed s0 t i.core) 0x117
    let since := match s.team? i.wid with
      | some t => if t.a.wait = some .task then t.a.since else s.dev.time
      | none => s.dev.time
    match taskHead s0 i.core with
    | none => waitOn .task
    | some (x, ws) =>
      waitWhile ((taskWaiters s0 i.core i.wid).any fun w => decide (w.1 < since) || (w.1 == since && decide (w.2 < i.wid))) .task
      takeTask s0 i t d.toNat x ws

/-- TASKGET.POLL (R362, R364). -/
def execTaskgetPoll (d : BitVec 6) (s : State) : Host.Outcome State Fault Refusal :=
  issue (.taskgetPoll d) plain s fun i t s => do
    let _ ← recordIn t d.toNat
    raiseIf t.task.isSome 0x116
    raiseIf (!taskAllowed s t i.core) 0x117
    match taskHead s i.core, taskWaiters s i.core i.wid with
    | some (x, ws), [] => takeTask s i t d.toNat x ws
    | _, _ => do
      let t ← recordOut t d.toNat noRecord
      .ok (s.setTeam i.wid t)

/-- TASKEND (R365). -/
def execTaskend (s : State) : Host.Outcome State Fault Refusal :=
  issue .taskend plain s fun i t s => do
    raiseIf t.task.isNone 0x116
    .ok (endHeld s i.wid false)

/-- TASKSTEAL (R367): it waits until the victim's engine has replied, with no record or with the one that its commit took. -/
def execTasksteal (d : BitVec 6) (a : BitVec 7) (s : State) : Host.Outcome State Fault Refusal :=
  issue (.tasksteal d a) plain s fun i t s => do
    let v := (← sourceA i t (coreWord s i.core) a).toNat
    let _ ← recordIn t d.toNat
    match t.stolen with
    | some r => do
      let t ← recordOut t d.toNat (r.getD noRecord)
      .ok (s.setTeam i.wid { t with stolen := none, acq := if r.isSome then [] else t.acq })
    | none => do
      raiseIf t.task.isSome 0x116
      raiseIf (decide (256 ≤ v) || v == i.core || clusterOf v != clusterOf i.core) 0x11A
      raiseIf (!taskAllowed s t v) 0x117
      waitOn (.steal v)

/-- The newest slot of a ring that may be lent (R367). -/
def lendable (s : State) (core : Nat) : Option Nat :=
  let tail := ringWord s core 1 % 4096
  let slots := (List.range (ringWord s core 2)).map fun j => (tail + 4095 - j) % 4096
  slots.find? fun k =>
    let ws := slotWords s core k
    slotState s core k = 1 && !recordNosteal ws && !recordResp ws

/-- TASK_LEND (R367): the victim's engine lends a record to a waiting TASKSTEAL, or has none. -/
def lendTask (s : State) (wid : Nat) : State :=
  match s.team? wid with
  | none => s
  | some t =>
    match t.a.wait with
    | some (.steal v) =>
      if t.lend.isSome || t.stolen.isSome then s
      else
        let same := (s.leaf (taskLeaf v)).parent == (s.leaf (taskLeaf (coreOf wid))).parent
        match if same then lendable s v else none with
        | none => s.setTeam wid { t with stolen := some none }
        | some k =>
          let c := s.core v
          let ws := slotWords s v k
          let lend : Lend := { victim := v, words := ws, slot := k, ticket := c.lends % 2 ^ 32 }
          let s := apexWrite s (slotAddr s v k + 32) [2, BitVec.ofNat 8 (coreOf wid), 0, 0]
          let s := apexWrite s (slotAddr s v k + 36) (natLe 4 c.lends)
          let lease : Lease := { slot := k, ticket := c.lends % 2 ^ 32, ends := s.dev.time + 4 * microsecond }
          let s := s.setCore v { c with lends := c.lends + 1, leases := c.leases ++ [lease] }
          s.setTeam wid { t with lend := some lend }
    | _ => s

/-- A slot is LENT under a ticket. -/
def lentUnder (s : State) (core slot ticket : Nat) : Bool :=
  slotState s core slot == 2 && memNat s.mem (slotAddr s core slot + 36) 4 == ticket

/-- TASK_COMMIT (R367): before the lease ends, the lent slot becomes TAKEN and its record the thief's. -/
def commitTask (s : State) (wid : Nat) : State :=
  match s.team? wid with
  | none => s
  | some t =>
    match t.lend with
    | none => s
    | some l =>
      let inTime := (s.core l.victim).leases.any fun x => x.slot = l.slot ∧ x.ticket = l.ticket ∧ s.dev.time < x.ends
      if lentUnder s l.victim l.slot l.ticket && inTime then
        let node := ((s.leaf (taskLeaf l.victim)).parent).getD 0
        (setSlotState s l.victim l.slot 3).setTeam wid
          { t with lend := none, stolen := some (some l.words), task := some (heldOf l.words node) }
      else s.setTeam wid { t with lend := none, stolen := some none }

/-- LEASE_EXPIRY (R367, R368): the first lease of a core that has ended returns its slot. -/
def expireLease (s : State) (core : Nat) : State :=
  let c := s.core core
  match c.leases.find? fun l => decide (l.ends ≤ s.dev.time) with
  | none => s
  | some l =>
    let s := s.setCore core { c with leases := c.leases.filter (· ≠ l) }
    if lentUnder s core l.slot l.ticket then setSlotState s core l.slot 1 else s

/-- TASK_HEAD_WATCHDOG (R361): a record that has stood at the head for the watchdog interval. -/
def headWatchdog (s : State) (core : Nat) : State :=
  match (s.leaf (taskLeaf core)).parent, taskHead s core with
  | some p, some (x, ws) =>
    let k := s.core core
    if k.headStamp ≠ some x.stamp then noteHead s core
    else if s.dev.time < k.headSince + (s.region p).wdog * microsecond then s
    else
      let s := faultRecord s (some p) 0x119 3 core 0 [[(24, 2, taskLeaf core), (28, 4, x.rank), (32, 4, x.rank)]]
      if recordResp ws then
        endResponder (noteHead (takeItem s (taskLeaf core) x) core) core (ws.getD 7 0).toNat none true
      else s.setCore core { k with headSince := s.dev.time }
  | _, _ => s

/-- TASK_CYCLE_LIMIT (R366): a held task that has used TASKLIM cycles ends as failed. -/
def taskLimit (s : State) (wid : Nat) : State :=
  match s.team? wid with
  | none => s
  | some t =>
    match t.task with
    | none => s
    | some h =>
      if h.cycles < (s.region h.node).taskLim then s
      else
        let s := faultRecord s (loadedNode s h.node) 0x118 0 (coreOf wid) (teamIdWord t wid) [[(24, 8, t.a.pc.toNat)]]
        (endHeld s wid true).modTeam wid fun t => holdCause t { cause := 0x118, kind := .taskLimit }

end Sys2Proof.Machine
end

