-- ==== Sys2Proof/Machine/Census.lean ====
section
/-!
DEFINITION. Machine/Census.lean: tile directories and handlers (R293, R294, R296 to R298), solicits and their delivery (R295, R299,
R303), and the census (R300 to R302).
-/
namespace Sys2Proof.Machine

/-! ## Directories -/

/-- An operand names a live entry of a core's directory: its index, else cause 0x147 (R296, R297). -/
def liveEntry (s : State) (core : Nat) (a : DWord) : Act (Nat × DirEntry) :=
  match tabGet (s.core core).dir (a.toNat % 256) with
  | some e => if a.toNat < 256 ∧ e.state = .live then .ok (a.toNat, e) else raise 0x147
  | none => raise 0x147

/-- Change a core's directory. -/
def State.setDir (s : State) (core : Nat) (f : Tab DirEntry → Tab DirEntry) : State :=
  let k := s.core core
  s.setCore core { k with dir := f k.dir }

/-- SOLICIT.INS (R296). -/
def execSolicitIns (d : BitVec 6) (a b : BitVec 7) (s : State) : Host.Outcome State Fault Refusal :=
  issue (.solicitIns d a b) plain s fun i t s => do
    let key ← sourceA i t (coreWord s i.core) a
    let handle ← sourceA i t (coreWord s i.core) b
    let _ ← t.a.win.reg 256 d.toNat
    match tabFree (s.core i.core).dir 256 with
    | none => raise 0x146
    | some n => do
      let t ← writeS t d.toNat (BitVec.ofNat 64 n)
      let e : DirEntry := { key := key, handle := handle, state := .live, node := t.info.node }
      .ok ((s.setDir i.core fun m => tabSet m n e).setTeam i.wid t)

/-- SOLICIT.DEL (R296). -/
def execSolicitDel (a : BitVec 7) (s : State) : Host.Outcome State Fault Refusal :=
  issue (.solicitDel a) plain s fun i t s => do
    let v ← sourceA i t (coreWord s i.core) a
    let e ← liveEntry s i.core v
    .ok (s.setDir i.core fun m => tabDel m e.1)

/-- SOLICIT.MOVE (R297): it waits for the destination's reply, which names the entry there or refuses. -/
def execSolicitMove (d : BitVec 6) (a b : BitVec 7) (s : State) : Host.Outcome State Fault Refusal :=
  issue (.solicitMove d a b) plain s fun i t s => do
    let v ← sourceA i t (coreWord s i.core) a
    let w := (← sourceA i t (coreWord s i.core) b).toNat
    let _ ← t.a.win.reg 256 d.toNat
    match t.moveReply.filter fun r => r.1 = v.toNat ∧ r.2.1 = w with
    | some (_, _, none) => raise 0x146
    | some (_, _, some j) => do
      let ticket := w + j * 2 ^ 8 + v.toNat * 2 ^ 16
      let t ← writeS t d.toNat (BitVec.ofNat 64 ticket)
      .ok (s.setTeam i.wid { t with moveReply := none, moves := t.moves ++ [ticket] })
    | none => do
      raiseIf (decide (256 ≤ w)) 0x147
      let _ ← liveEntry s i.core v
      waitOn (.move v.toNat w)

/-- MOVE_REQUEST (R297, Table 13-6): the destination core of a team's SOLICIT.MOVE takes the tile into its lowest free entry, or
refuses. -/
def moveRequest (s : State) (wid : Nat) : State :=
  match s.team? wid with
  | none => s
  | some t =>
    match t.a.wait with
    | some (.move n dest) =>
      if t.moveReply.isSome then s
      else
        let src := coreOf wid
        match tabFree (s.core dest).dir 256, tabGet (s.core src).dir n with
        | some j, some e =>
          let s := s.setDir dest fun m => tabSet m j { e with state := .inn, partner := (src, n) }
          let s := s.setDir src fun m => tabSet m n { e with state := .out, partner := (dest, j) }
          s.setTeam wid { t with moveReply := some (n, dest, some j) }
        | _, _ => s.setTeam wid { t with moveReply := some (n, dest, none) }
    | _ => s

/-- Broadcast under the next stamp (R295, R297). -/
def broadcast (s : State) (b : Broadcast) : State :=
  { s with fab := { s.fab with stamp := (s.fab.stamp + 1) % 2 ^ 32, broadcasts := tabSet s.fab.broadcasts s.fab.stamp b } }

/-- SOLICIT.COMMIT (R297). -/
def execSolicitCommit (d : BitVec 6) (a b : BitVec 7) (s : State) : Host.Outcome State Fault Refusal :=
  issue (.solicitCommit d a b) plain s fun i t s => do
    let v := (← sourceA i t (coreWord s i.core) a).toNat
    let handle ← sourceA i t (coreWord s i.core) b
    let _ ← t.a.win.reg 256 d.toNat
    raiseIf (!t.moves.contains v) 0x147
    let t ← writeS { t with moves := t.moves.filter (· ≠ v) } d.toNat (BitVec.ofNat 64 s.fab.stamp)
    .ok (broadcast (s.setTeam i.wid t) (.commit i.core (bitsOf v 23 16) (bitsOf v 7 0) (bitsOf v 15 8) handle))

/-- SOLICIT.REG (R298). -/
def execSolicitReg (a b : BitVec 7) (s : State) : Host.Outcome State Fault Refusal :=
  issue (.solicitReg a b) plain s fun i t s => do
    let n := (← sourceA i t (coreWord s i.core) a).toNat
    let v ← sourceA i t (coreWord s i.core) b
    raiseIf (decide (15 < n)) 0x009
    let k := s.core i.core
    let h : Handler := { word0 := v.extractLsb' 0 32, rank := (v.extractLsb' 32 32).toNat, node := t.info.node }
    .ok (s.setCore i.core { k with handlers := if v = 0 then tabDel k.handlers n else tabSet k.handlers n h })

/-! ## Solicits -/

/-- The fields of an EXT hint, e and g, as values of the A-stream (R71). -/
def extSources (i : Issue) (t : Team) (core : Nat) : Act (DWord × DWord) :=
  match i.hint with
  | some (.ext g e) => do .ok (← sourceA i t core e, ← sourceA i t core g)
  | _ => raise 0x00A

/-- Check a uniform access that no translation register covers, in the order of R107, and wait for its page (R108). -/
def uniformPage (s : State) (i : Issue) (t : Team) (va size : Nat) (k : AccessKind) : Act Unit :=
  match checkAccess s i.core t.info.ctx { valid := true } none va size k with
  | .cause c => raiseWith c { value := BitVec.ofNat 64 va }
  | .need n => awaitPages t i.stream [va] [n]
  | .at_ _ => .ok ()

/-- SOLICIT.SUM, .MIN, .MAX and .OR (R295). -/
def execSolicit (d : BitVec 6) (a b : BitVec 7) (o : BitVec 2) (s : State) : Host.Outcome State Fault Refusal :=
  issue (.solicit d a b o) plain s fun i t s => do
    let key ← sourceA i t (coreWord s i.core) a
    let mask ← sourceA i t (coreWord s i.core) b
    let (e, g) ← extSources i t (coreWord s i.core)
    let _ ← t.a.win.reg 256 d.toNat
    raiseIf (e.extractLsb' 42 22 != 0) 0x14C
    let records := bit e 41
    if records then uniformPage s i t g.toNat 16 .write
    waitWhile (decide (64 ≤ s.fab.census.length) || decide (8 ≤ t.solicits.length)) (.other 0)
    let stamp := s.fab.stamp
    let c : Census := {
      owner := t.seqNo, core := i.core, node := t.info.node, ctx := t.info.ctx, op := o.toNat, key := key, mask := mask,
      arg := (e.extractLsb' 0 32).toNat, ctrl := e.toNat, recAddr := g.toNat, acc := censusIdentity o.toNat }
    let t ← writeS { t with solicits := t.solicits ++ [stamp] } d.toNat (BitVec.ofNat 64 stamp)
    let s := broadcast (advanceGen (s.setTeam i.wid t) i.wid) .solicit
    .ok { s with fab := { s.fab with census := tabSet s.fab.census stamp c } }

/-- A broadcast has reached every core; it is forgotten. -/
def dropBroadcast (s : State) (stamp : Nat) : State :=
  let age := (s.fab.stamp + 2 ^ 32 - stamp) % 2 ^ 32
  let passed := (List.range 256).all fun c => decide ((s.fab.stamp + 2 ^ 32 - (s.core c).stamp) % 2 ^ 32 < age)
  if passed then { s with fab := { s.fab with broadcasts := tabDel s.fab.broadcasts stamp } } else s

/-- A core has received the broadcast of its stamp. -/
def nextStamp (s : State) (core : Nat) : State :=
  let k := s.core core
  dropBroadcast (s.setCore core { k with stamp := (k.stamp + 1) % 2 ^ 32 }) k.stamp

/-- The record of a responder (Tables 13-8 and 18-1). -/
def responderRecord (h : Handler) (e : DirEntry) (arg stamp : Nat) : List Word :=
  let w0 := (h.word0 &&& 0x00020FFF) ||| 0x00010000
  [w0, BitVec.ofNat 32 h.rank, e.key.extractLsb' 0 32, e.key.extractLsb' 32 32, e.handle.extractLsb' 0 32,
    e.handle.extractLsb' 32 32, BitVec.ofNat 32 arg, BitVec.ofNat 32 stamp]

/-- The entries of a core that match a solicit, in ascending index (R299). -/
def matches_ (s : State) (core : Nat) (c : Census) : List DirEntry :=
  ((s.core core).dir.filter fun p => (p.2.state == .live || p.2.state == .out) && (p.2.key ^^^ c.key) &&& c.mask == 0).map (·.2)

/-- SOLICIT_DELIVERY (R299): the solicit of a core's next stamp reaches it, and its matches spawn their responders. -/
def deliverSolicit (s : State) (core : Nat) : State :=
  let s := placeSpawns core (s.core core).spawns.length s
  let k := s.core core
  match tabGet s.fab.broadcasts k.stamp with
  | some .solicit =>
    if !k.spawns.isEmpty then s
    else
      match tabGet s.fab.census k.stamp with
      | none => nextStamp s core
      | some c =>
        let found := matches_ s core c
        let recs := found.filterMap fun e =>
          (tabGet k.handlers (e.key.extractLsb' 60 4).toNat).map fun h => responderRecord h e c.arg k.stamp
        let part : CoreCensus := { waiting := recs.length, acc := censusIdentity c.op, count := found.length - recs.length }
        let s := s.modCensus k.stamp fun c => { c with cores := tabSet c.cores core part }
        let s := s.setCore core { k with spawns := recs }
        nextStamp (placeSpawns core recs.length s) core
  | _ => s

/-- COMMIT_DELIVERY (R297, R303): the commit of a core's next stamp reaches it. -/
def deliverCommit (s : State) (core : Nat) : State :=
  let s := placeSpawns core (s.core core).spawns.length s
  let k := s.core core
  match tabGet s.fab.broadcasts k.stamp with
  | some (.commit src n dst j handle) =>
    if !k.spawns.isEmpty then s
    else
      let freeSrc := fun (m : Tab DirEntry) =>
        if core = src ∧ (tabGet m n).any (fun e => e.state = .out ∧ e.partner = (dst, j)) then tabDel m n else m
      let land := fun (e : DirEntry) =>
        if e.state = .inn ∧ e.partner = (src, n) then { e with state := .live, handle := handle, partner := (0, 0) } else e
      let landDst := fun (m : Tab DirEntry) => if core = dst then tabMod m j land else m
      nextStamp (s.setDir core fun m => landDst (freeSrc m)) core
  | _ => s

/-- The moving team has retired before its commits: each source is LIVE again, each destination FREE (Table 13-6). -/
def undoMoves (s : State) (core : Nat) (tickets : List Nat) : State :=
  tickets.foldl (fun s v =>
    match tabGet (s.core core).dir (bitsOf v 23 16) with
    | some e =>
      if e.state ≠ .out then s
      else
        let s := s.setDir core fun m => tabSet m (bitsOf v 23 16) { e with state := .live, partner := (0, 0) }
        s.setDir e.partner.1 fun m => tabDel m e.partner.2
    | none => s) s

/-! ## The census -/

/-- RESPOND (R300). -/
def execRespond (a : BitVec 7) (s : State) : Host.Outcome State Fault Refusal :=
  issue (.respond a) plain s fun i t s => do
    let v ← sourceA i t (coreWord s i.core) a
    match t.task with
    | none => raise 0x148
    | some h => do
      raiseIf (h.resp.isNone || h.given.isSome) 0x148
      .ok (advanceGen (s.setTeam i.wid { t with task := some { h with given := some v } }) i.wid)

/-- The counter of a census that is complete is raised, and its entry left for its CENSUS (R301, R302). -/
def settleCensus (s : State) (stamp : Nat) (c : Census) : State :=
  let s := if bitsOf c.ctrl 40 40 = 1 then raiseCtr s c.core (bitsOf c.ctrl 39 32) 1 else s
  let s := forgetRefused s (.apex (2 * stamp + 1))
  if c.orphan then { s with fab := { s.fab with census := tabDel s.fab.census stamp } }
  else s.modCensus stamp fun c => { c with complete := true }

/-- The record of a census cannot be written (R301). -/
def censusUnwritable (s : State) (stamp : Nat) (c : Census) : State :=
  faultRecord s (loadedNode s c.node) 0x14D 5 0xFFF 0 [[(28, 4, stamp), (32, 8, c.recAddr)]]

/-- Every core has answered: the record is written, once its page is resident, and the counter raised (R301). -/
def finishCensus (s : State) (stamp : Nat) (c : Census) : State :=
  if bitsOf c.ctrl 41 41 = 0 then settleCensus s stamp c
  else
    let bs := natLe 8 c.acc.toNat ++ natLe 4 c.count ++ natLe 4 stamp
    let who := 2 * stamp + 1
    match xlateApex s c.ctx c.recAddr with
    | .held => s
    | .absent l =>
      let need : PageNeed := ⟨l.vbase, l.size, 2⟩
      if !l.attr.w || wasRefused s (.apex who) [need] then settleCensus (censusUnwritable s stamp c) stamp c
      else requestApex s c.ctx c.node who need
    | _ => match apexVirtWrite s c.ctx c.recAddr bs with
      | some s => settleCensus s stamp c
      | none => settleCensus (censusUnwritable s stamp c) stamp c

/-- CORE_ANSWER (R301): a core whose responders of a stamp have all ended answers; the census completes after the last answer. -/
def answerCore (s : State) (core stamp : Nat) : State :=
  match tabGet s.fab.census stamp with
  | none => s
  | some c =>
    if c.complete then s
    else if c.summed then finishCensus s stamp c
    else match tabGet c.cores core with
      | none => s
      | some k =>
        if k.answered || k.waiting ≠ 0 then s
        else
          let cores := tabSet c.cores core { k with answered := true }
          let all := (List.range 256).all fun n => (tabGet cores n).any (·.answered)
          let c := { c with cores := cores, acc := censusJoin c.op c.acc k.acc, count := c.count + k.count, summed := all }
          let s := s.modCensus stamp fun _ => c
          if all then finishCensus s stamp c else s

/-- A complete census is consumed (R302). -/
def takeCensus (s : State) (i : Issue) (t : Team) (d stamp : Nat) (c : Census) : Act State := do
  let t ← writeS t d c.acc
  let t ← writeS t (d + 1) (BitVec.ofNat 64 (c.count % 2 ^ 32 + if c.failed then 2 ^ 32 else 0))
  let s := s.setTeam i.wid { t with solicits := t.solicits.filter (· ≠ stamp), acq := [] }
  .ok { s with fab := { s.fab with census := tabDel s.fab.census stamp } }

/-- The census that an operand names, of the team's solicits that it has not consumed (R302). -/
def ownCensus (s : State) (t : Team) (stamp : Nat) : Act Census :=
  match t.solicits.contains stamp, tabGet s.fab.census stamp with
  | true, some c => .ok c
  | _, _ => raise 0x149

/-- CENSUS.WAIT (R302). -/
def execCensusWait (d : BitVec 6) (a : BitVec 7) (s : State) : Host.Outcome State Fault Refusal :=
  issue (.censusWait d a) plain s fun i t s => do
    let stamp := (← sourceA i t (coreWord s i.core) a).toNat
    let _ ← t.a.win.reg 256 d.toNat
    let _ ← t.a.win.reg 256 (d.toNat + 1)
    let c ← ownCensus s t stamp
    waitWhile (!c.complete) (.other stamp)
    takeCensus s i t d.toNat stamp c

/-- CENSUS.POLL (R302). -/
def execCensusPoll (d : BitVec 6) (a : BitVec 7) (s : State) : Host.Outcome State Fault Refusal :=
  issue (.censusPoll d a) plain s fun i t s => do
    let stamp := (← sourceA i t (coreWord s i.core) a).toNat
    let _ ← t.a.win.reg 256 d.toNat
    let _ ← t.a.win.reg 256 (d.toNat + 1)
    let c ← ownCensus s t stamp
    if c.complete then takeCensus s i t d.toNat stamp c
    else do
      let t ← writeS t d.toNat 0
      let t ← writeS t (d.toNat + 1) (BitVec.ofNat 64 (2 ^ 63))
      .ok (s.setTeam i.wid t)

end Sys2Proof.Machine
end

