-- ==== Sys2Proof/Machine/Copies.lean ====
section
/-!
DEFINITION. Machine/Copies.lean: the A-stream's copy instructions CPY, CPYM and CPYR (R260 to R264), its batches CPSEAL and CPWAIT
(R268, R269), and STRM (R270, R271).
-/
namespace Sys2Proof.Machine

/-- The instructions of R269 raise the causes of copies and stream records. -/
def copyRaises (_ : Issue) (_ : Team) (p : PendCause) : Bool := p.kind == .copy

/-- A copy as its instruction gives it: the flags word of Table 12-2 read out. -/
def copyOfFlags (kind fn size src dst : Nat) (w : DWord) : Copy :=
  let f := w.toNat
  let scratch := bitsOf f 34 34 = 1
  let dkind := bitsOf f 33 32
  { kind := kind, fn := fn, size := size, len := bitsOf f 31 0, dkind := dkind, srcScratch := scratch,
    src := if scratch then src % 2 ^ 32 else src, dst := if dkind = 0 then dst else dst % 2 ^ 32,
    shadow := bitsOf f 35 35 = 1, cls := BitVec.ofNat 2 (bitsOf f 37 36), rcore := bitsOf f 45 38, rslot := bitsOf f 49 46,
    rgen := bitsOf f 57 50 }

/-- The flags word is malformed or not allowed for the instruction: cause 0x108 (R260). -/
def copyFlagsBad (c : Copy) (w : DWord) : Bool :=
  bitsOf w.toNat 63 58 != 0 || c.len == 0 || c.len % c.size != 0 || c.dkind == 3 || (c.shadow && c.dkind != 0) ||
  (c.kind == 2 && c.dkind != 0) || (c.kind == 1 && c.dkind != 1)

/-- Two ranges of the same length overlap. -/
def rangesOverlap (a b n : Nat) : Bool := decide (a < b + n) && decide (b < a + n)

/-- The causes of the destination alone, and of the source alone, that R261 gives at each order from 0x084 on; `probe` gives those of
the pages. -/
def copyCauses (s : State) (core ctx scratch : Nat) (c : Copy) : List Nat × List Nat :=
  let src := if c.srcScratch then [] else (probeRange s core ctx c.src c.len false 1).1.toList
  let dst := if c.dkind ≠ 0 then [] else (probeRange s core ctx c.dst c.len true 2).1.toList
  let far := fun (g : Bool) (a : Nat) => if g && decide (2 ^ 57 < a + c.len) then [0x084] else []
  let odd := fun (a : Nat) => if a % c.size ≠ 0 then [0x083] else []
  let limit := if c.dkind = 2 then 2 ^ 20 else scratch
  let same := (c.dkind = 0 ∧ !c.srcScratch) ∨ (c.dkind = 1 ∧ c.srcScratch)
  let inObject := match doubleOf s ctx c.dst with
    | some d => decide (c.dst + c.len ≤ d.obase + d.len)
    | none => false
  (dst ++ far (c.dkind == 0) c.dst ++ odd c.dst ++ (if c.dkind ≠ 0 ∧ limit < c.dst + c.len then [0x086] else []) ++
      (if c.shadow && !inObject then [0x10B] else []) ++
      (if same ∧ rangesOverlap c.src c.dst c.len then [0x113] else []),
    src ++ far (!c.srcScratch) c.src ++ odd c.src ++ (if c.srcScratch ∧ scratch < c.src + c.len then [0x086] else []))

/-- The order of R261 from 0x084 on, with the causes that a translation may give beside them (assumption 5). -/
def copyOrder : List Nat := [0x084, 0x083, 0x081, 0x082, 0x088, 0x089, 0x08E, 0x0C0, 0x086, 0x10B, 0x113]

/-- The highest cause of a copy's ranges and the address it names: the destination where that meets it (assumption 17). -/
def copyCause (s : State) (core ctx scratch : Nat) (c : Copy) : Option (Nat × Nat) :=
  let (ds, ss) := copyCauses s core ctx scratch c
  (highest copyOrder (ds ++ ss)).map fun k => (k, if ds.contains k then c.dst else c.src)

/-- The pages that a copy's ranges need (R261). -/
def copyNeeds (s : State) (core ctx : Nat) (c : Copy) : List PageNeed :=
  (if c.srcScratch then [] else (probeRange s core ctx c.src c.len false 1).2) ++
  (if c.dkind ≠ 0 then [] else (probeRange s core ctx c.dst c.len true 2).2)

/-- The entries of a team's copy table that are free (R261). -/
def copyEntries (s : State) (t : Team) : List Nat :=
  let used := (s.eng.copies.filter fun p => p.2.owner = some t.seqNo).map fun p => p.2.entry
  (List.range 64).filter fun k => !used.contains k

/-- The lowest free entry of the copy table, for which the instruction waits (R261). -/
def awaitEntry (s : State) (t : Team) : Act Nat :=
  match copyEntries s t with
  | n :: _ => .ok n
  | [] => waitOn (.other 0)

/-- The owner's fields of a copy that a team issues (R259). -/
def ownCopy (i : Issue) (t : Team) (entry : Nat) (c : Copy) : Copy :=
  { c with owner := some t.seqNo, core := i.core, node := t.info.node, ctx := t.info.ctx, rank := t.info.rank, entry := entry,
           batch := t.batch }

/-- Enter a copy into the table; it answers its number. -/
def addCopy (s : State) (c : Copy) : State × Nat :=
  ({ s with eng := { s.eng with copies := tabSet s.eng.copies s.eng.copySeq c, copySeq := s.eng.copySeq + 1 } }, s.eng.copySeq)

/-- Push the segments of a copy, in order, into a copy leaf (R259, R261). -/
def pushSegments (s : State) (leaf id : Nat) (c : Copy) : State :=
  (List.range (segmentCount c)).foldl (fun s k => directPush s leaf c.rank (.seg id k)) s

/-- The checks that R261 makes of a copy before it takes effect. -/
def checkCopy (s : State) (i : Issue) (t : Team) (tn : BitVec 4) (w : DWord) (c : Copy) : Act Unit := do
  raiseIf (copyFlagsBad c w) 0x108
  raiseIf (c.dkind != 0 && tn != 0) 0x005
  raiseIf (c.dkind == 0 && !(readT t tn.toNat).valid) 0x080
  match copyCause s i.core t.info.ctx t.info.scratchBytes c with
  | some (k, at_) => if copyOrder.take 9 |>.contains k then raiseWith k { value := BitVec.ofNat 64 at_ } else raise k
  | none => .ok ()

/-- The destination of a copy (R261). -/
def copyDst (i : Issue) (t : Team) (core : Nat) (tn : BitVec 4) (x : BitVec 7) (w : DWord) (off : Int) (size : Nat) : Act Nat := do
  let idx ← sourceA i t core x
  .ok (formAddr (if bitsOf w.toNat 33 32 = 0 then readT t tn.toNat else {}) idx.toNat off size)

/-- A copy of the A-stream: its checks, its waits and its segments (R261). `more` are further checks, made after those of the copy, with
the Lattice command that they allow (R263). -/
def issueCopy (s : State) (i : Issue) (t : Team) (d : BitVec 6) (tn : BitVec 4) (x : BitVec 7) (off : Int) (kind fn size : Nat)
    (more : Act (Option LatOp)) : Act State := do
  let src ← readS t d.toNat
  let w ← readS t (d.toNat + 1)
  let dst ← copyDst i t (coreWord s i.core) tn x w off size
  let c := copyOfFlags kind fn size src.toNat dst w
  checkCopy s i t tn w c
  let op ← more
  awaitPages t i.stream [c.src, c.dst] (copyNeeds s i.core t.info.ctx c)
  let entry ← awaitEntry s t
  let t ← match op with
    | some op => placeCommand t op
    | none => .ok t
  let id := s.eng.copySeq
  let wait := fun (l : List LatCmd) => match op with
    | some _ => l.mapIdx fun n y => if n + 1 = l.length then { y with after := some id } else y
    | none => l
  let c := ownCopy i t entry c
  let (s, id) := addCopy (s.setTeam i.wid { t with lat := wait t.lat }) c
  .ok (pushSegments s (copyLeaf i.core) id c)

/-- CPY (R260 to R262). -/
def execCpy (d : BitVec 6) (tn : BitVec 4) (x : BitVec 7) (sz : BitVec 2) (off : BitVec 6) (s : State) :
    Host.Outcome State Fault Refusal :=
  issue (.cpy d tn x sz off) plain s fun i t s =>
    issueCopy s i t d tn x (offsetUnits i.hint off) 0 0 (szBytes sz) (.ok none)

/-- The follow-on word of CPYM (R263): the command that it describes, checked as the instruction it names. A mode that R168 does not
give makes the word malformed. -/
def followOn (s : State) (i : Issue) (t : Team) (w : DWord) : Act (Option LatOp) := do
  let kind := bitsOf w.toNat 27 26
  let tile := bitsOf w.toNat 31 28
  let m := w.extractLsb' 60 4
  let bare := w &&& ~~~(0xF0000000FC000000 : DWord)
  raiseIf (kind == 3 || (kind == 0 && tile != 0) || (kind == 2 && (m.extractLsb' 0 3) != 0) ||
    (kind != 2 && modeUndefined m)) 0x10A
  let h := BitVec.ofNat 64 (0x1000 + tile)
  match kind with
  | 0 => do let op ← checkMls t m bare; .ok (some op)
  | 1 => do let op ← checkMstream s i t m h bare; .ok (some op)
  | _ => do let op ← checkAmCopy s i t h bare .amld; .ok (some op)

/-- CPYM (R263). -/
def execCpym (d : BitVec 6) (tn : BitVec 4) (x : BitVec 7) (sz : BitVec 2) (off : BitVec 6) (s : State) :
    Host.Outcome State Fault Refusal :=
  issue (.cpym d tn x sz off) plain s fun i t s => do
    let w ← readS t (d.toNat + 2)
    issueCopy s i t d tn x (offsetUnits i.hint off) 1 0 (szBytes sz) (followOn s i t w)

/-- CPYR (R264). -/
def execCpyr (d : BitVec 6) (tn : BitVec 4) (x : BitVec 7) (sz : BitVec 2) (f : BitVec 4) (s : State) :
    Host.Outcome State Fault Refusal :=
  issue (.cpyr d tn x sz f) plain s fun i t s =>
    issueCopy s i t d tn x (functionUnits i.hint) 2 f.toNat (szBytes sz) (.ok none)

/-- Seal the batch that is open (R268): its number, and the team with the next. -/
def sealBatch (s : State) (t : Team) : Act (Nat × Team) := do
  waitWhile (decide (64 ≤ unfinished s t)) (.other 0)
  .ok (t.batch, { t with batch := (t.batch + 1) % 2 ^ 32 })

/-- CPSEAL (R268). -/
def execCpseal (d : BitVec 6) (s : State) : Host.Outcome State Fault Refusal :=
  issue (.cpseal d) copyRaises s fun i t s => do
    let _ ← t.a.win.reg 256 d.toNat
    let (n, t) ← sealBatch s t
    let t ← writeS t d.toNat (BitVec.ofNat 64 n)
    .ok (s.setTeam i.wid t)

/-- A batch that dropped stale bytes has finished (R269). -/
def staleFinished (s : State) (t : Team) (b : Nat) : Bool := b != t.batch && decide (unfinished s t < batchAge t b)

/-- CPWAIT (R269). -/
def execCpwait (d : BitVec 6) (n : BitVec 11) (s : State) : Host.Outcome State Fault Refusal :=
  issue (.cpwait d n) copyRaises s fun i t s => do
    let _ ← t.a.win.reg 256 d.toNat
    let lim := (rawImm i.hint n).toNat
    waitWhile (decide (lim < unfinished s t)) (.other (oldestBatch s t))
    let stale := t.stale.any (staleFinished s t)
    let report := oldestBatch s t + if stale then 2 ^ 32 else 0
    let t ← writeS { t with stale := t.stale.filter fun b => !staleFinished s t b } d.toNat (BitVec.ofNat 64 report)
    .ok (s.setTeam i.wid t)

/-! ## Stream records -/

/-- Read a stream record of 128 bytes (Table 12-5); none where R271 calls it malformed. -/
def parseStream (addr : Nat) (bs : List Byte) : Option StreamRec :=
  let rd := fun (o n : Nat) => leNat ((bs.drop o).take n)
  let w := rd 0 4
  let ndim := bitsOf w 19 17
  let fmt := bitsOf w 11 4
  let pack := bitsOf w 13 12
  let ofmt := bitsOf w 27 20
  let exts := (List.range 5).map fun k => rd (24 + 4 * k) 4
  let strs := (List.range 4).map fun k => (BitVec.ofNat 64 (rd (48 + 8 * k) 8)).toInt
  let bits := fmtBits fmt
  let bad := addr % 128 ≠ 0 ∨ bitsOf w 31 28 ≠ 0 ∨ rd 44 4 ≠ 0 ∨ rd 80 48 ≠ 0 ∨ ndim = 0 ∨ 5 < ndim ∨
    (exts.contains 0) ∨ (exts.drop ndim).any (· ≠ 1) ∨ bits = 0 ∨ pack = 3 ∨ (bitsOf w 3 3 = 1 ∧ pack ≠ 0) ∨
    (pack = 1 ∧ 2 < ofmt) ∨ (pack = 2 ∧ (pecanWidths fmt).isNone) ∨ (pack ≠ 2 ∧ exts.getD 0 1 * bits % 8 ≠ 0)
  if bad then none
  else some { ring := bitsOf w 2 0, drain := bitsOf w 3 3 = 1, fmt := fmt, pack := pack, cls := BitVec.ofNat 2 (bitsOf w 15 14),
              shadow := bitsOf w 16 16 = 1, ofmt := ofmt, tile0 := rd 4 4, base := rd 8 8, aux := rd 16 8, exts := exts,
              strs := strs }

/-- The stream engine on the side of a ring that faces a record; none is cause 0x111 (R271). -/
def streamSide (t : Team) (r : StreamRec) : Option Nat :=
  (tabGet t.rings r.ring).bind fun x => if r.drain then x.cons else x.prod

/-- Bytes of one element in the byte stream of a record; 1 for elements below a byte. -/
def StreamRec.elemBytes (r : StreamRec) : Nat :=
  if r.pack = 1 then (if r.ofmt = 0 then 4 else 2) else max 1 (fmtBits r.fmt / 8)

/-- The copy-table entry of a stream record. -/
def streamCopy (r : StreamRec) (engine : Nat) : Copy :=
  { kind := 3, engine := engine, size := r.elemBytes, cls := r.cls, shadow := r.shadow, srec := some r }

/-- STRM (R271). -/
def execStrm (a : BitVec 7) (s : State) : Host.Outcome State Fault Refusal :=
  issue (.strm a) copyRaises s fun i t s => do
    let va := (← sourceA i t (coreWord s i.core) a).toNat
    let at_ : TrapValue := { value := BitVec.ofNat 64 va }
    if 2 ^ 57 ≤ va then raiseWith 0x084 at_
    raiseIf (va % 128 ≠ 0) 0x110
    let (cause, needs) := probeRange s i.core t.info.ctx va 128 false 1
    match cause with
    | some c => raiseWith c at_
    | none => .ok ()
    awaitPages t i.stream [va] needs
    match parseStream va (readVirt s i.core t.info.ctx va 128) with
    | none => raise 0x110
    | some r =>
      match streamSide t r with
      | none => raise 0x111
      | some e => do
        let entry ← awaitEntry s t
        let (s, id) := addCopy (s.setTeam i.wid t) (ownCopy i t entry (streamCopy r e))
        let s := engineTouch s { core := some i.core, node := some t.info.node } i.core t.info.ctx [(va, 128)] 0
        .ok (directPush s (leafId 3 i.core) t.info.rank (.stream id))

end Sys2Proof.Machine
end

