-- ==== Sys2Proof/Machine/Acorns.lean ====
section
/-!
DEFINITION. Machine/Acorns.lean: posting and cancelling acorns (R397, R398, R403, R404) and the instructions of the trigger counters
(R404).
-/
namespace Sys2Proof.Machine

/-! ## Descriptors -/

/-- The descriptor in 64 bytes (Table 20-2). -/
def acornDesc (bs : List Byte) : AcornDesc :=
  let at_ := fun (o n : Nat) => leNat ((bs.drop o).take n)
  let a := at_ 0 4
  let b := at_ 4 4
  { op := bitsOf a 2 0, rcen := bitsOf a 3 3 = 1, chen := bitsOf a 4 4 = 1, rearm := bitsOf a 5 5 = 1, ctr := bitsOf a 15 8,
    chctr := bitsOf a 23 16, rctr := bitsOf a 31 24, dev := bitsOf b 11 0, rcore := bitsOf b 19 12, rfn := bitsOf b 23 20,
    ty := bitsOf b 25 24, thresh := at_ 8 8, chinc := at_ 24 4, step := at_ 28 4, src := at_ 32 8, dst := at_ 40 8,
    len := at_ 48 4, w := (BitVec.ofNat 11 (at_ 52 2)).toInt, group := bitsOf (at_ 54 2) 11 0,
    ncontrib := bitsOf (at_ 56 2) 12 0, cidx := bitsOf (at_ 58 2) 11 0, chunk := at_ 60 4 }

/-- The operation is a reduction on the switch path (Table 20-3). -/
def AcornDesc.onSwitch (d : AcornDesc) : Bool := d.op == 2 && decide (9 ≤ d.rfn)

/-- A reserved bit of a descriptor is set (Table 20-2). -/
def acornReserved (bs : List Byte) : Bool :=
  let at_ := fun (o n : Nat) => leNat ((bs.drop o).take n)
  bitsOf (at_ 0 4) 7 6 + bitsOf (at_ 4 4) 31 26 + at_ 16 8 + bitsOf (at_ 52 2) 15 11 + bitsOf (at_ 54 2) 15 12 +
    bitsOf (at_ 56 2) 15 13 + bitsOf (at_ 58 2) 15 12 != 0

/-- LEN and the alignments of a row of Table 20-3 hold. -/
def acornRanges (d : AcornDesc) : Bool :=
  match d.op with
  | 0 | 1 => d.len % 4 == 0 && d.len != 0 && d.src % 4 == 0 && d.dst % 4 == 0
  | 2 => d.len % 64 == 0 && d.len != 0 && d.dst % 64 == 0
  | 3 | 5 => d.len == 0 && d.dst % 8 == 0
  | _ => d.len == 0 && d.dst == 0

/-- RFN and TYPE are allowed for the operation (Table 20-3). -/
def acornSub (d : AcornDesc) : Bool :=
  match d.op with
  | 2 => decide (3 ≤ d.rfn) && collTypeOk d.rfn d.ty
  | 3 => decide (d.rfn ≤ 8) && d.ty == 0
  | _ => d.rfn == 0 && d.ty == 0

/-- A descriptor breaks Table 20-2 or 20-3 (R403). -/
def acornBad (bs : List Byte) : Bool :=
  let d := acornDesc bs
  let raises := d.op == 0 || d.op == 2 || d.op == 3 || d.op == 5
  let unused := (d.rcen && !raises) || (!raises && d.op != 6 && (d.rctr != 0 || d.rcore != 0)) || (d.op == 4 && d.dev != 0)
  let switch_ :=
    if d.onSwitch then d.ncontrib == 0 || decide (4096 < d.ncontrib) || decide (d.ncontrib ≤ d.cidx)
    else d.w != 0 || d.group + d.ncontrib + d.cidx + d.chunk != 0
  acornReserved bs || d.op == 7 || unused || switch_ || !acornRanges d || !acornSub d

/-- The local range of an operation, and whether it is written (Table 20-3). -/
def AcornDesc.localRange (d : AcornDesc) : Option (Nat × Nat × Bool) :=
  match d.op with
  | 0 | 2 => some (d.src, d.len, false)
  | 1 => some (d.dst, d.len, true)
  | _ => none

/-- The cause that the pages of a local range meet, or the pages to wait for (R261, assumption 14). -/
def probeLocal (s : State) (core ctx : Nat) (d : AcornDesc) : Option Nat × List PageNeed :=
  match d.localRange with
  | none => (none, [])
  | some (a, n, w) => if 2 ^ 57 < a + n then (some 0x081, []) else probeRange s core ctx a n w (if w then 2 else 1)

/-! ## TRGPOST and TRGCANCEL -/

/-- The team's read of a descriptor: its causes, its page, and its race check (R107, R256, R403). -/
def descriptorRead (s : State) (i : Issue) (t : Team) (va : Nat) : Act Located :=
  match checkAccess s i.core t.info.ctx { valid := true } none va 64 .read with
  | .cause c => raiseWith c { value := BitVec.ofNat 64 va }
  | .need n => do
    awaitPages t i.stream [va] [n]
    waitOn (.page n.page)
  | .at_ l => do
    checkRaces s i.wid t [l] 64 false
    .ok l

/-- TRGPOST (R397, R398, R403). -/
def execTrgpost (d : BitVec 6) (a : BitVec 7) (s : State) : Host.Outcome State Fault Refusal :=
  issue (.trgpost d a) plain s fun i t s => do
    let va := (← sourceA i t (coreWord s i.core) a).toNat
    let _ ← t.a.win.reg 256 d.toNat
    raiseIf (va % 64 != 0) 0x150
    let l ← descriptorRead s i t va
    let bs := memBytes s.mem l.pa 64
    let x := acornDesc bs
    raiseIf (acornBad bs) 0x150
    raiseIf (x.op != 4 && !reaches s x.dev) 0x140
    let probe := probeLocal s i.core t.info.ctx x
    match probe.1, x.localRange with
    | some c, some (a, n, w) => raiseWith c { value := BitVec.ofNat 64 (firstMeeting s i.core t.info.ctx a n w c) }
    | _, _ => .ok ()
    match tabFree (s.core i.core).acorns 64 with
    | none => raise 0x151
    | some n => do
      awaitPages t i.stream [(x.localRange.map (·.1)).getD 0] probe.2
      let t ← writeS t d.toNat (BitVec.ofNat 64 n)
      let s := performRead (s.setTeam i.wid t) i.wid t { valid := true } l 64 0 0 0
      let k := s.core i.core
      let new : Acorn := { desc := x, node := t.info.node, ctx := t.info.ctx, rank := t.info.rank, owner := t.seqNo }
      let s := s.setCore i.core { k with acorns := tabSet k.acorns n new }
      let s := if x.onSwitch then noteChunk s x.group x.chunk else s
      .ok (testAcorn (advanceGen s i.wid) i.core n)

/-- TRGCANCEL (R404): of a firing entry it waits until the operation has ended. -/
def execTrgcancel (d : BitVec 6) (a : BitVec 7) (s : State) : Host.Outcome State Fault Refusal :=
  issue (.trgcancel d a) plain s fun i t s => do
    let n := (← sourceA i t (coreWord s i.core) a).toNat
    let _ ← t.a.win.reg 256 d.toNat
    match t.cancelled.filter fun c => c.1 = n with
    | some c => do
      let t ← writeS { t with cancelled := none } d.toNat (BitVec.ofNat 64 c.2)
      .ok (s.setTeam i.wid t)
    | none =>
      match tabGet (s.core i.core).acorns n with
      | none => raise 0x152
      | some x => do
        raiseIf (x.node != t.info.node) 0x152
        waitWhile x.firing (.cancel n)
        let t ← writeS t d.toNat 0
        .ok ((s.setTeam i.wid t).freeAcorn i.core n)

/-! ## Trigger counters -/

/-- A counter reference is malformed: cause 0x154 (R404). -/
def referenceBad (v : Nat) : Bool :=
  bitsOf v 30 28 != 0 || decide (2 ^ 32 ≤ v) || (bitsOf v 31 31 == 1 && bitsOf v 27 8 != 0)

/-- CTRADD (R396, R404). -/
def execCtradd (a b : BitVec 7) (s : State) : Host.Outcome State Fault Refusal :=
  issue (.ctradd a b) plain s fun i t s => do
    let v := (← sourceA i t (coreWord s i.core) a).toNat
    let x ← sourceA i t (coreWord s i.core) b
    raiseIf (referenceBad v) 0x154
    let self := bitsOf v 31 31 == 1
    let dev := if self then s.dev.devId else bitsOf v 27 16
    let core := if self then i.core else bitsOf v 15 8
    raiseIf (!reaches s dev) 0x140
    if dev = s.dev.devId then .ok (raiseCtr (advanceGen s i.wid) core (bitsOf v 7 0) x)
    else do
      awaitAcks t 5
      let f : Flit := { op := 18, dev := dev, core := core, fn := bitsOf v 7 0, words := [(0, x.toNat)] }
      let s := (advanceGen s i.wid).modTeam i.wid cleanStash
      .ok (sendFlit s { flit := f, owner := .team t.seqNo v, node := t.info.node, ctx := t.info.ctx, counted := some t.seqNo })

/-- The counter of the issuing core that an operand names (R404). -/
def ownCounter (s : State) (i : Issue) (t : Team) (a : BitVec 7) : Act Nat := do
  let n := (← sourceA i t (coreWord s i.core) a).toNat
  raiseIf (decide (256 ≤ n)) 0x154
  .ok n

/-- CTRWAIT (R404): it observes the counter at or above the threshold, and clears the acquired-from table (Table 11-2). -/
def execCtrwait (d : BitVec 6) (a b : BitVec 7) (s : State) : Host.Outcome State Fault Refusal :=
  issue (.ctrwait d a b) plain s fun i t s => do
    let n ← ownCounter s i t a
    let b ← sourceA i t (coreWord s i.core) b
    let _ ← t.a.win.reg 256 d.toNat
    let v := s.ctr i.core n
    waitWhile (decide (v.toNat < b.toNat)) (.other n)
    let t ← writeS t d.toNat v
    .ok (s.setTeam i.wid { t with acq := [] })

/-- CTRWAIT.POLL (R404). -/
def execCtrwaitPoll (d : BitVec 6) (a : BitVec 7) (s : State) : Host.Outcome State Fault Refusal :=
  issue (.ctrwaitPoll d a) plain s fun i t s => do
    let n ← ownCounter s i t a
    let t ← writeS t d.toNat (s.ctr i.core n)
    .ok (s.setTeam i.wid t)

/-- CTRSET (R404, Table 20-1): a rise counts as a raise. -/
def execCtrset (a b : BitVec 7) (s : State) : Host.Outcome State Fault Refusal :=
  issue (.ctrset a b) plain s fun i t s => do
    let n ← ownCounter s i t a
    let v ← sourceA i t (coreWord s i.core) b
    let old := s.ctr i.core n
    let s := (advanceGen s i.wid).setCtr i.core n v
    .ok (if old.toNat < v.toNat then testAcorns s i.core n else s)

/-- CTRSEAL (R268, R404). -/
def execCtrseal (d : BitVec 6) (a : BitVec 7) (s : State) : Host.Outcome State Fault Refusal :=
  issue (.ctrseal d a) copyRaises s fun i t s => do
    let n ← ownCounter s i t a
    let _ ← t.a.win.reg 256 d.toNat
    let (b, t) ← sealBatch s t
    let t ← writeS t d.toNat (BitVec.ofNat 64 b)
    let s := advanceGen (s.setTeam i.wid t) i.wid
    let x : SealRaise := { owner := t.seqNo, batch := b, core := i.core, ctr := n }
    .ok (checkSeals { s with eng := { s.eng with seals := s.eng.seals ++ [x] } })

end Sys2Proof.Machine
end

