-- ==== Sys2Proof/Machine/AControl.lean ====
section
/-!
DEFINITION. Machine/AControl.lean: the A-stream's branches, loop, calls and return (R99 to R101), its translation
instructions (R102, R103, R247) and PGREQ (R104).
-/
namespace Sys2Proof.Machine

/-- The target of a Format J word: its address plus 4 × the sign-extended offset (R63). -/
def jumpTarget (pc : DWord) (o : BitVec 22) : DWord := pc + (o.signExtend 64) * 4

/-- BR (R99). -/
def execBrA (c : BitVec 3) (o : BitVec 22) : State → Host.Outcome State Fault Refusal := fun s =>
  issue (.brA c o) plain s <| onTeam fun i t => .ok (if readP t c.toNat then t.setPc .a (jumpTarget i.pc o) else t)

/-- BRN (R99). -/
def execBrnA (c : BitVec 3) (o : BitVec 22) : State → Host.Outcome State Fault Refusal := fun s =>
  issue (.brnA c o) plain s <| onTeam fun i t => .ok (if readP t c.toNat then t else t.setPc .a (jumpTarget i.pc o))

/-- LOOP (R99): s0 falls by 1, and the branch is taken while it is not 0. -/
def execLoop (c : BitVec 3) (o : BitVec 22) : State → Host.Outcome State Fault Refusal := fun s =>
  issue (.loop c o) plain s <| onTeam fun i t =>
    if readP t c.toNat then do
      let n ← readS t 0
      let t ← writeS t 0 (n - 1)
      .ok (if n - 1 ≠ 0 then t.setPc .a (jumpTarget i.pc o) else t)
    else .ok t

/-- A call of the A-stream to an offset from CODE (R100). -/
def callA (s : State) (i : Issue) (t : Team) (off : Nat) : Act State :=
  match callTarget t false off with
  | none => raise 0x019
  | some e => do
    raiseIf (off % 4 ≠ 0 || decide (2 ^ 32 ≤ off)) 0x019
    raiseIf (t.a.win.depth = 65535) 0x01A
    let (s, t) ← slideA s i t e.fs (i.pc + 4) false
    .ok (s.setTeam i.wid (t.setPc .a (BitVec.ofNat 64 (t.info.kernel.code + off))))

/-- CALL of the A-stream (R100). -/
def execCallA (c : BitVec 3) (o : BitVec 22) (s : State) : Host.Outcome State Fault Refusal :=
  issue (.callA c o) plain s fun i t s =>
    if readP t c.toNat then callA s i t (jumpTarget i.pc o - BitVec.ofNat 64 t.info.kernel.code).toNat else .ok s

/-- CALLI of the A-stream (R100). -/
def execCalliA (a : BitVec 7) (s : State) : Host.Outcome State Fault Refusal :=
  issue (.calliA a) plain s fun i t s => do
    let off ← sourceA i t (coreWord s i.core) a
    callA s i t off.toNat

/-- The A-stream ends (R204): a held task is cause 0x116 (R362), and it waits for the team's Lattice commands first. -/
def endA (s : State) (i : Issue) (t : Team) : Act State := do
  raiseIf t.task.isSome 0x116
  waitWhile (latticeBusy t) (.lattice 0)
  .ok (s.setTeam i.wid (t.modA fun a => { a with ended := true }))

/-- RET of the A-stream (R47, R101): at depth 0 it ends the stream as END does; from the trap frame it is cause 0x022
(R433). -/
def execRetA (s : State) : Host.Outcome State Fault Refusal :=
  issue .retA (fun _ t _ => t.a.win.depth == 0) s fun i t s => do
    if t.a.win.depth = 0 then endA s i t
    else
      raiseIf (inTrapFrame t .a) 0x022
      let link := (t.a.win.frames.head?.map (·.link)).getD 0
      let t ← slideBackA s i t
      .ok (s.setTeam i.wid (t.setPc .a link))

/-- The register that TXL writes for a page or an object (R102, R247). -/
def runOf (va : Nat) (leaf : Leaf) (pa : Option Nat) : TReg :=
  { vbase := BitVec.ofNat 57 va, pbase := BitVec.ofNat 52 (pa.getD 0), valid := true,
    limit := BitVec.ofNat 32 (min (leaf.vbase + leaf.size - va) 0xFFFFFFFF),
    attr := { leaf.attr with resident := pa.isSome } }

/-- TXL (R102). -/
def execTxl (tn : BitVec 4) (a : BitVec 7) (s : State) : Host.Outcome State Fault Refusal :=
  issue (.txl tn a) plain s fun i t s => do
    let va := (← sourceA i t (coreWord s i.core) a).toNat
    let at_ : TrapValue := { value := BitVec.ofNat 64 va }
    if 2 ^ 57 ≤ va then raiseWith 0x084 at_
    match xlate s i.core t.info.ctx va with
    | .unmapped => raiseWith 0x081 at_
    | .malformed => raiseWith 0x088 at_
    | .unbacked => raiseWith 0x089 at_
    | .held => waitOn (.page va)
    | .absent l => .ok (s.setTeam i.wid (writeT t tn.toNat (runOf va l none)))
    | .hit l pa => .ok ((xlateFill s i.core t.info.ctx va).setTeam i.wid (writeT t tn.toNat (runOf va l (some pa))))

/-- TXCLR (R103). -/
def execTxclr (tn : BitVec 4) : State → Host.Outcome State Fault Refusal := fun s =>
  issue (.txclr tn) plain s <| onTeam fun _ t => .ok (writeT t tn.toNat {})

/-- TXCLR.ALL (R103). -/
def execTxclrAll : State → Host.Outcome State Fault Refusal := fun s =>
  issue .txclrAll plain s <| onTeam fun _ t => .ok (t.modA fun a => { a with t := [] })

/-- PGREQ (R104, R234): the predicate tells whether the page became resident. -/
def execPgreq (p : BitVec 3) (a : BitVec 7) (s : State) : Host.Outcome State Fault Refusal :=
  issue (.pgreq p a) plain s fun i t s => do
    let va := (← sourceA i t (coreWord s i.core) a).toNat
    let at_ : TrapValue := { value := BitVec.ofNat 64 va }
    if 2 ^ 57 ≤ va then raiseWith 0x084 at_
    match xlate s i.core t.info.ctx va with
    | .unmapped => raiseWith 0x081 at_
    | .malformed => raiseWith 0x088 at_
    | .unbacked => raiseWith 0x089 at_
    | .held => waitOn (.page va)
    | .hit .. => .ok ((xlateFill s i.core t.info.ctx va).setTeam i.wid (writeP t p.toNat true))
    | .absent l =>
      if t.wasDeclined i.stream l.vbase then .ok (s.setTeam i.wid (writeP t p.toNat false))
      else .error (.wait (.page l.vbase) [⟨l.vbase, l.size, 1⟩])

end Sys2Proof.Machine
end

