-- ==== Sys2Proof/Machine/EControl.lean ====
section
/-!
DEFINITION. Machine/EControl.lean: the E-stream's branches, calls and returns (R198, R199), MERGE (R200 to R203), END (R204)
and the route-tag barriers BARJ and BAR (R210 to R212).
-/
namespace Sys2Proof.Machine

/-! ## Fragments -/

/-- Fragment slots in use on a core, with `t` standing for the team `wid` (R196). -/
def coreFrags (s : State) (wid : Nat) (t : Team) : Nat :=
  ((s.teams.filter fun p => coreOf p.1 = coreOf wid ∧ p.1 ≠ wid).map fun p => p.2.frags.length).sum + t.frags.length

/-- The number a new fragment of the team takes, if the team and the core have room for one (R196, R197). -/
def freeFragment (s : State) (wid : Nat) (t : Team) : Option Nat :=
  if coreFrags s wid t < 64 then tabFree t.frags 32 else none

/-- Detach lanes: a new fragment, or a parked set (R197, R198). -/
def detach (s : State) (wid : Nat) (t : Team) (f : Frag) : Team :=
  match freeFragment s wid t with
  | some n => { t with frags := tabSet t.frags n f }
  | none => { t with parked := t.parked ++ [{ seq := t.parkSeq, frag := f }], parkSeq := t.parkSeq + 1 }

/-- The parked set that R197 unparks first: the lowest sequence number among those that do not wait at a MERGE. -/
def firstParked (t : Team) : Option Parked :=
  (t.parked.filter fun p => p.held.isNone).foldl (fun b p => match b with
    | none => some p
    | some q => if p.seq < q.seq then some p else some q) none

/-- A fragment slot of the team has freed: a parked set becomes a fragment (R197). -/
def unpark (s : State) (wid : Nat) (t : Team) : Team :=
  match firstParked t, freeFragment s wid t with
  | some p, some n => { t with frags := tabSet t.frags n p.frag, parked := t.parked.filter fun q => q.seq ≠ p.seq }
  | _, _ => t

/-- A fragment whose lanes leave it on another path: it starts with no hint, chain or wait (R75). -/
def Frag.side (f : Frag) (mask : Mask) (pc : DWord) : Frag :=
  { f with mask := mask, pc := pc, hint := none, chain := none, wait := none }

/-- Divide a fragment: the lanes `m` go to `there`, the others to `here`; the smaller side detaches, the taken side on a
tie (R198). In trap mode a division is a nested trap (R433). -/
def divide (s : State) (i : Issue) (t : Team) (f : Frag) (m : Mask) (there here : DWord) : Act Team := do
  raiseIf t.trap.stream.isSome 0x022
  let n := f.mask &&& ~~~m
  if popMask m ≤ popMask n then
    .ok (detach s i.wid (t.modFrag i.frag fun f => { f with mask := n, pc := here }) (f.side m there))
  else
    .ok (detach s i.wid (t.modFrag i.frag fun f => { f with mask := m, pc := there }) (f.side n here))

/-- BR and BRN of the E-stream: `want` is the flag value that takes the branch (R198). -/
def branchE (x : Instr) (c : BitVec 3) (o : BitVec 22) (want : Bool) (s : State) : Host.Outcome State Fault Refusal :=
  issue x plain s fun i t s =>
    match tabGet t.frags i.frag with
    | none => raise 0x007
    | some f =>
      let flag := readF t c.toNat
      let m := f.mask &&& (if want then flag else ~~~flag)
      let target := jumpTarget i.pc o
      if m = 0 then .ok s
      else if m = f.mask then .ok (s.setTeam i.wid (t.setPc i.stream target))
      else do
        let t ← divide s i t f m target (i.pc + 4)
        .ok (s.setTeam i.wid t)

/-- BR of the E-stream (R198). -/
def execBrE (c : BitVec 3) (o : BitVec 22) : State → Host.Outcome State Fault Refusal := branchE (.brE c o) c o true

/-- BRN of the E-stream (R198). -/
def execBrnE (c : BitVec 3) (o : BitVec 22) : State → Host.Outcome State Fault Refusal := branchE (.brnE c o) c o false

/-! ## Calls -/

/-- Offset from CODE of a target. -/
def codeOffset (t : Team) (pc : DWord) : Nat := (pc - BitVec.ofNat 64 t.info.kernel.code).toNat

/-- The address of an offset from CODE. -/
def codeAddr (t : Team) (off : Nat) : DWord := BitVec.ofNat 64 (t.info.kernel.code + off)

/-- The calling lanes enter a callee (R199): the state and team with the spills, and the window that slid. -/
def enterCallee (s : State) (i : Issue) (t : Team) (f : Frag) (m : Mask) (e : CallEntry) : Act (State × Team × Window) := do
  raiseIf (f.win.depth = 65535) 0x01A
  slideE s i t f.win m e.fv (i.pc + 4) false

/-- CALL of the E-stream (R199): the calling side slides its window, in whichever fragment or set holds it. -/
def execCallE (c : BitVec 3) (o : BitVec 22) (s : State) : Host.Outcome State Fault Refusal :=
  issue (.callE c o) plain s fun i t s =>
    match tabGet t.frags i.frag with
    | none => raise 0x007
    | some f =>
      let m := f.mask &&& readF t c.toNat
      if m = 0 then .ok s else
      let target := jumpTarget i.pc o
      match callTarget t true (codeOffset t target) with
      | none => raiseWith 0x019 { lane := lowLane m }
      | some e => do
        let (s, t, w) ← enterCallee s i t f m e
        if m = f.mask then .ok (s.setTeam i.wid ((t.modFrag i.frag fun f => { f with win := w }).setPc i.stream target))
        else
          raiseIf t.trap.stream.isSome 0x022
          let n := f.mask &&& ~~~m
          if popMask m ≤ popMask n then
            let t := t.modFrag i.frag fun f => { f with mask := n }
            .ok (s.setTeam i.wid (detach s i.wid t { f.side m target with win := w }))
          else
            let t := t.modFrag i.frag fun f => { f with mask := m, pc := target, win := w }
            .ok (s.setTeam i.wid (detach s i.wid t (f.side n (i.pc + 4))))

/-- Group lanes by their target, ascending. -/
def targetGroups (o : ELanes) : List (Nat × List Nat) :=
  o.lanes.foldl (fun g l =>
    let x := (o.arg 0 l).toNat
    tabSet g x ((tabGetD [] g x) ++ [l])) []

/-- The group with the most lanes, the lower target on a tie (R199). -/
def largestGroup : List (Nat × List Nat) → Option (Nat × List Nat)
  | [] => none
  | g :: gs => some (gs.foldl (fun b x => if b.2.length < x.2.length then x else b) g)

/-- CALLI of the E-stream (R199): the largest group calls; every other group detaches at the CALLI, and its lanes pop
nothing until they issue it (assumption 16). -/
def execCalliE (a : BitVec 7) (s : State) : Host.Outcome State Fault Refusal :=
  issue (.calliE a) plain s fun i t s => do
    let o ← eOperands i t (coreWord s i.core) [(a, .int)] none
    laneCause o 0x019 fun l => (callTarget t true (o.arg 0 l).toNat).isNone
    let f := o.frag
    let groups := targetGroups o
    let entry := fun (off : Nat) => (callTarget t true off).getD { off := off, fs := 1, fv := 1, estr := true }
    let _ ← groups.mapM fun g => enterCallee s i t f (lanesMask g.2) (entry g.1)
    match largestGroup groups with
    | none => .ok s
    | some g => do
      raiseIf (decide (1 < groups.length) && t.trap.stream.isSome) 0x022
      let m := lanesMask g.2
      let (s, t, w) ← enterCallee s i t f m (entry g.1)
      let t := eFinish t { o with frag := { f with mask := m } } false 0
      let t := t.modFrag i.frag fun f => { f with mask := m, win := w, pc := codeAddr t g.1 }
      .ok (s.setTeam i.wid ((groups.filter fun x => x.1 ≠ g.1).foldl
        (fun t x => detach s i.wid t (f.side (lanesMask x.2) i.pc)) t))

/-! ## Barriers -/

/-- Every live lane of the team has executed BAR of a tag (R211). -/
def allAtBar (t : Team) (tag : Nat) : Bool :=
  !t.frags.isEmpty && t.parked.isEmpty && t.frags.all fun p => p.2.bar == some tag

/-- The acquired-from table that the completion of a BAR gives a member (R255). -/
def barTable (seq : Nat) (all : List Arrival) : List (Nat × Nat) :=
  let others := all.filter fun a => a.seq ≠ seq
  let place := fun (acc : List (Nat × Nat)) (a : Arrival) =>
    (acc.takeWhile fun x => decide (x.1 < a.wid)) ++ (a.wid, a.gen) :: acc.dropWhile fun x => decide (x.1 < a.wid)
  (others.foldl place []).take 16

/-- Free the streams of a team that wait at a tag. -/
def Team.freeBar (t : Team) (tag : Nat) : Team :=
  let free := fun (b : Option Nat) => if b = some tag then none else b
  { t with a := { t.a with bar := free t.a.bar }, frags := t.frags.map fun q => (q.1, { q.2 with bar := free q.2.bar }) }

/-- Record a release in the frame of a saved team (Table 19-2, byte 3 of the barriers word). -/
def frameRelease (s : State) (p : Nat × Saved) : State :=
  apexWrite s (frameAddr s p.2.core p.2.frame + 0x73) [BitVec.ofNat 8 (p.2.released.foldl (fun m t => m ||| 2 ^ t) 0)]

/-- Release the members of a tag (R211, R212): every waiting stream goes on, and a saved team's release is recorded. -/
def releaseTag (s : State) (tag : Nat) (members : List (Nat × Bool)) (all : List Arrival) : State :=
  let mine := fun (seq : Nat) => members.any fun m => m.1 = seq
  let go := fun (p : Nat × Team) =>
    if mine p.2.info.seq.toNat then (p.1, { p.2.freeBar tag with acq := barTable p.2.info.seq.toNat all }) else p
  let note := fun (p : Nat × Saved) => if mine p.1 then (p.1, { p.2 with released := p.2.released ++ [tag] }) else p
  let s := { s with teams := s.teams.map go, fw := { s.fw with saved := s.fw.saved.map note } }
  (s.fw.saved.filter fun p => mine p.1).foldl frameRelease s

/-- A member arrives at a tag, which advances its generation (R252); the last arrival releases all (R211). -/
def arriveAt (s : State) (tag seq wid : Nat) : State :=
  let s := advanceGen s wid
  let r := tabGetD {} s.dev.routeTags tag
  let here := r.arrived ++ [{ seq := seq, wid := wid, gen := (genOf s wid).cur.toNat }]
  let next : List Arrival := if here.length = r.count then [] else here
  let s := { s with dev := { s.dev with routeTags := tabSetD {} s.dev.routeTags tag { r with arrived := next } } }
  if here.length = r.count then releaseTag s tag r.members here else s

/-- A member has arrived in the present round of its tag. -/
def RouteTag.has (r : RouteTag) (seq : Nat) : Bool := r.arrived.any fun a => a.seq = seq

/-- The E-stream of a team may have arrived at a tag it has joined: after a BAR, or after lanes have ended (R211). -/
def checkArrivals (s : State) (wid : Nat) : State :=
  match s.team? wid with
  | none => s
  | some t =>
    let seq := t.info.seq.toNat
    (List.range 8).foldl (fun s tag =>
      let r := tabGetD {} s.dev.routeTags tag
      if r.members.contains (seq, true) && !r.has seq && allAtBar t tag then arriveAt s tag seq wid else s) s

/-- The operands of BARJ and BAR: source fields of the A-stream, or in the E-stream those of the lowest lane (Table 9-5). -/
def barOperands (s : State) (i : Issue) (t : Team) (fs : List (BitVec 7)) : Act (List Nat × Team) :=
  if i.estr then do
    let o ← eOperands i t (coreWord s i.core) (fs.map fun f => (f, OpType.int)) none
    let l := o.lanes.head?.getD 0
    .ok ((enum 0 fs).map fun p => (o.arg p.1 l).toNat, eFinish t o false 0)
  else do
    let vs ← fs.mapM fun f => sourceA i t (coreWord s i.core) f
    .ok (vs.map (·.toNat), t)

/-- BARJ (R210). -/
def execBarj (a b : BitVec 7) (s : State) : Host.Outcome State Fault Refusal :=
  issue (.barj a b) plain s fun i t s => do
    let (vs, t) ← barOperands s i t [a, b]
    let tag := vs.getD 0 0
    let c := vs.getD 1 0
    raiseIf (decide (7 < tag)) 0x01D
    let r := tabGetD {} s.dev.routeTags tag
    let seq := t.info.seq.toNat
    raiseIf (r.members.any fun m => m.1 = seq) 0x01C
    raiseIf (c = 0 || decide (4096 < c)) 0x01E
    raiseIf (!r.members.isEmpty && (c != r.count || decide (r.members.length = r.count))) 0x01E
    let r := { r with count := c, members := r.members ++ [(seq, i.estr)] }
    .ok (({ s with dev := { s.dev with routeTags := tabSetD {} s.dev.routeTags tag r } }).setTeam i.wid t)

/-- BAR (R211): the stream waits past the BAR until the release. -/
def execBar (a : BitVec 7) (s : State) : Host.Outcome State Fault Refusal :=
  issue (.bar a) plain s fun i t s => do
    let (vs, t) ← barOperands s i t [a]
    let tag := vs.getD 0 0
    let r := tabGetD {} s.dev.routeTags tag
    let seq := t.info.seq.toNat
    raiseIf (decide (7 < tag) || !r.members.contains (seq, i.estr)) 0x01D
    match i.stream with
    | .a => .ok (arriveAt (s.setTeam i.wid (t.modA fun a => { a with bar := some tag, wait := some (.barrier tag) })) tag seq i.wid)
    | .e n =>
      .ok (checkArrivals (s.setTeam i.wid (t.modFrag n fun f => { f with bar := some tag, wait := some (.barrier tag) })) i.wid)

/-! ## Merging -/

/-- MERGE.ARM (R200). -/
def execMergeArm (n : BitVec 10) (s : State) : Host.Outcome State Fault Refusal :=
  issue (.mergeArm n) plain s fun i t s =>
    match tabGet t.frags i.frag with
    | none => raise 0x007
    | some f => do
      raiseIf (decide (8 ≤ f.tokens.length)) 0x01F
      let t := t.modFrag i.frag fun f => { f with tokens := (n, t.arm) :: f.tokens }
      .ok (s.setTeam i.wid { t with arm := t.arm + 1 })

/-- A fragment or set carries an entry (R200). -/
def Frag.carries (f : Frag) (e : BitVec 10 × BitVec 16) : Bool := f.tokens.contains e

/-- A set waits at a MERGE with the entry on top (R201). -/
def Parked.waitsFor (p : Parked) (e : BitVec 10 × BitVec 16) : Bool := p.held.isSome && p.frag.tokens.head? == some e

/-- What R202 finds between the sets that would merge. -/
def mergeCause (fs : List Frag) : Option Nat :=
  match fs with
  | [] => none
  | f :: rest =>
    if rest.any fun g => g.pc ≠ f.pc then some 0x01F
    else if rest.any fun g => g.win.base ≠ f.win.base ∨ g.win.size ≠ f.win.size ∨ g.win.caller ≠ f.win.caller ∨
        g.win.depth ≠ f.win.depth ∨ g.partn ≠ f.partn then some 0x016
    else none

/-- The resident frames of a merged fragment: those of the sets, which agree but for links (assumption 15). -/
def mergedWindow (tick : Nat) (fs : List Frag) (f : Frag) : Window :=
  (fs.getD (Config.mergeFrames tick % fs.length) f).win

/-- The fragment that merging sets become (R201): the union of their masks, past the MERGE, the entry popped. -/
def mergedFrag (tick : Nat) (fs : List Frag) (f : Frag) (pc : DWord) : Frag :=
  { f.side (fs.foldl (fun m g => m ||| g.mask) 0) pc with tokens := f.tokens.tail, win := mergedWindow tick fs f }

/-- The lowest of some numbers that no fragment of the team holds, else `dflt` (R201). -/
def mergeNumber (t : Team) (nums : List Nat) (dflt : Nat) : Nat :=
  ((List.range 32).find? fun n => nums.contains n && (tabGet t.frags n).isNone).getD dflt

/-- MERGE (R201 to R203). -/
def execMerge (n : BitVec 10) (s : State) : Host.Outcome State Fault Refusal :=
  issue (.merge n) plain s fun i t s =>
    match tabGet t.frags i.frag with
    | none => raise 0x007
    | some f =>
      match f.tokens with
      | [] => raise 0x01F
      | e :: _ => do
        raiseIf (e.1 ≠ n) 0x01F
        let gone := { t with frags := tabDel t.frags i.frag }
        let waiting := t.parked.filter fun p => p.waitsFor e
        let others := (gone.frags.any fun p => p.2.carries e) || t.parked.any fun p => p.frag.carries e && !p.waitsFor e
        let here := { f with pc := i.pc }
        if others then
          let f := { here.side f.mask i.pc with wait := some (.merge e.1.toNat) }
          let set : Parked := { seq := gone.parkSeq, frag := f, held := some i.frag }
          let t := { gone with parked := gone.parked ++ [set], parkSeq := gone.parkSeq + 1 }
          .ok (s.setTeam i.wid (unpark s i.wid t))
        else
          let fs := here :: waiting.map (·.frag)
          match mergeCause fs with
          | some c => raise c
          | none =>
            let num := mergeNumber gone (i.frag :: waiting.filterMap (·.held)) i.frag
            let t := { gone with parked := gone.parked.filter fun p => !p.waitsFor e }
            .ok (s.setTeam i.wid { t with frags := tabSet t.frags num (mergedFrag s.tick fs here (i.pc + 4)) })

/-! ## Ending -/

/-- Lanes leave every entry of the A-to-E queues (R56, R204). -/
def leaveQueues (t : Team) (m : Mask) : Team :=
  { t with q := t.q.map fun (p : Nat × Queue) =>
      if p.1 < 4 ∨ p.1 = 6 then
        (p.1, { p.2 with entries := retireEntries (p.2.entries.map fun e => { e with pend := e.pend &&& ~~~m }) })
      else p }

/-- A merge that an ending fragment completes (R201): the set that arrived last stands in the place of F, and takes the
freed slot. A cause of R202 is met when that set, a fragment again, issues its MERGE. -/
def mergeAtEnd (s : State) (t : Team) (num : Nat) (f : Frag) : Option Team :=
  f.tokens.findSome? fun e =>
    let waiting := t.parked.filter fun p => p.waitsFor e
    match waiting.getLast? with
    | none => none
    | some last =>
      if t.frags.any (fun p => p.2.carries e) || t.parked.any (fun p => p.frag.carries e && !p.waitsFor e) then none
      else
        let fs := last.frag :: (waiting.filter fun p => p.seq ≠ last.seq).map (·.frag)
        match mergeCause fs with
        | none =>
          let n := mergeNumber t (waiting.filterMap (·.held)) num
          some { t with parked := t.parked.filter fun p => !p.waitsFor e,
                        frags := tabSet t.frags n (mergedFrag s.tick fs last.frag (last.frag.pc + 4)) }
        | some _ =>
          let n := mergeNumber t last.held.toList num
          some { t with parked := t.parked.filter fun p => p.seq ≠ last.seq,
                        frags := tabSet t.frags n { last.frag with wait := none } }

/-- END of the E-stream (R201, R204): every lane of the fragment ends. -/
def endE (s : State) (i : Issue) (t : Team) : Act State :=
  match tabGet t.frags i.frag with
  | none => raise 0x007
  | some f =>
    let t := leaveQueues { t with frags := tabDel t.frags i.frag } f.mask
    let t := (mergeAtEnd s t i.frag f).getD (unpark s i.wid t)
    .ok (checkArrivals (s.setTeam i.wid t) i.wid)

/-- END of either stream (R204). -/
def execEndS (s : State) : Host.Outcome State Fault Refusal :=
  issue .endS (fun i _ _ => !i.estr) s fun i t s => if i.estr then endE s i t else endA s i t

/-- RET of the E-stream (R199): at depth 0 it ends the lanes; from the trap frame it is cause 0x022 (R433). -/
def execRetE (s : State) : Host.Outcome State Fault Refusal :=
  issue .retE plain s fun i t s =>
    match tabGet t.frags i.frag with
    | none => raise 0x007
    | some f =>
      if f.win.depth = 0 then endE s i t
      else do
        raiseIf (inTrapFrame t i.stream) 0x022
        let link := (f.win.frames.head?.map (·.link)).getD 0
        let (t, w) ← slideBackE s i t f.win f.mask
        .ok (s.setTeam i.wid ((t.modFrag i.frag fun f => { f with win := w }).setPc i.stream link))

end Sys2Proof.Machine
end

