-- ==== Sys2Proof/Machine/Firmware.lean ====
section
/-!
DEFINITION. Machine/Firmware.lean: the firmware core: its reads and writes of memory (R340), its rounds (R342), and the parse of one
packet (R341, R343, R349, R350).
-/
namespace Sys2Proof.Machine

/-! ## Memory -/

/-- Probe ranges for the firmware in a context, or physical addresses (R340). -/
def fwProbe (s : State) (ctx : Option Nat) (who : Nat) (rs : List (Nat × Nat)) (write : Bool) : Probe :=
  let rs := rs.filter fun r => r.2 ≠ 0
  match ctx with
  | none => if rs.all fun r => (isHbm r.1 && isHbm (r.1 + r.2 - 1)) || (isHost r.1 && isHost (r.1 + r.2 - 1)) then .ready else .cause 0x089
  | some c =>
    if rs.any fun r => decide (2 ^ 57 < r.1 + r.2) then .cause 0x081 else
    let ps := rs.flatMap fun r => (partsOf 0x10000 r.1 r.2).map fun p => pageCheck (xlateApex s c p.1) write (if write then 2 else 1)
    match highest memCauseOrder (ps.filterMap (·.1)), ps.filterMap (·.2) with
    | some k, _ => .cause k
    | none, [] => .ready
    | none, needs => if wasRefused s (.apex who) needs then .cause 0x081 else .wait needs

/-- Cut a range into parts with their physical addresses; a part that does not translate is left out. -/
def fwParts (s : State) (ctx : Option Nat) (va n : Nat) : List (Nat × Nat × Nat × PageAttr) :=
  (partsOf 64 va n).filterMap fun p =>
    match ctx with
    | none => some (p.1, p.2, p.1, {})
    | some c => match xlateApex s c p.1 with
      | .hit l pa => some (p.1, p.2, pa, l.attr)
      | _ => none

/-- Bytes that the firmware reads. -/
def fwBytes (s : State) (ctx : Option Nat) (va n : Nat) : List Byte :=
  (fwParts s ctx va n).flatMap fun p => memBytes s.mem p.2.2.1 p.2.1

/-- A little-endian number that the firmware reads. -/
def fwNat (s : State) (ctx : Option Nat) (va n : Nat) : Nat := leNat (fwBytes s ctx va n)

/-- The L2 tables after a firmware read. -/
def fwTouch (s : State) (ctx : Option Nat) (va n : Nat) : State :=
  (fwParts s ctx va n).foldl (fun s p => physTouchRead s apexAccess p.2.2.1 p.2.2.2 0 false) s

/-- Bytes that the firmware writes, in aligned words. -/
def fwWrite (s : State) (ctx : Option Nat) (va : Nat) (bs : List Byte) : State :=
  (fwParts s ctx va bs.length).foldl (fun s p =>
    physWrite s apexAccess p.2.2.1 ((bs.drop (p.1 - va)).take p.2.1) p.2.2.2 0 .clear) s

/-- The firmware requests the pages that it waits for, in the region whose context it uses (R340). -/
def fwWait (s : State) (ctx : Option Nat) (node who : Nat) (needs : List PageNeed) : State :=
  match ctx with
  | none => s
  | some c => needs.foldl (fun s n => requestApex s c node who n) s

/-- The requester of what a parse of a queue reads, and that of a packet's signal. -/
def queueWho (q : Nat) : Nat := 2 * q
def packetWho (key : Nat) : Nat := 64 + 4 * key

/-! ## Queues and rounds -/

/-- The node of a queue, and its context: none while the node holds no loaded region (R340). -/
def queueCtx (s : State) (q : CmdQueue) : Option Nat :=
  if (s.region q.node).loaded then some (s.region q.node).ctx else none

/-- Where a lane's next packet stands (R342, R349): its address, the slots from it to the end of what is written, the node and the
context that it is read through, and its depth. -/
structure Spot where
  addr : Nat
  avail : Nat
  node : Nat
  ctx : Option Nat
  depth : Nat

/-- Slots of a queue that are written and not read. -/
def queueLevel (q : CmdQueue) : Nat := (q.wptr - q.rptr).toNat

/-- The place of a lane's next packet. -/
def queuePlace (s : State) (q : CmdQueue) : Spot :=
  match q.levels with
  | [] => { addr := q.base + 64 * (q.rptr.toNat % max 1 q.slots), avail := queueLevel q, node := q.node, ctx := queueCtx s q, depth := 0 }
  | l :: ls =>
    let p := (s.packet? l.key).getD {}
    { addr := l.buf + 64 * l.next, avail := l.slots - l.next, node := p.node, ctx := p.ctx, depth := ls.length + 1 }

/-- The bytes of `n` slots from a lane's next packet on: in the queue's ring they wrap at its end. -/
def headSlots (s : State) (q : CmdQueue) (n : Nat) : List Byte :=
  let p := queuePlace s q
  (List.range n).flatMap fun k =>
    match q.levels with
    | [] => fwBytes s p.ctx (q.base + 64 * ((q.rptr.toNat + k) % max 1 q.slots)) 64
    | _ :: _ => fwBytes s p.ctx (p.addr + 64 * k) 64

/-- Probe `n` slots of a lane's next packet. -/
def slotProbe (s : State) (qn : Nat) (q : CmdQueue) (n : Nat) : Probe :=
  let p := queuePlace s q
  fwProbe s p.ctx (queueWho qn) ((List.range n).map fun k =>
    match q.levels with
    | [] => (q.base + 64 * ((q.rptr.toNat + k) % max 1 q.slots), 64)
    | _ :: _ => (p.addr + 64 * k, 64)) false

/-- The first eight bytes of a packet's header; none when they cannot be read now. -/
def headWord (s : State) (qn : Nat) (q : CmdQueue) : Option Nat :=
  match slotProbe s qn q 1 with
  | .ready => some (leNat ((headSlots s q 1).take 8))
  | _ => none

/-- The packets of a queue that stand before its next one and have not completed, but for the buffers being parsed. -/
def earlierPackets (s : State) (qn : Nat) : List Nat :=
  let q := s.queue qn
  (s.fw.packets.filter fun p => p.2.queue = qn ∧ !(q.levels.any fun l => l.key = p.1)).map (·.1)

/-- A queue is ready (R342): one whose header waits for a page that has been requested is not (R340). -/
def queueReady (s : State) (qn : Nat) : Bool :=
  let q := s.queue qn
  let p := queuePlace s q
  if q.halted || q.waiting.isSome || p.avail == 0 then false
  else match headWord s qn q with
    | none => true
    | some h => (decide (bitsOf h 9 8 + 1 ≤ p.avail) || !q.levels.isEmpty) && (bitsOf h 10 10 == 0 || (earlierPackets s qn).isEmpty)

/-- The opcode of a lane's next packet; 256 when its header cannot be read. -/
def headOpcode (s : State) (qn : Nat) : Nat := ((headWord s qn (s.queue qn)).map fun h => bitsOf h 7 0).getD 256

/-- The opcodes in the order of Table 17-5. -/
def opcodeOrder : List Nat := [0x0B, 0x0C, 0x0D, 0x0E, 0x09, 0x0A, 0x03, 0x01, 0x02, 0x04, 0x05, 0x06, 0x07, 0x08, 0x0F]

/-- The lanes of a new round, in the order in which they are served (R342). -/
def newRound (s : State) : List Nat :=
  let ready := (List.range 32).filter (queueReady s)
  opcodeOrder.flatMap (fun o => ready.filter fun q => headOpcode s q = o) ++
    ready.filter fun q => !opcodeOrder.contains (headOpcode s q)

/-- The round under way; a new one where the last has ended. -/
def openRound (s : State) : State :=
  if s.fw.round.isEmpty then { s with fw := { s.fw with round := newRound s } } else s

/-- A lane has had its turn in the round. -/
def leaveRound (s : State) (qn : Nat) : State := { s with fw := { s.fw with round := s.fw.round.filter (· ≠ qn) } }

/-! ## Parsing -/

/-- What the parse of a packet gives: pages to wait for, a command fault, or the state with the packet's work begun. -/
inductive Parsed where
  | wait (ctx : Option Nat) (node : Nat) (needs : List PageNeed)
  | fault (cause ordinal : Nat) (more : List (List RecField))
  | done (s : State)

/-- A command fault without more. -/
def Parsed.bad (cause : Nat) : Parsed := .fault cause 0 []

/-- Reads of the firmware that a parse needs: it waits for their pages, or faults with 0x13B (R340). -/
def fwRead (s : State) (p : Packet) (rs : List (Nat × Nat)) (k : Unit → Parsed) : Parsed :=
  match fwProbe s p.ctx (queueWho p.queue) rs false with
  | .cause _ => .bad 0x13B
  | .wait needs => .wait p.ctx p.node needs
  | .ready => k ()

/-- A field of a packet or record: `n` bytes at byte `o`. -/
def field (bs : List Byte) (o n : Nat) : Nat := leNat ((bs.drop o).take n)

/-- Every byte from 24 on outside the listed parts is zero (R343). -/
def restZero (bs : List Byte) (used : List (Nat × Nat)) : Bool :=
  (enum 0 bs).all fun b => decide (b.1 < 24) || b.2 == 0 || used.any fun u => decide (u.1 ≤ b.1) && decide (b.1 < u.1 + u.2)

/-- The slots that an opcode takes (Table 17-5); FABRIC's depend on its KIND (Table 20-5), and HOSTXFER takes any number. -/
def opcodeSlots (op kind : Nat) : Nat :=
  match op with
  | 0x0C => 2 | 0x05 => 2 | 0x06 => 2
  | 0x07 => if kind ≤ 2 then 2 else 1
  | _ => 1

/-- Bytes of a signal's word (Table 17-4). -/
def signalBytes (op : Nat) : Nat := if op % 2 = 0 then 4 else 8

/-- The packet that a header gives, in a queue whose next packet stands at a place. -/
def packetOf (s : State) (qn : Nat) (pl : Spot) (bs : List Byte) : Packet :=
  let q := s.queue qn
  let h := field bs 0 8
  let node := if bitsOf h 25 16 = 0x3FF then q.node else bitsOf h 25 16
  { queue := qn, depth := pl.depth, addr := pl.addr, opcode := bitsOf h 7 0, sigen := bitsOf h 11 11 = 1,
    sigop := bitsOf h 13 12, sigaddr := field bs 8 8, sigval := field bs 16 8, intr := bitsOf h 14 14 = 1,
    tag := bitsOf h 63 32, node := node,
    ctx := if (s.region q.node).loaded then some (s.region node).ctx else none }

/-- A header that raises 0x135 (R342). -/
def headerBad (s : State) (qn : Nat) (p : Packet) (bs : List Byte) : Bool :=
  let h := field bs 0 8
  let q := s.queue qn
  let known := opcodeOrder.contains p.opcode
  !known || (p.opcode != 0x08 && bitsOf h 9 8 + 1 != opcodeSlots p.opcode (field bs 24 1 % 8)) || bitsOf h 15 15 != 0 || bitsOf h 31 26 != 0 ||
  p.sigaddr % signalBytes p.sigop != 0 || !(nodeAbove s q.node 16 p.node) || (p.node != q.node && !(s.region p.node).loaded)

/-- A lane's pointers move past the packet that it has parsed (R340, R349, R350). -/
def advanceQueue (s : State) (qn slots : Nat) : State :=
  let q := s.queue qn
  match q.levels with
  | [] => s.setCmdQueue qn { q with rptr := q.rptr + BitVec.ofNat 32 slots }
  | l :: ls => s.setCmdQueue qn { q with levels := { l with next := l.next + slots } :: ls }

/-- Buffers whose last packet has been parsed end, the innermost first: their INDIRECTs are complete (R342, R349). -/
def closeLevels (qn : Nat) : Nat → State → State
  | 0, s => s
  | n + 1, s =>
    let q := s.queue qn
    match q.levels with
    | l :: ls => if l.slots ≤ l.next then closeLevels qn n (packetPart (s.setCmdQueue qn { q with levels := ls }) l.key) else s
    | [] => s

/-- The packet at the head of a lane, when it is the lane's turn in the round and the packet is of the kind that `mine` accepts (by its
opcode and the byte that FABRIC and REGION choose by): `act` begins its work, given its key, the packet and its bytes. -/
def parsePacket (s : State) (qn : Nat) (mine : Nat → List Byte → Bool) (act : State → Nat → Packet → List Byte → Parsed) : State :=
  let s0 := openRound s
  if s0.fw.round.head? ≠ some qn then s
  else
    let q := s0.queue qn
    let pl := queuePlace s0 q
    let turn := leaveRound s0 qn
    let key := turn.fw.packetSeq
    let unread := fun (p : Packet) (n : Nat) =>
      let s := commandFault turn key p 0x13B
      forgetRefused (if q.levels.isEmpty then s else closeLevels qn 5 (advanceQueue s qn n)) (.apex (queueWho qn))
    match slotProbe s0 qn q 1 with
    | .wait needs => if mine 256 [] then fwWait turn pl.ctx pl.node (queueWho qn) needs else s
    | .cause _ => if mine 256 [] then unread { queue := qn, depth := pl.depth, addr := pl.addr, node := pl.node } 1 else s
    | .ready =>
      let head := headSlots s0 q 1
      let slots := bitsOf (field head 0 8) 9 8 + 1
      let op := field head 0 1
      if !mine op head then s
      else
        let p := packetOf turn qn pl head
        let fault := fun (s : State) (cause ordinal : Nat) (more : List (List RecField)) =>
          closeLevels qn 5 (commandFault (advanceQueue s qn (min slots pl.avail)) key p cause ordinal more)
        if pl.avail < slots then fault turn 0x135 0 []
        else match slotProbe s0 qn q slots with
          | .wait needs => fwWait turn pl.ctx pl.node (queueWho qn) needs
          | .cause _ => unread p slots
          | .ready =>
            let bs := headSlots s0 q slots
            if headerBad turn qn p bs then fault turn 0x135 0 []
            else
              let begun := advanceQueue { turn with fw := { turn.fw with
                packets := tabSet turn.fw.packets key p, packetSeq := key + 1 } } qn slots
              match act begun key p bs with
              | .wait ctx node needs => fwWait turn ctx node (queueWho qn) needs
              | .fault cause ordinal more => forgetRefused (fault turn cause ordinal more) (.apex (queueWho qn))
              | .done s => forgetRefused (closeLevels qn 5 s) (.apex (queueWho qn))

/-- A packet of an opcode. -/
def isOpcode (n : Nat) (op : Nat) (_ : List Byte) : Bool := op == n

/-! ## Completion -/

/-- Write a packet's signal (R344): a store or an addition that wraps. -/
def writeSignal (s : State) (p : Packet) : State :=
  let n := signalBytes p.sigop
  let old := if p.sigop < 2 then 0 else fwNat s p.ctx p.sigaddr n
  fwWrite s p.ctx p.sigaddr (natLe n (old + p.sigval))

/-- The fault domain that a packet's event is counted at (R344, R353). -/
def packetDomain (s : State) (p : Packet) : Nat := faultDomain s (loadedNode s p.node)

/-- A WAIT that has completed leaves the watches, and its queue is pending no longer (R352). -/
def endWait (s : State) (key qn : Nat) : State :=
  let s := { s with fw := { s.fw with watches := s.fw.watches.filter fun w => w.key ≠ key } }
  s.setCmdQueue qn { s.queue qn with waiting := none }

/-- PACKET_COMPLETION (R342, R344, R352): a packet whose work has ended writes its signal and counts its event. A SIGNAL completes after
every earlier packet of its queue, a WAIT once its condition has held. -/
def completePacket (s : State) (key : Nat) : State :=
  match s.packet? key with
  | none => s
  | some p =>
    let blocked := p.opcode == 0x0A && (earlierPackets s p.queue).any fun k => decide (k < key)
    let isWait := p.opcode == 0x09
    let held := isWait && !s.fw.watches.any fun w => w.key == key && w.hit
    if p.left ≠ 0 || blocked || held then s
    else
      let gone := fun (s : State) =>
        let s := forgetRefused { s with fw := { s.fw with packets := tabDel s.fw.packets key } } (.apex (packetWho key))
        let s := if isWait then endWait s key p.queue else s
        if p.intr then countEvent s (packetDomain s p) else s
      if !p.sigen then gone s
      else match fwProbe s p.ctx (packetWho key) [(p.sigaddr, signalBytes p.sigop)] true with
        | .wait needs => fwWait s p.ctx p.node (packetWho key) needs
        | .cause _ => gone (commandRecord s p 0x13B 0 [])
        | .ready => gone (writeSignal s p)

end Sys2Proof.Machine
end

