-- ==== Sys2Proof/Machine/Nodes.lean ====
section
/-!
DEFINITION. Machine/Nodes.lean: rank scripts (R314 to R317), the descent of firmware pushes (R313, R317, R319) and the watchdog of full
leaves (R321).
-/
namespace Sys2Proof.Machine

/-! ## Scripts -/

/-- A script register. -/
def scriptReg (g : List Word) (n : BitVec 3) : Word := g.getD n.toNat 0

/-- The result of an operation that writes g_d (Table 16-4). -/
def scriptValue (now : Nat) (fields state g : List Word) (w : Word) : Word :=
  let a := scriptReg g (w.extractLsb' 22 3)
  let b := scriptReg g (w.extractLsb' 19 3)
  let n := (w.extractLsb' 0 3).toNat
  let sat := fun (x : Nat) => BitVec.ofNat 32 (min x (2 ^ 32 - 1))
  match (w.extractLsb' 28 4).toNat with
  | 0 => fields.getD n 0
  | 1 => state.getD n 0
  | 2 => if bit w 22 then w.extractLsb' 0 16 ++ (scriptReg g (w.extractLsb' 25 3)).extractLsb' 0 16 else (w.extractLsb' 0 16).zeroExtend 32
  | 3 => sat (a.toNat + b.toNat)
  | 4 => BitVec.ofNat 32 (a.toNat - b.toNat)
  | 5 => sat (a.toNat * b.toNat)
  | 6 => a >>> (w.extractLsb' 0 5).toNat
  | 7 => if a.toNat ≤ b.toNat then a else b
  | 8 => if a.toNat ≤ b.toNat then b else a
  | 9 => if scriptReg g (w.extractLsb' 16 3) ≠ 0 then a else b
  | _ => BitVec.ofNat 32 now

/-- Run a script (R315, R317): the rank of its RET and the STNs it recorded, latest last. -/
def runScript (now : Nat) (fields state : List Word) : List Word → List Word → List (Nat × Word) → Word × List (Nat × Word)
  | [], g, st => (g.getD 0 0, st)
  | w :: ws, g, st =>
    let a := scriptReg g (w.extractLsb' 22 3)
    match (w.extractLsb' 28 4).toNat with
    | 11 => runScript now fields state ws g (st ++ [((w.extractLsb' 0 3).toNat, a)])
    | 12 => (a, st)
    | _ => runScript now fields state ws (g.set (w.extractLsb' 25 3).toNat (scriptValue now fields state g w)) st

/-- The script of a node: `RET g0` where none was written (R314). -/
def nodeScript (s : State) (n : Nat) : List Word := (tabGet s.dev.scripts n).getD [0xC0000000]

/-- The bits of an operation word that its form uses (Table 16-4). -/
def scriptUsed (op : Nat) : Word :=
  match op with
  | 0 => 0xFE000007 | 1 => 0xFE000007 | 2 => 0xFE40FFFF | 3 => 0xFFF80000 | 4 => 0xFFF80000 | 5 => 0xFFF80000
  | 6 => 0xFFC0001F | 7 => 0xFFF80000 | 8 => 0xFFF80000 | 9 => 0xFFFF0000 | 10 => 0xFE000000 | 11 => 0xF1C00007
  | 12 => 0xF1C00000 | _ => 0

/-- A script is refused (R316): a bad word before its first RET, or no RET. -/
def scriptBad : List Word → Bool
  | [] => true
  | w :: ws =>
    let op := (w.extractLsb' 28 4).toNat
    if 13 ≤ op ∨ w &&& ~~~(scriptUsed op) ≠ 0 then true else if op = 12 then false else scriptBad ws

/-! ## Pushes -/

/-- The firmware pushes an item that enters at a node toward a leaf (R313). -/
def firmwarePush (s : State) (entry leaf : Nat) (path : List Nat) (fields : List Word) (w : Work) : State :=
  let d : Descent := { leaf := leaf, path := path, fields := fields, item := { rank := 0, stamp := 0, entry := some entry, work := w } }
  { s with dev := { s.dev with descents := s.dev.descents ++ [d] } }

/-- Push works into a leaf, in order, at the rank of one descent. -/
def arriveAll (s : State) (d : Descent) (ws : List Work) : State :=
  ws.foldl (fun s w => enterLeaf { s with dev := { s.dev with pushSeq := s.dev.pushSeq + 1 } } d.leaf
    { d.item with stamp := s.dev.pushSeq, work := w }) s

/-- The parts of a host transfer, divided at 4 KiB boundaries (R454). -/
def hostPieces (x : HostXfer) : List HostXfer :=
  (partsOf 4096 x.host x.len).map fun p => { x with host := p.1, va := x.va + (p.1 - x.host), len := p.2 }

/-- A push has passed its last inner node and reaches its leaf; all segments of a COPY packet, all packets of a FABRIC operation and all
parts of a host transfer enter at its rank (R343, R405, R413, R454). -/
def arrive (s : State) (d : Descent) : State :=
  match d.item.work with
  | .op id _ _ _ =>
    match tabGet s.fab.ops id with
    | none => s
    | some o => arriveAll s d ((opPieces o.desc).map fun p => .op id p.1 p.2.1 p.2.2)
  | .host x => arriveAll s d ((hostPieces x).map .host)
  | .seg id _ =>
    match tabGet s.eng.copies id with
    | none => s
    | some c =>
      arriveAll (s.modCopy id fun c => { c with rank := d.item.rank }) d ((List.range (segmentCount c)).map (.seg id))
  | .stream id => arriveAll (s.modCopy id fun c => { c with rank := d.item.rank }) d [.stream id]
  | w => arriveAll s d [w]

/-- A push goes on from a node: to the node below, in order of arrival there, or to its leaf. -/
def descend (s : State) (d : Descent) : State :=
  match d.path with
  | [] => arrive s { d with heldAt := none }
  | _ :: _ => { s with dev := { s.dev with descents := s.dev.descents ++ [{ d with heldAt := none }] } }

/-- Items that calendar nodes hold (Table 16-1). -/
def calendarItems (s : State) : Nat := (s.dev.descents.filter fun d => d.heldAt.isSome).length

/-- Write the STNs of a script, the latest last (R317). -/
def applyStns (r : Region) (st : List (Nat × Word)) : Region :=
  { r with words := st.foldl (fun ws p => ws.set p.1 p.2) r.words }

/-- PUSH (R313, R317): the oldest push in the input buffer of a node runs the node's script, and goes down, or is held where the
node is a calendar. -/
def pushStep (s : State) (node : Nat) : State :=
  let here := fun (d : Descent) => d.heldAt.isNone && d.path.head? == some node
  match s.dev.descents.findIdx? here with
  | none => s
  | some k =>
    match s.dev.descents[k]? with
    | none => s
    | some d =>
      let r := s.region node
      if r.calendarKind && decide (16384 ≤ calendarItems s) then s
      else
        let g := BitVec.ofNat 32 d.item.rank :: List.replicate 7 0
        let out := runScript s.now d.fields r.words (nodeScript s r.script) g []
        let d := { d with path := d.path.tail, item := { d.item with rank := out.1.toNat } }
        let s := { s with dev := { s.dev with descents := s.dev.descents.eraseIdx k } }
        let s := s.setRegion node (applyStns r out.2)
        if r.calendarKind then { s with dev := { s.dev with descents := s.dev.descents ++ [{ d with heldAt := some node }] } }
        else descend s d

/-- How overdue an item is (R319). -/
def overdue (now rank : Nat) : Nat := (now + 2 ^ 32 - rank) % 2 ^ 32

/-- CALENDAR_RELEASE (R319): a calendar node sends its most overdue due item on, equal ones in push order. -/
def calendarRelease (s : State) (node : Nat) : State :=
  let due := (enum 0 s.dev.descents).filter fun p => p.2.heldAt = some node ∧ isDue s.now p.2.item.rank
  let best := due.foldl (fun b p => match b with
    | none => some p
    | some q => if overdue s.now q.2.item.rank < overdue s.now p.2.item.rank then some p else some q) none
  match best with
  | none => s
  | some p => descend { s with dev := { s.dev with descents := s.dev.descents.eraseIdx p.1 } } p.2

/-- FULL_LEAF_WATCHDOG (R321): the oldest push at a full leaf that has waited for the watchdog interval and has not been reported. -/
def fullLeafWatchdog (s : State) (id : Nat) : State :=
  let l := s.leaf id
  let node := fun (x : LeafItem) => match x.entry with | some n => some n | none => l.parent
  let due := fun (x : LeafItem) =>
    !x.reported && decide (x.since + (s.region ((node x).getD 0)).wdog * microsecond ≤ s.dev.time)
  match l.waiting.findIdx? due with
  | none => s
  | some k =>
    match l.waiting[k]? with
    | none => s
    | some x =>
      let head := ((leafHead s.now l).map (·.rank)).getD ((l.items.head?.map (·.rank)).getD 0)
      let s := s.setLeaf id { l with waiting := l.waiting.set k { x with reported := true } }
      faultRecord s ((node x).bind (loadedNode s)) 0x131 3 0xFFF 0 [[(24, 2, id), (28, 4, x.rank), (32, 4, head)]]

end Sys2Proof.Machine
end

