-- ==== Sys2Proof/Machine/Regions.lean ====
section
/-!
DEFINITION. Machine/Regions.lean: region control blocks loaded and freed (R331 to R334), scripts written (R316), core partitions
(R335) and page answers (R339).
-/
namespace Sys2Proof.Machine

/-! ## Region control blocks -/

/-- A reserved bit of a block is set (Table 17-1). -/
def blockReserved (b : List Byte) : Bool :=
  bitsOf (field b 0 2) 15 10 + bitsOf (field b 2 2) 14 10 + bitsOf (field b 4 2) 15 12 + bitsOf (field b 7 1) 7 7 +
  bitsOf (field b 44 2) 15 12 + bitsOf (field b 46 1) 7 2 + bitsOf (field b 47 1) 7 2 + field b 54 2 + bitsOf (field b 72 1) 7 5 +
  bitsOf (field b 73 1) 7 5 + field b 74 2 + field b 84 4 + field b 98 30 != 0

/-- The region that a block describes under its parent's effective values (R331). -/
def blockRegion (b : List Byte) (p : Region) : Region :=
  let inh := field b 4 2
  let take := fun {α : Type} (n : Nat) (own parent : α) => if bitsOf inh n n = 1 then parent else own
  { loaded := true,
    parent := if bitsOf (field b 2 2) 15 15 = 1 then none else some (bitsOf (field b 2 2) 9 0),
    calendarKind := bitsOf (field b 6 1) 0 0 = 1, leafCal := bitsOf (field b 6 1) 1 1 = 1,
    script := take 0 (bitsOf (field b 6 1) 7 2) p.script, margin := take 1 (field b 8 4) p.margin,
    depth := take 2 (bitsOf (field b 7 1) 6 0) p.depth, fdom := take 3 (field b 56 8) p.fdom,
    words := (List.range 8).map fun k => BitVec.ofNat 32 (field b (12 + 4 * k) 4),
    ctx := take 4 (bitsOf (field b 44 2) 11 0) p.ctx, l2part := take 5 (bitsOf (field b 46 1) 1 0) p.l2part,
    racechk := take 6 (decide (bitsOf (field b 47 1) 0 0 = 1)) p.racechk,
    masklock := take 7 (decide (bitsOf (field b 47 1) 1 1 = 1)) p.masklock,
    fmaskCeil := take 7 (BitVec.ofNat 16 (field b 48 2)) p.fmaskCeil, fmask := take 7 (BitVec.ofNat 16 (field b 50 2)) p.fmask,
    wdog := take 8 (field b 52 2) p.wdog, teamLim := take 9 (field b 64 4) p.teamLim, taskLim := take 10 (field b 68 4) p.taskLim,
    qslot := take 11 (bitsOf (field b 72 1) 4 0) p.qslot, qam := take 11 (bitsOf (field b 73 1) 4 0) p.qam,
    qvreg := take 11 (field b 76 4) p.qvreg, qcs := take 11 (field b 80 4) p.qcs }

/-- A field of a block lies outside the limits of Table 17-1. -/
def blockLimits (b : List Byte) (r : Region) : Bool :=
  decide (64 < r.depth) || r.fmaskCeil == 0 || r.fmask == 0 || r.wdog == 0 || r.fdom % 64 != 0 || r.taskLim == 0 || r.qslot == 0 ||
  decide (16 < r.qslot) || decide (16 < r.qam) || r.qvreg % 1024 != 0 || decide (131072 < r.qvreg) || r.qcs % 4096 != 0 ||
  field b 88 8 % 8 != 0 || decide (1024 < field b 96 2) || (r.parent.isNone && field b 2 2 % 1024 != 0)

/-- The leaves of a block's leaf list (R332). -/
def blockLeaves (s : State) (b : List Byte) : List Nat :=
  (List.range (field b 96 2)).map fun k => memNat s.mem (field b 88 8 + 2 * k) 2

/-- Nodes from a node up to its root, the node itself among them. -/
def nodeDepth (s : State) : Nat → Nat → Nat
  | 0, _ => 0
  | fuel + 1, n => 1 + (match (s.region n).parent with | some p => nodeDepth s fuel p | none => 0)

/-- A fault-domain block that breaks Table 17-3. -/
def fdomBad (s : State) (a : Nat) : Bool :=
  let n := fun (o k : Nat) => memNat s.mem (a + o) k
  n 50 14 != 0 || n 0 8 % 64 != 0 || n 24 8 % 32 != 0 || !ringSizeOk (n 8 4) || !ringSizeOk (n 32 4) || n 44 2 == 0 ||
  n 46 1 == 0 || decide (64 < n 46 1) || decide (1 < n 47 1) || decide (63 < n 48 2)

/-- The active fault-domain blocks, but for the device's (R338). -/
def activeFdoms (s : State) : List Nat :=
  ((s.dev.nodes.filter fun p => p.2.loaded && p.2.fdom != s.dev.devFdom).map (·.2.fdom)).eraseDups

/-- FDOM of a block is refused (R333). -/
def fdomRefused (s : State) (a : Nat) : Bool :=
  if a = s.dev.devFdom || (activeFdoms s).contains a then false
  else decide (64 ≤ (activeFdoms s).length) || fdomBad s a

/-- Link a node's leaves: those that it loses have no parent, those listed have the node (R332). -/
def linkLeaves (s : State) (node : Nat) (old new : List Nat) (cal : Bool) : State :=
  let s := (old.filter fun id => !new.contains id).foldl (fun s id => s.setLeaf id { s.leaf id with parent := none, calendar := false }) s
  new.foldl (fun s id => s.setLeaf id { s.leaf id with parent := some node, calendar := cal }) s

/-- A LOAD is refused (R333). -/
def loadRefused (s : State) (b : List Byte) (node : Nat) (r : Region) (leaves : List Nat) : Bool :=
  let orphan := match r.parent with
    | none => field b 4 2 != 0
    | some p => !(s.region p).loaded || nodeAbove s node 16 p
  let after := (linkLeaves s node (s.region node).leaves leaves r.leafCal).setRegion node { r with leaves := leaves }
  let deep := after.dev.nodes.any fun p => p.2.loaded && !p.2.leaves.isEmpty && decide (4 < nodeDepth after 6 p.1)
  blockReserved b || blockLimits b r || orphan || deep ||
  (leaves.any fun id => !leafExists id || ((s.leaf id).parent.any fun p => p != node) || (r.leafCal && decide (id / 4096 < 3))) ||
  (ctxRoot s r.ctx).isNone || fdomRefused s r.fdom

/-- The address of a REGION packet's block, or the fault of its body (R343). -/
def regionBody (s : State) (bs : List Byte) (k : Nat → List Byte → Parsed) : Parsed :=
  let a := field bs 24 8
  if !restZero bs [(24, 9)] || decide (1 < field bs 32 1) || a % 128 != 0 then .bad 0x135
  else if !(isHbm a || isHost a) then .bad 0x13B
  else k a (memBytes s.mem a 128)

/-- REGION_LOAD (R331 to R333). -/
def regionLoad (s : State) (q : Nat) : State :=
  parsePacket s q (fun op bs => op == 0x0B && field bs 32 1 % 2 == 0) fun s _ _ bs =>
    regionBody s bs fun _ b =>
      let node := bitsOf (field b 0 2) 9 0
      let parent := bitsOf (field b 2 2) 9 0
      let r := blockRegion b (if bitsOf (field b 2 2) 15 15 = 1 then {} else s.region parent)
      let leaves := blockLeaves s b
      if loadRefused s b node r leaves then .bad 0x133
      else .done ((linkLeaves s node (s.region node).leaves leaves r.leafCal).setRegion node { r with leaves := leaves })

/-- A FREE is refused (R334). -/
def freeRefused (s : State) (node : Nat) : Bool :=
  (s.dev.nodes.any fun p => p.2.loaded && p.2.parent == some node) ||
  (s.dev.descents.any fun d => d.heldAt == some node || (d.heldAt.isNone && d.path.head? == some node)) ||
  (s.teams.any fun p => p.2.info.node == node) || (s.fw.saved.any fun p => p.2.team.info.node == node) ||
  (s.fw.queues.any fun p => p.2.node == node)

/-- The pins that satisfy a test dissolve: their lines become reuse lines (R226), and each writes an event with cause 0x09B for the region
that pinned it (R387, R392). -/
def dissolvePins (s : State) (f : L2Way → Bool) : State :=
  let lost := s.dev.l2.flatMap fun p => (p.2.ways.filter fun w => w.2.cls = 3 ∧ f w.2).map (·.2)
  let s := lost.foldl (fun s w => faultRecord s w.pinNode 0x09B 8 0xFFF 0 [[(24, 8, 128 * w.line)]]) s
  let way := fun (p : Nat × L2Way) =>
    if p.2.cls = 3 ∧ f p.2 then (p.1, { p.2 with cls := 2, pinNode := none }) else p
  let set := fun (p : Nat × L2Set) => (p.1, { p.2 with ways := p.2.ways.map way })
  { s with dev := { s.dev with l2 := s.dev.l2.map set } }

/-- What a core holds of a region that is torn down: directory entries, handlers, and acorns (R293, R294, R398). -/
def tearCore (node : Nat) (k : Core) : Core :=
  { k with dir := k.dir.filter fun e => e.2.node ≠ node, handlers := k.handlers.filter fun h => h.2.node ≠ node,
           acorns := (k.acorns.filter fun a => a.2.node ≠ node ∨ a.2.firing).map fun a =>
             if a.2.node = node then (a.1, { a.2 with torn := true }) else a }

/-- The page-request records of a region that are posted are answered as declined (R334). -/
def declinePosted (s : State) (node : Nat) : State :=
  let mine := fun (e : FilterEntry) => e.posted && e.node == node
  let es := (s.clusters.flatMap fun p => p.2.filter.filter mine) ++ s.dev.apexFilter.filter mine
  es.foldl (fun s e => answerPage s e.ctx e.page false) s

/-- A region is torn down (R334). -/
def tearDown (s : State) (node : Nat) : State :=
  let s := linkLeaves s node (s.region node).leaves [] false
  let s := dissolvePins s fun w => w.pinNode == some node
  let s := { s with cores := s.cores.map fun p => (p.1, tearCore node p.2) }
  (declinePosted s node).setRegion node {}

/-- REGION_FREE (R334). -/
def regionFree (s : State) (q : Nat) : State :=
  parsePacket s q (fun op bs => op == 0x0B && field bs 32 1 % 2 == 1) fun s _ _ bs =>
    regionBody s bs fun _ b =>
      let node := bitsOf (field b 0 2) 9 0
      if !(s.region node).loaded then .done s
      else if freeRefused s node then .bad 0x133
      else .done (tearDown s node)

/-! ## Scripts, partitions, page answers -/

/-- SCRIPT (R316, R343). -/
def scriptPacket (s : State) (q : Nat) : State :=
  parsePacket s q (isOpcode 0x0C) fun s _ _ bs =>
    let n := field bs 24 1
    let ws : List Word := (List.range 16).map fun k => BitVec.ofNat 32 (field bs (64 + 4 * k) 4)
    if !restZero bs [(24, 1), (64, 64)] || decide (63 < n) then .bad 0x135
    else if scriptBad ws then .bad 0x130
    else .done { s with dev := { s.dev with scripts := tabSet s.dev.scripts n ws } }

/-- A tile task waits in a core's Lattice leaf or stands in its Lattice (R335). -/
def holdsTileTask (s : State) (core : Nat) : Bool :=
  let l := s.leaf (leafId 1 core)
  let k := (s.core core).lat
  let isTask := fun (x : LatItem) => match x with | .task _ => true | .team _ => false
  !l.items.isEmpty || !l.waiting.isEmpty || k.held.any isTask || k.run.any isTask || !k.finishing.isEmpty

/-- PART (R335, Table 17-2). -/
def partPacket (s : State) (q : Nat) : State :=
  parsePacket s q (isOpcode 0x0D) fun s _ _ bs =>
    let core := field bs 24 1
    let units := field bs 25 1 + 1
    let tiles := field bs 26 1
    let stage := field bs 28 2
    if !restZero bs [(24, 3), (28, 2)] || decide (8 < units) || decide (16 < tiles) then .bad 0x135
    else if (s.teams.any fun p => coreOf p.1 == core) || (s.fw.saved.any fun p => p.2.core == core) || holdsTileTask s core ||
      decide (2 ^ 20 < units * 0x10000 + stage * 0x1000) || (tiles != 0 && decide (stage < 8)) then .bad 0x138
    else
      let k := s.core core
      let k := if k.l1Units = units then k else { k with l1Units := units, l1 := [] }
      .done (s.setCore core { k with ttiles := tiles, stage := stage })

/-- PAGEANS (R339): a grant of a page that is not resident is a decline. -/
def pageansPacket (s : State) (q : Nat) : State :=
  parsePacket s q (isOpcode 0x0E) fun s _ _ bs =>
    let page := field bs 24 8
    let ctx := field bs 32 2
    if !restZero bs [(24, 11)] || page % 0x10000 != 0 || decide (2 ^ 57 ≤ page) || decide (4096 ≤ ctx) || decide (1 < field bs 34 1) then
      .bad 0x135
    else
      let resident := match walkCtx s ctx page with | .hit .. => true | _ => false
      .done (answerPage s ctx page (field bs 34 1 == 1 && resident))

end Sys2Proof.Machine
end

