-- ==== Sys2Proof/Machine/System.lean ====
section
/-!
DEFINITION. Machine/System.lean: the system registers (R45, Table 3-4, R435), TRAP, TRET and NOP (R436), the hints (R68 to R75), words
that are no instruction (R78), and two steps of the streams' own engines: abandoning a chain (R54) and the gather engine's push (R110).
-/
namespace Sys2Proof.Machine

/-! ## System registers -/

/-- The scope of a system register (Table 3-4). -/
inductive SrScope where
  | team
  | aOnly
  | perFragment
  deriving DecidableEq, Repr

/-- The scope of a number that Table 3-4 lists, and whether it is read only. -/
def srKind (n : Nat) : Option (SrScope × Bool) :=
  match n with
  | 0x03 => some (.perFragment, false)
  | 0x04 => some (.aOnly, true)
  | 0x05 => some (.perFragment, true)
  | 0x07 => some (.aOnly, true)
  | 0x0D => some (.team, false)
  | 0x0E => some (.team, false)
  | 0x10 => some (.team, false)
  | 0x11 => some (.team, false)
  | 0x12 => some (.team, false)
  | 0x13 => some (.team, false)
  | 0x00 | 0x01 | 0x02 | 0x06 | 0x08 | 0x09 | 0x0A | 0x0B | 0x0C => some (.team, true)
  | _ => none

/-- The number of a system register (R435). -/
def srNumber (b : BitVec 7) : Nat := b.toNat - 96

/-- The causes of naming a register, in the order of R45: 0x012 for an unlisted number, 0x017 for the wrong stream. -/
def srCheck (estr : Bool) (n : Nat) : Act Unit :=
  match srKind n with
  | none => raise 0x012
  | some (.aOnly, _) => raiseIf estr 0x017
  | some (.perFragment, _) => raiseIf (!estr) 0x017
  | some (.team, _) => .ok ()

/-- The word of a window base (Table 3-4): `shift` is the place of the current frame's size. -/
def windowWord (w : Window) (shift : Nat) : Nat :=
  w.base + w.size * 2 ^ shift + w.caller * 2 ^ (shift + 8) + w.depth * 2 ^ 32

/-- AMCTL: the tiles held and the quota. -/
def amctlWord (s : State) (wid : Nat) (t : Team) : Nat :=
  (heldTiles (s.core (coreOf wid)) wid).foldl (fun x k => x + 2 ^ k) 0 + t.info.amq * 2 ^ 16

/-- The value of a system register (Table 3-4). -/
def srRead (s : State) (i : Issue) (t : Team) (n : Nat) : DWord :=
  let f := tabGet t.frags i.frag
  match n with
  | 0x00 => BitVec.ofNat 64 (teamIdWord t i.wid)
  | 0x01 => BitVec.ofNat 64 t.info.lanes
  | 0x02 => BitVec.ofNat 64 (coreWord s i.core)
  | 0x03 => BitVec.ofNat 64 (f.elim 0 (·.partn.toNat))
  | 0x04 => BitVec.ofNat 64 (windowWord t.a.win 8)
  | 0x05 => BitVec.ofNat 64 (f.elim 0 fun f => windowWord f.win 10)
  | 0x06 => BitVec.ofNat 64 t.info.vphys
  | 0x07 => t.a.sspill.zeroExtend 64
  | 0x08 => t.info.sslim.zeroExtend 64
  | 0x09 => t.info.vspill.zeroExtend 64
  | 0x0A => BitVec.ofNat 64 t.info.vspsz
  | 0x0B => batchWord s t
  | 0x0C => BitVec.ofNat 64 (amctlWord s i.wid t)
  | 0x0D => t.fstat.zeroExtend 64
  | 0x10 => t.trap.cause
  | 0x11 => t.trap.pc
  | 0x12 => t.trap.value
  | 0x13 => t.trap.tvec
  | _ => 0

/-- A write that sets a reserved bit or gives a reserved value (R45, Tables 3-4 and 25-2). -/
def srBadValue (n : Nat) (v : DWord) : Bool :=
  match n with
  | 0x03 => v == 0 || decide (5 < v.toNat)
  | 0x0D => decide (2 ^ 7 ≤ v.toNat)
  | 0x10 => bitsOf v.toNat 31 28 != 0
  | 0x11 => decide (2 ^ 57 ≤ v.toNat)
  | 0x13 => bit v 1 || bit v 33
  | _ => false

/-- Write a system register that may be written. ACTIVE ignores the written value (R430); RNGSEED sets every lane's state (R31). -/
def srWrite (i : Issue) (t : Team) (n : Nat) (v : DWord) : Team :=
  match n with
  | 0x03 => t.modFrag i.frag fun f => { f with partn := v.extractLsb' 0 3 }
  | 0x0D => { t with fstat := v.extractLsb' 0 7 }
  | 0x0E => { t with rngSeed := v, rng := [] }
  | 0x10 => { t with trap := { t.trap with cause := (v &&& ~~~(0x10000 : DWord)) ||| (t.trap.cause &&& 0x10000) } }
  | 0x11 => { t with trap := { t.trap with pc := v } }
  | 0x12 => { t with trap := { t.trap with value := v } }
  | 0x13 => { t with trap := { t.trap with tvec := v } }
  | _ => t

/-- An access of FSTAT waits for the team's Lattice commands (R36). -/
def awaitFlags (t : Team) (n : Nat) : Act Unit := waitWhile (n == 0x0D && latticeBusy t) (.lattice t.latSeq)

/-- SRR (R435). -/
def execSrr (d : BitVec 6) (b : BitVec 7) (s : State) : Host.Outcome State Fault Refusal :=
  issue (.srr d b) plain s fun i t s => do
    let n := srNumber b
    srCheck i.estr n
    if i.estr then
      awaitFlags t n
      .ok (s.setTeam i.wid (writeK t d.toNat (srRead s i t n)))
    else
      let _ ← t.a.win.reg 256 d.toNat
      awaitFlags t n
      let t ← writeS t d.toNat (srRead s i t n)
      .ok (s.setTeam i.wid t)

/-- SRW (R435). -/
def execSrw (d : BitVec 6) (b : BitVec 7) (s : State) : Host.Outcome State Fault Refusal :=
  issue (.srw d b) plain s fun i t s => do
    let n := srNumber b
    srCheck i.estr n
    let v ← if i.estr then .ok (readK t d.toNat) else readS t d.toNat
    raiseIf (((srKind n).any (·.2)) || srBadValue n v) 0x012
    awaitFlags t n
    .ok (s.setTeam i.wid (srWrite i t n v))

/-! ## TRAP, TRET and NOP -/

/-- TRAP (R436): 0x021 with its operand. -/
def execTrap (a : BitVec 7) (s : State) : Host.Outcome State Fault Refusal :=
  issue (.trap a) plain s fun i t s => do
    let (vs, _) ← barOperands s i t [a]
    raiseWith 0x021 { value := BitVec.ofNat 64 (vs.getD 0 0) }

/-- TRET (R436). -/
def execTret (s : State) : Host.Outcome State Fault Refusal := issue .tret plain s fun i t s => returnTrap s i t

/-- NOP (R436). -/
def execNop (s : State) : Host.Outcome State Fault Refusal := issue .nop plain s fun _ _ s => .ok s

/-! ## Hints -/

/-- A hint waits for the instruction that follows it (R74, R75). -/
def holdHint (x : Instr) (h : Hint) (s : State) : Host.Outcome State Fault Refusal :=
  issue x plain s <| onTeam fun i t =>
    let p : PendHint := { hint := h, pc := i.pc }
    .ok (match i.stream with
      | .a => t.modA fun a => { a with hint := some p }
      | .e n => t.modFrag n fun f => { f with hint := some p })

/-- IMM (R69). -/
def execImm (p : BitVec 22) : State → Host.Outcome State Fault Refusal := holdHint (.imm p) (.imm p)

/-- MOD (R70). -/
def execMod (c o : BitVec 2) (sc : BitVec 3) (n : BitVec 1) (r : BitVec 3) : State → Host.Outcome State Fault Refusal :=
  holdHint (.mod c o sc n r) (.mod c o sc n r)

/-- EXT (R71). -/
def execExt (g e : BitVec 7) : State → Host.Outcome State Fault Refusal := holdHint (.ext g e) (.ext g e)

/-- SCHED (R72): a wish of the issue selector, which changes nothing else. -/
def execSched (h y : BitVec 1) : State → Host.Outcome State Fault Refusal := holdHint (.sched h y) (.sched h y)

/-- CHAIN (R53, R73): a chain of l + 2 instructions begins; every latch is invalid. The hint itself counts one step. -/
def execChain (l : BitVec 3) : State → Host.Outcome State Fault Refusal := fun s =>
  issue (.chain l) plain s <| onTeam fun i t =>
    .ok (t.modFrag i.frag fun f =>
      { f with chain := some { hintPc := i.pc, len := l.toNat + 2, left := l.toNat + 3 } })

/-! ## Words that are no instruction -/

/-- The trap value of a decode or fetch cause (Table 25-3): none for 0x00B, the address for a memory cause. -/
def wordValue (i : Issue) (cause : Nat) (w : BitVec 32) : TrapValue :=
  if cause = 0x00B then {} else if 0x080 ≤ cause then { value := i.pc } else decodeValue i.hint w

/-- NOT_AN_INSTRUCTION (R78, R231): the word's decode cause, or the cause of its fetch, with no other effect. -/
def execNotAnInstruction (cause : Nat) (w : BitVec 32) (s : State) : Host.Outcome State Fault Refusal :=
  match issueOf s with
  | none => .fault .noIssuer
  | some (i, t) =>
    let r : Act State := do
      raisePending t fun p => p.kind == .taskLimit && !i.estr
      raiseWith cause (wordValue i cause w)
    .next (settle s i t {} r)

/-! ## Steps of the streams' own engines -/

/-- CHAIN_ABANDON (R54): a fragment's chain goes back to its hint. -/
def chainAbandon (s : State) (wid frag : Nat) : State :=
  s.modTeam wid fun t => t.modFrag frag fun f => if f.chain.isSome then f.rollback else f

/-- The first access of the gather engine for a queue. -/
def gatherOf (t : Team) (q : Nat) : Option GatherOp := t.gather.find? fun g => g.q = q

/-- GATHER_ENGINE_PUSH (R89, R110): the oldest entry for a queue is done; it is pushed, or retires when no lane is left. -/
def gatherPush (s : State) (wid q : Nat) : State :=
  s.modTeam wid fun t =>
    match gatherOf t q with
    | none => t
    | some g => pushAtoE { t with gather := t.gather.eraseP fun x => x.q = q } q g.entry

end Sys2Proof.Machine
end

