-- ==== Sys2Proof/Machine/Launches.lean ====
section
/-!
DEFINITION. Machine/Launches.lean: launch records and their checks (R345, R346), the pushes of a launch (R347), prologues (R348) and
tile-task records (R351).
-/
namespace Sys2Proof.Machine

/-! ## Launch records -/

/-- What the check of a launch gives: pages to wait for, the ordinal of the first failing condition (R346), or the launch of each
repeat with its core and leaf. -/
inductive LaunchCheck where
  | wait (needs : List PageNeed)
  | bad (ordinal : Nat)
  | ok (each : List (Nat × Launch))

/-- A ring declaration of a launch record (Table 17-7): its number and the ring, or none where it breaks Table 10-3. -/
def ringDecl (w : Nat) : Option (Nat × Ring) :=
  let side := fun (c : Nat) => if c = 0 then some none else if 4 ≤ c then some (some (c - 4)) else none
  let size := bitsOf w 22 10 * 128
  let count := bitsOf w 35 23
  match side (bitsOf w 6 4), side (bitsOf w 9 7) with
  | some p, some c =>
    if size = 0 ∨ 2 ^ 19 < size ∨ count = 0 ∨ 4096 < count ∨ 2 ^ 20 < size * count then none
    else some (bitsOf w 3 1, { slotSize := size, count := count, prod := p, cons := c })
  | _, _ => none

/-- The declarations of a launch record that are present. -/
def ringWords (r : List Byte) : List Nat :=
  ((List.range 8).map fun k => field r (112 + 8 * k) 8).filter fun w => w % 2 = 1

/-- The rings of a launch record; none when one breaks Table 10-3 or a number is declared twice (R346). -/
def launchRings (r : List Byte) : Option (Tab Ring) :=
  let ds := (ringWords r).map ringDecl
  let rs := ds.filterMap id
  if ds.any (·.isNone) || rs.length ≠ (rs.map (·.1)).eraseDups.length then none
  else some (rs.foldl (fun m p => tabSet m p.1 p.2) [])

/-- A reserved field of a launch record is set, or a field is outside its limits (R346). -/
def recordBad (r : List Byte) : Bool :=
  bitsOf (field r 12 1) 7 5 + field r 13 1 + field r 19 1 + field r 28 4 + field r 76 4 + field r 304 16 != 0 || field r 14 2 == 0 ||
  field r 0 8 % 64 != 0 || field r 72 4 % 64 != 0 || decide (2 ^ 57 ≤ field r 48 8) || decide (2 ^ 57 ≤ field r 56 8) ||
  decide (2 ^ 57 ≤ field r 64 8) || (List.range 8).any fun k => decide (2 ^ 36 ≤ field r (112 + 8 * k) 8)

/-- The same for a kernel header (Table 17-8). -/
def headerLimits (h : List Byte) : Bool :=
  field h 28 4 + field h 52 12 + field h 96 32 + bitsOf (field h 48 1) 7 3 + bitsOf (field h 50 2) 15 13 != 0 ||
  decide (2 ^ 20 < field h 24 4) || decide (4096 < field h 50 2) || decide (field h 24 4 < field h 50 2 * 64)

/-- Lanes and physical registers of a launch (Table 17-7). -/
def launchLanes (r h : List Byte) : Nat := if field r 8 2 = 0 then field h 44 2 else field r 8 2
def launchVphys (r h : List Byte) : Nat := if field r 10 2 = 0 then field h 46 2 else field r 10 2

/-- Bytes of an entry of a queue (R55). -/
def queueEntryBytes (lanes q : Nat) : Nat := if q = 6 then 8 else 128 * ((lanes + 31) / 32)

/-- The capacity of a queue of a launch, in bytes. -/
def launchCap (r : List Byte) (q : Nat) : Nat := 8 * field r (32 + 2 * q) 2

/-- The granules of a launch's parts: scratch, queues, stash and rings (R216). -/
def launchParts (r : List Byte) : List Nat :=
  let up := fun (n : Nat) => (n + 4095) / 4096
  let rings := ((launchRings r).getD []).map fun p => p.2.slotSize * p.2.count
  [up (field r 20 4), up (((List.range 8).map (launchCap r)).sum), up (field r 24 4), up rings.sum]

/-- Granules of a core's team space (R216, R335). -/
def teamSpace (k : Core) : Nat := 256 - 16 * k.l1Units - k.stage

/-- An entry of a double-backing table that breaks R245. -/
def doubleBad (s : State) (ctx : Nat) (i : Nat) : Bool :=
  let a := ctxDouble s ctx + 32 * i
  let d := doubleAt s.mem (ctxDouble s ctx) i
  let w := memNat s.mem (a + 24) 8
  let n := memNat s.mem (a + 8) 4
  d.valid && (d.obase % 0x10000 != 0 || decide (2 ^ 57 ≤ d.obase) || n == 0 || decide (16384 < n) || d.back0 % 0x10000 != 0 ||
    d.back1 % 0x10000 != 0 || bitsOf w 56 52 != 0 ||
    ((doubles s ctx).any fun x => x.index != i && decide (x.obase < d.obase + d.len) && decide (d.obase < x.obase + x.len)) ||
    (List.range n).any fun k => match walkCtx s ctx (d.obase + k * 0x10000) with | .hit .. => true | .absent _ => true | _ => false)

/-- The double-backing table of a context breaks R245 (R346). -/
def doublesBad (s : State) (ctx : Nat) : Bool :=
  ctxDouble s ctx != 0 && (ctxDouble s ctx % 512 != 0 || (List.range 16).any (doubleBad s ctx))

/-- The target cores of a launch, by repeat (R347). -/
def launchCores (r : List Byte) : List Nat :=
  (List.range (field r 14 2)).map fun k => (field r 16 1 + k * field r 17 1) % 256

/-- The kernel that a header gives (R345). -/
def launchKernel (s : State) (ctx : Option Nat) (khdr : Nat) (h : List Byte) : Kernel :=
  let table := fwBytes s ctx (field h 32 8) (8 * field h 40 4)
  let image := fwBytes s ctx (field h 16 8) (field h 24 4)
  let call := fun (k : Nat) =>
    let w := field table (8 * k) 8
    { off := bitsOf w 31 0, fs := bitsOf w 38 32, fv := bitsOf w 46 40, estr := bitsOf w 47 47 = 1 : CallEntry }
  { khdr := khdr, code := field h 0 8, codeLen := field h 8 4, eoff := field h 12 4, constLen := field h 24 4,
    const := (enum 0 image).filter fun p => p.2 ≠ 0, calls := (List.range (field h 40 4)).map call, energy := field h 48 1,
    ntiles := field h 50 2 }

/-- The task fields of a launch (R347). -/
def launchFields (r h : List Byte) : List Word :=
  (List.range 8).map fun k => BitVec.ofNat 32 (
    if bitsOf (field r 18 1) k k = 1 then field r (80 + 4 * k) 4
    else if bitsOf (field h 49 1) k k = 1 then field h (64 + 4 * k) 4 else 0)

/-- What the launch of repeat `n` fixes (R347); its number and its region are given when it is pushed. -/
def launchOf (r : List Byte) (kernel : Kernel) (h : List Byte) (n : Nat) : Launch :=
  let lanes := launchLanes r h
  let span := field r 56 8 - field r 48 8
  let args := (List.range 16).map fun k => BitVec.ofNat 64 (if k = 15 ∧ 1 < field r 14 2 then n else field r (176 + 8 * k) 8)
  let info : TeamInfo := {
    lanes := lanes, vphys := launchVphys r h, kernel := kernel, amq := bitsOf (field r 12 1) 4 0, scratchBytes := field r 20 4,
    stashBytes := field r 24 4, sslim := BitVec.ofNat 57 (field r 56 8 + n * span),
    vspill := BitVec.ofNat 57 (field r 64 8 + n * lanes * field r 72 4), vspsz := field r 72 4, fields := launchFields r h,
    args := args, lrec := r }
  { info := info, sspill := BitVec.ofNat 57 (field r 48 8 + n * span), caps := (List.range 8).map (launchCap r),
    rings := (launchRings r).getD [] }

/-- The conditions of R346 from the second on, in order; the quotas are those of the target leaves' regions. -/
def launchOrdinal (s : State) (r h : List Byte) : Option Nat :=
  let lanes := launchLanes r h
  let vphys := launchVphys r h
  let cores := (launchCores r).eraseDups
  let regions := (cores.filterMap fun c => (s.leaf (leafId 0 c)).parent).eraseDups.map s.region
  let granules := (launchParts r).sum
  if lanes % 32 ≠ 0 ∨ lanes < 32 ∨ 1024 < lanes then some 2
  else if vphys % 8 ≠ 0 ∨ vphys < 16 ∨ 1024 < vphys ∨ vphys < field h 46 2 then some 3
  else if 131072 < lanes * vphys || regions.any (fun x => decide (x.qvreg < lanes * vphys)) then some 4
  else if regions.any fun x => decide (x.qam < bitsOf (field r 12 1) 4 0) then some 5
  else if (launchRings r).isNone || (List.range 8).any (fun q => launchCap r q % queueEntryBytes lanes q != 0) then some 6
  else if regions.any (fun x => decide (x.qcs < granules * 4096)) || cores.any (fun c => decide (teamSpace (s.core c) < granules)) then some 7
  else if regions.any fun x => doublesBad s x.ctx then some 8
  else none

/-- The check of a launch record of 320 bytes (R346). -/
def checkLaunch (s : State) (ctx : Option Nat) (who : Nat) (r : List Byte) : LaunchCheck :=
  if recordBad r then .bad 1 else
  let khdr := field r 0 8
  match fwProbe s ctx who [(khdr, 128)] false with
  | .cause _ => .bad 1
  | .wait needs => .wait needs
  | .ready =>
    let h := fwBytes s ctx khdr 128
    if headerLimits h then .bad 1 else
    match fwProbe s ctx who [(field h 32 8, 8 * field h 40 4), (field h 16 8, field h 24 4)] false with
    | .cause _ => .bad 1
    | .wait needs => .wait needs
    | .ready =>
      match launchOrdinal s r h with
      | some n => .bad n
      | none =>
        let k := launchKernel s ctx khdr h
        .ok ((enum 0 (launchCores r)).map fun p => (p.2, launchOf r k h p.1))

/-- Number a launch and give it its region, its packet and its context (R336, R344). -/
def numberLaunch (s : State) (core : Nat) (origin : Option Nat) (l : Launch) : State × Launch :=
  let node := ((s.leaf (leafId 0 core)).parent).getD 0
  let info := { l.info with seq := BitVec.ofNat 32 s.fw.launchSeq, node := node, ctx := (s.region node).ctx, origin := origin }
  ({ s with fw := { s.fw with launchSeq := s.fw.launchSeq + 1 } }, { l with info := info })

/-- The pushes of a launch packet, in repeat order (R347). -/
def pushLaunches (s : State) (entry key : Nat) (each : List (Nat × Launch)) : State :=
  each.foldl (fun s p =>
    let (s, l) := numberLaunch s p.1 (some key) p.2
    firmwarePush s entry (leafId 0 p.1) ((leafPath s entry (leafId 0 p.1)).getD []) (l.info.fields) (.launch l)) s

/-- A checked launch is pushed, or refused where a repeat's leaf lies outside the entry node's subtree (R347). -/
def launchPacket (s : State) (key : Nat) (p : Packet) (c : LaunchCheck) : Parsed :=
  match c with
  | .wait needs => .wait p.ctx p.node needs
  | .bad n => .fault 0x134 n []
  | .ok each =>
    if each.any fun x => (leafPath s p.node (leafId 0 x.1)).isNone then .bad 0x132
    else .done (pushLaunches (s.modPacket key fun p => { p with left := each.length }) p.node key each)

/-- The launch record at LREC: one that fails translation is the first condition of R346. -/
def withRecord (s : State) (p : Packet) (at_ : Nat) (k : List Byte → Parsed) : Parsed :=
  match fwProbe s p.ctx (queueWho p.queue) [(at_, 320)] false with
  | .cause _ => .fault 0x134 1 []
  | .wait needs => .wait p.ctx p.node needs
  | .ready => k (fwBytes s p.ctx at_ 320)

/-- LAUNCH (R346, R347). -/
def parseLaunch (s : State) (q : Nat) : State :=
  parsePacket s q (isOpcode 0x01) fun s key p bs =>
    let at_ := field bs 24 8
    if !restZero bs [(24, 8)] || at_ % 64 != 0 then .bad 0x135
    else withRecord s p at_ fun r => launchPacket s key p (checkLaunch s p.ctx (queueWho p.queue) r)

/-! ## Prologues -/

/-- The instructions of majors 0x00 to 0x0F, with BR, BRN, LOOP, TXL, LDS, NOP and the hints that a prologue may use (R348). -/
def prologueExec : Instr → Option (State → Host.Outcome State Fault Refusal)
  | .addA d a b t => some (execAddA d a b t)
  | .subA d a b t => some (execSubA d a b t)
  | .addImmA d a i => some (execAddImmA d a i)
  | .mulA d a b t => some (execMulA d a b t)
  | .mulhA d a b t => some (execMulhA d a b t)
  | .divs d a b t => some (execDivs d a b t)
  | .divz d a b t => some (execDivz d a b t)
  | .andA d a b => some (execAndA d a b)
  | .orA d a b => some (execOrA d a b)
  | .xorA d a b => some (execXorA d a b)
  | .andnA d a b => some (execAndnA d a b)
  | .andImm d a i => some (execAndImm d a i)
  | .orImm d a i => some (execOrImm d a i)
  | .xorImm d a i => some (execXorImm d a i)
  | .shlA d a b w => some (execShlA d a b w)
  | .shrA d a b w => some (execShrA d a b w)
  | .sarA d a b w => some (execSarA d a b w)
  | .rotA d a b w => some (execRotA d a b w)
  | .shlImmA d a w m => some (execShlImmA d a w m)
  | .shrImmA d a w m => some (execShrImmA d a w m)
  | .sarImmA d a w m => some (execSarImmA d a w m)
  | .rotImmA d a w m => some (execRotImmA d a w m)
  | .bfxSA d a w o => some (execBfxSA d a w o)
  | .bfxZA d a w o => some (execBfxZA d a w o)
  | .bfiA d a w o => some (execBfiA d a w o)
  | .fshlA d a b s => some (execFshlA d a b s)
  | .fshrA d a b s => some (execFshrA d a b s)
  | .clzA d a w => some (execClzA d a w)
  | .popcA d a w => some (execPopcA d a w)
  | .minA d a b t => some (execMinA d a b t)
  | .maxA d a b t => some (execMaxA d a b t)
  | .cmpA p a b c => some (execCmpA p a b c)
  | .selA d a b p => some (execSelA d a b p)
  | .liA d i => some (execLiA d i)
  | .liHiA d i => some (execLiHiA d i)
  | .brA c o => some (execBrA c o)
  | .brnA c o => some (execBrnA c o)
  | .loop c o => some (execLoop c o)
  | .txl tn a => some (execTxl tn a)
  | .lds d tn x sz off => some (execLds d tn x sz off)
  | .nop => some execNop
  | .imm p => some (execImm p)
  | .sched h y => some (execSched h y)
  | _ => none

/-- A special whose value in a prologue is free. -/
def freeSpecial (f : BitVec 7) : Bool := decide (88 ≤ f.toNat) && decide (f.toNat < 96)

/-- The machine that runs a prologue: one team in an otherwise empty device, over the real memory, with race checking off. Its slot and
lanes are free where the instruction reads them. -/
def prologueMachine (s : State) (ctx : Nat) (t : Team) (free : Bool) : State × Nat :=
  let wid := if free then Config.prologueTeam s.tick % 4096 else 0
  let lanes := if free then Config.prologueTeam (s.tick + 1) % 1025 else 32
  let t := { t with info := { t.info with node := 1024, ctx := ctx, lanes := lanes } }
  let m := { s with teams := [(wid, t)], cores := [], clusters := [], cur := some { wid := wid, stream := .a } }
  (m.setRegion 1024 { racechk := false }, wid)

/-- The team that a prologue starts with (R348): s0 holds PARG and s1 to s63 are zero, the predicates are cleared, and t15 names the
buffer, which stands at address 0 of its own. -/
def prologueTeam (pcode parg : Nat) : Team :=
  let win : Window := { base := 63, depth := 0, frames := [{ size := 64, caller := 0 }] }
  { a := { pc := BitVec.ofNat 64 pcode, win := win, s := tabSetD 0 [] 63 (BitVec.ofNat 64 parg),
           t := [(15, { limit := 320, valid := true, attr := { resident := true, w := true } })] } }

/-- What a prologue comes to: it goes on, ends, or faults (0x137). -/
inductive PrologueStep where
  | next (t : Team) (buf : List Byte)
  | ended (cancel : Bool) (buf : List Byte)
  | fault

/-- An access of a prologue to its buffer through t15: the address in it. -/
def bufferAddr (i : Issue) (t : Team) (core : Nat) (x : BitVec 7) (sz : BitVec 2) (off : BitVec 6) : Option Nat :=
  match uniformAddr i t core 15 x sz off with
  | .ok a => if a % szBytes sz = 0 ∧ a + szBytes sz ≤ 320 then some a else none
  | .error _ => none

/-- A page that a TXL of a prologue names is resident. -/
def prologueTxl (s : State) (i : Issue) (t : Team) (ctx : Nat) (a : BitVec 7) : Bool :=
  match sourceA i t 0 a with
  | .ok v => match xlateApex s ctx v.toNat with | .hit .. => true | _ => false
  | .error _ => true

/-- One instruction of a prologue (R348). -/
def prologueStep (s : State) (ctx : Nat) (t : Team) (buf : List Byte) (w : BitVec 32) : PrologueStep :=
  match decodeWord w with
  | .ok x =>
    let (m, wid) := prologueMachine s ctx t ((sourceFields x).any freeSpecial)
    match issueOf m with
    | none => .fault
    | some (i, t) =>
      let core := coreWord m i.core
      if (issueCause false i.hint none x).isSome then .fault else
      match x with
      | .endS => match readS t 1 with
        | .ok v => .ended (bit v 0) buf
        | .error _ => .fault
      | .sts d tn x sz off =>
        match decide (tn = 15), bufferAddr i t core x sz off, readS t d.toNat with
        | true, some a, .ok v =>
          .next (t.advance .a) (buf.take a ++ natLe (szBytes sz) v.toNat ++ buf.drop (a + szBytes sz))
        | _, _, _ => .fault
      | x =>
        match x, prologueExec x with
        | _, none => .fault
        | .lds d 15 x sz off, _ =>
          match bufferAddr i t core x sz off with
          | none => .fault
          | some a => match writeS (t.advance .a) d.toNat (BitVec.ofNat 64 (field buf a (szBytes sz))) with
            | .ok t => .next t buf
            | .error _ => .fault
        | x, some f =>
          let resident := match x with | .txl _ a => prologueTxl m i t ctx a | _ => true
          match f m with
          | .next m =>
            match m.team? wid with
            | some t => if t.terminated || t.a.wait.isSome || !resident then .fault else .next t buf
            | none => .fault
          | _ => .fault
  | _ => .fault

/-- Run a prologue (R348); none when it faults, else whether it cancels, and its buffer. -/
def runPrologue (s : State) (ctx pcode plen : Nat) : Nat → Team → List Byte → Option (Bool × List Byte)
  | 0, _, _ => none
  | fuel + 1, t, buf =>
    let pc := t.a.pc.toNat
    if pc % 4 ≠ 0 ∨ pc < pcode ∨ pcode + 4 * plen ≤ pc then none
    else match fwParts s (some ctx) pc 4 with
      | [_] =>
        match prologueStep s ctx t buf (BitVec.ofNat 32 (fwNat s (some ctx) pc 4)) with
        | .fault => none
        | .ended c buf => some (c, buf)
        | .next t buf => runPrologue s ctx pcode plen fuel t buf
      | _ => none

/-- LAUNCHI (R348). -/
def parseLaunchi (s : State) (q : Nat) : State :=
  parsePacket s q (isOpcode 0x02) fun s key p bs =>
    let at_ := field bs 24 8
    let pcode := field bs 32 8
    let plen := field bs 40 2
    if !restZero bs [(24, 18), (48, 8)] || at_ % 64 != 0 || pcode % 4 != 0 || plen == 0 || decide (256 < plen) then .bad 0x135
    else match p.ctx with
      | none => .bad 0x132
      | some ctx => withRecord s p at_ fun r =>
        match runPrologue s ctx pcode plen 4096 (prologueTeam pcode (field bs 48 8)) r with
        | none => .bad 0x137
        | some (true, _) => .done s
        | some (false, buf) => launchPacket s key p (checkLaunch s p.ctx (queueWho p.queue) buf)

/-! ## Tile tasks -/

/-- A tile-task record that raises 0x139 (R351). -/
def taskRecordBad (s : State) (core : Nat) (r : List Byte) : Bool :=
  let c := field r 25 1
  let reserved := bitsOf (field r 24 1) 7 3 + bitsOf c 7 4 + bitsOf (field r 26 1) 7 2 + field r 27 1 + bitsOf (field r 28 2) 15 13 +
    field r 30 2 + field r 56 8 + field r 96 32
  let n := field r 28 2
  reserved != 0 || field r 24 1 == 7 || decide (c + (s.core core).ttiles < 16) || n == 0 || decide (4096 < n) || field r 16 8 % 64 != 0 ||
  field r 40 8 % 32 != 0 || field r 48 8 % 64 != 0

/-- The tile task of a record (Table 17-9). -/
def tileTaskOf (p : Packet) (key ctx : Nat) (r args : List Byte) : TileTask :=
  { node := p.node, ctx := ctx, origin := some key, tag := p.tag, a := BitVec.ofNat 64 (field r 0 8), b := BitVec.ofNat 64 (field r 8 8),
    table := field r 16 8, mode := field r 24 1, c := field r 25 1, clear := bitsOf (field r 26 1) 0 0 = 1,
    wrback := bitsOf (field r 26 1) 1 1 = 1, ndesc := field r 28 2,
    args := (List.range 16).map fun k => BitVec.ofNat 64 (field args (8 * k) 8), crec := field r 40 8, out := field r 48 8 }

/-- TILETASK (R351). -/
def parseTiletask (s : State) (q : Nat) : State :=
  parsePacket s q (isOpcode 0x04) fun s key p bs =>
    let at_ := field bs 24 8
    let core := field bs 32 1
    if !restZero bs [(24, 9)] || at_ % 128 != 0 then .bad 0x135
    else fwRead s p [(at_, 128)] fun _ =>
      let r := fwBytes s p.ctx at_ 128
      fwRead s p [(field r 32 8, 128)] fun _ =>
        if taskRecordBad s core r then .bad 0x139
        else match p.ctx, leafPath s p.node (leafId 1 core) with
          | some ctx, some path =>
            let fields := (List.range 8).map fun k => BitVec.ofNat 32 (field r (64 + 4 * k) 4)
            let t := tileTaskOf p key ctx r (fwBytes s p.ctx (field r 32 8) 128)
            .done (firmwarePush (s.modPacket key fun p => { p with left := 1 }) p.node (leafId 1 core) path fields (.tile t))
          | _, _ => .bad 0x132

end Sys2Proof.Machine
end

