-- ==== Sys2Proof/Machine/PacketOps.lean ====
section
/-!
DEFINITION. Machine/PacketOps.lean: the packets WAIT, SIGNAL, INDIRECT, NOP, COPY, STREAM, HOSTXFER and the operations of FABRIC (R342,
R343, R349, R352, R413, R454).
-/
namespace Sys2Proof.Machine

/-- The task fields that a packet gives in bytes 64 to 95 (Table 17-6). -/
def packetTaskFields (bs : List Byte) : List Word := (List.range 8).map fun k => BitVec.ofNat 32 (field bs (64 + 4 * k) 4)

/-- Push a packet's work toward a leaf, with so many parts to end: 0x132 for a leaf outside the subtree of its entry node (R313). -/
def pushPacket (s : State) (key : Nat) (p : Packet) (leaf parts : Nat) (fields : List Word) (w : Work) : Parsed :=
  match leafPath s p.node leaf with
  | none => .bad 0x132
  | some path => .done (firmwarePush (s.modPacket key fun p => { p with left := parts }) p.node leaf path fields w)

/-! ## SIGNAL, NOP, INDIRECT, WAIT -/

/-- SIGNAL (R342): its completion is all that it does. -/
def parseSignal (s : State) (q : Nat) : State :=
  parsePacket s q (isOpcode 0x0A) fun s _ _ bs => if restZero bs [] then .done s else .bad 0x135

/-- NOP (Table 17-5): it completes at its parse. -/
def parseNop (s : State) (q : Nat) : State :=
  parsePacket s q (isOpcode 0x0F) fun s _ _ bs => if restZero bs [] then .done s else .bad 0x135

/-- INDIRECT (R349): the lane goes on in the buffer; at depth 4 it raises 0x136 with the chain of buffers. -/
def parseIndirect (s : State) (q : Nat) : State :=
  parsePacket s q (isOpcode 0x03) fun s key _ bs =>
    let buf := field bs 24 8
    let slots := field bs 32 4
    let c := s.queue q
    if !restZero bs [(24, 12)] || buf % 64 != 0 || slots == 0 || decide (65536 < slots) then .bad 0x135
    else if 4 ≤ c.levels.length then
      let chain := (c.levels.map fun l => l.buf).reverse ++ [buf]
      .fault 0x136 0 [(enum 0 chain).map fun x => (24 + 8 * x.1, 8, x.2)]
    else
      let s := s.setCmdQueue q { c with levels := { buf := buf, slots := slots, next := 0, key := key } :: c.levels }
      .done (s.modPacket key fun p => { p with left := 1 })

/-- WAIT (R352, Table 17-6): it takes its place among the watches, and its queue is pending until the condition has held. -/
def parseWait (s : State) (q : Nat) : State :=
  parsePacket s q (isOpcode 0x09) fun s key p bs =>
    let a := field bs 24 8
    let mode := field bs 32 1
    let size := if mode % 2 = 0 then 4 else 8
    if !restZero bs [(24, 9), (40, 16)] || decide (12 ≤ mode) || a % size != 0 then .bad 0x135
    else fwRead s p [(a, size)] fun _ =>
      match fwParts s p.ctx a size with
      | [] => .bad 0x13B
      | x :: _ =>
        let w : Watch := { pa := x.2.2.1, size := size, cmp := mode / 2, mask := field bs 40 8, val := field bs 48 8, key := key }
        let s := fwTouch s p.ctx a size
        let s := s.setCmdQueue q { s.queue q with waiting := some key }
        .done { s with fw := { s.fw with watches := settleWatches s.mem (s.fw.watches ++ [w]) } }

/-! ## COPY and STREAM -/

/-- COPY (R343): probed at its parse as R261 says, a cause being a command fault. -/
def parseCopy (s : State) (q : Nat) : State :=
  parsePacket s q (isOpcode 0x05) fun s key p bs =>
    let len := field bs 40 4
    let leaf := field bs 45 1
    if !restZero bs [(24, 22), (64, 32)] || decide (4 ≤ field bs 44 1) || decide (16 ≤ leaf) || len == 0 || len % 8 != 0 then .bad 0x135
    else match p.ctx, leafPath s p.node (leafId 4 leaf) with
      | some ctx, some _ =>
        let core := leaf / 4 * 64 + leaf % 4 * 16
        let c : Copy := { origin := some key, core := core, node := p.node, ctx := ctx, size := 8, src := field bs 24 8,
                          dst := field bs 32 8, len := len, cls := BitVec.ofNat 2 (field bs 44 1) }
        let needs := copyNeeds s core ctx c
        match copyCause s core ctx 0 c with
        | some (k, _) => .bad k
        | none =>
          if wasRefused s (.apex (queueWho q)) needs then .bad 0x081
          else if !needs.isEmpty then .wait p.ctx p.node needs
          else
            let (s, id) := addCopy s c
            pushPacket s key p (leafId 4 leaf) 1 (packetTaskFields bs) (.seg id 0)
      | _, _ => .bad 0x132

/-- STREAM (R343): its record is checked as R271 says against the rings of the team in the named slot. -/
def parseStreamPacket (s : State) (q : Nat) : State :=
  parsePacket s q (isOpcode 0x06) fun s key p bs =>
    let a := field bs 24 8
    let core := field bs 32 1
    let slot := field bs 33 1
    let gen := field bs 34 1
    if !restZero bs [(24, 11), (64, 32)] || decide (16 ≤ slot) then .bad 0x135
    else match (s.team? (core * 16 + slot)).filter fun t => t.info.scratchGen = gen with
      | none => .bad 0x139
      | some t =>
        if 2 ^ 57 ≤ a then .bad 0x084
        else if a % 128 ≠ 0 then .bad 0x110
        else fwRead s p [(a, 128)] fun _ =>
          match parseStream a (fwBytes s p.ctx a 128), p.ctx with
          | none, _ => .bad 0x110
          | _, none => .bad 0x132
          | some r, some ctx =>
            match streamSide t r with
            | none => .bad 0x111
            | some e =>
              let c : Copy := { streamCopy r e with origin := some key, core := core, node := p.node, ctx := ctx, rcore := core,
                                                    rslot := slot, rgen := gen }
              let (s, id) := addCopy (fwTouch s p.ctx a 128) c
              pushPacket s key p (leafId 3 core) 1 (packetTaskFields bs) (.stream id)

/-! ## FABRIC operations and HOSTXFER -/

/-- The operation of a FABRIC packet (Table 20-5) in the fields of an acorn; OP 6 is a CTRADD. -/
def fabricDesc (bs : List Byte) : AcornDesc :=
  let kind := field bs 24 1
  { op := if kind = 2 then 6 else kind, rcen := decide (field bs 56 1 = 1), chen := false, rearm := false, ctr := 0, chctr := 0,
    rctr := field bs 55 1, dev := field bs 52 2, rcore := field bs 54 1, rfn := 0, ty := 0, thresh := 0, chinc := 0, step := 0,
    src := field bs 32 8, dst := field bs 40 8, len := field bs 48 4, w := 0, group := 0, ncontrib := 0, cidx := 0, chunk := 0 }

/-- The body of a FABRIC operation breaks Table 20-5, or Table 20-3 for its fields. -/
def fabricBad (bs : List Byte) : Bool :=
  let d := fabricDesc bs
  !restZero bs [(24, 1), (32, 25), (64, 32)] || decide (3 ≤ field bs 24 1) || decide (4096 ≤ d.dev) || decide (1 < field bs 56 1) ||
  (d.rcen && d.op != 0) || (d.op == 1 && (d.rctr != 0 || d.rcore != 0)) || !acornRanges d

/-- A PUT, GET or CTRADD of a FABRIC packet (R413): an engine operation of the packet's region, at the rank of its path. One toward a device
that no port reaches fails as R411 says. -/
def fabricOperation (s : State) (key : Nat) (p : Packet) (bs : List Byte) : Parsed :=
  if fabricBad bs then .bad 0x135
  else match p.ctx with
    | none => .bad 0x132
    | some ctx =>
      let d := fabricDesc bs
      let own := d.dev == s.dev.devId
      let id := s.fab.opSeq
      let o : FabOp := { desc := d, source := .packet key, core := 0, node := p.node, ctx := ctx, unsent := (opPieces d).length }
      let add := fun (s : State) (o : FabOp) => { s with fab := { s.fab with ops := tabSet s.fab.ops id o, opSeq := id + 1 } }
      match if own then some (copyLeaf 0) else (choosePort s d.dev).map (leafId 5) with
      | none =>
        let s := add (s.modPacket key fun p => { p with left := 1 }) { o with unsent := 0, failed := true, cause := 0x155, addr := d.dst }
        .done (settleOp s id)
      | some leaf => pushPacket (add s o) key p leaf 1 (packetTaskFields bs) (.op id d.src d.dst d.len)

/-- A FABRIC packet of a KIND. -/
def isFabric (kind : Nat) (op : Nat) (bs : List Byte) : Bool := op == 0x07 && field bs 24 1 % 8 == kind

/-- FABRIC PUT (R413); a packet of a KIND that Table 20-5 does not give raises 0x135 here. -/
def fabricPutPacket (s : State) (q : Nat) : State :=
  parsePacket s q (fun op bs => isFabric 0 op bs || isFabric 5 op bs || isFabric 6 op bs || isFabric 7 op bs) fun s key p bs =>
    fabricOperation s key p bs

/-- FABRIC GET (R413). -/
def fabricGetPacket (s : State) (q : Nat) : State := parsePacket s q (isFabric 1) fabricOperation

/-- FABRIC CTRADD (R413). -/
def fabricCtraddPacket (s : State) (q : Nat) : State := parsePacket s q (isFabric 2) fabricOperation

/-- HOSTXFER (R454). -/
def parseHostxfer (s : State) (q : Nat) : State :=
  parsePacket s q (isOpcode 0x08) fun s key p bs =>
    let dst := field bs 24 8
    let len := field bs 40 4
    if !restZero bs [(24, 21), (64, 32)] || decide (2 ^ 51 < dst + len) || len == 0 || len % 8 != 0 || decide (1 < field bs 44 1) then
      .bad 0x135
    else match p.ctx with
      | none => .bad 0x132
      | some ctx =>
        let x : HostXfer := { key := key, node := p.node, ctx := ctx, host := dst, va := field bs 32 8, len := len,
                              toDevice := decide (field bs 44 1 = 1) }
        pushPacket s key p (leafId 6 (bitsOf dst 50 50)) (hostPieces x).length (packetTaskFields bs) (.host x)

/-- OPCODE_NOT_IN_TABLE (R342): a packet whose opcode is not in Table 17-5, or whose header cannot be read. -/
def unknownOpcode (s : State) (q : Nat) : State :=
  parsePacket s q (fun op _ => !opcodeOrder.contains op) fun _ _ _ _ => .bad 0x135

end Sys2Proof.Machine
end

