-- ==== Sys2Proof/Machine/AcornRun.lean ====
section
/-!
DEFINITION. Machine/AcornRun.lean: fired operations (R399 to R402), and the links: flits received, acknowledged, replayed and resent (R405
to R408, R410).
-/
namespace Sys2Proof.Machine

/-! ## Operations -/

/-- The words of the 64-byte units that a range covers: the unit, with the index in it and the offset in the range of each word. -/
def unitWords (a n : Nat) : List (Nat × List (Nat × Nat)) :=
  (partsOf 64 a n).map fun p => (p.1 / 64, (List.range (p.2 / 4)).map fun k => (p.1 % 64 / 4 + k, p.1 - a + 4 * k))

/-- The 64-byte units that a whole operation writes at its destination: its flit count (R405). -/
def opFlitCount (d : AcornDesc) : Nat := if d.len = 0 then 1 else (d.dst + d.len - 1) / 64 - d.dst / 64 + 1

/-- The flits of one packet of an operation (R400, R405), given the local bytes that it sends. -/
def opFlits (id : Nat) (d : AcornDesc) (src dst len : Nat) (bs : List Byte) : List Flit :=
  let shell : Flit := { op := 0, dev := d.dev, opId := id, opCount := opFlitCount d, rcen := d.rcen && !d.onSwitch, rctr := d.rctr,
                        rcore := d.rcore }
  let word := fun (o : Nat) => leNat ((bs.drop o).take 4)
  match d.op with
  | 0 => (unitWords dst len).map fun u => { shell with unit := u.1, words := u.2.map fun w => (w.1, word w.2) }
  | 1 => (unitWords src len).map fun u => { shell with op := 1, unit := u.1, words := u.2.map fun w => (w.1, 0) }
  | 2 =>
    if d.onSwitch then
      let fields : UnitFields := { op := d.rfn, w := d.w, ncontrib := d.ncontrib, units := d.len / 64, crec := 0, cctr := d.rctr,
                                   ccore := d.rcore, cen := d.rcen }
      (unitWords dst len).map fun u => { shell with
        op := d.rfn, ty := d.ty, unit := u.1, group := d.group, chunk := d.chunk, contribs := [d.cidx], fields := some fields,
        sums := u.2.map fun w => (w.1, (contribOf d.w (word w.2)).1) }
    else (unitWords dst len).map fun u => { shell with
      op := d.rfn, ty := d.ty, unit := u.1, words := u.2.map fun w => (w.1, word w.2) }
  | 3 => [{ shell with op := 16, fn := d.rfn, unit := dst / 64, words := [(dst % 64 / 4, d.src)] }]
  | 5 => [{ shell with op := 17, unit := dst / 64, words := [(dst % 64 / 4, d.src)] }]
  | _ => [{ shell with op := 18, core := d.rcore, fn := d.rctr, words := [(0, d.src)] }]

/-- Change an operation. -/
def State.modOp (s : State) (id : Nat) (f : FabOp → FabOp) : State :=
  { s with fab := { s.fab with ops := tabMod s.fab.ops id f } }

/-- The requester of an operation's local pages. -/
def opWho (id : Nat) (o : FabOp) : Requester := .engine o.core 16 id

/-- A packet of an operation ends without being sent. -/
def dropPiece (s : State) (id : Nat) (o : FabOp) : State :=
  settleOp (forgetRefused (s.modOp id fun x => { x with unsent := x.unsent - 1 }) (opWho id o)) id

/-- The port that a packet of a leaf takes: that of its leaf, or another where its link is down (R411). -/
def piecePort (s : State) (leaf dev : Nat) : Option Nat :=
  if leaf / 4096 = 5 ∧ (s.port (leaf % 4096)).up then some (leaf % 4096) else choosePort s dev

/-- Whether the flits of an operation count in its team's counter: those of a PUT or REDUCE that leave the device (R244). -/
def opCounted (s : State) (o : FabOp) : Option Nat :=
  if (o.desc.op = 0 ∨ o.desc.op = 2) ∧ o.desc.dev ≠ s.dev.devId then o.owner else none

/-- Send the flits of a packet of an operation: to this device's homes, or through a port that has room for all of them (R400, R406). -/
def sendPiece (s : State) (leaf id : Nat) (o : FabOp) (src dst : Nat) (fs : List Flit) : State :=
  let counted := opCounted s o
  let out := fun (f : Flit) => { flit := f, owner := .op id, node := o.node, ctx := o.ctx, counted := counted,
                                 back := (o.desc.dst + 64 * f.unit + 2 ^ 64 - o.desc.src) % 2 ^ 64 : OutFlit }
  let full := match counted.bind (ownerTeam s) with
    | some t => decide (2 ^ 24 ≤ t.acks + fs.length)
    | none => false
  let sent := fun (s : State) => forgetRefused (s.modOp id fun x =>
    { x with unsent := x.unsent - 1, unacked := x.unacked + fs.length }) (opWho id o)
  if o.desc.dev = s.dev.devId then fs.foldl (fun s f => sendFlit s (out f)) (sent (stopEngine s leaf))
  else match piecePort s leaf o.desc.dev with
    | none => dropPiece ((stopEngine s leaf).modOp id fun x => x.fail 0x155 0 (if o.desc.op = 1 then src else dst)) id o
    | some p =>
      if full || decide (1024 < (s.port p).retry.length + fs.length) then s
      else fs.foldl (fun s f =>
        let n := s.fab.outSeq
        let s := { s with fab := { s.fab with out := tabSet s.fab.out n (out f), outSeq := n + 1 } }
        let s := match counted with
          | some seq => modOwner s seq fun t => { t with acks := t.acks + 1 }
          | none => s
        bufferAt s p n) (sent (stopEngine s leaf))

/-- What a copy-engine or fabric leaf runs of an operation (R400): its local range is translated in the operation's context, and its
flits are sent. -/
def runPiece (s : State) (leaf : Nat) : State :=
  match (tabGet s.eng.running leaf).map fun (r : EngineRun) => r.item.work with
  | some (.op id src dst len) =>
    match tabGet s.fab.ops id with
    | none => stopEngine s leaf
    | some o =>
      if o.failed then dropPiece (stopEngine s leaf) id o
      else
        let d := o.desc
        let isLocal := d.op ≤ 2
        let at_ := if d.op = 1 then dst else src
        let rs := if isLocal then [(at_, len)] else []
        match engineProbe s o.core o.ctx (opWho id o) rs (d.op == 1) (if d.op = 1 then 18 else 17) with
        | .cause k => dropPiece ((stopEngine s leaf).modOp id fun x => x.fail k 0 at_) id o
        | .wait needs => engineWait s o.core o.ctx o.node (opWho id o) needs
        | .ready =>
          let reads := isLocal && d.op != 1
          let bs := if reads then readVirt s o.core o.ctx src len else []
          let s := if reads then engineTouch s { node := some o.node } o.core o.ctx rs 0 else s
          sendPiece s leaf id o src dst (opFlits id d src dst len bs)
  | _ => s

/-- A LAUNCH operation (R400, R402): its record is checked as R346 says, and its repeats are pushed at the acorn's rank. -/
def runLaunch (s : State) (id : Nat) : State :=
  match tabGet s.fab.ops id with
  | none => s
  | some o =>
    match o.source with
    | .acorn core n =>
      if o.desc.op ≠ 4 ∨ o.failed ∨ o.unsent = 0 then s
      else
        let who := 66 + 4 * id
        let ended := fun (s : State) => forgetRefused (s.modOp id fun x => { x with unsent := 0 }) (.apex who)
        let fail := fun (cause : Nat) => settleOp (ended (s.modOp id fun x => x.fail cause 0 o.desc.src)) id
        let rank := ((tabGet (s.core core).acorns n).map (·.rank)).getD 0
        if o.desc.src % 64 ≠ 0 then fail 0x134
        else match fwProbe s (some o.ctx) who [(o.desc.src, 320)] false with
          | .cause _ => fail 0x134
          | .wait needs => fwWait s (some o.ctx) o.node who needs
          | .ready =>
            match checkLaunch s (some o.ctx) who (fwBytes s (some o.ctx) o.desc.src 320) with
            | .wait needs => fwWait s (some o.ctx) o.node who needs
            | .bad _ => fail 0x134
            | .ok each =>
              if each.any fun x => (leafPath s o.node (leafId 0 x.1)).isNone then fail 0x132
              else ended (each.foldl (fun s p =>
                let (s, l) := numberLaunch s p.1 none p.2
                directPush s (leafId 0 p.1) rank (.launch l)) s)
    | _ => s

/-- ACORN_OPERATION (R399 to R402): what a leaf runs of an operation, or (`kind` 1) a LAUNCH operation, which runs in none. -/
def acornOperation (s : State) (kind n : Nat) : State := if kind = 0 then runPiece s n else runLaunch s n

/-- Local completion is reached (R400, R407, Table 20-3). -/
def locallyDone (s : State) (o : FabOp) : Bool :=
  o.unsent == 0 && (o.unacked == 0 || (o.desc.op != 1 && o.desc.dev != s.dev.devId))

/-- At local completion an acorn applies its chain, and is re-armed or freed (R401, R404). -/
def acornDone (s : State) (core n : Nat) : State :=
  match tabGet (s.core core).acorns n with
  | none => s
  | some a =>
    let s := if a.desc.chen && !a.torn then raiseCtr s core a.desc.chctr (BitVec.ofNat 64 a.desc.chinc) else s
    if a.desc.rearm && !a.torn && (cancelWaiters s core n).isEmpty then
      let again := fun (a : Acorn) =>
        { a with firing := false, desc := { a.desc with thresh := (a.desc.thresh + a.desc.step) % 2 ^ 64 } }
      testAcorn (s.modAcorn core n again) core n
    else releaseAcorn s core n 1

/-- ACORN_LOCAL_COMPLETION (R401, R402): an operation completes locally, or one that has failed ends. -/
def acornLocal (s : State) (id : Nat) : State :=
  match tabGet s.fab.ops id with
  | none => s
  | some o =>
    if o.failed then settleOp s id
    else if o.localDone || !locallyDone s o then s
    else
      let s := s.modOp id fun x => { x with localDone := true }
      let s := match o.source with
        | .acorn c n => acornDone s c n
        | _ => s
      settleOp s id

/-! ## Flits from other devices -/

/-- The flit, source device and end-to-end number that the operands of FLIT_RECEIVE lay out. -/
def flitOfArgs (xs : List Nat) : Flit × Nat × Nat :=
  let x := fun (k : Nat) => xs.getD k 0
  let words := (List.range (x 21)).map fun k => (x (22 + 2 * k) % 16, x (23 + 2 * k) % 2 ^ (if x 3 = 16 ∨ x 3 = 17 ∨ x 3 = 18 then 64 else 32))
  let at_ := fun (k : Nat) => x (22 + 2 * x 21 + k)
  let fields : UnitFields := { op := x 3, w := (BitVec.ofNat 11 (at_ 0)).toInt, ncontrib := at_ 1, units := at_ 2, crec := at_ 3, cctr := at_ 4,
                               ccore := at_ 5, cen := at_ 6 = 1 }
  let sums := (List.range (at_ 7)).map fun k =>
    let b := 8 + 3 * k
    (at_ b % 16, { val := if bitsOf (at_ (b + 1)) 3 3 = 1 then -(at_ (b + 2) : Int) else at_ (b + 2),
                   nan := bitsOf (at_ (b + 1)) 0 0 = 1, pinf := bitsOf (at_ (b + 1)) 1 1 = 1, ninf := bitsOf (at_ (b + 1)) 2 2 = 1 : Contrib })
  let contribs := (List.range (at_ (8 + 3 * at_ 7))).map fun k => at_ (9 + 3 * at_ 7 + k)
  let sw := decide (9 ≤ x 3) && decide (x 3 ≤ 11)
  ({ op := x 3, ty := x 4, fn := x 5, dev := x 6 % 4096, scratch := decide (x 7 = 1), core := x 8 % 256, slot := x 9 % 16, gen := x 10, unit := x 11,
     opId := x 12, opCount := x 13, rcen := decide (x 14 = 1), rctr := x 15 % 256, rcore := x 16 % 256, group := x 17, chunk := x 18,
     words := words.foldl (fun m w => tabSet m w.1 w.2) [], fields := if sw then some fields else none,
     sums := if sw then sums.foldl (fun m w => tabSet m w.1 w.2) [] else [], contribs := if sw then contribs else [] }, x 19, x 20)

/-- Where an end-to-end number stands among those accepted from a source (R408). -/
inductive Standing where
  | old
  | fresh
  | beyond

/-- The standing of a number. -/
def Accepted.standing (a : Accepted) (num : Nat) : Standing :=
  let d := (num + 2 ^ 32 - a.low) % 2 ^ 32
  if 2 ^ 31 ≤ d ∨ a.seen.contains num then .old else if 4096 ≤ d then .beyond else .fresh

/-- Accepted numbers that follow the lowest missing one move below it. -/
def Accepted.close : Nat → Accepted → Accepted
  | 0, a => a
  | n + 1, a => if a.seen.contains a.low then Accepted.close n { low := (a.low + 1) % 2 ^ 32, seen := a.seen.filter (· ≠ a.low) } else a

/-- A number is accepted. -/
def Accepted.take (a : Accepted) (num : Nat) : Accepted := Accepted.close 4097 { a with seen := num :: a.seen }

/-- A flit of an operation of another device has been performed; the last of them raises the operation's counter (R400). -/
def countInbound (s : State) (src : Nat) (f : Flit) : State :=
  if !f.rcen then s
  else
    let mine := fun (x : Inbound) => x.src == src && x.op == f.opId
    let n := ((s.fab.inbound.find? mine).map (·.count)).getD 0 + 1
    let rest := s.fab.inbound.filter fun x => !mine x
    if f.opCount ≤ n then raiseCtr { s with fab := { s.fab with inbound := rest } } f.rcore f.rctr 1
    else { s with fab := { s.fab with inbound := rest ++ [{ src := src, op := f.opId, count := n }] } }

/-- A flit of another device takes effect at its home, at the root, or on its way to another device; none while it must wait in the
port's input (R284, R288, R408, R410). -/
def takeFlit (s : State) (src num : Nat) (f : Flit) : Option State :=
  if f.dev ≠ s.dev.devId then
    let n := s.fab.outSeq
    let x : OutFlit := { flit := f, owner := .transit src num }
    some (bufferFlit { s with fab := { s.fab with out := tabSet s.fab.out n x, outSeq := n + 1 } } n)
  else
    let a := tabGetD {} s.fab.accepted src
    let put := fun (s : State) => { s with fab := { s.fab with accepted := tabSet s.fab.accepted src (a.take num) } }
    let answer := fun (s : State) (r : Reply) => { s with fab := { s.fab with reply := some r } }
    match a.standing num with
    | .beyond => none
    | .old => some (answer s { dev := src, num := num, cause := 0, stale := false, words := [] })
    | .fresh =>
      if f.fields.isSome then
        some (put { s with fab := { s.fab with rootIn := s.fab.rootIn ++ [{ flit := f, src := src, num := num }] } })
      else (performFlit s src f).map fun r =>
        let s := answer (put r.state) { dev := src, num := num, cause := r.cause, stale := r.stale, words := r.words }
        if r.cause = 0 ∧ !r.stale then countInbound s src f else s

/-- Replace a port. -/
def State.setPort (s : State) (p : Nat) (q : Port) : State := { s with fab := { s.fab with ports := tabSetD {} s.fab.ports p q } }

/-- FLIT_RECEIVE (R406, R408): a port accepts the flit of the next link sequence number; a gap or a corrupted flit (`xs` 2) only gets a
negative acknowledgement. -/
def flitReceive (s : State) (xs : List Nat) : State :=
  let p := xs.getD 0 0 % 16
  let q := s.port p
  let (f, src, num) := flitOfArgs xs
  if !q.up || xs.getD 1 0 != q.expect || xs.getD 2 0 != 0 || src == s.dev.devId then s
  else match takeFlit s (src % 4096) (num % 2 ^ 32) f with
    | none => s
    | some s => s.setPort p { s.port p with expect := (q.expect + 1) % 2 ^ 20 }

/-! ## Links -/

/-- The flit in a port's retry buffer under a sequence number. -/
def retryFind (s : State) (p seq : Nat) : Option Nat :=
  (s.port p).retry.find? fun n => match tabGet s.fab.out n with | some o => o.link == seq | none => false

/-- A flit leaves a port's retry buffer; a forwarded one leaves the device. -/
def leaveBuffer (s : State) (p n : Nat) : State :=
  let s := s.setPort p { s.port p with retry := (s.port p).retry.filter (· ≠ n) }
  match tabGet s.fab.out n with
  | none => s
  | some o =>
    let out := match o.owner with
      | .transit _ _ => tabDel s.fab.out n
      | _ => tabSet s.fab.out n { o with buffered := false }
    { s with fab := { s.fab with out := out } }

/-- LINK_ACK (R406): the neighbour has acknowledged a sequence number. -/
def linkAck (s : State) (p seq : Nat) : State :=
  match retryFind s p seq with
  | none => s
  | some n => pumpPorts (leaveBuffer s p n)

/-- LINK_DOWN (R406): the link of a port is down, and its buffered flits are resent on another port, or fail. -/
def linkDown (s : State) (p : Nat) : State :=
  let q := s.port p
  if !q.up then s
  else
    let back := fun (o : OutFlit) => { o with port := none, buffered := false }
    let s := s.setPort p { q with up := false, retry := [] }
    let s := { s with fab := { s.fab with out := q.retry.foldl (fun m n => tabMod m n back) s.fab.out } }
    q.retry.foldl bufferFlit s

/-- LINK_REPLAY (R406): a negative acknowledgement names the missing flit, and the buffer is sent again from it on; after 16 replays of
one flit the link is down. -/
def linkReplay (s : State) (p seq : Nat) : State :=
  match retryFind s p seq with
  | none => s
  | some n =>
    let from_ := (s.port p).retry.dropWhile (· ≠ n)
    if ((tabGet s.fab.out n).map (·.replays)).getD 0 ≥ 16 then linkDown s p
    else
      let again := fun (o : OutFlit) => { o with replays := o.replays + 1 }
      { s with fab := { s.fab with out := from_.foldl (fun m n => tabMod m n again) s.fab.out } }

/-- REMOTE_COMPLETION (R244, R407): the destination of a flit that has left the device has performed or refused it; `xs` gives its number,
the refusing cause, the stale mark and the words returned. -/
def remoteCompletion (s : State) (xs : List Nat) : State :=
  let n := xs.getD 0 0
  match tabGet s.fab.out n with
  | none => s
  | some o =>
    match o.port, o.owner with
    | none, _ => s
    | _, .transit _ _ => s
    | some p, _ =>
      let words := (xs.drop 3).mapIdx fun k v => (k, v % 2 ^ 32)
      let named := words.filter fun w => (tabGet o.flit.words w.1).isSome
      pumpPorts (completeFlit (leaveBuffer s p n) n (xs.getD 1 0 % 512) (xs.getD 2 0 == 1) (if o.flit.returns then named else []))

end Sys2Proof.Machine
end

