-- ==== Sys2Proof/Machine/Finish.lean ====
section
/-!
DEFINITION. Machine/Finish.lean: the sums of K steps land (R182), MTILEs and tile tasks end, and tile tasks write their results (R351,
R422).
-/
namespace Sys2Proof.Machine

/-- The oldest landing sums of a K step reach their tile (R182); after the last of them the MTILE completes, or the tile task is to
write its results. -/
def landStep (s : State) (core n : Nat) (x : Landing) (rest : List Landing) : State :=
  let (s, fl) := land s core x rest
  match x.item with
  | .team w => if x.last then finishCommand s w else s
  | .task t =>
    let grow := fun (t : TileTask) => { t with progress := n + 1, flags := t.flags ||| fl }
    let s := modTileTask s core t.stamp grow
    if x.last then endTask s core (grow t) 0 else s

/-- The completion record of a tile task (Table 17-9). -/
def taskRecord (t : TileTask) (cause : Nat) : List Byte :=
  recordBytes 32 [(0, 2, cause), (2, 2, t.progress), (8, 8, t.flags.toNat), (16, 4, t.tag), (24, 1, 1)]

/-- A tile task has ended for its packet. -/
def taskOver (s : State) (core : Nat) (t : TileTask) : State :=
  let l := (s.core core).lat
  let s := forgetRefused (s.setLat core { l with finishing := l.finishing.filter fun x => x.1.stamp ≠ t.stamp }) (stager core t.stamp)
  match t.origin with
  | some k => packetPart s k
  | none => s

/-- The completion record of a tile task is written, and its packet's work ends; a record that cannot be written is dropped with 0x13B
(R351). -/
def writeTaskRecord (s : State) (core : Nat) (t : TileTask) (cause : Nat) : State :=
  match engineProbe s core t.ctx (stager core t.stamp) [(t.crec, 32)] true 18 with
  | .wait needs => engineWait s core t.ctx t.node (stager core t.stamp) needs
  | .ready => taskOver (engineWrite s t.node core t.ctx t.crec (taskRecord t cause) 0 false) core t
  | .cause _ =>
    taskOver (faultRecord s (loadedNode s t.node) 0x13B 1 core 0 [[(24, 4, t.progress)]]) core t

/-- Replace a tile task that is to write its results. -/
def setFinishing (s : State) (core : Nat) (t : TileTask) (cause : Nat) : State :=
  let l := (s.core core).lat
  s.setLat core { l with finishing := l.finishing.map fun x => if x.1.stamp = t.stamp then (t, cause) else x }

/-- A tile task writes its results (R351): C to OUT and then zero, unless it has ended with a cause; then its record. -/
def finishTask (s : State) (core : Nat) (t : TileTask) (cause : Nat) : State :=
  if cause ≠ 0 ∨ !t.wrback then writeTaskRecord s core t cause
  else
    match engineProbe s core t.ctx (stager core t.stamp) [(t.out, 16384)] true 18 with
    | .wait needs => engineWait s core t.ctx t.node (stager core t.stamp) needs
    | .cause k => setFinishing s core t k
    | .ready =>
      let k := s.core core
      let s := engineWrite s t.node core t.ctx t.out (tileBytes (k.tile t.c)) 0 false
      let k := s.core core
      setFinishing (s.setCore core (k.setTile t.c {})) core { t with wrback := false } 0

/-- K_STEP_SUMS_LANDED (R182, R351): the oldest landing sums of a K step, or a step of the first tile task that is to write its results. -/
def kStepLanded (s : State) (core : Nat) : State :=
  let l := (s.core core).lat
  match l.landing, l.finishing with
  | x :: rest, _ => match x.step with
    | some n => landStep s core n x rest
    | none => s
  | [], (t, cause) :: _ => finishTask s core t cause
  | [], [] => s

end Sys2Proof.Machine
end

