-- ==== Sys2Proof/Machine/Gang.lean ====
section
/-!
DEFINITION. Machine/Gang.lean: gang pauses: the FABRIC packets PAUSE and RESUME and the messages between the devices of a gang (R384,
R385, R413, R414).
-/
namespace Sys2Proof.Machine

/-- The pause or resume of a number. -/
def gangFind (s : State) (number : Nat) : Option Gang := s.fab.gangs.find? fun g => g.number = number

/-- Change the pause or resume of a number. -/
def modGang (s : State) (number : Nat) (f : Gang → Gang) : State :=
  { s with fab := { s.fab with gangs := s.fab.gangs.map fun g => if g.number = number then f g else g } }

/-- A pause or resume is over. -/
def dropGang (s : State) (number : Nat) : State :=
  { s with fab := { s.fab with gangs := s.fab.gangs.filter fun g => g.number ≠ number } }

/-- Test the acorns of a reduction group (R385, R399). -/
def testGroup (s : State) (group : Nat) : State :=
  s.cores.foldl (fun s c => c.2.acorns.foldl (fun s a =>
    if a.2.desc.onSwitch && a.2.desc.group == group then testAcorn s c.1 a.1 else s) s) s

/-- Hold, change or lift the pause of a group. -/
def setPause (s : State) (group : Nat) (p : Option Pause) : State :=
  match p with
  | some p => { s with fab := { s.fab with pauses := tabSet s.fab.pauses group p } }
  | none => testGroup { s with fab := { s.fab with pauses := tabDel s.fab.pauses group } } group

/-- The device holds the pause of an identifier for a group. -/
def holdsPause (s : State) (init number group : Nat) : Option Pause :=
  (tabGet s.fab.pauses group).filter fun p => p.init = init ∧ p.number = number

/-! ## The packets -/

/-- The body of a PAUSE or RESUME breaks Table 20-5. -/
def gangBad (bs : List Byte) : Bool :=
  !restZero bs [(24, 1), (32, 8), (48, 8)] || decide (8 ≤ field bs 24 1) || field bs 48 4 == 0 || decide (4096 < field bs 48 4) ||
  decide (4096 ≤ field bs 52 2) || decide (1024 ≤ field bs 54 2)

/-- The gang of a packet, its member list read (Table 20-5). -/
def gangPacket (s : State) (key : Nat) (p : Packet) (bs : List Byte) (resume : Bool) (number : Nat) : Parsed :=
  let n := field bs 48 4
  fwRead s p [(field bs 32 8, 2 * n)] fun _ =>
    let list := fwBytes s p.ctx (field bs 32 8) (2 * n)
    let members := ((List.range n).map fun k => field list (2 * k) 2 % 4096).eraseDups
    let g : Gang := { key := key, number := number, group := field bs 52 2, node := field bs 54 2, resume := resume, members := members,
                      since := s.dev.time }
    let s := fwTouch s p.ctx (field bs 32 8) (2 * n)
    .done { s.modPacket key fun p => { p with left := 1 } with fab := { s.fab with gangs := s.fab.gangs ++ [g] } }

/-- FABRIC PAUSE (R413, R414): the pause takes the next number, and its members are asked. -/
def fabricPausePacket (s : State) (q : Nat) : State :=
  parsePacket s q (isFabric 3) fun s key p bs =>
    if gangBad bs then .bad 0x135
    else gangPacket { s with fab := { s.fab with gangSeq := s.fab.gangSeq + 1 } } key p bs false s.fab.gangSeq

/-- FABRIC RESUME (R413, R414): 0x156 when this device holds no pause for the group. -/
def fabricResumePacket (s : State) (q : Nat) : State :=
  parsePacket s q (isFabric 4) fun s key p bs =>
    let group := field bs 52 2
    if gangBad bs then .bad 0x135
    else match tabGet s.fab.initiated group with
      | none => .bad 0x156
      | some n => gangPacket { s with fab := { s.fab with initiated := tabDel s.fab.initiated group } } key p bs true n

/-! ## Proposing -/

/-- A pause fails (R414): the proposal is lifted here, and the packet faults with 0x156; the other members reached are sent CANCEL. -/
def failGang (s : State) (g : Gang) : State :=
  let s := dropGang s g.number
  let s := if (holdsPause s s.dev.devId g.number g.group).isSome then setPause s g.group none else s
  match s.packet? g.key with
  | none => s
  | some p => commandFault s g.key p 0x156

/-- A member's answer (R384, R414): BUSY ends the pause; with the last answer the chunk at which the gang stops is known. -/
def gangAnswer (s : State) (number dev : Nat) (busy : Bool) (top : Nat) : State :=
  match gangFind s number with
  | none => s
  | some g =>
    if g.resume || g.limit.isSome || !g.members.contains dev || (tabGet g.answers dev).isSome then s
    else if busy then failGang s g
    else
      let answers := tabSet g.answers dev top
      let limit := if answers.length = g.members.length then some (answers.foldl (fun m a => max m a.2) 0) else none
      modGang s number fun g => { g with answers := answers, limit := limit }

/-- PROPOSE_ANSWER (R414): the answer of another device. -/
def proposeAnswer (s : State) (number dev busy top : Nat) : State :=
  if dev = s.dev.devId then s else gangAnswer s number dev (busy == 1) top

/-- A message of a gang goes back to its initiator on another device. -/
def gangReply (s : State) (dev number cause : Nat) (words : Tab Nat) : State :=
  { s with fab := { s.fab with reply := some { dev := dev, num := number, cause := cause, stale := false, words := words } } }

/-- This device's own gang waits for a message of its own to reach it as a member. -/
def ownGang (s : State) (init number : Nat) (f : Gang → Bool) : Bool :=
  init != s.dev.devId || (gangFind s number).any fun g => g.members.contains s.dev.devId && f g

/-- PROPOSE (R384, R414): the device answers with the highest chunk that it has named, and holds what lies above; or BUSY while it holds
another pause of the group. -/
def proposeStep (s : State) (init number group : Nat) : State :=
  if !ownGang s init number fun g => !g.resume && g.group == group && (tabGet g.answers init).isNone then s
  else
    let top := tabGetD 0 s.fab.chunkMax group
    let busy := (tabGet s.fab.pauses group).any fun p => p.init != init || p.number != number
    let s := if busy then s else setPause s group (some { init := init, number := number, limit := top })
    if init = s.dev.devId then gangAnswer s number init busy top
    else gangReply s init number (if busy then 0x156 else 0) [(0, top)]

/-- CANCEL (R414): it lifts the proposal of its own identifier alone. -/
def cancelStep (s : State) (init number group : Nat) : State :=
  match holdsPause s init number group with
  | none => s
  | some p => if init = s.dev.devId || !p.proposed then s else setPause s group none

/-- GANG_PAUSE_TIMEOUT (R414): a member has not answered within the watchdog interval of the packet's region. -/
def gangTimeout (s : State) (number : Nat) : State :=
  match gangFind s number with
  | none => s
  | some g =>
    let wdog := ((s.packet? g.key).map fun p => (s.region p.node).wdog).getD 1
    if g.resume || g.limit.isSome || decide (s.dev.time < g.since + wdog * microsecond) then s else failGang s g

/-! ## Pausing -/

/-- PAUSE (R384): from now on the chunks from the limit on wait. -/
def pauseStep (s : State) (init number group limit node : Nat) : State :=
  match holdsPause s init number group with
  | none => s
  | some p =>
    let own := (gangFind s number).filter fun g => init = s.dev.devId ∧ !g.resume
    let (limit, node, ready) := match init == s.dev.devId, own with
      | true, some g => (g.limit.getD 0, g.node, g.limit.isSome)
      | true, none => (0, 0, false)
      | false, _ => (limit, node, true)
    if !ready || !p.proposed then s
    else testGroup (setPause s group (some { p with proposed := false, limit := limit, node := node })) group

/-- The device is quiescent for a group up to a chunk (R384). -/
def quiescent (s : State) (group limit : Nat) : Bool :=
  let below := fun (g c : Nat) => g == group && decide (c < limit)
  !(s.fab.colls.any fun p => decide (9 ≤ p.2.op) && below p.2.group p.2.chunk) &&
  !(s.fab.ops.any fun p => p.2.desc.onSwitch && below p.2.desc.group p.2.desc.chunk) &&
  !(s.fab.chunks.any fun c => below c.group c.chunk) && !(s.fab.rootIn.any fun x => below x.flit.group x.flit.chunk)

/-- A team is to be saved for a gang pause (R384). -/
def gangSaves (s : State) (node : Nat) : Bool :=
  s.fab.pauses.any fun p => !p.2.proposed && p.2.node == node && quiescent s p.1 p.2.limit

/-- A member has reported; with the last report the pause is complete (R384, R414). -/
def gangReport (s : State) (number dev : Nat) : State :=
  match gangFind s number with
  | none => s
  | some g =>
    if g.resume || g.limit.isNone || !g.members.contains dev || g.reports.contains dev then s
    else if g.reports.length + 1 < g.members.length then modGang s number fun g => { g with reports := dev :: g.reports }
    else
      let s := dropGang s number
      packetPart { s with fab := { s.fab with initiated := tabSet s.fab.initiated g.group number } } g.key

/-- QUIESCENCE_REPORT (R384): this device reports for a group once it is quiescent and the saves of the region's teams are complete; or
(`kind` 1) the report of another device arrives. -/
def quiescenceReport (s : State) (kind n dev : Nat) : State :=
  if kind = 1 then (if dev = s.dev.devId then s else gangReport s n dev)
  else match tabGet s.fab.pauses n with
    | none => s
    | some p =>
      if p.proposed || p.quiet || !quiescent s n p.limit || (s.teams.any fun t => t.2.info.node == p.node) then s
      else
        let s := setPause s n (some { p with quiet := true })
        if p.init = s.dev.devId then gangReport s p.number p.init else gangReply s p.init p.number 0 []

/-! ## Resuming -/

/-- A member has acknowledged a resume; with the last one the packet's work has ended (Table 20-5). -/
def resumeAck (s : State) (number dev : Nat) : State :=
  match s.fab.gangs.find? fun g => g.number = number ∧ g.resume with
  | none => s
  | some g =>
    if !g.members.contains dev || g.reports.contains dev then s
    else if g.reports.length + 1 < g.members.length then modGang s number fun g => { g with reports := dev :: g.reports }
    else packetPart (dropGang s number) g.key

/-- RESUME_ACKNOWLEDGEMENT (R413): another device has acknowledged a resume. -/
def resumeAcknowledged (s : State) (number dev : Nat) : State := if dev = s.dev.devId then s else resumeAck s number dev

/-- GANG_RESUME (R385): the pause of the initiating device is lifted here; a member that holds none only acknowledges. -/
def gangResumeStep (s : State) (init number group : Nat) : State :=
  if !ownGang s init number fun g => g.resume && g.group == group && !g.reports.contains init then s
  else
    let s := if (holdsPause s init number group).isSome then setPause s group none else s
    if init = s.dev.devId then resumeAck s number init else gangReply s init number 0 []

end Sys2Proof.Machine
end

