-- ==== Sys2Proof/Machine/LaneMem.lean ====
section
/-!
DEFINITION. Machine/LaneMem.lean: the lanes' accesses to the constant space, to scratch and to rings: LDC, LDX and STX (R148 to
R150).
-/
namespace Sys2Proof.Machine

/-- Which space an access of the lanes names (Table 7-1). -/
inductive LaneSpace where
  | const
  | scratch
  | ring
  deriving DecidableEq, Repr

/-- The effective address of a lane (R148). -/
def laneAddr (o : ELanes) (l : Nat) : Nat := (o.arg 0 l + o.arg 1 l).toNat

/-- Ring number of a ring-space address (R149). -/
def ringOf (a : Nat) : Nat := bitsOf a 22 20

/-- Byte offset of a ring-space address in its ring (R149). -/
def ringOffset (a : Nat) : Nat := bitsOf a 19 0

/-- The slot of a ring-space address (R149). -/
def slotOf (r : Ring) (a : Nat) : Nat := ringOffset a / r.slotSize

/-- The state of a slot (R162). -/
def Ring.slot (r : Ring) (k : Nat) : SlotState := tabGetD .free r.slots k

/-- The pending-byte counter of a slot (R162). -/
def Ring.pend (r : Ring) (k : Nat) : Nat := tabGetD 0 r.pending k

/-- A ring-space access is malformed, names no declared ring or passes the ring's end (R149). -/
def ringBad (t : Team) (a size : Nat) : Bool :=
  decide (bitsOf a 31 23 ≠ 0) ||
  match tabGet t.rings (ringOf a) with
  | none => true
  | some r => decide (r.slotSize * r.count < ringOffset a + size)

/-- The bytes that the lanes of one STX write into the slot of an address (R149). -/
def slotBytes (t : Team) (o : ELanes) (size a : Nat) : Nat :=
  match tabGet t.rings (ringOf a) with
  | none => 0
  | some r => ((o.lanes.filter fun l =>
      ringOf (laneAddr o l) == ringOf a && slotOf r (laneAddr o l) == slotOf r a).length) * size

/-- An STX to ring space whose slot is not CLAIMED or has too few bytes pending (R149). -/
def slotBad (t : Team) (o : ELanes) (size a : Nat) : Bool :=
  match tabGet t.rings (ringOf a) with
  | none => false
  | some r => r.slot (slotOf r a) != .claimed || decide (r.pend (slotOf r a) < slotBytes t o size a)

/-- The causes of R149 in their order, each with the lanes that meet it. -/
def laneMemCauses (t : Team) (o : ELanes) (sp : LaneSpace) (size : Nat) (store : Bool) : List (Nat × (Nat → Bool)) :=
  let a := laneAddr o
  (0x083, fun l => decide (a l % size ≠ 0)) ::
  match sp with
  | .const => [(0x085, fun l => decide (t.info.kernel.constLen < a l + size))]
  | .scratch => [(0x086, fun l => decide (t.info.scratchBytes < a l + size))]
  | .ring => [(0x08A, fun l => ringBad t (a l) size), (0x08B, fun l => store && slotBad t o size (a l))]

/-- Raise the highest cause of R149 among the lanes, naming the lowest lane that meets it. -/
def checkLanes (o : ELanes) : List (Nat × (Nat → Bool)) → Act Unit
  | [] => .ok ()
  | (c, bad) :: rest =>
    match o.lanes.find? bad with
    | some l => raiseWith c { lane := some l, value := BitVec.ofNat 64 (laneAddr o l) }
    | none => checkLanes o rest

/-- Key of a ring-space byte. -/
def ringKey (a : Nat) : Nat := ringOf a * 2 ^ 20 + ringOffset a

/-- Bytes of ring space (unlisted 0). -/
def ringBytes (t : Team) (key n : Nat) : List Byte := (List.range n).map fun k => tabGetD 0 t.ringMem (key + k)

/-- Write bytes of ring space. -/
def ringWrite (t : Team) (key : Nat) (bs : List Byte) : Team :=
  { t with ringMem := (enum 0 bs).foldl (fun m p => tabSetD 0 m (key + p.1) p.2) t.ringMem }

/-- The value at an address of a space (R148). -/
def laneRead (t : Team) (sp : LaneSpace) (a n : Nat) : Nat :=
  match sp with
  | .const => leNat ((List.range n).map fun k => tabGetD 0 t.info.kernel.const (a + k))
  | .scratch => scratchNat t a n
  | .ring => leNat (ringBytes t (ringKey a) n)

/-- Lower the pending count of a slot; at 0 a CLAIMED slot becomes FILLED (R162, Table 7-6). -/
def lowerPending (t : Team) (ring slot n : Nat) : Team :=
  { t with rings := tabMod t.rings ring fun r =>
    let left := r.pend slot - n
    { r with pending := tabSetD 0 r.pending slot left,
             slots := if left = 0 then tabSetD .free r.slots slot .filled else r.slots } }

/-- One lane's store (R148). -/
def laneStore (t : Team) (sp : LaneSpace) (a n v : Nat) : Team :=
  match sp with
  | .ring =>
    let t := ringWrite t (ringKey a) (natLe n v)
    match tabGet t.rings (ringOf a) with
    | some r => lowerPending t (ringOf a) (slotOf r a) n
    | none => t
  | _ => scratchWrite t a (natLe n v)

/-- LDC, LDX and LDX.RING (R148, R149): a value of 1, 2 or 4 bytes, extended to 32 bits; the latch is b4 (R167). -/
def laneLoad (x : Instr) (n : BitVec 1) (d : BitVec 6) (a b : BitVec 7) (s : BitVec 1) (l : BitVec 2) (sp : LaneSpace) :
    State → Host.Outcome State Fault Refusal :=
  let size := 1 <<< l.toNat
  vOp x n d [(a, .int), (b, .int)] false 4 fun _ t o => do
    checkLanes o (laneMemCauses t o sp size false)
    .ok (eachWord o fun k =>
      let y := laneRead t sp (laneAddr o k) size
      if s = 1 then BitVec.ofInt 32 (BitVec.ofNat (8 * size) y).toInt else BitVec.ofNat 32 y)

/-- STX and STX.RING (R148 to R150): the lanes store in ascending order. -/
def laneStores (x : Instr) (d : BitVec 6) (a b : BitVec 7) (l : BitVec 2) (sp : LaneSpace) (s : State) :
    Host.Outcome State Fault Refusal :=
  let size := 1 <<< l.toNat
  issue x plain s fun i t s => do
    let o ← eOperands i t (coreWord s i.core) [(a, .int), (b, .int)] (some d)
    checkLanes o (laneMemCauses t o sp size true)
    let t := o.lanes.foldl (fun t k =>
      laneStore t sp (laneAddr o k) size ((o.arg 2 k).toNat % 2 ^ (8 * size))) t
    .ok (s.setTeam i.wid (eFinish t o false 0))

/-- LDC (R148, R149). -/
def execLdc (n : BitVec 1) (d : BitVec 6) (a b : BitVec 7) (s : BitVec 1) (l : BitVec 2) :
    State → Host.Outcome State Fault Refusal := laneLoad (.ldc n d a b s l) n d a b s l .const

/-- LDX of scratch (R148, R149). -/
def execLdx (n : BitVec 1) (d : BitVec 6) (a b : BitVec 7) (s : BitVec 1) (l : BitVec 2) :
    State → Host.Outcome State Fault Refusal := laneLoad (.ldx n d a b s l) n d a b s l .scratch

/-- LDX of ring space (R148, R149). -/
def execLdxRing (n : BitVec 1) (d : BitVec 6) (a b : BitVec 7) (s : BitVec 1) (l : BitVec 2) :
    State → Host.Outcome State Fault Refusal := laneLoad (.ldxRing n d a b s l) n d a b s l .ring

/-- STX to scratch (R148, R149). -/
def execStx (d : BitVec 6) (a b : BitVec 7) (l : BitVec 2) : State → Host.Outcome State Fault Refusal :=
  laneStores (.stx d a b l) d a b l .scratch

/-- STX to ring space (R148, R149). -/
def execStxRing (d : BitVec 6) (a b : BitVec 7) (l : BitVec 2) : State → Host.Outcome State Fault Refusal :=
  laneStores (.stxRing d a b l) d a b l .ring

end Sys2Proof.Machine
end

