-- ==== Sys2Proof/Machine/Streams.lean ====
section
/-!
DEFINITION. Machine/Streams.lean: the stream engines: fills of plain, described and Pecan tensors and drains (R272 to R277).
-/
namespace Sys2Proof.Machine

/-- The byte offset of a row of a tensor: dimension 0 is the row, the others advance by their strides (R270). -/
def rowOffset : List Nat → List Int → Nat → Int
  | e :: es, st :: sts, row => (row % e : Nat) * st + rowOffset es sts (row / e)
  | _, _, _ => 0

/-- The offset of row `row` from BASE. -/
def StreamRec.row (r : StreamRec) (row : Nat) : Int := rowOffset (r.exts.drop 1) r.strs row

/-- The address at an offset from a base. -/
def offsetAddr (base : Nat) (o : Int) : Nat := (BitVec.ofInt 64 ((base : Int) + o)).toNat

/-- The elements of a tensor (R270). -/
def StreamRec.count (r : StreamRec) : Nat := r.exts.foldl (· * ·) 1

/-- Bytes of a row of a plain tensor. -/
def StreamRec.rowBytes (r : StreamRec) : Nat := r.exts.getD 0 1 * fmtBits r.fmt / 8

/-- Bytes of an expanded Pecan tile (R274). -/
def StreamRec.tileSize (r : StreamRec) : Nat := 1024 * fmtBits r.fmt

/-- Bytes of the record's byte stream (R272 to R274). -/
def StreamRec.total (r : StreamRec) : Nat :=
  match r.pack with
  | 0 => r.count / r.exts.getD 0 1 * r.rowBytes
  | 1 => r.count * r.elemBytes
  | _ => r.exts.getD 0 1 * r.tileSize

/-- The parts of a plain tensor's byte stream from position `p`: addresses and lengths, none across a row or a sector. -/
def plainParts (r : StreamRec) : Nat → Nat → Nat → List (Nat × Nat)
  | 0, _, _ => []
  | fuel + 1, p, n =>
    if n = 0 ∨ r.rowBytes = 0 then [] else
    let a := offsetAddr r.base (r.row (p / r.rowBytes) + (p % r.rowBytes : Nat))
    let k := min n (min (r.rowBytes - p % r.rowBytes) (64 - a % 64))
    (a, k) :: plainParts r fuel (p + k) (n - k)

/-- What filling a slot gives: the bytes before a cause, with the cause and the place of a Pecan cause, or the pages to wait for. -/
inductive Slot where
  | bytes (bs : List Byte)
  | fault (bs : List Byte) (c : OperandCause)
  | wait (needs : List PageNeed)
  deriving DecidableEq, Repr

/-- The team of a stream record: its owner, or the team that a packet named (R343). -/
def streamTeam (s : State) (c : Copy) : Option (Nat × Team) :=
  match c.owner with
  | some seq => s.teamOf seq
  | none =>
    let wid := c.core * 16 + c.rslot
    match s.team? wid with
    | some t => if t.info.scratchGen = c.rgen then some (wid, t) else none
    | none => none

/-- Read the parts of a plain tensor in order, up to a cause; whole elements precede it (R275). -/
def plainSlot (s : State) (c : Copy) (r : StreamRec) (who : Requester) : List (Nat × Nat) → List Byte → Slot
  | [], acc => .bytes acc
  | p :: ps, acc =>
    match engineProbe s c.core c.ctx who [p] false 17 with
    | .cause k => .fault (acc.take (acc.length / r.elemBytes * r.elemBytes)) { cause := k }
    | .wait needs => .wait needs
    | .ready => plainSlot s c r who ps (acc ++ readVirt s c.core c.ctx p.1 p.2)

/-- The formats that a described fill delivers (Table 12-5). -/
def outFmt (o : Nat) : FpFmt := match o with | 0 => .f32 | 1 => .bf16 | _ => .f16

/-- Where element `n` of a described tensor lies: its place and the bases that the place counts from (R22, R273). -/
def describedPlace (r : StreamRec) (rd : Nat → Nat → Nat) (n : Nat) : Place × Nat × Nat :=
  let o := r.row (n / r.exts.getD 0 1)
  let block := o / 64
  let base := offsetAddr r.base (block * 64)
  let aux := offsetAddr r.aux (block * 2)
  let x := n % r.exts.getD 0 1
  (describedWalk rd aux (x / 16 + 2) (o % 64).toNat x, base, aux)

/-- Deliver `k` elements of a described tensor from element `n` (R273): the bytes, the flags, or what stops them. -/
def describedSlot (s : State) (c : Copy) (r : StreamRec) (who : Requester) : Nat → Nat → List Byte → FpFlags → Slot × FpFlags
  | 0, _, acc, fl => (.bytes acc, fl)
  | k + 1, n, acc, fl =>
    let rd := virtNat s c.core c.ctx
    let (p, base, aux) := describedPlace r rd n
    match engineProbe s c.core c.ctx who [(aux + p.off / 64 * 2, 2)] false 17 with
    | .cause x => (.fault acc { cause := x }, fl)
    | .wait needs => (.wait needs, fl)
    | .ready =>
      let bits := fmtBits p.fmt
      if bits = 0 then (.fault acc { cause := 0x049 }, fl)
      else
        let m := max 1 (bits / 8)
        match engineProbe s c.core c.ctx who [(base + p.off, m)] false 17 with
        | .cause x => (.fault acc { cause := x }, fl)
        | .wait needs => (.wait needs, fl)
        | .ready =>
          let e : Elem := { fmt := p.fmt, bits := rd (base + p.off) m / 2 ^ p.bit % 2 ^ bits, scale := p.scale }
          if e.fmt = 8 ∧ e.bits = 2 then (.fault acc { cause := 0x048 }, fl)
          else
            let y := fpRound (outFmt r.ofmt) .rne false e.value
            describedSlot s c r who k (n + 1) (acc ++ natLe r.elemBytes y.1) (fl ||| y.2 ||| sigFlag e.value)

/-- Elements packed densely into bytes (R13). -/
def packElems (bits n : Nat) (es : List Nat) : List Byte := natLe n (es.foldr (fun e x => x * 2 ^ bits + e) 0)

/-- Tile `k` of a Pecan record, expanded (R274). -/
def pecanSlotTile (s : State) (c : Copy) (r : StreamRec) (who : Requester) (k : Nat) : Slot :=
  let rd := virtNat s c.core c.ctx
  let a := r.aux + 4 * (r.tile0 + k)
  match engineProbe s c.core c.ctx who (pecanRanges rd r.base a) false 17 with
  | .cause x => .fault [] { cause := x }
  | .wait needs => .wait needs
  | .ready =>
    match pecanAt rd r.fmt r.base a with
    | .ok es => .bytes (packElems (fmtBits r.fmt) r.tileSize es)
    | .error (x, o) => .fault [] { cause := x, seg := r.aux, tile := r.tile0 + k, off := o }

/-- The bytes `p` to `p + n` of a Pecan record's stream, tile by tile (R274, R275). -/
def pecanSlot (s : State) (c : Copy) (r : StreamRec) (who : Requester) : Nat → Nat → Nat → List Byte → Slot
  | 0, _, _, acc => .bytes acc
  | fuel + 1, p, n, acc =>
    if n = 0 then .bytes acc else
    match pecanSlotTile s c r who (p / r.tileSize) with
    | .bytes t =>
      let part := (t.drop (p % r.tileSize)).take n
      pecanSlot s c r who fuel (p + part.length) (n - part.length) (acc ++ part)
    | .fault _ x => .fault acc x
    | .wait needs => .wait needs

/-- The bytes of the next slot of a fill, with the flags of its roundings. -/
def fillSlot (s : State) (c : Copy) (r : StreamRec) (who : Requester) (size : Nat) : Slot × FpFlags :=
  let n := min size (r.total - c.done)
  match r.pack with
  | 0 => (plainSlot s c r who (plainParts r (n + 1) c.done n) [], 0)
  | 1 => describedSlot s c r who (n / r.elemBytes) (c.done / r.elemBytes) [] 0
  | _ => (pecanSlot s c r who (n / r.tileSize + 2) c.done n [], 0)

/-- Set a slot's state and pending count. -/
def Ring.setSlot (r : Ring) (k : Nat) (x : SlotState) (pend : Nat) : Ring :=
  { r with slots := tabSetD .free r.slots k x, pending := tabSetD 0 r.pending k pend }

/-- The producer claims the tail slot (Table 7-6). -/
def Ring.claim (r : Ring) : Ring := { r.setSlot r.tail .claimed r.slotSize with tail := (r.tail + 1) % r.count }

/-- The consumer releases the head slot (Table 7-6). -/
def Ring.release (r : Ring) : Ring := { r.setSlot r.head .free 0 with head := (r.head + 1) % r.count }

/-- Change a ring of a team. -/
def Team.modRing (t : Team) (n : Nat) (f : Ring → Ring) : Team := { t with rings := tabMod t.rings n f }

/-- A stream engine of a core runs nothing. -/
def stopStream (s : State) (core e : Nat) : State :=
  let k := s.core core
  s.setCore core { k with streams := tabDel k.streams e }

/-- The ring-space key of a slot. -/
def slotKey (ring : Nat) (r : Ring) (k : Nat) : Nat := ring * 2 ^ 20 + k * r.slotSize

/-- A record has ended: it completes, or stops with a cause (R275). -/
def endRecord (s : State) (core e id : Nat) (c : Copy) (who : Requester) (x : Option OperandCause) : State :=
  let s := forgetRefused (stopStream s core e) who
  match x with
  | none => retireCopy s id c true
  | some x => failCopy s id c x.cause (if 0x120 ≤ x.cause then some (x.seg, x.tile, x.off) else none)

/-- What a stream engine runs: the item, the copy and its record. -/
def streamRun (s : State) (core e : Nat) : Option (EngineRun × Nat × Copy × StreamRec) :=
  match tabGet (s.core core).streams e with
  | none => none
  | some r => match r.item.work with
    | .stream id => match tabGet s.eng.copies id with
      | some c => c.srec.map fun x => (r, id, c, x)
      | none => none
    | _ => none

/-- The record gives way at a slot boundary, or while it waits for a slot (R277, Table 16-5). -/
def yieldStream (s : State) (core e : Nat) (r : EngineRun) : State :=
  if r.stop then reenterLeaf (stopStream s core e) (leafId 3 core) r.item else s

/-- The engine begins a slot of a fill: the tail slot must be FREE; a Pecan tile is checked before anything is claimed (R272,
R274). -/
def beginFill (s : State) (core e id wid : Nat) (r : EngineRun) (c : Copy) (x : StreamRec) (g : Ring) : State :=
  if r.stop || g.slot g.tail != .free then yieldStream s core e r
  else
    let who := copyWho s id c
    let claim := (s.modTeam wid fun t => t.modRing x.ring Ring.claim).modCopy id fun c => { c with claimed := true }
    if x.pack ≠ 2 then claim
    else match pecanSlotTile s c x who (c.done / x.tileSize) with
      | .bytes _ => claim
      | .wait needs => engineWait s core c.ctx c.node who needs
      | .fault _ k => endRecord s core e id c who (some k)

/-- The engine fills the slot it has claimed (R272, R275). -/
def finishFill (s : State) (core e id wid : Nat) (c : Copy) (x : StreamRec) (g : Ring) : State :=
  let who := copyWho s id c
  let slot := (g.tail + g.count - 1) % g.count
  let put := fun (s : State) (bs : List Byte) => s.modTeam wid fun t => ringWrite t (slotKey x.ring g slot) bs
  match fillSlot s c x who g.slotSize with
  | (.wait needs, _) => engineWait s core c.ctx c.node who needs
  | (.fault bs k, _) =>
    endRecord ((put s bs).modTeam wid fun t => lowerPending t x.ring slot bs.length) core e id c who (some k)
  | (.bytes bs, fl) =>
    let s := put s (bs ++ List.replicate (g.slotSize - bs.length) 0)
    let s := s.modTeam wid fun t => t.modRing x.ring fun g => g.setSlot slot .filled 0
    let c := { c with done := c.done + bs.length, claimed := false, flags := c.flags ||| fl }
    if x.total ≤ c.done then endRecord s core e id c who none else s.modCopy id fun _ => c

/-- STREAM_FILL (R272 to R275): a step of a stream engine that fills. A record whose team has retired has no ring left and ends. -/
def streamFill (s : State) (core e : Nat) : State :=
  match streamRun s core e with
  | none => s
  | some (r, id, c, x) =>
    if x.drain then s else
    match streamTeam s c with
    | none => endRecord s core e id c (copyWho s id c) none
    | some (wid, t) => match tabGet t.rings x.ring with
      | none => endRecord s core e id c (copyWho s id c) none
      | some g => if c.claimed then finishFill s core e id wid c x g else beginFill s core e id wid r c x g

/-- Write the parts of a drained slot in order, up to a cause. -/
def drainParts (s : State) (c : Copy) (who : Requester) : List (Nat × Nat) → List Byte → State × Option Probe
  | [], _ => (s, none)
  | p :: ps, bs =>
    match engineProbe s c.core c.ctx who [p] true 18 with
    | .ready => drainParts (engineWrite s c.node c.core c.ctx p.1 (bs.take p.2) c.cls c.shadow) c who ps (bs.drop p.2)
    | x => (s, some x)

/-- STREAM_DRAIN (R272, R275): the head slot, once FILLED, is written to memory and released. -/
def streamDrain (s : State) (core e : Nat) : State :=
  match streamRun s core e with
  | none => s
  | some (r, id, c, x) =>
    if !x.drain then s else
    let who := copyWho s id c
    match streamTeam s c with
    | none => endRecord s core e id c who none
    | some (wid, t) => match tabGet t.rings x.ring with
      | none => endRecord s core e id c who none
      | some g =>
        if r.stop || g.slot g.head != .filled then yieldStream s core e r
        else
          let n := min g.slotSize (x.total - c.done)
          let parts := plainParts x (n + 1) c.done n
          match engineProbe s core c.ctx who parts true 18 with
          | .wait needs => engineWait s core c.ctx c.node who needs
          | _ =>
            match drainParts s c who parts (ringBytes t (slotKey x.ring g g.head) n) with
            | (s, some (.cause k)) => endRecord s core e id c who (some { cause := k })
            | (s, some _) => s
            | (s, none) =>
              let s := s.modTeam wid fun t => t.modRing x.ring Ring.release
              let c := { c with done := c.done + n }
              if x.total ≤ c.done then endRecord s core e id c who none else s.modCopy id fun _ => c

end Sys2Proof.Machine
end

