-- ==== Sys2Proof/Machine/Slots.lean ====
section
/-!
DEFINITION. Machine/Slots.lean: ring control (R162, R163), stash maps (R160, R161), FENCE (R159), PUBLISH (R164, R248) and the L2
way masks (R165).
-/
namespace Sys2Proof.Machine

/-! ## Rings -/

/-- The ring that a reference names (R163). -/
def refRing (v : DWord) : Nat := bitsOf v.toNat 2 0

/-- A pending cause of the ring that field a names is raised while a slot is not in the state the instruction waits for (R276). -/
def ringRaises (s : State) (a : BitVec 7) (ready : Issue → Team → Ring → Bool) (i : Issue) (t : Team) (p : PendCause) : Bool :=
  match sourceA i t (coreWord s i.core) a with
  | .ok v => p.kind == .copy && p.object == refRing v + 1 && ((tabGet t.rings (refRing v)).any fun r => !ready i t r)
  | .error _ => false

/-- The ring of a reference: 0x08A when it is undeclared, 0x08C when an engine owns the side (R163). -/
def ringFor (t : Team) (v : DWord) (side : Ring → Option Nat) : Act Ring :=
  match tabGet t.rings (refRing v) with
  | none => raise 0x08A
  | some r => do
    raiseIf (side r).isSome 0x08C
    .ok r

/-- RING.CLAIM (R162, R163). -/
def execRingClaim (d : BitVec 6) (a : BitVec 7) (s : State) : Host.Outcome State Fault Refusal :=
  issue (.ringClaim d a) (ringRaises s a fun _ _ r => r.slot r.tail == .free) s fun i t s => do
    let v ← sourceA i t (coreWord s i.core) a
    let _ ← t.a.win.reg 256 d.toNat
    let r ← ringFor t v (·.prod)
    waitWhile (r.slot r.tail != .free) (.other (refRing v))
    let t ← writeS (t.modRing (refRing v) Ring.claim) d.toNat (BitVec.ofNat 64 r.tail)
    .ok (s.setTeam i.wid t)

/-- RING.SIG (R162, R163). -/
def execRingSig (a b : BitVec 7) (s : State) : Host.Outcome State Fault Refusal :=
  issue (.ringSig a b) plain s fun i t s => do
    let v ← sourceA i t (coreWord s i.core) a
    let n ← sourceA i t (coreWord s i.core) b
    let r ← ringFor t v (·.prod)
    let k := bitsOf v.toNat 31 16
    raiseIf (r.slot k != .claimed) 0x08B
    raiseIf (decide (r.pend k < n.toNat)) 0x08D
    .ok (s.setTeam i.wid (lowerPending t (refRing v) k n.toNat))

/-- The slot that a WAIT for number `n` names (Table 7-7). -/
def waitSlot (r : Ring) (n : Nat) : Nat := (r.head + n) % r.count

/-- The slot of a WAIT is FILLED, its number read from field b. -/
def waitReady (s : State) (b : BitVec 7) (i : Issue) (t : Team) (r : Ring) : Bool :=
  match sourceA i t (coreWord s i.core) b with
  | .ok n => r.slot (waitSlot r n.toNat) == .filled
  | .error _ => true

/-- RING.WAIT (R163, R276). -/
def execRingWait (d : BitVec 6) (a b : BitVec 7) (s : State) : Host.Outcome State Fault Refusal :=
  issue (.ringWait d a b) (ringRaises s a (waitReady s b)) s fun i t s => do
    let v ← sourceA i t (coreWord s i.core) a
    let n ← sourceA i t (coreWord s i.core) b
    let _ ← t.a.win.reg 256 d.toNat
    let r ← ringFor t v (·.cons)
    raiseIf (decide (r.count ≤ n.toNat)) 0x009
    waitWhile (r.slot (waitSlot r n.toNat) != .filled) (.other (refRing v))
    let t ← writeS t d.toNat (BitVec.ofNat 64 (waitSlot r n.toNat))
    .ok (s.setTeam i.wid t)

/-- RING.FREE (R163): with b = 76 or 77 it pops the oldest entry of q4 or q5. -/
def execRingFree (a b : BitVec 7) (s : State) : Host.Outcome State Fault Refusal :=
  issue (.ringFree a b) plain s fun i t s => do
    let v ← sourceA i t (coreWord s i.core) a
    let t ← if b = 96 then .ok t else do
      queueCause t (indexQueue b) true
      let _ ← headEtoA t (indexQueue b)
      .ok (dropEtoA t (indexQueue b))
    let r ← ringFor t v (·.cons)
    raiseIf (r.slot r.head != .filled) 0x08B
    .ok (s.setTeam i.wid (t.modRing (refRing v) Ring.release))

/-- How many slots of a ring are in a state. -/
def Ring.countOf (r : Ring) (x : SlotState) : Nat := ((List.range r.count).filter fun k => r.slot k == x).length

/-- RING.STAT (Table 7-7). -/
def execRingStat (d : BitVec 6) (a : BitVec 7) (s : State) : Host.Outcome State Fault Refusal :=
  issue (.ringStat d a) plain s fun i t s => do
    let v ← sourceA i t (coreWord s i.core) a
    match tabGet t.rings (refRing v) with
    | none => raise 0x08A
    | some r =>
      let x := r.countOf .free + r.countOf .filled * 2 ^ 16 + r.head * 2 ^ 32 + r.tail * 2 ^ 48
      let t ← writeS t d.toNat (BitVec.ofNat 64 x)
      .ok (s.setTeam i.wid t)

/-! ## Stash maps -/

/-- A range that STASH.MAP refuses with 0x090 (R160). -/
def stashBad (t : Team) (base len : Nat) : Bool :=
  let used := (t.stash.map fun p => p.2.len).sum
  base % 128 != 0 || len == 0 || len % 128 != 0 ||
  (t.stash.any fun p => decide (base < p.2.base + p.2.len) && decide (p.2.base < base + len)) ||
  decide (t.info.stashBytes < used + len)

/-- STASH.MAP (R160). -/
def execStashMap (d : BitVec 6) (a b : BitVec 7) (s : State) : Host.Outcome State Fault Refusal :=
  issue (.stashMap d a b) plain s fun i t s => do
    let base := (← sourceA i t (coreWord s i.core) a).toNat
    let len := (← sourceA i t (coreWord s i.core) b).toNat
    let _ ← t.a.win.reg 256 d.toNat
    raiseIf (stashBad t base len) 0x090
    match tabFree t.stash 4 with
    | none => raise 0x091
    | some n => do
      let at_ : TrapValue := { value := BitVec.ofNat 64 base }
      if 2 ^ 57 < base + len then raiseWith 0x084 at_
      match (probeRange s i.core t.info.ctx base len false 1).1 with
      | some c => raiseWith c at_
      | none =>
        let t ← writeS { t with stash := tabSet t.stash n { base := base, len := len } } d.toNat (BitVec.ofNat 64 n)
        .ok (s.setTeam i.wid t)

/-- The map that an operand names: cause 0x092 when it is not in place (R160). -/
def stashIndex (s : State) (i : Issue) (t : Team) (a : BitVec 7) : Act Nat := do
  let n := (← sourceA i t (coreWord s i.core) a).toNat
  raiseIf (tabGet t.stash n).isNone 0x092
  .ok n

/-- STASH.UNMAP (R160). -/
def execStashUnmap (a : BitVec 7) (s : State) : Host.Outcome State Fault Refusal :=
  issue (.stashUnmap a) plain s fun i t s => do
    let n ← stashIndex s i t a
    .ok (s.setTeam i.wid { t with stash := tabDel t.stash n })

/-- STASH.CLEAN (R160). -/
def execStashClean (a : BitVec 7) (s : State) : Host.Outcome State Fault Refusal :=
  issue (.stashClean a) plain s fun i t s => do
    let n ← stashIndex s i t a
    let clean := fun (m : StashMap) => { m with lines := m.lines.map fun l => (l.1, false) }
    .ok (s.setTeam i.wid { t with stash := tabMod t.stash n clean })

/-! ## FENCE -/

/-- A COLL flit of a fragment is still to be performed at this device (R159). -/
def collFlying (s : State) (t : Team) (frag : Nat) : Bool :=
  s.fab.colls.any fun p => p.2.owner == t.seqNo && p.2.frag == frag && p.2.pending.any fun n => s.fab.flits.contains n

/-- FENCE (R159, R239, R252). Every earlier access of the stream has been performed, but for a fragment's COLL flits and, at system scope,
the writes that are to be acknowledged. -/
def execFence (sc : BitVec 3) (s : State) : Host.Outcome State Fault Refusal :=
  issue (.fence sc) plain s fun i t s => do
    if sc = 0 then .ok s
    else
      waitWhile (i.estr && collFlying s t i.frag) (.other 0)
      awaitAcks t sc.toNat
      let s := advanceGen s i.wid
      let s := if i.estr then s else s.modTeam i.wid (fenceTable i.wid)
      .ok (if sc = 5 then s.modTeam i.wid cleanStash else s)

/-! ## PUBLISH -/

/-- An engine write into a range is still to come from a copy or stream record that writes to the shadow (R164). -/
def writesShadow (d : Double) (c : Copy) : Bool :=
  let inside := fun (a : Nat) => decide (d.obase ≤ a) && decide (a < d.obase + d.len)
  c.shadow && match c.srec with
    | none => inside c.dst
    | some r => r.drain && (List.range (r.count / r.exts.getD 0 1)).any fun k => inside (offsetAddr r.base (r.row k))

/-- The runs of translation registers that lie in an object lose their LIMIT (R246). -/
def cutRuns (ctx base len : Nat) (t : Team) : Team :=
  let cut := fun (p : Nat × TReg) =>
    if decide (base ≤ p.2.vbase.toNat) && decide (p.2.vbase.toNat < base + len) then (p.1, { p.2 with limit := 0 }) else p
  if t.info.ctx = ctx then t.modA fun a => { a with t := a.t.map cut } else t

/-- The flip of an object (R248): the count in the table, and the runs cut. -/
def flipObject (s : State) (ctx : Nat) (d : Double) : State :=
  let s := apexWrite s (ctxDouble s ctx + 32 * d.index + 12) (natLe 4 ((d.flips + 1) % 2 ^ 32))
  { s with teams := s.teams.map fun p => (p.1, cutRuns ctx d.obase d.len p.2) }

/-- The publication word of an object after its flip: a release store of the team (R245, R248). -/
def writePublication (s : State) (wid : Nat) (t : Team) (d : Double) : State :=
  let pa := d.base true + 8 * d.word
  let k : TagWrite := if tagsOn s t doubleAttr then .release wid else .clear
  recordRelease (physWrite s (teamAccess t wid) pa (natLe 8 ((d.flips + 1) % 2 ^ 32)) doubleAttr 0 k) pa wid

/-- PUBLISH (R164, R248). -/
def execPublish (d : BitVec 6) (a : BitVec 7) (s : State) : Host.Outcome State Fault Refusal :=
  issue (.publish d a) plain s fun i t s => do
    let va := (← sourceA i t (coreWord s i.core) a).toNat
    let _ ← t.a.win.reg 256 d.toNat
    match (doubles s t.info.ctx).find? fun x => x.obase = va with
    | none => raise 0x094
    | some x =>
      waitWhile (s.eng.copies.any fun p => p.2.owner == some t.seqNo && writesShadow x p.2) (.other va)
      awaitAcks t 5
      let t ← writeS t d.toNat (BitVec.ofNat 64 ((x.flips + 1) % 2 ^ 32))
      let s := (advanceGen (s.setTeam i.wid t) i.wid).modTeam i.wid cleanStash
      .ok (writePublication (flipObject s t.info.ctx x) i.wid t x)

/-! ## L2 way masks -/

/-- A slice lies in the L2 partition of a region (R165, R225). -/
def inPartition (s : State) (node slice : Nat) : Bool :=
  let n := s.dev.l2Parts
  n ≤ 1 || slice / 32 / (4 / n) == (s.region node).l2part

/-- Lines of a slice that are counted for a region (R165). -/
def occupancy (s : State) (node slice : Nat) : Nat :=
  if !inPartition s node slice then 0 else
  ((s.dev.l2.filter fun p => p.1 / 1024 = slice).map fun p => (p.2.ways.filter fun w => w.2.node = some node).length).sum

/-- L2CTL.OCC (R165). -/
def execL2ctlOcc (d : BitVec 6) (a : BitVec 7) (s : State) : Host.Outcome State Fault Refusal :=
  issue (.l2ctlOcc d a) plain s fun i t s => do
    let n := (← sourceA i t (coreWord s i.core) a).toNat
    raiseIf (decide (127 < n)) 0x098
    let t ← writeS t d.toNat (BitVec.ofNat 64 (occupancy s t.info.node n))
    .ok (s.setTeam i.wid t)

/-- L2CTL.MASK (R165). -/
def execL2ctlMask (d : BitVec 6) (s : State) : Host.Outcome State Fault Refusal :=
  issue (.l2ctlMask d) plain s fun i t s => do
    let t ← writeS t d.toNat ((s.region t.info.node).fmask.zeroExtend 64)
    .ok (s.setTeam i.wid t)

/-- L2CTL.SETMASK (R165). -/
def execL2ctlSetmask (d : BitVec 6) (a : BitVec 7) (s : State) : Host.Outcome State Fault Refusal :=
  issue (.l2ctlSetmask d a) plain s fun i t s => do
    let v ← sourceA i t (coreWord s i.core) a
    let r := s.region t.info.node
    raiseIf r.masklock 0x09A
    let m := v.extractLsb' 0 16 &&& r.fmaskCeil
    raiseIf (m == 0) 0x099
    let t ← writeS t d.toNat (m.zeroExtend 64)
    .ok ((s.setRegion t.info.node { r with fmask := m }).setTeam i.wid t)

end Sys2Proof.Machine
end

