-- ==== Sys2Proof/Machine/TeamLife.lean ====
section
/-!
DEFINITION. Machine/TeamLife.lean: what engines take from their leaves (R318), the admission and retirement of teams (R191 to R193, R216,
R217, R323, R379), the limits of regions (R208, R354) and coalescer messages (R353).
-/
namespace Sys2Proof.Machine

/-! ## Leaves -/

/-- Perform a host transfer (R454), a part of at most 4 KiB, and tell whether it has ended. One that cannot translate is reported, and
ends. -/
def hostTransfer (s : State) (x : HostXfer) : State × Bool :=
  let who := packetWho x.key
  match fwProbe s (some x.ctx) who [(x.va, x.len)] x.toDevice with
  | .wait needs => (fwWait s (some x.ctx) x.node who needs, false)
  | .cause k => match s.packet? x.key with
    | some p => (packetPart (commandRecord s p k 0 []) x.key, true)
    | none => (s, true)
  | .ready =>
    let host := 2 ^ 51 + x.host
    let s :=
      if x.toDevice then fwWrite s (some x.ctx) x.va (memBytes s.mem host x.len)
      else fwWrite (fwTouch s (some x.ctx) x.va x.len) none host (fwBytes s (some x.ctx) x.va x.len)
    (packetPart s x.key, true)

/-- An L2 mode switch is under way: no engine starts work (R391). -/
def switching (s : State) : Bool := s.dev.l2Next.isSome

/-- After an engine has taken its item, a push that the pop let in becomes visible to it (R321, R322). -/
def afterPop (s : State) (id : Nat) (l : PifoLeaf) : State :=
  match l.waiting with
  | w :: _ => if l.items.length ≤ leafCap id then comparePush s id w else s
  | [] => s

/-- The engine of a copy-engine or fabric leaf is idle and takes its head. -/
def popEngine (s : State) (id : Nat) (x : LeafItem) : State :=
  if (tabGet s.eng.running id).isSome then s
  else
    let l := s.leaf id
    let s := takeItem s id x
    afterPop { s with eng := { s.eng with running := tabSet s.eng.running id { item := x } } } id l

/-- The stream engine that a record names is idle and takes it. -/
def popStream (s : State) (id : Nat) (x : LeafItem) (copy : Nat) : State :=
  let core := id % 4096
  match tabGet s.eng.copies copy with
  | none => takeItem s id x
  | some c =>
    if (tabGet (s.core core).streams c.engine).isSome then s
    else
      let l := s.leaf id
      let s := takeItem s id x
      let k := s.core core
      afterPop (s.setCore core { k with streams := tabSet k.streams c.engine { item := x } }) id l

/-- An item of a copy or stream record whose team is saved does not run (R378). -/
def mayRun (s : State) (x : LeafItem) : Bool :=
  match x.work with
  | .seg id _ => !((tabGet s.eng.copies id).any (·.stopped))
  | .stream id => !((tabGet s.eng.copies id).any (·.stopped))
  | _ => true

/-- LEAF_POP (R318, R319): the engine of a copy-engine, stream, fabric or host leaf takes its head, passing over the work of saved teams.
A host transfer runs to its end. -/
def leafPop (s : State) (id : Nat) : State :=
  let l := s.leaf id
  match leafHead s.now { l with items := l.items.filter (mayRun s) } with
  | none => s
  | some x =>
    match id / 4096, x.work with
    | 3, .stream c => if switching s then s else popStream s id x c
    | 4, .seg .. => if switching s then s else popEngine s id x
    | 4, .op .. => if switching s then s else popEngine s id x
    | 5, .op .. => popEngine s id x
    | 6, .host h =>
      let (s, ended) := hostTransfer s h
      if ended then takeItem s id x else s
    | _, _ => s

/-! ## Admission -/

/-- The energy weight of a class (R192). -/
def energyWeight (c : Nat) : Nat :=
  match c with | 0 => 1 | 1 => 2 | 2 => 3 | 3 => 4 | 4 => 6 | 5 => 8 | 6 => 12 | _ => 16

/-- The island of a core (Table 27-5). -/
def islandOf (core : Nat) : Nat := 3 * facetOf core + (if clusterOf core % 8 < 4 then 0 else 1)

/-- A power island (unlisted: as after reset). -/
def State.island (s : State) (n : Nat) : Island := tabGetD {} s.host.islands n

/-- The first run of `n` free granules of team space, given those in use (R216). -/
def fitRun (used : List (Nat × Nat)) (lo hi n : Nat) : Option Nat :=
  let clear := fun (a : Nat) => used.all fun u => decide (a + n ≤ u.1) || decide (u.1 + u.2 ≤ a)
  if n = 0 then some lo else ((List.range (hi - lo)).map (lo + ·)).find? fun a => decide (a + n ≤ hi) && clear a

/-- Place the parts of a launch, each in one run (R216). -/
def placeParts (lo hi : Nat) : List (Nat × Nat) → List Nat → Option (List (Nat × Nat))
  | _, [] => some []
  | used, n :: ns =>
    match fitRun used lo hi n with
    | none => none
    | some a => (placeParts lo hi ((a, n) :: used) ns).map ((a, n) :: ·)

/-- Granules of the parts of a launch (R216): scratch, queues, stash, rings. -/
def Launch.parts (l : Launch) : List Nat :=
  let up := fun (n : Nat) => (n + 4095) / 4096
  [up l.info.scratchBytes, up l.caps.sum, up l.info.stashBytes, up (l.rings.map fun p => p.2.slotSize * p.2.count).sum]

/-- What a launch asks of a core: what it fixes, its granules, its fragments and the accumulator tiles it must find free (R191, R379). -/
structure Demand where
  info : TeamInfo
  parts : List Nat
  frags : Nat := 1
  tiles : List Nat := []

/-- The teams of a core, but for some. -/
def coreTeams (s : State) (core : Nat) (but : List Nat) : List (Nat × Team) :=
  s.teams.filter fun p => coreOf p.1 = core ∧ !but.contains p.1

/-- Where a demand would be placed: a slot and its granules; none when a condition of Table 9-1 fails with the teams `but` gone. -/
def admits (s : State) (core : Nat) (d : Demand) (but : List Nat) : Option (Nat × List (Nat × Nat)) :=
  let k := s.core core
  let ts := coreTeams s core but
  let r := s.region d.info.node
  let same := ts.filter fun p => p.2.info.kernel.khdr = d.info.kernel.khdr ∧ p.2.info.node = d.info.node
  let regs := fun (i : TeamInfo) => i.lanes * i.vphys
  let grans := fun (t : Team) => (t.info.granules.map (·.2)).sum
  let weights := (ts.map fun p => energyWeight p.2.info.kernel.energy).sum + energyWeight d.info.kernel.energy
  let tileFree := fun (n : Nat) => match (k.tile n).owner with | none => true | some w => but.contains w
  let ok :=
    decide (same.length + 1 ≤ r.qslot) && decide ((ts.map fun p => p.2.frags.length).sum + d.frags ≤ 64) &&
    decide ((ts.map fun p => regs p.2.info).sum + regs d.info ≤ 131072) &&
    decide ((same.map fun p => regs p.2.info).sum + regs d.info ≤ r.qvreg) &&
    decide (((same.map fun p => grans p.2).sum + d.parts.sum) * 4096 ≤ r.qcs) &&
    decide (d.info.amq ≤ 16 - k.ttiles) && (ts.isEmpty || decide (weights ≤ (s.island (islandOf core)).budget)) && d.tiles.all tileFree
  let slot := (List.range 16).find? fun n => ts.all fun p => p.1 ≠ core * 16 + n
  let place := placeParts (16 * k.l1Units) (256 - k.stage) (ts.flatMap (·.2.info.granules)) d.parts
  match ok, slot, place with
  | true, some n, some g => some (n, g)
  | _, _, _ => none

/-- What the head of a launch leaf asks. -/
def headDemand (s : State) (w : Work) : Option Demand :=
  match w with
  | .launch l => some { info := l.info, parts := l.parts }
  | .saved seq => (tabGet s.fw.saved seq).map fun x =>
      { info := x.team.info, parts := x.team.info.granules.map (·.2), frags := x.team.frags.length, tiles := x.tiles.map (·.1) }
  | _ => none

/-- The root function's frame sizes (R345): its entry of the call-target table, at offset 0 and at EOFF. -/
def rootSizes (k : Kernel) : Nat × Nat :=
  (((k.calls.find? fun e => e.off = 0 && !e.estr).map (·.fs)).getD 0, ((k.calls.find? fun e => e.off = k.eoff && e.estr).map (·.fv)).getD 0)

/-- A new team, with the state of Table 3-7. -/
def newTeam (l : Launch) (rank stamp gen now : Nat) (grans : List (Nat × Nat)) : Team :=
  let (fs, fv) := rootSizes l.info.kernel
  let fr := max fs 16
  let args := enum 0 l.info.args
  { info := { l.info with rank := rank, stamp := stamp, scratchGen := gen, granules := grans },
    a := { pc := BitVec.ofNat 64 l.info.kernel.code, win := { base := fr - 1, frames := [{ size := fr, caller := 0 }] }, sspill := l.sspill,
           s := args.foldl (fun m a => tabSetD 0 m (fr - 1 - a.1) a.2) [] },
    frags := [(0, { mask := firstLanes l.info.lanes, pc := BitVec.ofNat 64 (l.info.kernel.code + l.info.kernel.eoff),
                    win := { base := (fv + l.info.vphys - 1) % l.info.vphys, frames := [{ size := fv, caller := 0 }] } })],
    k := args.foldl (fun m a => tabSetD 0 m a.1 a.2) [],
    q := (enum 0 l.caps).map fun c => (c.1, { cap := c.2 }),
    rings := l.rings, lastIssue := now }

/-- TEAM_ADMISSION (R59, R191, R217): the launch at the head of a core's launch leaf becomes a team. -/
def teamAdmission (s : State) (core : Nat) : State :=
  match leafHead s.now (s.leaf (leafId 0 core)) with
  | none => s
  | some x =>
    match x.work, (headDemand s x.work).bind fun d => admits s core d [] with
    | .launch l, some (slot, grans) =>
      if switching s then s
      else
        let s := takeItem s (leafId 0 core) x
        let k := s.core core
        let gen := if l.info.scratchBytes = 0 then k.scratchGen else (k.scratchGen + 1) % 256
        (s.setCore core { k with scratchGen := gen }).setTeam (core * 16 + slot) (newTeam l x.rank x.stamp gen s.dev.time grans)
    | _, _ => s

/-! ## Retirement -/

/-- A team can retire: its streams have ended, or it is terminated (R193, R434). -/
def teamOver (t : Team) : Bool := t.terminated || (t.a.ended && t.eEnded)

/-- A team leaves the barriers that it has joined (R211). -/
def leaveTags (s : State) (seq : Nat) : State :=
  let leave := fun (p : Nat × RouteTag) =>
    let m := p.2.members.filter fun x => x.1 ≠ seq
    (p.1, if m.isEmpty then {} else { p.2 with members := m })
  { s with dev := { s.dev with routeTags := (s.dev.routeTags.map leave).filter fun p => p.2 ≠ {} } }

/-- What a team leaves in its core's Lattice: its tiles free (R184), its planes lost. -/
def leaveLattice (s : State) (core wid : Nat) : State :=
  let k := s.core core
  let k := (heldTiles k wid).foldl (fun k n => k.setTile n {}) k
  let l := k.lat
  s.setCore core { k with lat := { l with
    stationaryOf := if l.stationaryOf = some wid then none else l.stationaryOf,
    shadowOf := if l.shadowOf = some wid then none else l.shadowOf } }

/-- The solicits that a team has not consumed go with it (R302): an entry that is complete is freed, another once it completes. -/
def orphanCensus (s : State) (stamps : List Nat) : State :=
  stamps.foldl (fun s n =>
    match tabGet s.fab.census n with
    | none => s
    | some c =>
      if c.complete then { s with fab := { s.fab with census := tabDel s.fab.census n } }
      else s.modCensus n fun c => { c with orphan := true }) s

/-- The team's slot is free. -/
def State.dropTeam (s : State) (wid : Nat) : State := { s with teams := tabDel s.teams wid }

/-- TEAM_RETIREMENT (R193): it waits for the team's Lattice commands and acknowledgements. -/
def teamRetirement (s : State) (wid : Nat) : State :=
  match s.team? wid with
  | none => s
  | some t =>
    let core := coreOf wid
    let landing := (s.core core).lat.landing.any fun x => sameItem x.item (.team wid)
    if !teamOver t || latticeBusy t || landing || t.acks ≠ 0 then s
    else
      let s := endHeld s wid true
      let s := undoMoves s core t.moves
      let s := orphanCensus s t.solicits
      let s := leaveTags (leaveFilters s wid) t.seqNo
      let s := advanceGen (leaveLattice s core wid) wid
      let s := s.dropTeam wid
      match t.info.origin with
      | some k => packetPart s k
      | none => s

/-! ## Limits -/

/-- The fault-record body of a team that is stopped (Table 25-6). -/
def stoppedBody (t : Team) : List RecField :=
  [(24, 8, t.a.pc.toNat), (32, 8, t.trap.cause.toNat), (40, 8, t.trap.value.toNat)]

/-- TEAM_RESIDENCY_LIMIT (R354): a team that has been resident for TEAMLIM is stopped, and retires. -/
def residencyLimit (s : State) (wid : Nat) : State :=
  match s.team? wid with
  | none => s
  | some t =>
    let lim := (s.region t.info.node).teamLim
    if lim = 0 || t.terminated || decide (t.resident < lim * 65536) then s
    else
      let s := faultRecord s (loadedNode s t.info.node) 0x13A 0 (coreOf wid) (teamIdWord t wid) [stoppedBody t]
      s.setTeam wid { t with terminated := true, pend := [], trap := { t.trap with stream := none } }

/-- The wait kind and object of Table 25-6. -/
def waitFields (w : Wait) : Nat × Nat :=
  match w with
  | .queue q => (0, q) | .barrier t => (1, t) | .merge t => (2, t) | .amalloc => (3, 0) | .lattice n => (4, n) | .page a => (5, a)
  | .move e d => (6, e + d * 2 ^ 8) | .task => (6, 0) | .steal v => (6, v) | .cancel n => (6, n) | .other n => (6, n)

/-- The continuation for a waiting stream or fragment (Table 25-6). -/
def waitBody (pc : DWord) (n : Nat) (w : Option Wait) (bar hold : Option Nat) : List (List RecField) :=
  let body := fun (k o : Nat) => ([(24, 8, pc.toNat), (32, 1, n), (33, 1, k), (40, 8, o)] : List RecField)
  match bar, hold, w with
  | some t, _, _ => [body 1 t]
  | _, some c, _ => [body 6 c]
  | _, _, some w => [body (waitFields w).1 (waitFields w).2]
  | _, _, none => []

/-- REGION_WATCHDOG (R208): no instruction of a team has issued for the interval of its region; each stall is reported once. -/
def regionWatchdog (s : State) (wid : Nat) : State :=
  match s.team? wid with
  | none => s
  | some t =>
    if t.stalled || decide (s.dev.time < t.lastIssue + (s.region t.info.node).wdog * microsecond) then s
    else
      let own := if t.a.ended then [] else waitBody t.a.pc 0xFF t.a.wait t.a.bar none
      let frags := t.frags.flatMap fun p => waitBody p.2.pc p.1 p.2.wait p.2.bar p.2.hold
      let s := faultRecord s (loadedNode s t.info.node) 0x020 0 (coreOf wid) (teamIdWord t wid)
        ([(24, 2, t.frags.length), (26, 2, t.parked.length)] :: own ++ frags)
      s.setTeam wid { t with stalled := true }

/-- COALESCER_MESSAGE (R353): a domain's events leave as one message once its count, its oldest or its newest event allows. -/
def coalescerMessage (s : State) (dom : Nat) : State :=
  let c := tabGetD {} s.dev.coalescers dom
  let due := decide (memNat s.mem (dom + 44) 2 ≤ c.pending) ||
    decide (c.oldest + memNat s.mem (dom + 46) 1 * microsecond ≤ s.dev.time) || decide (c.newest + 2 * microsecond ≤ s.dev.time)
  if c.pending = 0 || !due then s else { s with dev := { s.dev with coalescers := tabDel s.dev.coalescers dom } }

end Sys2Proof.Machine
end

