-- ==== Sys2Proof/Machine/Frames.lean ====
section
/-!
DEFINITION. Machine/Frames.lean: the content of a save frame (R374, R375, Tables 19-1 to 19-3).
-/
namespace Sys2Proof.Machine

/-- The code of a reason (Table 19-2). -/
def SaveReason.code : SaveReason → Nat
  | .rank => 1
  | .gang => 2
  | .mode => 3
  | .deadlock => 4

/-- A link word: its offset in the code in words (R374). -/
def linkWord (t : Team) (f : Frame) : Nat := if f.trap then 0 else (f.link.toNat - t.info.kernel.code) / 4 % 2 ^ 32

/-- Bit `shift` + the number of each of some things. -/
def bitsAt (shift : Nat) (ns : List Nat) : Nat := ns.foldl (fun m n => m ||| 2 ^ (n + shift)) 0

/-- The barriers word (Table 19-2): tags joined, joined from the E-stream, arrived. -/
def barrierWord (s : State) (t : Team) : Nat :=
  let tags := s.dev.routeTags.filter fun p => p.2.members.any fun m => m.1 = t.seqNo
  bitsAt 0 (tags.map (·.1)) + bitsAt 8 ((tags.filter fun p => p.2.members.contains (t.seqNo, true)).map (·.1)) +
    bitsAt 16 ((tags.filter fun p => p.2.has t.seqNo).map (·.1))

/-- A translation register as Tables 3-2 and 10-6 lay it out. -/
def tregBits (r : TReg) : Nat :=
  let a := r.attr
  let b := fun (n : Nat) (x : Bool) => if x then 2 ^ n else 0
  r.vbase.toNat + r.pbase.toNat * 2 ^ 64 + r.limit.toNat * 2 ^ 128 + b 160 r.valid + b 161 a.resident + b 162 a.w + b 163 a.x + b 164 a.h +
    a.cls.toNat * 2 ^ 165 + b 167 a.nc + b 168 a.ste + a.steer.toNat * 2 ^ 169 + a.psize.toNat * 2 ^ 176

/-- The fragments and parked sets in the order of their records (Table 19-1): number (31 for a set that does not wait at a MERGE), what it
is, and its park number. -/
def recordedSets (t : Team) : List (Nat × Frag × Option Parked) :=
  (t.frags.map fun p => (p.1, p.2, none)) ++ t.parked.map fun p => (p.held.getD 31, p.frag, some p)

/-- The record of a fragment or parked set (Table 19-3). -/
def setRecord (x : Nat × Frag × Option Parked) : List Byte :=
  let f := x.2.1
  let b := fun (n : Nat) (y : Bool) => if y then 2 ^ n else 0
  let word := f.partn.toNat + x.1 * 8 + b 8 x.2.2.isSome + b 9 (x.2.2.any fun p => p.held.isSome) + b 10 f.bar.isSome +
    ((x.2.2.map (·.seq)).getD 0) % 2 ^ 32 * 2 ^ 16
  recordBytes 64 ([(0, 8, f.pc.toNat), (8, 8, windowWord f.win 10), (16, 8, word), (24, 1, f.tokens.length)] ++
    (enum 0 f.tokens).map fun e => (32 + 4 * e.1, 4, e.2.1.toNat + e.2.2.toNat * 2 ^ 16))

/-- The fixed part (Table 19-2). -/
def fixedPart (s : State) (wid frame : Nat) (t : Team) (reason : SaveReason) : List Byte :=
  let words := fun (at_ n : Nat) (xs : List Nat) => (enum 0 xs).map fun p => ((at_ + n * p.1, n, p.2) : RecField)
  let task := match t.task with | some h => 1 + h.cycles % 2 ^ 32 * 2 ^ 32 | none => 0
  let k := s.core (coreOf wid)
  let ringN := fun (r : Ring) (x : SlotState) => ((List.range r.count).filter fun n => r.slot n == x).length
  let rings := t.rings.flatMap fun p =>
    words (0x13A0 + 16 * p.1) 4 [p.2.head, p.2.tail, ringN p.2 .free, ringN p.2 .filled]
  let links := (enum 0 t.a.win.frames).map fun p => ((0xE00 + 4 * frameBase t.a.win 256 p.1, 4, linkWord t p.2) : RecField)
  let plane := fun (o : Nat) (p : Option PlaneEntry) => match p with
    | some e => words o 8 [e.mode.toNat, e.word.toNat]
    | none => []
  recordBytes 0x2000 (
    words 0 8 [1 + 2 * reason.code + frame * 2 ^ 8, teamIdWord t wid, t.info.kernel.khdr, t.a.pc.toNat + (if t.a.ended then 2 ^ 63 else 0),
      windowWord t.a.win 8, t.a.sspill.toNat, t.a.p.toNat / 2 * 2, t.fstat.toNat, (batchWord s t).toNat, amctlWord s wid t, t.acks,
      t.info.scratchGen + t.frags.length * 2 ^ 16 + t.parked.length * 2 ^ 32, t.arm.toNat + t.parkSeq % 2 ^ 16 * 2 ^ 32, t.latSeq,
      barrierWord s t, t.resident, task] ++
    words 0x88 4 ((t.task.map (·.words)).getD [] |>.map (·.toNat)) ++
    words 0xA8 8 [t.trap.cause.toNat, t.trap.pc.toNat, t.trap.value.toNat, t.trap.tvec.toNat] ++
    [(0x200, 320, leNat t.info.lrec)] ++ (t.a.s.map fun p => (0x400 + 8 * p.1, 8, p.2.toNat)) ++
    (t.a.t.map fun p => (0xC00 + 24 * p.1, 24, tregBits p.2)) ++ (t.k.map fun p => (0xD80 + 8 * p.1, 8, p.2.toNat)) ++ links ++
    ((enum 0 (t.lat.filter fun c => !c.started)).flatMap fun c =>
      words (0x1200 + 32 * c.1) 4 [c.2.word.toNat, c.2.seq] ++ words (0x1208 + 32 * c.1) 8 (c.2.vals.map (·.toNat))) ++
    plane 0x1300 t.planes.stationary ++ plane 0x1310 t.planes.shadow ++
    words 0x1320 4 ((List.range 16).map fun n => (k.tile n).progress) ++
    (t.stash.flatMap fun p => words (0x1360 + 16 * p.1) 8 [p.2.base, p.2.len]) ++ rings ++
    (t.q.map fun p => (0x1420 + 8 * p.1, 8, p.2.entries.length % 2 ^ 16)) ++
    (enum 0 t.pend).flatMap fun p => words (0x1460 + 16 * p.1) 8 [p.2.cause, p.2.value.value.toNat])

/-- How many entries of a queue a lane has popped, or written (R375). -/
def queuePlaceOf (q lane : Nat) (x : Queue) : Nat :=
  (x.entries.filter fun e => if q < 4 ∨ q = 6 then !e.pend.getLsbD lane else e.written.getLsbD lane).length

/-- The side bits of a queue's entries (R375). -/
def sideBits (lanes q : Nat) (x : Queue) : List Byte :=
  x.entries.flatMap fun e =>
    if q = 6 then [BitVec.ofNat 8 (if e.resid.getLsbD 0 then 1 else 0)]
    else natLe (lanes / 4) ((List.range lanes).foldl (fun m l =>
      m + ((if e.resid.getLsbD l then 1 else 0) + (if e.void.getLsbD l then 2 else 0)) * 4 ^ l) 0)

/-- The image of a queue: its entries, oldest first. -/
def queueImage (lanes q : Nat) (x : Queue) : List Byte :=
  x.entries.flatMap fun e =>
    if q = 6 then natLe 8 (tabGetD 0 e.vals 0).toNat
    else (List.range (32 * ((lanes + 31) / 32))).flatMap fun l => natLe 4 (tabGetD 0 e.vals l).toNat

/-- The core-store image (Table 19-1): each part with its offset, in granules of 4 KiB. -/
def storeImage (t : Team) : List (Nat × List Byte) :=
  let up := fun (n : Nat) => (n + 4095) / 4096 * 4096
  let scratch := (List.range t.info.scratchBytes).map fun k => tabGetD 0 t.scratch k
  let queues := t.q.map fun p => (p.2.cap, queueImage t.info.lanes p.1 p.2)
  let rings := t.rings.map fun p =>
    (p.2.slotSize * p.2.count, (List.range (p.2.slotSize * p.2.count)).map fun k => tabGetD 0 t.ringMem (p.1 * 2 ^ 20 + k))
  let place := fun (acc : Nat × List (Nat × List Byte)) (x : Nat × List Byte) => (acc.1 + up x.1, acc.2 ++ [(acc.1, x.2)])
  (((t.info.scratchBytes, scratch) :: queues ++ rings).foldl place (0x1A0000, [])).2

/-- The vector links of a fragment (Table 19-1). -/
def vectorLinks (t : Team) (f : Frag) : List (Nat × List Byte) :=
  (maskLanes t.info.lanes f.mask).flatMap fun l => (enum 0 f.win.frames).map fun p =>
    (0x120000 + 4 * (l * t.info.vphys + frameBase f.win t.info.vphys p.1), natLe 4 (linkWord t p.2))

/-- The sections of a frame but for its first word (Table 19-1): offsets and bytes. -/
def frameSections (s : State) (wid frame : Nat) (t : Team) (reason : SaveReason) : List (Nat × List Byte) :=
  let lanes := List.range t.info.lanes
  let sets := recordedSets t
  let owner := fun (l : Nat) => match sets.findIdx? fun x => x.2.1.mask.getLsbD l with | some n => n | none => 2 ^ 15
  let flags := fun (l : Nat) => (List.range 8).foldl (fun m f => if f ≠ 0 ∧ (readF t f).getLsbD l then m + 2 ^ f else m) 0
  let word := fun (q l : Nat) (x : Queue) => if t.live.getLsbD l then queuePlaceOf q l x else 0xFFFFFFFF
  let k := s.core (coreOf wid)
  let copies := s.eng.copies.filter fun p => p.2.owner = some t.seqNo
  let v := fun (l : Nat) => (List.range t.info.vphys).flatMap fun p => natLe 4 (tabGetD 0 t.v (vKey l p)).toNat
  [(8, (fixedPart s wid frame t reason).drop 8), (0x2000, lanes.flatMap fun l => natLe 2 (owner l)),
    (0x2800, lanes.map fun l => BitVec.ofNat 8 (flags l)), (0x3000, lanes.flatMap fun l => natLe 4 (tabGetD 0 t.vtop l)),
    (0x4000, lanes.flatMap fun l => natLe 8 (rngState t l).toNat)] ++
  (t.q.map fun p => (0x6000 + 0x1000 * p.1, lanes.flatMap fun l => natLe 4 (word p.1 l p.2))) ++
  (copies.map fun p => (0xE000 + 32 * p.2.entry, recordBytes 32 (progressFields 0 p.2))) ++
  (t.rings.flatMap fun p => p.2.pending.map fun x => (0x10000 + 0x4000 * p.1 + 4 * x.1, natLe 4 x.2)) ++
  ((enum 0 sets).map fun x => (0x30000 + 64 * x.1, setRecord x.2)) ++ [(0x50000, t.q.flatMap fun p => sideBits t.info.lanes p.1 p.2)] ++
  ((heldTiles k wid).map fun n => (0x60000 + 0x4000 * n, tileBytes (k.tile n))) ++
  (lanes.map fun l => (0xA0000 + 4 * l * t.info.vphys, v l)) ++ (sets.flatMap fun x => vectorLinks t x.2.1) ++ storeImage t

/-- Write a team's frame, its first word with VALID last (R373 step 6). -/
def writeFrame (s : State) (wid frame : Nat) (t : Team) (reason : SaveReason) : State :=
  let a := frameAddr s (coreOf wid) frame
  let s := (frameSections s wid frame t reason).foldl (fun s x => apexWriteAll (x.2.length / 64 + 2) s (a + x.1) x.2) s
  apexWrite s a (natLe 8 (1 + 2 * reason.code + frame * 2 ^ 8))

end Sys2Proof.Machine
end

