-- ==== Sys2Proof/Machine/Saves.lean ====
section
/-!
DEFINITION. Machine/Saves.lean: saving and resuming teams (R323, R371 to R381), AM deadlock (R383), shootdowns (R386 to R388) and the L2
mode switch (R391).
-/
namespace Sys2Proof.Machine

/-! ## Saving -/

/-- The save frames of a core that hold no team (R371). -/
def freeFrames (s : State) (core : Nat) : List Nat :=
  (List.range (frameCount s core)).filter fun n => !(s.fw.saved.any fun p => p.2.core == core && p.2.frame == n)

/-- What a team has issued has completed, so that its save can proceed (R373 steps 1 to 3): its gathers, COLLs that return values and
running Lattice commands, but for an MTILE, which stops at a K-step boundary; and its stream records stand at a slot boundary. -/
def saveReady (s : State) (wid : Nat) (t : Team) : Bool :=
  let l := (s.core (coreOf wid)).lat
  t.gather.isEmpty && !(t.frags.any fun p => p.2.hold.isSome) && !(l.landing.any fun x => sameItem x.item (.team wid)) &&
  (match t.lat with | { op := .mtile .., .. } :: _ => true | { started := b, .. } :: _ => !b | [] => true) &&
  !(s.eng.copies.any fun p => p.2.owner == some t.seqNo && p.2.claimed)

/-- The owner's copies and stream records leave their engines for their leaves, and do not run (R265, R277, R378). -/
def stopCopies (s : State) (core seq : Nat) : State :=
  let mine := fun (x : LeafItem) => match x.work with
    | .seg id _ => (tabGet s.eng.copies id).any fun c => c.owner == some seq
    | .stream id => (tabGet s.eng.copies id).any fun c => c.owner == some seq
    | _ => false
  let running := s.eng.running.filter fun p => mine p.2.item
  let s := running.foldl (fun s p => reenterLeaf (stopEngine s p.1) p.1 p.2.item) s
  let streams := (s.core core).streams.filter fun p => mine p.2.item
  let s := streams.foldl (fun s p => reenterLeaf (stopStream s core p.1) (leafId 3 core) p.2.item) s
  { s with eng := { s.eng with copies := s.eng.copies.map fun p => (p.1, if p.2.owner = some seq then { p.2 with stopped := true } else p.2) } }

/-- The Lattice lets go of a team: an MTILE that has stopped starts again from its progress counter (R188). -/
def releaseItem (s : State) (core wid : Nat) : State :=
  let l := (s.core core).lat
  let mine := sameItem (.team wid)
  s.setLat core { l with run := if l.run.any mine then none else l.run, boundary := if l.run.any mine then false else l.boundary,
                         buf := if l.run.any mine then [] else l.buf, held := l.held.filter fun x => !mine x }

/-- Save a team into a frame (R373): its frame is written, everything it holds is freed, and its launch re-enters the launch leaf. -/
def saveTeam (s : State) (wid frame : Nat) (reason : SaveReason) : State :=
  match s.team? wid with
  | none => s
  | some t =>
    let core := coreOf wid
    let s := releaseItem (stopCopies (leaveFilters s wid) core t.seqNo) core wid
    let t := { t.rollback with
      lat := t.lat.map fun c => { c with started := false }, declined := [],
      stash := t.stash.map fun m => (m.1, { m.2 with lines := [] }) }
    let s := advanceGen (s.setTeam wid t) wid
    let s := writeFrame s wid frame t reason
    let k := s.core core
    let x : Saved := { core := core, frame := frame, reason := reason, team := { t with acq := [] },
                       tiles := (heldTiles k wid).map fun n => (n, k.tile n) }
    let s := (leaveLattice s core wid).dropTeam wid
    let s := { s with fw := { s.fw with saved := tabSet s.fw.saved t.seqNo x } }
    reenterLeaf s (leafId 0 core) { rank := t.info.rank, stamp := t.info.stamp, work := .saved t.seqNo }

/-- The resident teams that a rank pre-empts, worst rank first, equal ranks by descending slot (R323). -/
def yieldList (s : State) (core rank m : Nat) : List Nat :=
  let ts := (coreTeams s core []).filter fun p => rank + m ≤ p.2.info.rank ∧ !teamOver p.2
  let place := fun (acc : List (Nat × Team)) (p : Nat × Team) =>
    let before := acc.takeWhile fun q => decide (p.2.info.rank < q.2.info.rank)
    before ++ p :: acc.drop before.length
  (ts.foldl place []).map (·.1)

/-- The teams that the head of a launch leaf pre-empts (R322, R323, R372): the shortest leading run whose removal admits it. -/
def yieldRun (s : State) (core : Nat) : List Nat :=
  let id := leafId 0 core
  match leafHead s.now (s.leaf id) with
  | none => []
  | some x =>
    match headDemand s x.work with
    | none => []
    | some d =>
      let m := s.margin id
      if m = 0 || (admits s core d []).isSome then []
      else
        let ws := (yieldList s core x.rank m).take ((freeFrames s core).length - 1)
        match (List.range (ws.length + 1)).find? fun n => (admits s core d (ws.take n)).isSome with
        | some n => ws.take n
        | none => []

/-- Why a team is to be saved now (R323, R384, R391), if it is. -/
def saveReason (s : State) (wid : Nat) (t : Team) : Option SaveReason :=
  let core := coreOf wid
  let lower := fun (p : Nat × Team) => decide (p.1 < wid) && coreOf p.1 == core && p.2.info.node == t.info.node && !teamOver p.2
  if switching s then some .mode
  else if gangSaves s t.info.node then (if s.teams.any lower then none else some .gang)
  else if (yieldRun s core).contains wid then some .rank
  else none

/-- TEAM_SAVE (R323, R372, R373). -/
def teamSave (s : State) (wid : Nat) : State :=
  match s.team? wid with
  | none => s
  | some t =>
    if teamOver t || !saveReady s wid t then s
    else match saveReason s wid t, freeFrames s (coreOf wid) with
      | some r, n :: _ => saveTeam s wid n r
      | _, _ => s

/-- AM_DEADLOCK (R383): no accumulator tile of team space is free and every holder waits at AMALLOC; the worst of them is saved into any
free frame, or its AMALLOC raises 0x107. -/
def amDeadlock (s : State) (core : Nat) : State :=
  let k := s.core core
  let holders := (coreTeams s core []).filter fun p => !(heldTiles k p.1).isEmpty
  let full := (List.range (16 - k.ttiles)).all fun n => (k.tile n).owner.isSome
  if !full || holders.isEmpty || !(holders.all fun p => p.2.a.wait == some .amalloc) then s
  else
    let worst := holders.foldl (fun b p => match b with
      | none => some p
      | some q => if q.2.info.rank ≤ p.2.info.rank then some p else some q) none
    match worst, freeFrames s core with
    | some (wid, t), n :: _ => if saveReady s wid t then saveTeam s wid n .deadlock else s
    | some (wid, t), [] =>
      match issueOf { s with cur := some { wid := wid, stream := .a } } with
      | some (i, _) => settle s i t {} (raise 0x107)
      | none => s
    | none, _ => s

/-! ## Resuming -/

/-- The owner's copies and stream records may run again; a copy probes its remaining ranges (R380). -/
def startCopies (s : State) (seq : Nat) : State :=
  let go := fun (c : Copy) => if c.owner = some seq then { c with stopped := false, moved := c.kind ≠ 3 } else c
  { s with eng := { s.eng with copies := s.eng.copies.map fun p => (p.1, go p.2) } }

/-- A gang pause keeps the teams that it has saved from returning (R385). -/
def heldBack (s : State) (x : Saved) : Bool :=
  x.reason == .gang && s.fab.pauses.any fun p => !p.2.proposed && p.2.node == x.team.info.node

/-- The translation registers of a team lose their LIMIT when they satisfy a test (R105). -/
def cutLimits (f : TReg → Bool) (t : Team) : Team :=
  t.modA fun a => { a with t := a.t.map fun p => if p.2.valid && f p.2 then (p.1, { p.2 with limit := 0 }) else p }

/-- A saved team as it resumes in a slot (R379, R380): barriers released since let its streams go on. -/
def resumedTeam (x : Saved) (gen now : Nat) (grans : List (Nat × Nat)) : Team :=
  let t := x.released.foldl (fun (t : Team) tag => t.freeBar tag) x.team
  let t := if x.shot then cutLimits (fun _ => true) t else t
  { t with info := { t.info with scratchGen := gen, granules := grans }, acq := [], lastIssue := now, stalled := false }

/-- TEAM_RESUME (R379, R380): the saved team at the head of a core's launch leaf returns. -/
def teamResume (s : State) (core : Nat) : State :=
  match leafHead s.now (s.leaf (leafId 0 core)) with
  | none => s
  | some x =>
    match x.work, (headDemand s x.work).bind fun d => admits s core d [] with
    | .saved seq, some (slot, grans) =>
      match tabGet s.fw.saved seq with
      | none => s
      | some v =>
        if switching s || heldBack s v then s
        else
          let s := takeItem s (leafId 0 core) x
          let wid := core * 16 + slot
          let k := s.core core
          let scratch := v.team.info.scratchBytes ≠ 0
          let gen := if scratch then (k.scratchGen + 1) % 256 else k.scratchGen
          let k := v.tiles.foldl (fun k p => k.setTile p.1 { p.2 with owner := some wid }) { k with scratchGen := gen }
          let s := (s.setCore core k).setTeam wid (resumedTeam v gen s.dev.time grans)
          let s := { s with fw := { s.fw with saved := tabDel s.fw.saved seq } }
          let a := frameAddr s core v.frame
          startCopies (apexWrite s a (natLe 1 (memNat s.mem a 1 / 2 * 2))) seq
    | _, _ => s

/-! ## Shootdowns -/

/-- The shootdown covers bytes of a context. -/
def Shootdown.covers (d : Shootdown) (ctx a n : Nat) : Bool :=
  d.ctx == ctx && (d.all || (decide (a < d.base + d.count * 0x10000) && decide (d.base < a + n)))

/-- Virtual ranges of a stream record: its rows and, for other tensors than plain ones, its second array. -/
def streamTouches (d : Shootdown) (ctx : Nat) (r : StreamRec) : Bool :=
  let rows := (List.range (r.count / r.exts.getD 0 1)).any fun k => d.covers ctx (offsetAddr r.base (r.row k)) (max 1 r.rowBytes)
  if r.pack = 0 then rows else rows || d.covers ctx r.base r.total || d.covers ctx r.aux r.total

/-- A copy has a range on a covered page (R387). -/
def copyTouches (d : Shootdown) (c : Copy) : Bool :=
  match c.srec with
  | some r => streamTouches d c.ctx r
  | none => (!c.srcScratch && d.covers c.ctx (c.src + c.done) (c.len - c.done)) ||
      (c.dkind = 0 && d.covers c.ctx (c.dst + c.done) (c.len - c.done))

/-- The running copies and stream records that a shootdown covers are to stop: a copy with page-moved set, a record for its leaf (R266,
R387). -/
def stopCovered (s : State) (d : Shootdown) : State :=
  let hit := fun (id : Nat) => (tabGet s.eng.copies id).any fun c => copyTouches d c
  let mark := fun (p : Nat × Copy) => (p.1, if p.2.kind ≠ 3 ∧ copyTouches d p.2 then { p.2 with moved := true } else p.2)
  let stop := fun (p : Nat × EngineRun) => match p.2.item.work with
    | .stream id => (p.1, { p.2 with stop := p.2.stop || hit id })
    | _ => p
  { s with eng := { s.eng with copies := s.eng.copies.map mark },
           cores := s.cores.map fun c => (c.1, { c.2 with streams := c.2.streams.map stop }) }

/-- SDGO (R386). -/
def shootGo (s : State) : State :=
  let d := s.dev.shoot
  let bad := d.busy || (!d.all && (d.count == 0 || decide (2 ^ 57 < d.base + d.count * 0x10000)))
  if !s.host.bring.ready then s
  else if bad then { s with dev := { s.dev with shoot := { d with rejected := true } } }
  else stopCovered { s with dev := { s.dev with shoot := { d with busy := true, rejected := false } } } d

/-- Physical ranges of the covered pages, as the buffers and the tables give them. -/
def coveredFrames (s : State) (d : Shootdown) : List (Nat × Nat) :=
  let mine := fun (e : TlbEntry) => d.covers e.ctx e.leaf.vbase e.leaf.size
  let tlbs := (s.cores.flatMap fun c => c.2.tlb) ++ s.clusters.flatMap fun c => c.2.tlb.flatMap (·.2)
  let leaf := fun (k : Nat) => match walkCtx s d.ctx (d.base + k * 0x10000) with
    | .hit l _ => [(l.pbase, l.size)]
    | .absent l => [(l.pbase, l.size)]
    | _ => []
  ((tlbs.filter mine).map fun e => (e.leaf.pbase, e.leaf.size)) ++ (if d.all then [] else (List.range d.count).flatMap leaf)

/-- The pins that a shootdown dissolves (R226, R387): lines of covered pages, or every line that a region of the context has pinned. -/
def shootPins (s : State) (d : Shootdown) : State :=
  let ctxOf := fun (w : L2Way) => w.pinNode.any fun n => (s.region n).ctx == d.ctx
  if s.dev.l2.all fun p => p.2.ways.all fun w => w.2.cls ≠ 3 then s
  else
    let frames := coveredFrames s d
    dissolvePins s fun w => ctxOf w && (d.all || frames.any fun f => decide (f.1 < 128 * w.line + 128) && decide (128 * w.line < f.1 + f.2))

/-- A tile task releases the staged K steps that read a covered page, and those staged after them (R326, R387). -/
def releaseCovered (s : State) (core : Nat) (d : Shootdown) (t : TileTask) : TileTask :=
  match t.srcs with
  | none => if d.ctx = t.ctx then { t with staged := [] } else t
  | some (a, b) =>
    let rd := virtNat s core t.ctx
    let reads := fun (n : Nat) => (a.ranges true n rd ++ b.ranges false n rd).any fun r => d.covers t.ctx r.1 r.2
    { t with staged := t.staged.takeWhile fun o => !reads o.step }

/-- The tile tasks of a core release what a shootdown covers. -/
def shootStaged (s : State) (d : Shootdown) (core : Nat) : State :=
  let leaf := (s.leaf (leafId 1 core)).items.map (·.stamp)
  let l := (s.core core).lat
  let held := (l.held ++ l.run.toList).filterMap fun x => match x with | .task t => some t.stamp | .team _ => none
  (leaf ++ held).foldl (fun s n => modTileTask s core n (releaseCovered s core d)) s

/-- What a shootdown changes in a resident team: its translation registers and its stash lines (R387). -/
def shootTeam (d : Shootdown) (t : Team) : Team :=
  let stash := t.stash.map fun m => (m.1, { m.2 with lines := m.2.lines.filter fun x => !d.covers t.info.ctx (128 * x.1) 128 })
  { cutLimits (fun r => d.covers t.info.ctx r.vbase.toNat (max 1 r.limit.toNat)) t with stash := stash }

/-- SHOOTDOWN_COMPLETE (R387, R388): the effects of the shootdown under way, and then BUSY clears. -/
def shootDone (s : State) : State :=
  let d := s.dev.shoot
  if !d.busy then s
  else
    let s := shootPins s d
    let s := (s.cores.map (·.1)).foldl (fun s c => shootStaged s d c) s
    let keep := fun (e : TlbEntry) => !d.covers e.ctx e.leaf.vbase e.leaf.size
    let core := fun (c : Nat × Core) => (c.1, { c.2 with tlb := c.2.tlb.filter keep })
    let cluster := fun (c : Nat × Cluster) => (c.1, { c.2 with tlb := c.2.tlb.map fun x => (x.1, x.2.filter keep) })
    let team := fun (p : Nat × Team) => (p.1, if p.2.info.ctx = d.ctx then shootTeam d p.2 else p.2)
    let saved := fun (p : Nat × Saved) => (p.1, if p.2.team.info.ctx = d.ctx then { p.2 with shot := true } else p.2)
    { s with cores := s.cores.map core, clusters := s.clusters.map cluster, teams := s.teams.map team,
             fw := { s.fw with saved := s.fw.saved.map saved },
             dev := { s.dev with shoot := { d with busy := false, completed := (d.completed + 1) % 2 ^ 32 } } }

/-! ## The L2 mode switch -/

/-- The partitions that the L2 mode register gives (R391): one in shared mode. -/
def modeParts (v : Nat) : Nat := if v % 2 = 0 then 1 else if bitsOf v 1 1 = 0 then 2 else 4

/-- Every engine's work is to stop at its next boundary (R391). -/
def stopEngines (s : State) : State :=
  let stop := fun (p : Nat × EngineRun) => match p.2.item.work with
    | .op .. => p
    | _ => (p.1, { p.2 with stop := true })
  { s with eng := { s.eng with running := s.eng.running.map stop },
           cores := s.cores.map fun c => (c.1, { c.2 with streams := c.2.streams.map stop }) }

/-- L2_MODE_WRITE (R391): a write that changes MODE or PCNT starts a switch. -/
def modeWrite (s : State) (v : Nat) : State :=
  if !s.host.bring.ready || switching s || decide (v % 4 = s.dev.l2Mode) then s
  else stopEngines { s with dev := { s.dev with l2Next := some (v % 4) } }

/-- The cores and engines have come to rest for an L2 mode switch (R391). -/
def atRest (s : State) : Bool :=
  s.teams.isEmpty && s.eng.running.all (fun p => p.1 / 4096 ≠ 4) &&
  s.cores.all fun c => c.2.streams.isEmpty && c.2.lat.run.isNone && c.2.lat.landing.isEmpty

/-- L2_MODE_SWITCH_DONE (R391): the L2 is written back and empty, its pins lost, and the new mode in effect. -/
def modeDone (s : State) : State :=
  match s.dev.l2Next with
  | none => s
  | some v =>
    if !atRest s then s
    else
      let s := dissolvePins s fun _ => true
      { s with dev := { s.dev with l2 := [], l2Mode := v, l2Parts := modeParts v, l2Next := none } }

end Sys2Proof.Machine
end

