-- ==== Sys2Proof/Machine/Host.lean ====
section
/-!
DEFINITION. Machine/Host.lean: the host's side: the register aperture (R450, R451), reset and bring-up (R452, R453), command-queue
registers (R454), semaphores (R455), inbound accesses (R449), power islands and gating (R456, R457).
-/
namespace Sys2Proof.Machine

/-! ## Reset -/

/-- COLD_RESET (R453): every part of the device returns to its reset value. Host memory and the schedule are not the device's. -/
def coldReset (s : State) : State :=
  { State.reset with mem := s.mem.filter fun c => isHost c.1, agenda := s.agenda, tick := s.tick }

/-- WARM (R453): a reset that keeps the contents of HBM, with the sidebands of its sectors, the husk and HUSKVALID. -/
def warmReset (s : State) : State :=
  { State.reset with
    mem := s.mem, agenda := s.agenda, tick := s.tick,
    dev := { State.reset.dev with tags := s.dev.tags, bad := s.dev.bad },
    host := { State.reset.host with attest := { State.reset.host.attest with huskValid := s.host.attest.huskValid } } }

/-- The boot check ends at some time after a reset and sets FWOK or FWBAD (R447, R453). -/
def bootStep (s : State) : State :=
  let b := s.host.bring
  let ends := !b.fwOk && !b.fwBad && Config.bootEnds s.tick
  let ok := Config.bootAccepts s.tick
  { s with host := { s.host with bring := { b with fwOk := b.fwOk || (ends && ok), fwBad := b.fwBad || (ends && !ok) } } }

/-! ## Bring-up -/

/-- Bytes that a bring-up range occupies (R453): save frames (R371), task rings (R358), the husk (R446) and the device fault domain with
its rings (R338). -/
def bringRanges (s : State) : List (Nat × Nat) :=
  let dom := s.dev.devFdom
  let saves := (List.range 256).map fun c => (frameAddr s c 0, frameCount s c * 2 ^ 22)
  let tasks := (List.range 256).map fun c => (taskRing s c, 262208)
  let fd := [(dom, 64), (memNat s.mem dom 8, 64 * memNat s.mem (dom + 8) 4), (memNat s.mem (dom + 24) 8, 32 * memNat s.mem (dom + 32) 4)]
  (saves ++ tasks ++ [(s.host.bring.husk, 2 ^ 19)] ++ fd).filter fun r => r.2 ≠ 0

/-- Two of some ranges overlap. -/
def anyOverlap : List (Nat × Nat) → Bool
  | [] => false
  | r :: rs => (rs.any fun q => decide (r.1 < q.1 + q.2) && decide (q.1 < r.1 + r.2)) || anyOverlap rs

/-- A save word breaks Table 27-3. -/
def saveWordBad (w : Nat) : Bool := bitsOf w 21 7 != 0 || bitsOf w 63 52 != 0 || decide (64 < bitsOf w 6 0)

/-- A range lies outside HBM. -/
def outsideHbm (a n : Nat) : Bool := n != 0 && decide (0x8000000000 < a + n)

/-- The offset of the first row of Table 27-3 whose rule fails, if any. -/
def failingRow (s : State) : Option Nat :=
  let b := s.host.bring
  let dom := s.dev.devFdom
  let fixed := [(0x1000, s.dev.ctxBase % 0x40000 != 0), (0x1008, b.husk % 0x80000 != 0 || outsideHbm b.husk 0x80000),
    (0x1010, b.routes % 64 != 0), (0x1018, b.peers % 64 != 0),
    (0x1028, dom % 64 != 0 || outsideHbm dom 64 || fdomBad s dom || outsideHbm (memNat s.mem dom 8) (64 * memNat s.mem (dom + 8) 4) ||
      outsideHbm (memNat s.mem (dom + 24) 8) (32 * memNat s.mem (dom + 32) 4))]
  let saves := (List.range 256).map fun c =>
    (0x1800 + 8 * c, saveWordBad (tabGetD 0 b.saves c) || outsideHbm (frameAddr s c 0) (frameCount s c * 2 ^ 22))
  let tasks := (List.range 256).map fun c => (0x2000 + 8 * c, taskRing s c % 4096 != 0 || outsideHbm (taskRing s c) 262208)
  ((fixed ++ saves ++ tasks).find? (·.2)).map (·.1)

/-- The error code of a START, if it fails (R453). -/
def bringError (s : State) : Option Nat :=
  match failingRow s with
  | some o => some (o / 8)
  | none => if anyOverlap (bringRanges s) then some 0xFFFF else none

/-- The route table as START copies it (R410, R452). -/
def readRoutes (s : State) : Tab Nat :=
  (List.range 4096).foldl (fun t n => tabSetD 0 t n (memNat s.mem (s.host.bring.routes + 4 * n) 4)) []

/-- START (R453). The Jenile links have been trained. -/
def startDevice (s : State) : State :=
  let b := s.host.bring
  if b.ready || !b.fwOk || s.host.fatal then s
  else match bringError s with
    | some c => { s with host := { s.host with bring := { b with buErr := true, code := c } } }
    | none =>
      let ports := (List.range 16).map fun n => (n, ({ up := true } : Port))
      { s with host := { s.host with bring := { b with ready := true, buErr := false, code := 0 } },
               fab := { s.fab with routes := readRoutes s, ports := ports } }

/-! ## The register aperture -/

/-- Write a bring-up register (R452, Table 27-3). -/
def writeBringUp (s : State) (off v : Nat) : State :=
  let b := s.host.bring
  let put := fun (b : BringUp) => { s with host := { s.host with bring := b } }
  if b.ready then s
  else if off = 0x1000 then { s with dev := { s.dev with ctxBase := v } }
  else if off = 0x1008 then put { b with husk := v }
  else if off = 0x1010 then put { b with routes := v }
  else if off = 0x1018 then put { b with peers := v }
  else if off = 0x1020 then { s with dev := { s.dev with devId := v % 4096 } }
  else if off = 0x1028 then { s with dev := { s.dev with devFdom := v } }
  else if 0x1800 ≤ off ∧ off < 0x2000 then put { b with saves := tabSetD 0 b.saves ((off - 0x1800) / 8) v }
  else if 0x2000 ≤ off ∧ off < 0x2800 then put { b with tasks := tabSetD 0 b.tasks ((off - 0x2000) / 8) v }
  else s

/-- Write a configure register of a command queue (R454, Table 27-4). -/
def writeQueueReg (s : State) (n off v : Nat) : State :=
  let q := s.queue n
  if s.host.bring.ready && !(q.halted && q.rptr == q.wptr) then s
  else if off = 0x18 then s.setCmdQueue n { q with base := v / 64 * 64 }
  else if off = 0x20 then s.setCmdQueue n { q with slots := bitsOf v 16 0, node := bitsOf v 41 32, producer := bitsOf v 49 48 }
  else if off = 0x28 then s.setCmdQueue n { q with peer := bitsOf v 11 0 }
  else s

/-- Write an operand register of the shootdown block (R386). -/
def writeShoot (s : State) (off v : Nat) : State :=
  let d := s.dev.shoot
  let put := fun (d : Shootdown) => { s with dev := { s.dev with shoot := d } }
  if d.busy || !s.host.bring.ready then s
  else if off = 0x00 then put { d with ctx := bitsOf v 11 0, all := bitsOf v 16 16 = 1 }
  else if off = 0x08 then put { d with base := bitsOf v 56 16 * 2 ^ 16 }
  else if off = 0x10 then put { d with count := bitsOf v 31 0 }
  else s

/-- Write NONCE or REPORT (R448, Table 27-2). -/
def writeAttest (s : State) (off v : Nat) : State :=
  let a := s.host.attest
  if !s.host.bring.ready then s
  else if off < 0x20 then { s with host := { s.host with attest := { a with nonce := tabSetD 0 a.nonce (off / 8) (BitVec.ofNat 64 v) } } }
  else if off = 0x20 then { s with host := { s.host with attest := { a with report := v } } }
  else s

/-- The core islands (Table 27-5). -/
def isCoreIsland (n : Nat) : Bool := decide (n < 12) && n % 3 != 2

/-- Write CAP or BUDGET of an island (Table 27-5). -/
def writeIsland (s : State) (n off v : Nat) : State :=
  let i := s.island n
  let put := fun (i : Island) => { s with host := { s.host with islands := tabSetD {} s.host.islands n i } }
  if off = 0x00 then put { i with cap := bitsOf v 15 0 }
  else if off = 0x18 ∧ isCoreIsland n ∧ 16 ≤ bitsOf v 7 0 then put { i with budget := bitsOf v 7 0 }
  else s

/-- REGISTER_WRITE (R450): a 64-bit register that has no row of its own; other offsets are ignored. After a fatal error only the
attestation block is accepted (R446). -/
def registerWrite (s : State) (off v : Nat) : State :=
  let v := v % 2 ^ 64
  if off % 8 ≠ 0 then s
  else if 0x32000 ≤ off ∧ off < 0x32028 then writeAttest s (off - 0x32000) v
  else if s.host.fatal then s
  else if 0x1000 ≤ off ∧ off < 0x2800 then writeBringUp s off v
  else if 0x10000 ≤ off ∧ off < 0x10800 then writeQueueReg s ((off - 0x10000) / 0x40) ((off - 0x10000) % 0x40) v
  else if 0x30000 ≤ off ∧ off < 0x30018 then writeShoot s (off - 0x30000) v
  else if 0x40000 ≤ off ∧ off < 0x40400 then writeIsland s ((off - 0x40000) / 0x40) ((off - 0x40000) % 0x40) v
  else s

/-- The nominal clock of an island in MHz (Table 1-2). -/
def nominalClock (n : Nat) : Nat := if isCoreIsland n then 1200 else if n = 12 ∨ n = 13 then 2000 else Config.islandNominal n

/-- The lowest clock of an island in MHz (R456). -/
def lowestClock (n : Nat) : Nat := if isCoreIsland n then 600 else if n = 12 ∨ n = 13 then 1000 else Config.islandLowest n

/-- A bit as a number. -/
def bitNat (b : Bool) (n : Nat) : Nat := if b then 2 ^ n else 0

/-- What a read of a register returns (R450, R451, Tables 27-2 to 27-5); an unlisted offset reads zero. The semaphores are read by
`semaphoreRead`. -/
def registerRead (s : State) (off : Nat) : Nat :=
  let b := s.host.bring
  let a := s.host.attest
  let d := s.dev.shoot
  if off % 8 ≠ 0 then 0
  else if off = 0 then bitNat b.ready 0 + bitNat b.fwOk 1 + bitNat b.fwBad 2 + bitNat b.buErr 3 + b.code * 2 ^ 16
  else if off = 0x1000 then s.dev.ctxBase
  else if off = 0x1008 then b.husk
  else if off = 0x1010 then b.routes
  else if off = 0x1018 then b.peers
  else if off = 0x1020 then s.dev.devId
  else if off = 0x1028 then s.dev.devFdom
  else if 0x1800 ≤ off ∧ off < 0x2000 then tabGetD 0 b.saves ((off - 0x1800) / 8)
  else if 0x2000 ≤ off ∧ off < 0x2800 then tabGetD 0 b.tasks ((off - 0x2000) / 8)
  else if 0x10000 ≤ off ∧ off < 0x10800 then
    let q := s.queue ((off - 0x10000) / 0x40)
    match (off - 0x10000) % 0x40 with
    | 0x00 => q.wptr.toNat
    | 0x08 => q.rptr.toNat
    | 0x10 => bitNat q.halted 0
    | 0x18 => q.base
    | 0x20 => q.slots + q.node * 2 ^ 32 + q.producer * 2 ^ 48
    | 0x28 => q.peer
    | _ => 0
  else if off = 0x30000 then d.ctx + bitNat d.all 16
  else if off = 0x30008 then d.base
  else if off = 0x30010 then d.count
  else if off = 0x30020 then bitNat d.busy 0 + bitNat d.rejected 1 + d.completed * 2 ^ 32
  else if off = 0x31000 then s.dev.l2Mode + bitNat s.dev.l2Next.isSome 8
  else if 0x32000 ≤ off ∧ off < 0x32020 then (tabGetD 0 a.nonce ((off - 0x32000) / 8)).toNat
  else if off = 0x32020 then a.report
  else if off = 0x32030 then bitNat a.busy 0 + bitNat a.done 1 + bitNat a.rejected 2 + bitNat a.huskValid 3 + bitNat a.huskErr 4
  else if off = 0x33000 then timeBase s
  else if 0x40000 ≤ off ∧ off < 0x40400 then
    let n := (off - 0x40000) / 0x40
    match (off - 0x40000) % 0x40 with
    | 0x00 => (s.island n).cap
    | 0x08 => nominalClock n - 100 * (s.island n).below
    | 0x10 => (s.island n).power
    | 0x18 => if isCoreIsland n then (s.island n).budget else 0
    | _ => 0
  else 0

/-! ## Command queues -/

/-- DOORBELL (R454): a write of WPTR by an agent: host port 0 or 1, or for 2 the peer device. Only the queue's producer is heard, and
only once the device is READY (R453). -/
def doorbell (s : State) (n v agent peer : Nat) : State :=
  let q := s.queue n
  if !s.host.bring.ready || s.host.fatal || decide (32 ≤ n) || q.producer != agent || (agent == 2 && q.peer != peer) then s
  else s.setCmdQueue n { q with wptr := BitVec.ofNat 32 v }

/-- RESTART (R454). -/
def restartQueue (s : State) (n : Nat) : State :=
  if s.host.fatal || decide (32 ≤ n) then s else s.setCmdQueue n { s.queue n with halted := false }

/-! ## Semaphores -/

/-- What a port reads from a semaphore with a holder (R455). -/
def semaphoreValue (holder : Option Nat) (port : Nat) : Nat := if holder = none ∨ holder = some port then 1 else 0

/-- SEMAPHORE_READ (R455): a read by port 0 or 1; 2 stands for reads by both in one Apex cycle, and its data are port 0's word and, 64
bits up, port 1's. -/
def semaphoreRead (s : State) (n who : Nat) : State :=
  if s.host.fatal || decide (64 ≤ n) then s
  else
    let held := tabGet s.host.semaphores n
    if who < 2 then
      let sems := if held = none then tabSet s.host.semaphores n who else s.host.semaphores
      { s with host := { s.host with semaphores := sems, readData := semaphoreValue held who } }
    else
      let win := 1 - s.host.lastTie
      let holder := held.getD win
      { s with host := { s.host with
          semaphores := if held = none then tabSet s.host.semaphores n win else s.host.semaphores,
          lastTie := if held = none then win else s.host.lastTie,
          readData := semaphoreValue (some holder) 0 + 2 ^ 64 * semaphoreValue (some holder) 1 } }

/-- SEMAPHORE_FREE (R453, R455): a write of 0 by the holder. -/
def semaphoreFree (s : State) (n port : Nat) : State :=
  if s.host.fatal || !s.host.bring.ready || tabGet s.host.semaphores n != some port then s
  else { s with host := { s.host with semaphores := tabDel s.host.semaphores n } }

/-- HOST_LINK_DOWN (R455). -/
def hostLinkDown (s : State) (port : Nat) : State :=
  { s with host := { s.host with semaphores := s.host.semaphores.filter fun p => p.2 ≠ port } }

/-! ## Inbound accesses -/

/-- Bytes that a host reads from HBM; those of an uncorrectable sector are free (R443). -/
def hostReadBytes (s : State) (pa n : Nat) : List Byte :=
  (List.range n).map fun k =>
    if s.dev.bad.contains ((pa + k) / 64) then Config.badByte s.tick (pa + k) else memGet s.mem (pa + k)

/-- A write of a whole sector repairs it (R443). -/
def healSectors (s : State) (pa n : Nat) : State :=
  { s with dev := { s.dev with bad := s.dev.bad.filter fun k => !(decide (pa ≤ 64 * k) && decide (64 * k + 64 ≤ pa + n)) } }

/-- HOST_INBOUND_ACCESS (R449): a write, or a read, of bytes of HBM through BAR2. It is not race-checked, and a write clears tag bits. -/
def hostAccess (s : State) (write : Bool) (pa n v : Nat) : State :=
  if s.host.fatal || decide (0x8000000000 < pa + n) then s
  else if write then
    healSectors ((partsOf 64 pa n).foldl (fun s p => apexWrite s p.1 ((natLe n v).drop (p.1 - pa) |>.take p.2)) s) pa n
  else
    let t := (partsOf 64 pa n).foldl (fun s p => physTouchRead s apexAccess p.1 {} 0 false) s
    { t with host := { t.host with readData := leNat (hostReadBytes s pa n) } }

/-! ## Power -/

/-- The cap of an island in W (Table 27-5). -/
def islandCap (s : State) (n : Nat) : Nat := if (s.island n).cap = 0 then Config.islandShare n else (s.island n).cap

/-- Replace an island. -/
def State.setIsland (s : State) (n : Nat) (i : Island) : State :=
  { s with host := { s.host with islands := tabSetD {} s.host.islands n i } }

/-- ISLAND_CLOCK_DOWN (R456): an island's power, as measured, exceeds its cap. -/
def islandDown (s : State) (n power : Nat) : State :=
  let i := { s.island n with power := power % 2 ^ 16 }
  if 16 ≤ n then s
  else if islandCap s n < power ∧ lowestClock n + 100 * (i.below + 1) ≤ nominalClock n then s.setIsland n { i with below := i.below + 1 }
  else s.setIsland n i

/-- ISLAND_CLOCK_UP (R456): an island's power, as measured, has stood below 95 % of its cap. -/
def islandUp (s : State) (n power : Nat) : State :=
  let i := { s.island n with power := power % 2 ^ 16 }
  if 16 ≤ n then s
  else if 100 * power < 95 * islandCap s n then s.setIsland n { i with below := i.below - 1 }
  else s.setIsland n i

/-- The clusters of a core island (Table 27-5). -/
def islandClusters (n : Nat) : List Nat := (List.range 4).map fun k => 8 * (n / 3) + 4 * (n % 3) + k

/-- A core has nothing to do (R457). -/
def coreIdle (s : State) (core : Nat) : Bool :=
  let k := s.core core
  let empty := fun (id : Nat) => let l := s.leaf id; l.items.isEmpty && l.waiting.isEmpty
  !(s.teams.any fun p => coreOf p.1 == core) && !(s.fw.saved.any fun p => p.2.core == core) &&
  ((List.range 4).all fun kind => empty (leafId kind core)) && k.streams.isEmpty && k.lat.run.isNone && k.lat.held.isEmpty &&
  k.lat.landing.isEmpty && k.lat.finishing.isEmpty

/-- CLUSTER_GATE (R457): a core island whose cores are idle. Counters, acorns, directories and handlers stay; buffers and L1 do not. -/
def clusterGate (s : State) (n : Nat) : State :=
  let ks := islandClusters n
  let cores := ks.flatMap fun k => (List.range 8).map (8 * k + ·)
  if !isCoreIsland n || !(cores.all (coreIdle s)) then s
  else
    let s := cores.foldl (fun s c => s.setCore c { s.core c with tlb := [], l1 := [], fills := [] }) s
    ks.foldl (fun s k => s.setCluster k { s.cluster k with tlb := [], gated := true }) s

/-- CLUSTER_UNGATE (R457). -/
def clusterUngate (s : State) (n : Nat) : State :=
  if isCoreIsland n then (islandClusters n).foldl (fun s k => s.setCluster k { s.cluster k with gated := false }) s else s

/-- A core's power is gated: its engines take no work. -/
def coreGated (s : State) (core : Nat) : Bool := (s.cluster (clusterOf core)).gated

end Sys2Proof.Machine
end

