-- ==== Sys2Proof/Machine/Reliab.lean ====
section
/-!
DEFINITION. Machine/Reliab.lean: the scrubber and error reports (R444, R445), the husk (R446), attestation (R448), and the landing of
fills and walks (R222, R230).
-/
namespace Sys2Proof.Machine

/-! ## Corrected and uncorrectable errors -/

/-- Places that count errors (R445): an L2 slice, a core, the Apex die. -/
def placeCore (core : Nat) : Nat := 128 + core
def placeApex : Nat := 1000

/-- The key of a structure's count at a place. -/
def errorKey (code place : Nat) : Nat := code * 1024 + place

/-- The body of a source-7 record (Table 26-3). -/
def errorBody (code flags syndrome count address : Nat) : List RecField :=
  [(24, 1, code), (25, 1, flags), (26, 2, syndrome), (28, 4, count), (32, 8, address)]

/-- A corrected error (R441, R445): it is counted, and recorded unless a record of the structure at the place is less than a millisecond
old. -/
def correctedError (s : State) (code place flags syndrome address : Nat) (node : Option Nat) : State :=
  let key := errorKey code place
  let n := min (tabGetD 0 s.host.errors key + 1) (2 ^ 32 - 1)
  let s := { s with host := { s.host with errors := tabSetD 0 s.host.errors key n } }
  let recent := match tabGet s.host.errorTimes key with
    | some t => decide (s.dev.time < t + 1000 * microsecond)
    | none => false
  if recent || !s.host.bring.ready then s
  else
    let s := { s with host := { s.host with errorTimes := tabSet s.host.errorTimes key s.dev.time } }
    faultRecord s node 0x0C4 7 0xFFF 0 [errorBody code flags syndrome n address]

/-- The scrubber clears the MASK of a sector whose writer has wrapped (R252). -/
def scrubTag (s : State) (sector : Nat) : State :=
  let t := tagAt s (64 * sector)
  if (genOf s t.wid.toNat).lap then { s with dev := { s.dev with tags := tabSetD {} s.dev.tags sector { t with mask := 0 } } } else s

/-- The scrubber completes a pass (R252): every sector of a wrapped writer has its MASK cleared, and LAP clears for the writers that have
not wrapped again since the pass began. -/
def scrubPass (s : State) : State :=
  let lap := fun (w : Nat) => (genOf s w).lap
  let tags := s.dev.tags.foldl (fun t p => if lap p.2.wid.toNat then tabSetD {} t p.1 { p.2 with mask := 0 } else t) s.dev.tags
  let gens := s.dev.gens.foldl (fun t p =>
    if s.dev.scrubWraps.contains p.1 then t else tabSetD {} t p.1 { p.2 with lap := false }) s.dev.gens
  { s with dev := { s.dev with tags := tags, gens := gens, scrubWraps := [] } }

/-- The body of a record of an uncorrectable entry that an access meets (Table 26-3). -/
def lostEntry (s : State) (code place index : Nat) (node : Option Nat) : State :=
  faultRecord s node 0x0C3 7 0xFFF 0 [errorBody code 1 0 (tabGetD 0 s.host.errors (errorKey code place)) index]

/-- An uncorrectable error in a team's registers, queues, tiles, scratch, rings or save frame (Table 26-2): the team is terminated (R434).
A saved team, named by its launch, is terminated where it lies. -/
def teamStorageLost (s : State) (wid launch : Nat) : State :=
  let word := fun (t : Team) => causeWord { wid := wid, stream := .a, pc := t.a.pc, trapPc := t.a.pc } 0x0C2 false {}
  match s.team? wid with
  | some t => terminate s wid t (word t) t.a.pc {}
  | none =>
    match tabGet s.fw.saved launch with
    | none => s
    | some x =>
      let team := { x.team with terminated := true, pend := [], trap := { x.team.trap with stream := none } }
      let s := { s with fw := { s.fw with saved := tabSet s.fw.saved launch { x with team := team } } }
      faultRecord s (some x.team.info.node) 0x023 0 x.core 0 [[(24, 8, x.team.a.pc.toNat), (32, 8, (word x.team).toNat), (40, 8, 0)]]

/-- An uncorrectable trigger counter (Table 26-2): it holds no value of the spec's afterwards (assumption 24); the region is that of the
work that met it. -/
def counterLost (s : State) (core n : Nat) (node : Option Nat) : State :=
  lostEntry (s.setCtr core n (Config.lostCounter s.tick)) 3 (placeCore core) n node

/-- An uncorrectable acorn (Table 26-2): its region is told, and the entry is freed. -/
def acornLost (s : State) (core n : Nat) : State :=
  match tabGet (s.core core).acorns n with
  | none => s
  | some x => lostEntry (s.freeAcorn core n) 3 (placeCore core) n (some x.node)

/-- An uncorrectable tile-directory entry (Table 26-2). -/
def dirLost (s : State) (core n : Nat) : State :=
  match tabGet (s.core core).dir n with
  | none => s
  | some e =>
    let k := s.core core
    lostEntry (s.setCore core { k with dir := tabDel k.dir n }) 3 (placeCore core) n (some e.node)

/-- An uncorrectable watch entry (Table 26-2): the WAIT that owned it is pending and uninstalled again, and is installed anew as an entry
is free (R352). -/
def watchLost (s : State) (key : Nat) : State :=
  match s.fw.watches.find? fun w => w.key = key ∧ w.installed with
  | none => s
  | some w =>
    let node := (tabGet s.fw.packets key).bind fun p => loadedNode s p.node
    let ws := s.fw.watches.filter (fun x => x.key ≠ key) ++ [{ w with installed := false }]
    lostEntry { s with fw := { s.fw with watches := settleWatches s.mem ws } } 5 (relSlice w.pa) key node

/-- What an access or a read finds in a structure other than an HBM sector (R441, R442): 4 a corrected error of a structure code at a
place, for a region (0 none, n + 1 region n); an uncorrectable 5 team's storage, 6 trigger counter, 7 acorn, 8 tile-directory entry, 9 watch
entry. `a` names the entry: the team's slot and launch, the core and index, or the packet of the WAIT. -/
def accessError (s : State) (a b found syndrome code place node : Nat) : State :=
  let region := if node = 0 then none else some (node - 1)
  if !s.host.bring.ready then s
  else if found = 4 then correctedError s code place 0 syndrome a region
  else if found = 5 then teamStorageLost s a b
  else if found = 6 then counterLost s a (b % 256) region
  else if found = 7 then acornLost s a b
  else if found = 8 then dirLost s a b
  else if found = 9 then watchLost s a
  else s

/-- SCRUB (R444): the scrubber reads and rewrites the sector of an address. What it finds: 0 nothing, 1 a corrected error, 2 an uncorrectable
sector; 3 stands for the end of its pass. -/
def scrub (s : State) (pa found syndrome : Nat) : State :=
  let sector := pa / 64
  let place := relSlice pa
  if found = 3 then scrubPass s
  else if !isHbm pa then s
  else
    let s := scrubTag s sector
    if found = 1 then correctedError s 6 place 2 syndrome (64 * sector) none
    else if found = 2 then
      let s := { s with dev := { s.dev with bad := if s.dev.bad.contains sector then s.dev.bad else sector :: s.dev.bad } }
      if !s.host.bring.ready then s
      else faultRecord s none 0x0C3 7 0xFFF 0 [errorBody 6 3 syndrome (tabGetD 0 s.host.errors (errorKey 6 place)) (64 * sector)]
    else s

/-! ## The husk -/

/-- The husk's header (Table 26-4). -/
def huskHeader (s : State) (index : Nat) : List Byte :=
  recordBytes 4096 [(0, 8, 0x4B535548394B), (8, 4, 1), (12, 4, 0x0C5), (16, 8, timeBase s), (24, 2, s.dev.devId),
    (32, 64, Config.firmwareMeasure), (96, 8, 7 + index * 2 ^ 8)]

/-- A core's part of the husk (Table 26-4). -/
def huskCore (s : State) (core : Nat) : List Byte :=
  let slot := fun (n : Nat) =>
    match s.team? (core * 16 + n) with
    | none => natLe 48 0
    | some t => natLe 8 (teamIdWord t (core * 16 + n)) ++ natLe 8 t.a.pc.toNat ++ natLe 8 t.trap.cause.toNat ++
        natLe 8 t.trap.pc.toNat ++ natLe 8 t.trap.value.toNat ++ natLe 8 1
  ((List.range 16).flatMap slot) ++ natLe 8 (freeFrames s core).length ++
    natLe 8 (s.fw.saved.filter fun p => p.2.core = core).length ++ natLe 240 0

/-- A node of the rank tree in the husk: the configuration of Table 16-2. -/
def huskNodeBytes (s : State) (n : Nat) : List Byte :=
  let r := s.region n
  natLe 64 (Config.huskNode ([(if r.calendarKind then 1 else 0), r.script, r.margin, r.depth] ++ r.words.map (·.toNat) ++
    [match r.parent with | some p => p | none => 2 ^ 15]))

/-- A command queue in the husk: pointers, indirect depth, halted flag. -/
def huskQueueBytes (s : State) (n : Nat) : List Byte :=
  let q := s.queue n
  natLe 64 (Config.huskQueue [q.rptr.toNat, q.wptr.toNat, q.levels.length, if q.halted then 1 else 0])

/-- The husk but for its signature (Table 26-4): bytes 0 to 0x5_57FF. -/
def huskBytes (s : State) (index : Nat) : List Byte :=
  let recs := s.host.lastFaults.flatMap fun r => r.take 64
  huskHeader s index ++ ((List.range 256).flatMap (huskCore s)) ++ ((List.range 1024).flatMap (huskNodeBytes s)) ++
    ((List.range 32).flatMap (huskQueueBytes s)) ++ recs ++ List.replicate (16384 - recs.length) 0

/-- FATAL_ERROR (R446): an uncorrectable entry of a code-7 structure. Parsing, pushes and issue stop; the husk is written, its signature
last, then HUSKVALID and the record. `failed` tells that the husk write itself fails. -/
def fatalError (s : State) (index : Nat) (failed : Bool) : State :=
  if s.host.fatal then s
  else
    let s := { s with host := { s.host with fatal := true } }
    let record := fun (s : State) =>
      if s.host.bring.ready then faultRecord s none 0x0C5 7 0xFFF 0 [errorBody 7 1 0 (tabGetD 0 s.host.errors (errorKey 7 placeApex)) index]
      else s
    if failed then record { s with host := { s.host with attest := { s.host.attest with huskErr := true } } }
    else
      let base := s.host.bring.husk
      let bytes := huskBytes s index
      let s := apexWriteAll 5600 s base bytes
      let s := apexWriteAll 40 s (base + 0x55800) (natLe 1280 (Config.signature bytes))
      record { s with host := { s.host with attest := { s.host.attest with huskValid := true } } }

/-! ## Attestation -/

/-- What the configuration measurement covers (R448): the context-table base, the route and peer tables, the script store. -/
def measured (s : State) : List Nat :=
  [s.dev.ctxBase] ++ ((List.range 4096).map fun n => tabGetD 0 s.fab.routes n) ++
    ((List.range 4096).map fun n => memNat s.mem (s.host.bring.peers + 2 * n) 2) ++
    (List.range 64).flatMap fun n => (nodeScript s n).map (·.toNat)

/-- Bytes 0 to 191 of the report (Table 26-5). -/
def reportBody (s : State) : List Byte :=
  let a := s.host.attest
  recordBytes 192 ([(0, 8, 0x54535441394B), (8, 2, s.dev.devId), (16, 64, Config.firmwareMeasure),
    (80, 64, Config.configMeasure (measured s))] ++
    ((List.range 4).map fun k => ((144 + 8 * k, 8, (tabGetD 0 a.nonce k).toNat) : RecField)) ++
    [(176, 8, a.count), (184, 8, if a.huskValid then 1 else 0)])

/-- ATTEST_GO (R448): the write of GO; and, once BUSY is set, the firmware's report, after which DONE is set. -/
def attestGo (s : State) (finish : Bool) : State :=
  let a := s.host.attest
  let put := fun (s : State) (a : Attest) => { s with host := { s.host with attest := a } }
  if !finish then
    if !s.host.bring.ready then s
    else if a.busy then put s { a with rejected := true }
    else put s { a with busy := true, done := false }
  else if !a.busy then s
  else
    let body := reportBody s
    let t := apexWriteAll 32 s (2 ^ 51 + a.report % 2 ^ 51) (body ++ natLe 1280 (Config.signature body))
    put t { a with busy := false, done := true, count := a.count + 1 }

/-- HUSKVALID_CLEAR (R450, R453). -/
def huskvalidClear (s : State) : State :=
  if !s.host.bring.ready then s else { s with host := { s.host with attest := { s.host.attest with huskValid := false } } }

/-! ## Fills and walks -/

/-- MISS_FILL (R222): an outstanding fill of a line lands in a core's L1. -/
def missFill (s : State) (core line : Nat) : State :=
  let k := s.core core
  match k.fills.find? (·.line = line) with
  | some f => s.setCore core (l1Install k f)
  | none => s

/-- TABLE_WALK (R230): a walk completes and fills the buffers. -/
def tableWalk (s : State) (core ctx va : Nat) : State := xlateFill s core ctx va

end Sys2Proof.Machine
end

