-- ==== Sys2Proof/Machine/Events.lean ====
section
/-!
DEFINITION. Machine/Events.lean: the meanings of the rows that are no instruction words: engine steps, packets and host actions. Each
takes what it concerns from the operands of its turn (`State.arg`), and leaves the state alone where its rule does not apply to them.
-/
namespace Sys2Proof.Machine

/-- An operand of the turn; one that is not given is 0. -/
def State.argN (s : State) (k : Nat) : Nat := s.arg.getD k 0

/-- The step is not taken after a fatal error (R446). -/
def unlessFatal (s : State) (t : State) : State := if s.host.fatal then s else t

/-- The step is not taken after a fatal error (R446), nor by a core whose power is gated (R457). -/
def unlessGated (s : State) (core : Nat) (t : State) : State := if s.host.fatal || coreGated s core then s else t

/-- CHAIN_ABANDON (R54). Operands: [team, fragment]. -/
def execChainAbandon (s : State) : Host.Outcome State Fault Refusal :=
  .next (chainAbandon s (s.argN 0) (s.argN 1))

/-- GATHER_ENGINE_PUSH (R110). Operands: [team, queue]. -/
def execGatherEnginePush (s : State) : Host.Outcome State Fault Refusal :=
  .next (gatherPush s (s.argN 0) (s.argN 1))

/-- COLL_REPLY (R285). Operands: [COLL]. -/
def execCollReply (s : State) : Host.Outcome State Fault Refusal :=
  .next (collReply s (s.argN 0))

/-- COLL_FLIT_HOME (R284). Operands: [flit]. -/
def execCollFlitHome (s : State) : Host.Outcome State Fault Refusal :=
  .next (collFlitHome s (s.argN 0))

/-- ROOT_FLIT (R288). Operands: [place in the root's queue]. -/
def execRootFlit (s : State) : Host.Outcome State Fault Refusal :=
  .next (rootFlit s (s.argN 0))

/-- UNIT_ABANDON (R290). Operands: [place among the units]. -/
def execUnitAbandon (s : State) : Host.Outcome State Fault Refusal :=
  .next (unitAbandon s (s.argN 0))

/-- SOLICIT_DELIVERY (R299). Operands: [core]. -/
def execSolicitDelivery (s : State) : Host.Outcome State Fault Refusal :=
  .next (unlessGated s (s.argN 0) (deliverSolicit s (s.argN 0)))

/-- COMMIT_DELIVERY (R303). Operands: [core]. -/
def execCommitDelivery (s : State) : Host.Outcome State Fault Refusal :=
  .next (unlessGated s (s.argN 0) (deliverCommit s (s.argN 0)))

/-- CORE_ANSWER (R301). Operands: [core, stamp]. -/
def execCoreAnswer (s : State) : Host.Outcome State Fault Refusal :=
  .next (answerCore s (s.argN 0) (s.argN 1))

/-- LATTICE_COMMAND_EXECUTE (R175). Operands: [core]. -/
def execLatticeCommandExecute (s : State) : Host.Outcome State Fault Refusal :=
  .next (latticeExecute s (s.argN 0))

/-- SEQUENCER_DECISION (R177). Operands: [core]. -/
def execSequencerDecision (s : State) : Host.Outcome State Fault Refusal :=
  .next (unlessGated s (s.argN 0) (sequencerDecision s (s.argN 0)))

/-- K_STEP (R182). Operands: [core]. -/
def execKStep (s : State) : Host.Outcome State Fault Refusal :=
  .next (kStep s (s.argN 0))

/-- K_STEP_SUMS_LANDED (R182). Operands: [core]. -/
def execKStepSumsLanded (s : State) : Host.Outcome State Fault Refusal :=
  .next (kStepLanded s (s.argN 0))

/-- OPERAND_FETCH (R458). Operands: [core]. -/
def execOperandFetch (s : State) : Host.Outcome State Fault Refusal :=
  .next (operandFetch s (s.argN 0))

/-- STAGING_FETCH (R326). Operands: [core]. -/
def execStagingFetch (s : State) : Host.Outcome State Fault Refusal :=
  .next (stagingFetch s (s.argN 0))

/-- LATTICE_COMMAND_COMPLETION (R187). Operands: [core]. -/
def execLatticeCommandCompletion (s : State) : Host.Outcome State Fault Refusal :=
  .next (latticeCompletion s (s.argN 0))

/-- AM_DEADLOCK (R383). Operands: [core]. -/
def execAmDeadlock (s : State) : Host.Outcome State Fault Refusal :=
  .next (unlessFatal s (amDeadlock s (s.argN 0)))

/-- REGION_WATCHDOG (R208). Operands: [team]. -/
def execRegionWatchdog (s : State) : Host.Outcome State Fault Refusal :=
  .next (unlessFatal s (regionWatchdog s (s.argN 0)))

/-- TEAM_ADMISSION (R191). Operands: [core]. -/
def execTeamAdmission (s : State) : Host.Outcome State Fault Refusal :=
  .next (unlessGated s (s.argN 0) (teamAdmission s (s.argN 0)))

/-- TEAM_RETIREMENT (R193). Operands: [team]. -/
def execTeamRetirement (s : State) : Host.Outcome State Fault Refusal :=
  .next (unlessFatal s (teamRetirement s (s.argN 0)))

/-- TEAM_SAVE (R373). Operands: [team]. -/
def execTeamSave (s : State) : Host.Outcome State Fault Refusal :=
  .next (unlessFatal s (teamSave s (s.argN 0)))

/-- TEAM_RESUME (R380). Operands: [core]. -/
def execTeamResume (s : State) : Host.Outcome State Fault Refusal :=
  .next (unlessGated s (s.argN 0) (teamResume s (s.argN 0)))

/-- MISS_FILL (R222). Operands: [core, line]. -/
def execMissFill (s : State) : Host.Outcome State Fault Refusal :=
  .next (missFill s (s.argN 0) (s.argN 1))

/-- TABLE_WALK (R230). Operands: [core, context, address]. -/
def execTableWalk (s : State) : Host.Outcome State Fault Refusal :=
  .next (tableWalk s (s.argN 0) (s.argN 1) (s.argN 2))

/-- COPY_SEGMENT (R262). Operands: [leaf]. -/
def execCopySegment (s : State) : Host.Outcome State Fault Refusal :=
  .next (copySegment s (s.argN 0))

/-- COPY_SECTOR_ARRIVAL (R267). Operands: [place among the sectors on their way]. -/
def execCopySectorArrival (s : State) : Host.Outcome State Fault Refusal :=
  .next (copySectorArrival s (s.argN 0))

/-- STREAM_FILL (R272). Operands: [core, engine]. -/
def execStreamFill (s : State) : Host.Outcome State Fault Refusal :=
  .next (streamFill s (s.argN 0) (s.argN 1))

/-- STREAM_DRAIN (R272). Operands: [core, engine]. -/
def execStreamDrain (s : State) : Host.Outcome State Fault Refusal :=
  .next (streamDrain s (s.argN 0) (s.argN 1))

/-- PUSH (R313). Operands: [node]. -/
def execPushItem (s : State) : Host.Outcome State Fault Refusal :=
  .next (unlessFatal s (pushStep s (s.argN 0)))

/-- CALENDAR_RELEASE (R319). Operands: [node]. -/
def execCalendarRelease (s : State) : Host.Outcome State Fault Refusal :=
  .next (unlessFatal s (calendarRelease s (s.argN 0)))

/-- LEAF_POP (R318). Operands: [leaf]. -/
def execLeafPop (s : State) : Host.Outcome State Fault Refusal :=
  .next (if s.argN 0 / 4096 = 3 then unlessGated s (s.argN 0 % 4096) (leafPop s (s.argN 0)) else leafPop s (s.argN 0))

/-- FULL_LEAF_WATCHDOG (R321). Operands: [leaf]. -/
def execFullLeafWatchdog (s : State) : Host.Outcome State Fault Refusal :=
  .next (unlessFatal s (fullLeafWatchdog s (s.argN 0)))

/-- REGION_LOAD (R333). Operands: [queue]. -/
def execRegionLoad (s : State) : Host.Outcome State Fault Refusal :=
  .next (unlessFatal s (regionLoad s (s.argN 0)))

/-- REGION_FREE (R334). Operands: [queue]. -/
def execRegionFree (s : State) : Host.Outcome State Fault Refusal :=
  .next (unlessFatal s (regionFree s (s.argN 0)))

/-- SCRIPT (R316). Operands: [queue]. -/
def execScriptPkt (s : State) : Host.Outcome State Fault Refusal :=
  .next (unlessFatal s (scriptPacket s (s.argN 0)))

/-- PART (R335). Operands: [queue]. -/
def execPartPkt (s : State) : Host.Outcome State Fault Refusal :=
  .next (unlessFatal s (partPacket s (s.argN 0)))

/-- PAGEANS (R339). Operands: [queue]. -/
def execPageansPkt (s : State) : Host.Outcome State Fault Refusal :=
  .next (unlessFatal s (pageansPacket s (s.argN 0)))

/-- WAIT (R352). Operands: [queue]. -/
def execWaitPkt (s : State) : Host.Outcome State Fault Refusal :=
  .next (unlessFatal s (parseWait s (s.argN 0)))

/-- SIGNAL (R342). Operands: [queue]. -/
def execSignalPkt (s : State) : Host.Outcome State Fault Refusal :=
  .next (unlessFatal s (parseSignal s (s.argN 0)))

/-- INDIRECT (R349). Operands: [queue]. -/
def execIndirectPkt (s : State) : Host.Outcome State Fault Refusal :=
  .next (unlessFatal s (parseIndirect s (s.argN 0)))

/-- LAUNCH (R346). Operands: [queue]. -/
def execLaunchPkt (s : State) : Host.Outcome State Fault Refusal :=
  .next (unlessFatal s (parseLaunch s (s.argN 0)))

/-- LAUNCHI (R348). Operands: [queue]. -/
def execLaunchiPkt (s : State) : Host.Outcome State Fault Refusal :=
  .next (unlessFatal s (parseLaunchi s (s.argN 0)))

/-- TILETASK (R351). Operands: [queue]. -/
def execTiletaskPkt (s : State) : Host.Outcome State Fault Refusal :=
  .next (unlessFatal s (parseTiletask s (s.argN 0)))

/-- COPY (R343). Operands: [queue]. -/
def execCopyPkt (s : State) : Host.Outcome State Fault Refusal :=
  .next (unlessFatal s (parseCopy s (s.argN 0)))

/-- STREAM (R343). Operands: [queue]. -/
def execStreamPkt (s : State) : Host.Outcome State Fault Refusal :=
  .next (unlessFatal s (parseStreamPacket s (s.argN 0)))

/-- FABRIC_PUT (R413). Operands: [queue]. -/
def execFabricPut (s : State) : Host.Outcome State Fault Refusal :=
  .next (unlessFatal s (fabricPutPacket s (s.argN 0)))

/-- FABRIC_GET (R413). Operands: [queue]. -/
def execFabricGet (s : State) : Host.Outcome State Fault Refusal :=
  .next (unlessFatal s (fabricGetPacket s (s.argN 0)))

/-- FABRIC_CTRADD (R413). Operands: [queue]. -/
def execFabricCtradd (s : State) : Host.Outcome State Fault Refusal :=
  .next (unlessFatal s (fabricCtraddPacket s (s.argN 0)))

/-- FABRIC_PAUSE (R414). Operands: [queue]. -/
def execFabricPause (s : State) : Host.Outcome State Fault Refusal :=
  .next (unlessFatal s (fabricPausePacket s (s.argN 0)))

/-- FABRIC_RESUME (R414). Operands: [queue]. -/
def execFabricResume (s : State) : Host.Outcome State Fault Refusal :=
  .next (unlessFatal s (fabricResumePacket s (s.argN 0)))

/-- HOSTXFER (R454). Operands: [queue]. -/
def execHostxferPkt (s : State) : Host.Outcome State Fault Refusal :=
  .next (unlessFatal s (parseHostxfer s (s.argN 0)))

/-- NOP_PACKET (R342). Operands: [queue]. -/
def execNopPacket (s : State) : Host.Outcome State Fault Refusal :=
  .next (unlessFatal s (parseNop s (s.argN 0)))

/-- OPCODE_NOT_IN_TABLE (R342). Operands: [queue]. -/
def execOpcodeNotInTable (s : State) : Host.Outcome State Fault Refusal :=
  .next (unlessFatal s (unknownOpcode s (s.argN 0)))

/-- PACKET_COMPLETION (R344). Operands: [packet]. -/
def execPacketCompletion (s : State) : Host.Outcome State Fault Refusal :=
  .next (unlessFatal s (completePacket s (s.argN 0)))

/-- COALESCER_MESSAGE (R353). Operands: [fault-domain block]. -/
def execCoalescerMessage (s : State) : Host.Outcome State Fault Refusal :=
  .next (coalescerMessage s (s.argN 0))

/-- TEAM_RESIDENCY_LIMIT (R354). Operands: [team]. -/
def execTeamResidencyLimit (s : State) : Host.Outcome State Fault Refusal :=
  .next (unlessFatal s (residencyLimit s (s.argN 0)))

/-- TASK_REFILL (R360). Operands: [core]. -/
def execTaskRefill (s : State) : Host.Outcome State Fault Refusal :=
  .next (unlessFatal s (refillTask s (s.argN 0)))

/-- TASK_HEAD_WATCHDOG (R361). Operands: [core]. -/
def execTaskHeadWatchdog (s : State) : Host.Outcome State Fault Refusal :=
  .next (unlessFatal s (headWatchdog s (s.argN 0)))

/-- TASK_CYCLE_LIMIT (R366). Operands: [team]. -/
def execTaskCycleLimit (s : State) : Host.Outcome State Fault Refusal :=
  .next (unlessFatal s (taskLimit s (s.argN 0)))

/-- TASK_LEND (R367). Operands: [thief team]. -/
def execTaskLend (s : State) : Host.Outcome State Fault Refusal :=
  .next (lendTask s (s.argN 0))

/-- TASK_COMMIT (R367). Operands: [thief team]. -/
def execTaskCommit (s : State) : Host.Outcome State Fault Refusal :=
  .next (commitTask s (s.argN 0))

/-- LEASE_EXPIRY (R367). Operands: [core]. -/
def execLeaseExpiry (s : State) : Host.Outcome State Fault Refusal :=
  .next (expireLease s (s.argN 0))

/-- PROPOSE (R384). Operands: [initiator, number, group]. -/
def execPropose (s : State) : Host.Outcome State Fault Refusal :=
  .next (unlessFatal s (proposeStep s (s.argN 0) (s.argN 1) (s.argN 2)))

/-- PROPOSE_ANSWER (R414). Operands: [number, device, 1 for BUSY, one more than the highest chunk]. -/
def execProposeAnswer (s : State) : Host.Outcome State Fault Refusal :=
  .next (unlessFatal s (proposeAnswer s (s.argN 0) (s.argN 1) (s.argN 2) (s.argN 3)))

/-- PAUSE (R384). Operands: [initiator, number, group, first chunk that waits, node]. -/
def execPause (s : State) : Host.Outcome State Fault Refusal :=
  .next (unlessFatal s (pauseStep s (s.argN 0) (s.argN 1) (s.argN 2) (s.argN 3) (s.argN 4)))

/-- CANCEL (R414). Operands: [initiator, number, group]. -/
def execCancel (s : State) : Host.Outcome State Fault Refusal :=
  .next (unlessFatal s (cancelStep s (s.argN 0) (s.argN 1) (s.argN 2)))

/-- QUIESCENCE_REPORT (R384). Operands: [kind, number or group, device]. -/
def execQuiescenceReport (s : State) : Host.Outcome State Fault Refusal :=
  .next (unlessFatal s (quiescenceReport s (s.argN 0) (s.argN 1) (s.argN 2)))

/-- GANG_RESUME (R385). Operands: [initiator, number, group]. -/
def execGangResume (s : State) : Host.Outcome State Fault Refusal :=
  .next (unlessFatal s (gangResumeStep s (s.argN 0) (s.argN 1) (s.argN 2)))

/-- RESUME_ACKNOWLEDGEMENT (R413). Operands: [number, device]. -/
def execResumeAcknowledgement (s : State) : Host.Outcome State Fault Refusal :=
  .next (unlessFatal s (resumeAcknowledged s (s.argN 0) (s.argN 1)))

/-- GANG_PAUSE_TIMEOUT (R414). Operands: [number]. -/
def execGangPauseTimeout (s : State) : Host.Outcome State Fault Refusal :=
  .next (unlessFatal s (gangTimeout s (s.argN 0)))

/-- MOVE_REQUEST (R297). Operands: [team]. -/
def execMoveRequest (s : State) : Host.Outcome State Fault Refusal :=
  .next (moveRequest s (s.argN 0))

/-- SDGO (R386). -/
def execSdgo (s : State) : Host.Outcome State Fault Refusal :=
  .next (unlessFatal s (shootGo s))

/-- SHOOTDOWN_COMPLETE (R387). -/
def execShootdownComplete (s : State) : Host.Outcome State Fault Refusal :=
  .next (shootDone s)

/-- L2_MODE_WRITE (R391). Operands: [value]. -/
def execL2ModeWrite (s : State) : Host.Outcome State Fault Refusal :=
  .next (unlessFatal s (modeWrite s (s.argN 0)))

/-- L2_MODE_SWITCH_DONE (R391). -/
def execL2ModeSwitchDone (s : State) : Host.Outcome State Fault Refusal :=
  .next (modeDone s)

/-- ACORN_OPERATION (R400). Operands: [0, leaf] for the operation at the head of a leaf, [1, operation] for a LAUNCH. -/
def execAcornOperation (s : State) : Host.Outcome State Fault Refusal :=
  .next (acornOperation s (s.argN 0) (s.argN 1))

/-- ACORN_LOCAL_COMPLETION (R401). Operands: [operation]. -/
def execAcornLocalCompletion (s : State) : Host.Outcome State Fault Refusal :=
  .next (acornLocal s (s.argN 0))

/-- FLIT_RECEIVE (R408). Operands: the flit's fields, in the order that `flitReceive` reads them. -/
def execFlitReceive (s : State) : Host.Outcome State Fault Refusal :=
  .next (flitReceive s s.arg)

/-- LINK_ACK (R406). Operands: [port, sequence number]. -/
def execLinkAck (s : State) : Host.Outcome State Fault Refusal :=
  .next (linkAck s (s.argN 0) (s.argN 1))

/-- LINK_REPLAY (R406). Operands: [port, sequence number]. -/
def execLinkReplay (s : State) : Host.Outcome State Fault Refusal :=
  .next (linkReplay s (s.argN 0) (s.argN 1))

/-- LINK_DOWN (R406). Operands: [port]. -/
def execLinkDown (s : State) : Host.Outcome State Fault Refusal :=
  .next (linkDown s (s.argN 0))

/-- REMOTE_COMPLETION (R407). Operands: the acknowledgement's fields, in the order that `remoteCompletion` reads them. -/
def execRemoteCompletion (s : State) : Host.Outcome State Fault Refusal :=
  .next (remoteCompletion s s.arg)

/-- SCRUB (R441, R442, R444). Operands: [address or entry, what is found, syndrome, structure code, place, region + 1, second entry
number]. -/
def execScrub (s : State) : Host.Outcome State Fault Refusal :=
  .next (if s.argN 1 < 4 then scrub s (s.argN 0) (s.argN 1) (s.argN 2)
    else accessError s (s.argN 0) (s.argN 6) (s.argN 1) (s.argN 2) (s.argN 3) (s.argN 4) (s.argN 5))

/-- FATAL_ERROR (R446). Operands: [entry index, 1 when the husk write fails]. -/
def execFatalError (s : State) : Host.Outcome State Fault Refusal :=
  .next (fatalError s (s.argN 0) (s.argN 1 == 1))

/-- ATTEST_GO (R448). Operands: [0 for the write of GO, 1 for the report]. -/
def execAttestGo (s : State) : Host.Outcome State Fault Refusal :=
  .next (attestGo s (s.argN 0 == 1))

/-- HUSKVALID_CLEAR (R450). -/
def execHuskvalidClear (s : State) : Host.Outcome State Fault Refusal :=
  .next (huskvalidClear s)

/-- COLD_RESET (R453). -/
def execColdReset (s : State) : Host.Outcome State Fault Refusal :=
  .next (coldReset s)

/-- WARM (R453). -/
def execWarm (s : State) : Host.Outcome State Fault Refusal :=
  .next (warmReset s)

/-- START (R453). -/
def execStart (s : State) : Host.Outcome State Fault Refusal :=
  .next (startDevice s)

/-- DOORBELL (R454). Operands: [queue, WPTR, agent, peer device]. -/
def execDoorbell (s : State) : Host.Outcome State Fault Refusal :=
  .next (doorbell s (s.argN 0) (s.argN 1) (s.argN 2) (s.argN 3))

/-- RESTART (R454). Operands: [queue]. -/
def execRestart (s : State) : Host.Outcome State Fault Refusal :=
  .next (restartQueue s (s.argN 0))

/-- SEMAPHORE_READ (R455). Operands: [semaphore, port; 2 for both ports in one cycle]. -/
def execSemaphoreRead (s : State) : Host.Outcome State Fault Refusal :=
  .next (semaphoreRead s (s.argN 0) (s.argN 1))

/-- SEMAPHORE_FREE (R455). Operands: [semaphore, port]. -/
def execSemaphoreFree (s : State) : Host.Outcome State Fault Refusal :=
  .next (semaphoreFree s (s.argN 0) (s.argN 1))

/-- HOST_LINK_DOWN (R455). Operands: [port]. -/
def execHostLinkDown (s : State) : Host.Outcome State Fault Refusal :=
  .next (hostLinkDown s (s.argN 0))

/-- HOST_INBOUND_ACCESS (R449). Operands: [1 for a write, address, bytes, value]. -/
def execHostInboundAccess (s : State) : Host.Outcome State Fault Refusal :=
  .next (hostAccess s (s.argN 0 == 1) (s.argN 1) (s.argN 2) (s.argN 3))

/-- REGISTER_WRITE (R450). Operands: [offset, value]. -/
def execRegisterWrite (s : State) : Host.Outcome State Fault Refusal :=
  .next (registerWrite s (s.argN 0) (s.argN 1))

/-- ISLAND_CLOCK_DOWN (R456). Operands: [island, power in W]. -/
def execIslandClockDown (s : State) : Host.Outcome State Fault Refusal :=
  .next (islandDown s (s.argN 0) (s.argN 1))

/-- ISLAND_CLOCK_UP (R456). Operands: [island, power in W]. -/
def execIslandClockUp (s : State) : Host.Outcome State Fault Refusal :=
  .next (islandUp s (s.argN 0) (s.argN 1))

/-- CLUSTER_GATE (R457). Operands: [island]. -/
def execClusterGate (s : State) : Host.Outcome State Fault Refusal :=
  .next (clusterGate s (s.argN 0))

/-- CLUSTER_UNGATE (R457). Operands: [island]. -/
def execClusterUngate (s : State) : Host.Outcome State Fault Refusal :=
  .next (clusterUngate s (s.argN 0))

end Sys2Proof.Machine
end

