-- ==== Sys2Proof/WellFormed.lean ====
section
/-!
DEFINITION. WellFormed.lean: which instruction terms stand for a word: the field values that the entries define, apart from what only
the stream, the hint or the operands can forbid (Table 4-8, orders 6 and 7).
-/
namespace Sys2Proof

/-- The row has an encoding (R60); the others are engine steps, packets and host actions. -/
def Instr.hasWord (i : Instr) : Bool := decide (majorOf i < 0x80)

/-- Engine steps, packets and host actions: the rows that no stream issues. -/
def Instr.isEvent : Instr → Bool
  | .notAnInstruction .. => false
  | i => !i.hasWord

/-- The instruction's fields hold values that its entry defines: comparison codes 0 to 9 (R96, R127), atomic functions 0 to 10 (R153),
CPYR functions 0 to 11 (R261), CVTMX and vote codes 0 to 4 (R140, R142), reduction codes 0 to 10 (R144), the modes of Tables 8-1 and 8-2
(R168, R182), FENCE scopes 0 to 5 (R242), chain length codes 0 to 6 (R73), and no 3 where a code of two bits gives a width, a type or a
sign rule of three values (R122, R124, R134, R137, R139, R147, R148, R186); a source that the code does not use is 0. An ADD_A whose
every field is 0 would have the word 0, which is no instruction (R78). -/
def Instr.wf : Instr → Bool
  | .addA d a b t => !(d == 0 && a == 0 && b == 0 && t == 0)
  | .cmpA _ _ _ c | .cmpE _ _ _ c => decide (c.toNat ≤ 9)
  | .atom _ _ _ _ f | .atomq _ _ _ _ f => decide (f.toNat ≤ 10)
  | .cpyr _ _ _ _ f => decide (f.toNat ≤ 11)
  | .qpushA d _ b => d != 6 || b == 0
  | .ldc _ _ _ _ _ l | .ldx _ _ _ _ _ l | .ldxRing _ _ _ _ _ l => l != 3
  | .stx _ _ _ s | .stxRing _ _ _ s => s != 3
  | .mulhE _ _ _ _ _ w | .minE _ _ _ _ _ w | .maxE _ _ _ _ _ w => w != 3
  | .shlE _ _ _ _ w | .shrE _ _ _ _ w | .sarE _ _ _ _ w | .rotE _ _ _ _ w => w != 3
  | .clzE _ _ _ w | .popcE _ _ _ w => w != 3
  | .fsgn _ _ _ b w o => w != 3 && (o != 3 || b == 0)
  | .cvt _ _ _ _ f => f.extractLsb' 0 2 != 3
  | .cvtd _ _ _ _ r => r != 3
  | .cvtmx _ _ _ b g f => decide (f.toNat ≤ 4) && (g == 1 || b == 0)
  | .vote _ _ _ c => decide (c.toNat ≤ 4)
  | .votet _ _ _ b c => decide (c.toNat ≤ 4) && (c == 3 || b == 0)
  | .reds _ _ _ f | .redt _ _ _ f => decide (f.toNat ≤ 10)
  | .argm _ _ _ t _ => t != 3
  | .mls _ m | .mstream _ _ m => !modeUndefined m
  | .mtile _ _ _ m => m != 7
  | .amrd _ _ _ _ f => f != 3
  | .fence s => decide (s.toNat ≤ 5)
  | .chain l => l != 7
  | _ => true

end Sys2Proof
end

