-- ==== Sys2Proof/Machine/Fetch.lean ====
section
/-!
DEFINITION. Machine/Fetch.lean: fetching an instruction (R231), the turns that the schedule may give when the environment names none
(R205 to R207), and what passes with every step: time (R451) and what counts it.
-/
namespace Sys2Proof.Machine

/-! ## Fetch -/

/-- What a fetch gives: a word, a cause (R231), or a page to wait for. -/
inductive FetchedWord where
  | word (w : BitVec 32)
  | cause (c : Nat)
  | wait (n : PageNeed)
  deriving DecidableEq, Repr

/-- Fetch the word at a stream's program counter (R60, R231, Table 4-8 order 1). -/
def fetchWord (s : State) (i : Issue) (t : Team) : FetchedWord :=
  let va := i.pc.toNat
  let k := t.info.kernel
  if va % 4 ≠ 0 then .cause 0x00B
  else if va < k.code ∨ k.code + k.codeLen < va + 4 then .cause 0x087
  else match xlate s i.core t.info.ctx va with
    | .unmapped => .cause 0x081
    | .malformed => .cause 0x088
    | .unbacked => .cause 0x089
    | .absent l =>
      if !l.attr.x then .cause 0x087 else if t.wasDeclined i.stream l.vbase then .cause 0x081 else .wait ⟨l.vbase, l.size, 4⟩
    | .held => .wait ⟨0, 0, 4⟩
    | .hit l pa =>
      if !l.attr.x then .cause 0x087 else if !isBacked pa then .cause 0x089 else if isAperture pa then .cause 0x08E
      else if s.dev.bad.contains (pa / 64) then .cause 0x0C0 else .word (BitVec.ofNat 32 (memNat s.mem pa 4))

/-- The chain of the issuing fragment. -/
def issueChain (i : Issue) (t : Team) : Option Chain :=
  match i.stream with
  | .a => none
  | .e n => (tabGet t.frags n).bind (·.chain)

/-- The instruction that a stream issues from what it has fetched. -/
def fetchedInstr (i : Issue) (t : Team) : FetchedWord → Option Instr
  | .word w => some (decodeIssue i.estr (issueCause i.estr i.hint (issueChain i t)) w)
  | .cause c => some (.notAnInstruction c 0)
  | .wait _ => none

/-- The state after the fetch of a word: its translation has filled the buffers (R230). -/
def fetchState (s : State) (i : Issue) (t : Team) : FetchedWord → State
  | .word _ => xlateFill s i.core t.info.ctx i.pc.toNat
  | .cause _ => s
  | .wait n => noteWait s i (.page n.page) [n]

/-! ## Time -/

/-- Core cycles of `n` Apex cycles at the nominal clocks (R4): 3 for 5. -/
def coreCycles (time n : Nat) : Nat := (time + n) * 3 / 5 - time * 3 / 5

/-- A resident team has been resident, and its task has run, for some more core cycles (R354, R366). -/
def Team.age (n : Nat) (t : Team) : Team :=
  { t with resident := t.resident + n, task := t.task.map fun (h : HeldTask) => { h with cycles := h.cycles + n } }

/-- Time passes with a step: the time base runs (R320, R451), resident and saved teams grow older, and the boot check may end. -/
def passTime (s : State) : State :=
  let n := Config.elapsed s.tick
  let k := coreCycles s.dev.time n
  let saved := fun (p : Nat × Saved) => (p.1, { p.2 with team := { p.2.team with resident := p.2.team.resident + k } })
  bootStep { s with
    tick := s.tick + 1,
    dev := { s.dev with time := s.dev.time + n },
    teams := s.teams.map fun p => (p.1, p.2.age k),
    fw := { s.fw with saved := s.fw.saved.map saved } }

/-- The stream waits. -/
def Team.waits (t : Team) : StreamId → Bool
  | .a => t.a.wait.isSome
  | .e n => match tabGet t.frags n with | some f => f.wait.isSome | none => false

/-- After a stream's turn: unless the stream waits, an instruction of its team has issued (R208). -/
def noteIssue (c : Cur) (s : State) : State :=
  s.modTeam c.wid fun t => if t.waits c.stream then t else { t with lastIssue := s.dev.time, stalled := false }

/-- What ends every step. -/
def endTurn (c : Option Cur) (s : State) : State :=
  passTime (match c with | some c => noteIssue c { s with cur := none } | none => { s with arg := [] })

/-- Apply a function to the next state of an outcome. -/
def onNext (f : State → State) : Host.Outcome State Fault Refusal → Host.Outcome State Fault Refusal
  | .next s => .next (f s)
  | .fault r => .fault r
  | .refused r => .refused r

/-! ## Turns -/

/-- The streams of a team. -/
def Team.streams (t : Team) : List StreamId := .a :: t.frags.map fun p => .e p.1

/-- Turns of the streams and of the teams' own engines. -/
def teamTurns (s : State) : List Turn :=
  s.teams.flatMap fun p =>
    (p.2.streams.map fun x => .issue p.1 x) ++ (p.2.frags.map fun f => .event .chainAbandon [p.1, f.1]) ++
    ((List.range 8).map fun q => .event .gatherEnginePush [p.1, q]) ++
    [.event .regionWatchdog [p.1], .event .teamRetirement [p.1], .event .teamSave [p.1], .event .teamResidencyLimit [p.1],
      .event .taskCycleLimit [p.1], .event .taskLend [p.1], .event .taskCommit [p.1], .event .moveRequest [p.1]]

/-- Turns of the engines of a core. -/
def coreTurns (s : State) (c : Nat) : List Turn :=
  let k := s.core c
  [.event .solicitDelivery [c], .event .commitDelivery [c], .event .latticeCommandExecute [c], .event .sequencerDecision [c],
    .event .kStep [c], .event .kStepSumsLanded [c], .event .operandFetch [c], .event .stagingFetch [c],
    .event .latticeCommandCompletion [c], .event .amDeadlock [c], .event .teamAdmission [c], .event .teamResume [c],
    .event .taskRefill [c], .event .taskHeadWatchdog [c], .event .leaseExpiry [c]] ++
  (k.fills.map fun f => .event .missFill [c, f.line]) ++
  (k.streams.flatMap fun e => [.event .streamFill [c, e.1], .event .streamDrain [c, e.1]]) ++
  s.fab.census.map fun n => .event .coreAnswer [c, n.1]

/-- Packets of a queue: whichever row its next packet is of. -/
def queueTurns (q : Nat) : List Turn :=
  [.regionLoad, .regionFree, .scriptPkt, .partPkt, .pageansPkt, .waitPkt, .signalPkt, .indirectPkt, .launchPkt, .launchiPkt,
    .tiletaskPkt, .copyPkt, .streamPkt, .fabricPut, .fabricGet, .fabricCtradd, .fabricPause, .fabricResume, .hostxferPkt,
    .nopPacket, .opcodeNotInTable].map fun i => .event i [q]

/-- Turns of the leaves, nodes, copy engines, the fabric and the firmware. -/
def deviceTurns (s : State) : List Turn :=
  (s.dev.leaves.flatMap fun p => [.event .leafPop [p.1], .event .fullLeafWatchdog [p.1]]) ++
  (s.dev.nodes.flatMap fun p => [.event .pushItem [p.1], .event .calendarRelease [p.1]]) ++
  (s.eng.running.flatMap fun p => [.event .copySegment [p.1], .event .acornOperation [0, p.1]]) ++
  ((List.range s.eng.sectors.length).map fun n => .event .copySectorArrival [n]) ++
  (s.fab.ops.flatMap fun p => [.event .acornOperation [1, p.1], .event .acornLocalCompletion [p.1]]) ++
  (s.fab.colls.map fun p => .event .collReply [p.1]) ++ (s.fab.flits.map fun n => .event .collFlitHome [n]) ++
  ((List.range s.fab.rootIn.length).map fun n => .event .rootFlit [n]) ++
  ((List.range s.fab.units.length).map fun n => .event .unitAbandon [n]) ++
  (s.fab.gangs.map fun g => .event .gangPauseTimeout [g.number]) ++
  (s.fw.packets.map fun p => .event .packetCompletion [p.1]) ++ ((List.range 32).flatMap queueTurns) ++
  (s.dev.coalescers.map fun p => .event .coalescerMessage [p.1]) ++ [.event .shootdownComplete [], .event .l2ModeSwitchDone []] ++
  (List.range 12).flatMap fun n => [.event .clusterGate [n], .event .clusterUngate [n]]

/-- Every turn that the device may take by itself. -/
def ownTurns (s : State) : List Turn := teamTurns s ++ (List.range 256).flatMap (coreTurns s) ++ deviceTurns s

/-- The next turn, and the schedule after it: the schedule's first, or one of the device's own, of which the spec bounds the order and
does not fix it (R205 to R207, assumption 2). -/
def nextTurn (s : State) : Turn × List Turn :=
  match s.agenda with
  | t :: ts => (t, ts)
  | [] =>
    let l := ownTurns s
    (l.getD (Config.pick s.tick % l.length) (.event .shootdownComplete []), [])

end Sys2Proof.Machine
end

