-- ==== Sys2Proof/Machine/Dispatch.lean ====
section
/-!
DEFINITION. Machine/Dispatch.lean: the one place that gives each instruction its meaning.
-/
namespace Sys2Proof.Machine

def exec (i : Instr) (s : State) : Host.Outcome State Fault Refusal :=
  match i with
  | .notAnInstruction x0 x1 => Sys2Proof.Machine.execNotAnInstruction x0 x1 s
  | .addA x0 x1 x2 x3 => Sys2Proof.Machine.execAddA x0 x1 x2 x3 s
  | .subA x0 x1 x2 x3 => Sys2Proof.Machine.execSubA x0 x1 x2 x3 s
  | .addImmA x0 x1 x2 => Sys2Proof.Machine.execAddImmA x0 x1 x2 s
  | .mulA x0 x1 x2 x3 => Sys2Proof.Machine.execMulA x0 x1 x2 x3 s
  | .mulhA x0 x1 x2 x3 => Sys2Proof.Machine.execMulhA x0 x1 x2 x3 s
  | .divs x0 x1 x2 x3 => Sys2Proof.Machine.execDivs x0 x1 x2 x3 s
  | .divz x0 x1 x2 x3 => Sys2Proof.Machine.execDivz x0 x1 x2 x3 s
  | .andA x0 x1 x2 => Sys2Proof.Machine.execAndA x0 x1 x2 s
  | .orA x0 x1 x2 => Sys2Proof.Machine.execOrA x0 x1 x2 s
  | .xorA x0 x1 x2 => Sys2Proof.Machine.execXorA x0 x1 x2 s
  | .andnA x0 x1 x2 => Sys2Proof.Machine.execAndnA x0 x1 x2 s
  | .andImm x0 x1 x2 => Sys2Proof.Machine.execAndImm x0 x1 x2 s
  | .orImm x0 x1 x2 => Sys2Proof.Machine.execOrImm x0 x1 x2 s
  | .xorImm x0 x1 x2 => Sys2Proof.Machine.execXorImm x0 x1 x2 s
  | .shlA x0 x1 x2 x3 => Sys2Proof.Machine.execShlA x0 x1 x2 x3 s
  | .shrA x0 x1 x2 x3 => Sys2Proof.Machine.execShrA x0 x1 x2 x3 s
  | .sarA x0 x1 x2 x3 => Sys2Proof.Machine.execSarA x0 x1 x2 x3 s
  | .rotA x0 x1 x2 x3 => Sys2Proof.Machine.execRotA x0 x1 x2 x3 s
  | .shlImmA x0 x1 x2 x3 => Sys2Proof.Machine.execShlImmA x0 x1 x2 x3 s
  | .shrImmA x0 x1 x2 x3 => Sys2Proof.Machine.execShrImmA x0 x1 x2 x3 s
  | .sarImmA x0 x1 x2 x3 => Sys2Proof.Machine.execSarImmA x0 x1 x2 x3 s
  | .rotImmA x0 x1 x2 x3 => Sys2Proof.Machine.execRotImmA x0 x1 x2 x3 s
  | .bfxSA x0 x1 x2 x3 => Sys2Proof.Machine.execBfxSA x0 x1 x2 x3 s
  | .bfxZA x0 x1 x2 x3 => Sys2Proof.Machine.execBfxZA x0 x1 x2 x3 s
  | .bfiA x0 x1 x2 x3 => Sys2Proof.Machine.execBfiA x0 x1 x2 x3 s
  | .fshlA x0 x1 x2 x3 => Sys2Proof.Machine.execFshlA x0 x1 x2 x3 s
  | .fshrA x0 x1 x2 x3 => Sys2Proof.Machine.execFshrA x0 x1 x2 x3 s
  | .clzA x0 x1 x2 => Sys2Proof.Machine.execClzA x0 x1 x2 s
  | .popcA x0 x1 x2 => Sys2Proof.Machine.execPopcA x0 x1 x2 s
  | .minA x0 x1 x2 x3 => Sys2Proof.Machine.execMinA x0 x1 x2 x3 s
  | .maxA x0 x1 x2 x3 => Sys2Proof.Machine.execMaxA x0 x1 x2 x3 s
  | .cmpA x0 x1 x2 x3 => Sys2Proof.Machine.execCmpA x0 x1 x2 x3 s
  | .selA x0 x1 x2 x3 => Sys2Proof.Machine.execSelA x0 x1 x2 x3 s
  | .liA x0 x1 => Sys2Proof.Machine.execLiA x0 x1 s
  | .liHiA x0 x1 => Sys2Proof.Machine.execLiHiA x0 x1 s
  | .brA x0 x1 => Sys2Proof.Machine.execBrA x0 x1 s
  | .brnA x0 x1 => Sys2Proof.Machine.execBrnA x0 x1 s
  | .loop x0 x1 => Sys2Proof.Machine.execLoop x0 x1 s
  | .callA x0 x1 => Sys2Proof.Machine.execCallA x0 x1 s
  | .calliA x0 => Sys2Proof.Machine.execCalliA x0 s
  | .retA => Sys2Proof.Machine.execRetA s
  | .txl x0 x1 => Sys2Proof.Machine.execTxl x0 x1 s
  | .pgreq x0 x1 => Sys2Proof.Machine.execPgreq x0 x1 s
  | .txclr x0 => Sys2Proof.Machine.execTxclr x0 s
  | .txclrAll => Sys2Proof.Machine.execTxclrAll s
  | .brE x0 x1 => Sys2Proof.Machine.execBrE x0 x1 s
  | .brnE x0 x1 => Sys2Proof.Machine.execBrnE x0 x1 s
  | .callE x0 x1 => Sys2Proof.Machine.execCallE x0 x1 s
  | .calliE x0 => Sys2Proof.Machine.execCalliE x0 s
  | .retE => Sys2Proof.Machine.execRetE s
  | .merge x0 => Sys2Proof.Machine.execMerge x0 s
  | .mergeArm x0 => Sys2Proof.Machine.execMergeArm x0 s
  | .lds x0 x1 x2 x3 x4 => Sys2Proof.Machine.execLds x0 x1 x2 x3 x4 s
  | .sts x0 x1 x2 x3 x4 => Sys2Proof.Machine.execSts x0 x1 x2 x3 x4 s
  | .ldq x0 x1 x2 x3 x4 => Sys2Proof.Machine.execLdq x0 x1 x2 x3 x4 s
  | .stq x0 x1 x2 x3 => Sys2Proof.Machine.execStq x0 x1 x2 x3 s
  | .gathq x0 x1 x2 x3 x4 => Sys2Proof.Machine.execGathq x0 x1 x2 x3 x4 s
  | .scatq x0 x1 x2 x3 => Sys2Proof.Machine.execScatq x0 x1 x2 x3 s
  | .atom x0 x1 x2 x3 x4 => Sys2Proof.Machine.execAtom x0 x1 x2 x3 x4 s
  | .atomq x0 x1 x2 x3 x4 => Sys2Proof.Machine.execAtomq x0 x1 x2 x3 x4 s
  | .aggadd x0 x1 x2 x3 => Sys2Proof.Machine.execAggadd x0 x1 x2 x3 s
  | .aggaddOne x0 x1 x2 x3 => Sys2Proof.Machine.execAggaddOne x0 x1 x2 x3 s
  | .cpy x0 x1 x2 x3 x4 => Sys2Proof.Machine.execCpy x0 x1 x2 x3 x4 s
  | .cpym x0 x1 x2 x3 x4 => Sys2Proof.Machine.execCpym x0 x1 x2 x3 x4 s
  | .cpyr x0 x1 x2 x3 x4 => Sys2Proof.Machine.execCpyr x0 x1 x2 x3 x4 s
  | .qpushA x0 x1 x2 => Sys2Proof.Machine.execQpushA x0 x1 x2 s
  | .ldc x0 x1 x2 x3 x4 x5 => Sys2Proof.Machine.execLdc x0 x1 x2 x3 x4 x5 s
  | .ldx x0 x1 x2 x3 x4 x5 => Sys2Proof.Machine.execLdx x0 x1 x2 x3 x4 x5 s
  | .ldxRing x0 x1 x2 x3 x4 x5 => Sys2Proof.Machine.execLdxRing x0 x1 x2 x3 x4 x5 s
  | .stx x0 x1 x2 x3 => Sys2Proof.Machine.execStx x0 x1 x2 x3 s
  | .stxRing x0 x1 x2 x3 => Sys2Proof.Machine.execStxRing x0 x1 x2 x3 s
  | .addE x0 x1 x2 x3 x4 x5 => Sys2Proof.Machine.execAddE x0 x1 x2 x3 x4 x5 s
  | .subE x0 x1 x2 x3 x4 x5 => Sys2Proof.Machine.execSubE x0 x1 x2 x3 x4 x5 s
  | .addImmE x0 x1 x2 x3 => Sys2Proof.Machine.execAddImmE x0 x1 x2 x3 s
  | .mulE x0 x1 x2 x3 x4 x5 => Sys2Proof.Machine.execMulE x0 x1 x2 x3 x4 x5 s
  | .mulhE x0 x1 x2 x3 x4 x5 => Sys2Proof.Machine.execMulhE x0 x1 x2 x3 x4 x5 s
  | .mad x0 x1 x2 x3 x4 x5 => Sys2Proof.Machine.execMad x0 x1 x2 x3 x4 x5 s
  | .minE x0 x1 x2 x3 x4 x5 => Sys2Proof.Machine.execMinE x0 x1 x2 x3 x4 x5 s
  | .maxE x0 x1 x2 x3 x4 x5 => Sys2Proof.Machine.execMaxE x0 x1 x2 x3 x4 x5 s
  | .andE x0 x1 x2 x3 => Sys2Proof.Machine.execAndE x0 x1 x2 x3 s
  | .orE x0 x1 x2 x3 => Sys2Proof.Machine.execOrE x0 x1 x2 x3 s
  | .xorE x0 x1 x2 x3 => Sys2Proof.Machine.execXorE x0 x1 x2 x3 s
  | .andnE x0 x1 x2 x3 => Sys2Proof.Machine.execAndnE x0 x1 x2 x3 s
  | .shlE x0 x1 x2 x3 x4 => Sys2Proof.Machine.execShlE x0 x1 x2 x3 x4 s
  | .shrE x0 x1 x2 x3 x4 => Sys2Proof.Machine.execShrE x0 x1 x2 x3 x4 s
  | .sarE x0 x1 x2 x3 x4 => Sys2Proof.Machine.execSarE x0 x1 x2 x3 x4 s
  | .rotE x0 x1 x2 x3 x4 => Sys2Proof.Machine.execRotE x0 x1 x2 x3 x4 s
  | .shlImmE x0 x1 x2 x3 x4 => Sys2Proof.Machine.execShlImmE x0 x1 x2 x3 x4 s
  | .shrImmE x0 x1 x2 x3 x4 => Sys2Proof.Machine.execShrImmE x0 x1 x2 x3 x4 s
  | .sarImmE x0 x1 x2 x3 x4 => Sys2Proof.Machine.execSarImmE x0 x1 x2 x3 x4 s
  | .rotImmE x0 x1 x2 x3 x4 => Sys2Proof.Machine.execRotImmE x0 x1 x2 x3 x4 s
  | .bfxSE x0 x1 x2 x3 x4 => Sys2Proof.Machine.execBfxSE x0 x1 x2 x3 x4 s
  | .bfxZE x0 x1 x2 x3 x4 => Sys2Proof.Machine.execBfxZE x0 x1 x2 x3 x4 s
  | .bfiE x0 x1 x2 x3 x4 => Sys2Proof.Machine.execBfiE x0 x1 x2 x3 x4 s
  | .fshlE x0 x1 x2 x3 x4 => Sys2Proof.Machine.execFshlE x0 x1 x2 x3 x4 s
  | .fshrE x0 x1 x2 x3 x4 => Sys2Proof.Machine.execFshrE x0 x1 x2 x3 x4 s
  | .clzE x0 x1 x2 x3 => Sys2Proof.Machine.execClzE x0 x1 x2 x3 s
  | .popcE x0 x1 x2 x3 => Sys2Proof.Machine.execPopcE x0 x1 x2 x3 s
  | .cmpE x0 x1 x2 x3 => Sys2Proof.Machine.execCmpE x0 x1 x2 x3 s
  | .selE x0 x1 x2 x3 x4 => Sys2Proof.Machine.execSelE x0 x1 x2 x3 x4 s
  | .liE x0 x1 x2 => Sys2Proof.Machine.execLiE x0 x1 x2 s
  | .liFromK x0 x1 x2 => Sys2Proof.Machine.execLiFromK x0 x1 x2 s
  | .liHiFromK x0 x1 x2 => Sys2Proof.Machine.execLiHiFromK x0 x1 x2 s
  | .liKQ6 x0 x1 => Sys2Proof.Machine.execLiKQ6 x0 x1 s
  | .liKImm x0 x1 => Sys2Proof.Machine.execLiKImm x0 x1 s
  | .qpushE x0 x1 x2 => Sys2Proof.Machine.execQpushE x0 x1 x2 s
  | .fadd x0 x1 x2 x3 x4 => Sys2Proof.Machine.execFadd x0 x1 x2 x3 x4 s
  | .fsub x0 x1 x2 x3 x4 => Sys2Proof.Machine.execFsub x0 x1 x2 x3 x4 s
  | .fmul x0 x1 x2 x3 x4 => Sys2Proof.Machine.execFmul x0 x1 x2 x3 x4 s
  | .ffma x0 x1 x2 x3 x4 => Sys2Proof.Machine.execFfma x0 x1 x2 x3 x4 s
  | .ffms x0 x1 x2 x3 x4 => Sys2Proof.Machine.execFfms x0 x1 x2 x3 x4 s
  | .fmin x0 x1 x2 x3 x4 => Sys2Proof.Machine.execFmin x0 x1 x2 x3 x4 s
  | .fmax x0 x1 x2 x3 x4 => Sys2Proof.Machine.execFmax x0 x1 x2 x3 x4 s
  | .fcmp x0 x1 x2 x3 => Sys2Proof.Machine.execFcmp x0 x1 x2 x3 s
  | .fsgn x0 x1 x2 x3 x4 x5 => Sys2Proof.Machine.execFsgn x0 x1 x2 x3 x4 x5 s
  | .hadd x0 x1 x2 x3 x4 => Sys2Proof.Machine.execHadd x0 x1 x2 x3 x4 s
  | .hsub x0 x1 x2 x3 x4 => Sys2Proof.Machine.execHsub x0 x1 x2 x3 x4 s
  | .hmul x0 x1 x2 x3 x4 => Sys2Proof.Machine.execHmul x0 x1 x2 x3 x4 s
  | .hmin x0 x1 x2 x3 x4 => Sys2Proof.Machine.execHmin x0 x1 x2 x3 x4 s
  | .hmax x0 x1 x2 x3 x4 => Sys2Proof.Machine.execHmax x0 x1 x2 x3 x4 s
  | .hfma x0 x1 x2 x3 x4 => Sys2Proof.Machine.execHfma x0 x1 x2 x3 x4 s
  | .hfms x0 x1 x2 x3 x4 => Sys2Proof.Machine.execHfms x0 x1 x2 x3 x4 s
  | .hcmp x0 x1 x2 x3 x4 x5 => Sys2Proof.Machine.execHcmp x0 x1 x2 x3 x4 x5 s
  | .f8add x0 x1 x2 x3 x4 => Sys2Proof.Machine.execF8add x0 x1 x2 x3 x4 s
  | .f8sub x0 x1 x2 x3 x4 => Sys2Proof.Machine.execF8sub x0 x1 x2 x3 x4 s
  | .f8mul x0 x1 x2 x3 x4 => Sys2Proof.Machine.execF8mul x0 x1 x2 x3 x4 s
  | .f8min x0 x1 x2 x3 x4 => Sys2Proof.Machine.execF8min x0 x1 x2 x3 x4 s
  | .f8max x0 x1 x2 x3 x4 => Sys2Proof.Machine.execF8max x0 x1 x2 x3 x4 s
  | .f8fma x0 x1 x2 x3 x4 => Sys2Proof.Machine.execF8fma x0 x1 x2 x3 x4 s
  | .f8fms x0 x1 x2 x3 x4 => Sys2Proof.Machine.execF8fms x0 x1 x2 x3 x4 s
  | .f8cmp x0 x1 x2 x3 x4 x5 => Sys2Proof.Machine.execF8cmp x0 x1 x2 x3 x4 x5 s
  | .cvt x0 x1 x2 x3 x4 => Sys2Proof.Machine.execCvt x0 x1 x2 x3 x4 s
  | .cvtf x0 x1 x2 x3 x4 => Sys2Proof.Machine.execCvtf x0 x1 x2 x3 x4 s
  | .cvtd x0 x1 x2 x3 x4 => Sys2Proof.Machine.execCvtd x0 x1 x2 x3 x4 s
  | .cvtmx x0 x1 x2 x3 x4 x5 => Sys2Proof.Machine.execCvtmx x0 x1 x2 x3 x4 x5 s
  | .rcps x0 x1 x2 => Sys2Proof.Machine.execRcps x0 x1 x2 s
  | .rsqs x0 x1 x2 => Sys2Proof.Machine.execRsqs x0 x1 x2 s
  | .exps x0 x1 x2 => Sys2Proof.Machine.execExps x0 x1 x2 s
  | .logs x0 x1 x2 => Sys2Proof.Machine.execLogs x0 x1 x2 s
  | .sins x0 x1 x2 => Sys2Proof.Machine.execSins x0 x1 x2 s
  | .coss x0 x1 x2 => Sys2Proof.Machine.execCoss x0 x1 x2 s
  | .vote x0 x1 x2 x3 => Sys2Proof.Machine.execVote x0 x1 x2 x3 s
  | .shfl x0 x1 x2 x3 x4 => Sys2Proof.Machine.execShfl x0 x1 x2 x3 x4 s
  | .reds x0 x1 x2 x3 => Sys2Proof.Machine.execReds x0 x1 x2 x3 s
  | .scan x0 x1 x2 x3 x4 => Sys2Proof.Machine.execScan x0 x1 x2 x3 x4 s
  | .argm x0 x1 x2 x3 x4 => Sys2Proof.Machine.execArgm x0 x1 x2 x3 x4 s
  | .votet x0 x1 x2 x3 x4 => Sys2Proof.Machine.execVotet x0 x1 x2 x3 x4 s
  | .shflt x0 x1 x2 x3 x4 => Sys2Proof.Machine.execShflt x0 x1 x2 x3 x4 s
  | .redt x0 x1 x2 x3 => Sys2Proof.Machine.execRedt x0 x1 x2 x3 s
  | .mls x0 x1 => Sys2Proof.Machine.execMls x0 x1 s
  | .mflip => Sys2Proof.Machine.execMflip s
  | .mstream x0 x1 x2 => Sys2Proof.Machine.execMstream x0 x1 x2 s
  | .mtile x0 x1 x2 x3 => Sys2Proof.Machine.execMtile x0 x1 x2 x3 s
  | .amalloc x0 => Sys2Proof.Machine.execAmalloc x0 s
  | .amfree x0 => Sys2Proof.Machine.execAmfree x0 s
  | .amrd x0 x1 x2 x3 x4 => Sys2Proof.Machine.execAmrd x0 x1 x2 x3 x4 s
  | .amclr x0 => Sys2Proof.Machine.execAmclr x0 s
  | .amld x0 x1 => Sys2Proof.Machine.execAmld x0 x1 s
  | .amst x0 x1 => Sys2Proof.Machine.execAmst x0 x1 s
  | .mwait x0 => Sys2Proof.Machine.execMwait x0 s
  | .cpseal x0 => Sys2Proof.Machine.execCpseal x0 s
  | .cpwait x0 x1 => Sys2Proof.Machine.execCpwait x0 x1 s
  | .strm x0 => Sys2Proof.Machine.execStrm x0 s
  | .ringClaim x0 x1 => Sys2Proof.Machine.execRingClaim x0 x1 s
  | .ringSig x0 x1 => Sys2Proof.Machine.execRingSig x0 x1 s
  | .ringWait x0 x1 x2 => Sys2Proof.Machine.execRingWait x0 x1 x2 s
  | .ringFree x0 x1 => Sys2Proof.Machine.execRingFree x0 x1 s
  | .ringStat x0 x1 => Sys2Proof.Machine.execRingStat x0 x1 s
  | .stashMap x0 x1 x2 => Sys2Proof.Machine.execStashMap x0 x1 x2 s
  | .stashUnmap x0 => Sys2Proof.Machine.execStashUnmap x0 s
  | .stashClean x0 => Sys2Proof.Machine.execStashClean x0 s
  | .publish x0 x1 => Sys2Proof.Machine.execPublish x0 x1 s
  | .l2ctlOcc x0 x1 => Sys2Proof.Machine.execL2ctlOcc x0 x1 s
  | .l2ctlMask x0 => Sys2Proof.Machine.execL2ctlMask x0 s
  | .l2ctlSetmask x0 x1 => Sys2Proof.Machine.execL2ctlSetmask x0 x1 s
  | .coll x0 x1 x2 x3 => Sys2Proof.Machine.execColl x0 x1 x2 x3 s
  | .solicit x0 x1 x2 x3 => Sys2Proof.Machine.execSolicit x0 x1 x2 x3 s
  | .solicitIns x0 x1 x2 => Sys2Proof.Machine.execSolicitIns x0 x1 x2 s
  | .solicitDel x0 => Sys2Proof.Machine.execSolicitDel x0 s
  | .solicitMove x0 x1 x2 => Sys2Proof.Machine.execSolicitMove x0 x1 x2 s
  | .solicitCommit x0 x1 x2 => Sys2Proof.Machine.execSolicitCommit x0 x1 x2 s
  | .solicitReg x0 x1 => Sys2Proof.Machine.execSolicitReg x0 x1 s
  | .respond x0 => Sys2Proof.Machine.execRespond x0 s
  | .censusWait x0 x1 => Sys2Proof.Machine.execCensusWait x0 x1 s
  | .censusPoll x0 x1 => Sys2Proof.Machine.execCensusPoll x0 x1 s
  | .trgpost x0 x1 => Sys2Proof.Machine.execTrgpost x0 x1 s
  | .trgcancel x0 x1 => Sys2Proof.Machine.execTrgcancel x0 x1 s
  | .ctradd x0 x1 => Sys2Proof.Machine.execCtradd x0 x1 s
  | .ctrwait x0 x1 x2 => Sys2Proof.Machine.execCtrwait x0 x1 x2 s
  | .ctrwaitPoll x0 x1 => Sys2Proof.Machine.execCtrwaitPoll x0 x1 s
  | .ctrset x0 x1 => Sys2Proof.Machine.execCtrset x0 x1 s
  | .ctrseal x0 x1 => Sys2Proof.Machine.execCtrseal x0 x1 s
  | .taskadd x0 x1 => Sys2Proof.Machine.execTaskadd x0 x1 s
  | .taskget x0 => Sys2Proof.Machine.execTaskget x0 s
  | .taskgetPoll x0 => Sys2Proof.Machine.execTaskgetPoll x0 s
  | .taskend => Sys2Proof.Machine.execTaskend s
  | .tasksteal x0 x1 => Sys2Proof.Machine.execTasksteal x0 x1 s
  | .barj x0 x1 => Sys2Proof.Machine.execBarj x0 x1 s
  | .bar x0 => Sys2Proof.Machine.execBar x0 s
  | .endS => Sys2Proof.Machine.execEndS s
  | .srr x0 x1 => Sys2Proof.Machine.execSrr x0 x1 s
  | .srw x0 x1 => Sys2Proof.Machine.execSrw x0 x1 s
  | .fence x0 => Sys2Proof.Machine.execFence x0 s
  | .trap x0 => Sys2Proof.Machine.execTrap x0 s
  | .tret => Sys2Proof.Machine.execTret s
  | .nop => Sys2Proof.Machine.execNop s
  | .imm x0 => Sys2Proof.Machine.execImm x0 s
  | .mod x0 x1 x2 x3 x4 => Sys2Proof.Machine.execMod x0 x1 x2 x3 x4 s
  | .ext x0 x1 => Sys2Proof.Machine.execExt x0 x1 s
  | .sched x0 x1 => Sys2Proof.Machine.execSched x0 x1 s
  | .chain x0 => Sys2Proof.Machine.execChain x0 s
  | .chainAbandon => Sys2Proof.Machine.execChainAbandon s
  | .gatherEnginePush => Sys2Proof.Machine.execGatherEnginePush s
  | .collReply => Sys2Proof.Machine.execCollReply s
  | .collFlitHome => Sys2Proof.Machine.execCollFlitHome s
  | .rootFlit => Sys2Proof.Machine.execRootFlit s
  | .unitAbandon => Sys2Proof.Machine.execUnitAbandon s
  | .solicitDelivery => Sys2Proof.Machine.execSolicitDelivery s
  | .commitDelivery => Sys2Proof.Machine.execCommitDelivery s
  | .coreAnswer => Sys2Proof.Machine.execCoreAnswer s
  | .latticeCommandExecute => Sys2Proof.Machine.execLatticeCommandExecute s
  | .sequencerDecision => Sys2Proof.Machine.execSequencerDecision s
  | .kStep => Sys2Proof.Machine.execKStep s
  | .kStepSumsLanded => Sys2Proof.Machine.execKStepSumsLanded s
  | .operandFetch => Sys2Proof.Machine.execOperandFetch s
  | .stagingFetch => Sys2Proof.Machine.execStagingFetch s
  | .amDeadlock => Sys2Proof.Machine.execAmDeadlock s
  | .regionWatchdog => Sys2Proof.Machine.execRegionWatchdog s
  | .teamAdmission => Sys2Proof.Machine.execTeamAdmission s
  | .teamRetirement => Sys2Proof.Machine.execTeamRetirement s
  | .teamSave => Sys2Proof.Machine.execTeamSave s
  | .teamResume => Sys2Proof.Machine.execTeamResume s
  | .missFill => Sys2Proof.Machine.execMissFill s
  | .tableWalk => Sys2Proof.Machine.execTableWalk s
  | .copySegment => Sys2Proof.Machine.execCopySegment s
  | .copySectorArrival => Sys2Proof.Machine.execCopySectorArrival s
  | .streamFill => Sys2Proof.Machine.execStreamFill s
  | .streamDrain => Sys2Proof.Machine.execStreamDrain s
  | .pushItem => Sys2Proof.Machine.execPushItem s
  | .calendarRelease => Sys2Proof.Machine.execCalendarRelease s
  | .leafPop => Sys2Proof.Machine.execLeafPop s
  | .fullLeafWatchdog => Sys2Proof.Machine.execFullLeafWatchdog s
  | .regionLoad => Sys2Proof.Machine.execRegionLoad s
  | .regionFree => Sys2Proof.Machine.execRegionFree s
  | .scriptPkt => Sys2Proof.Machine.execScriptPkt s
  | .partPkt => Sys2Proof.Machine.execPartPkt s
  | .pageansPkt => Sys2Proof.Machine.execPageansPkt s
  | .waitPkt => Sys2Proof.Machine.execWaitPkt s
  | .signalPkt => Sys2Proof.Machine.execSignalPkt s
  | .indirectPkt => Sys2Proof.Machine.execIndirectPkt s
  | .launchPkt => Sys2Proof.Machine.execLaunchPkt s
  | .launchiPkt => Sys2Proof.Machine.execLaunchiPkt s
  | .tiletaskPkt => Sys2Proof.Machine.execTiletaskPkt s
  | .copyPkt => Sys2Proof.Machine.execCopyPkt s
  | .streamPkt => Sys2Proof.Machine.execStreamPkt s
  | .fabricPut => Sys2Proof.Machine.execFabricPut s
  | .fabricGet => Sys2Proof.Machine.execFabricGet s
  | .fabricCtradd => Sys2Proof.Machine.execFabricCtradd s
  | .fabricPause => Sys2Proof.Machine.execFabricPause s
  | .fabricResume => Sys2Proof.Machine.execFabricResume s
  | .hostxferPkt => Sys2Proof.Machine.execHostxferPkt s
  | .nopPacket => Sys2Proof.Machine.execNopPacket s
  | .packetCompletion => Sys2Proof.Machine.execPacketCompletion s
  | .coalescerMessage => Sys2Proof.Machine.execCoalescerMessage s
  | .teamResidencyLimit => Sys2Proof.Machine.execTeamResidencyLimit s
  | .taskRefill => Sys2Proof.Machine.execTaskRefill s
  | .taskHeadWatchdog => Sys2Proof.Machine.execTaskHeadWatchdog s
  | .taskCycleLimit => Sys2Proof.Machine.execTaskCycleLimit s
  | .taskLend => Sys2Proof.Machine.execTaskLend s
  | .taskCommit => Sys2Proof.Machine.execTaskCommit s
  | .leaseExpiry => Sys2Proof.Machine.execLeaseExpiry s
  | .propose => Sys2Proof.Machine.execPropose s
  | .pause => Sys2Proof.Machine.execPause s
  | .cancel => Sys2Proof.Machine.execCancel s
  | .gangResume => Sys2Proof.Machine.execGangResume s
  | .gangPauseTimeout => Sys2Proof.Machine.execGangPauseTimeout s
  | .sdgo => Sys2Proof.Machine.execSdgo s
  | .shootdownComplete => Sys2Proof.Machine.execShootdownComplete s
  | .l2ModeWrite => Sys2Proof.Machine.execL2ModeWrite s
  | .l2ModeSwitchDone => Sys2Proof.Machine.execL2ModeSwitchDone s
  | .acornOperation => Sys2Proof.Machine.execAcornOperation s
  | .acornLocalCompletion => Sys2Proof.Machine.execAcornLocalCompletion s
  | .flitReceive => Sys2Proof.Machine.execFlitReceive s
  | .linkAck => Sys2Proof.Machine.execLinkAck s
  | .linkReplay => Sys2Proof.Machine.execLinkReplay s
  | .linkDown => Sys2Proof.Machine.execLinkDown s
  | .remoteCompletion => Sys2Proof.Machine.execRemoteCompletion s
  | .scrub => Sys2Proof.Machine.execScrub s
  | .fatalError => Sys2Proof.Machine.execFatalError s
  | .attestGo => Sys2Proof.Machine.execAttestGo s
  | .huskvalidClear => Sys2Proof.Machine.execHuskvalidClear s
  | .coldReset => Sys2Proof.Machine.execColdReset s
  | .warm => Sys2Proof.Machine.execWarm s
  | .start => Sys2Proof.Machine.execStart s
  | .doorbell => Sys2Proof.Machine.execDoorbell s
  | .restart => Sys2Proof.Machine.execRestart s
  | .semaphoreRead => Sys2Proof.Machine.execSemaphoreRead s
  | .semaphoreFree => Sys2Proof.Machine.execSemaphoreFree s
  | .hostLinkDown => Sys2Proof.Machine.execHostLinkDown s
  | .hostInboundAccess => Sys2Proof.Machine.execHostInboundAccess s
  | .registerWrite => Sys2Proof.Machine.execRegisterWrite s
  | .islandClockDown => Sys2Proof.Machine.execIslandClockDown s
  | .islandClockUp => Sys2Proof.Machine.execIslandClockUp s
  | .clusterGate => Sys2Proof.Machine.execClusterGate s
  | .clusterUngate => Sys2Proof.Machine.execClusterUngate s
  | .opcodeNotInTable => Sys2Proof.Machine.execOpcodeNotInTable s
  | .latticeCommandCompletion => Sys2Proof.Machine.execLatticeCommandCompletion s
  | .moveRequest => Sys2Proof.Machine.execMoveRequest s
  | .proposeAnswer => Sys2Proof.Machine.execProposeAnswer s
  | .quiescenceReport => Sys2Proof.Machine.execQuiescenceReport s
  | .resumeAcknowledgement => Sys2Proof.Machine.execResumeAcknowledgement s

end Sys2Proof.Machine
end

