-- ==== Sys2Proof/Machine/Step.lean ====
section
/-!
DEFINITION. Machine/Step.lean: one step of the machine, and the placing of an instruction where the next step fetches it.
-/
namespace Sys2Proof.Machine

/-- A stream's turn: it fetches and issues one instruction, or waits for the page; a stream that cannot issue does nothing. -/
def issueTurn (s : State) (c : Cur) : Host.Outcome State Fault Refusal :=
  let s := { s with cur := some c }
  match issueOf s with
  | none => .next s
  | some (i, t) =>
    let f := fetchWord s i t
    match fetchedInstr i t f with
    | none => .next (fetchState s i t f)
    | some x => exec x (fetchState s i t f)

/-- The turn of an engine, or an action of the environment. A row that streams issue is no such turn. -/
def eventTurn (s : State) (x : Instr) (arg : List Nat) : Host.Outcome State Fault Refusal :=
  if x.isEvent then exec x { s with cur := none, arg := arg } else .next s

/-- One step: the next turn, and then the time that passes with it. -/
def step (s : State) : Host.Outcome State Fault Refusal :=
  let (turn, rest) := nextTurn s
  let s := { s with agenda := rest }
  match turn with
  | .issue wid x => onNext (endTurn (some { wid := wid, stream := x })) (issueTurn s { wid := wid, stream := x })
  | .event x arg => onNext (endTurn none) (eventTurn s x arg)

/-- The page that holds the instruction that `withFetchWord` places: executable, its physical address its virtual one. -/
def placedLeaf : Leaf := { vbase := 0x10000, size := 0x10000, pbase := 0x10000, attr := { resident := true, x := true } }

/-- The kernel whose code is that page. -/
def placedKernel : Kernel := { code := 0x10000, codeLen := 0x10000 }

/-- The stream that can issue a word: the A-stream for a major of the A-stream or of both, else fragment 0; CHAIN is of the E-stream
alone (R73). -/
def placedStream (w : Nat) : StreamId :=
  match decodeWord (BitVec.ofNat 32 w) with
  | .ok (.chain _) => .e 0
  | _ => if majorInA (w / 2 ^ 25 % 128) then .a else .e 0

/-- The hint that the instruction of a word requires (R72, R137): an EXT hint, or none. -/
def placedHint (w : Nat) : Option PendHint :=
  match decodeWord (BitVec.ofNat 32 w) with
  | .ok i => if (hintRule i).ext = 0 then none else some { hint := .ext 0 0, pc := 0x10000 }
  | _ => none

/-- A team of 32 lanes whose streams stand at the second word of the page. -/
def placedTeam (w : Nat) : Team :=
  let h := placedHint w
  { info := { lanes := 32, vphys := 64, kernel := placedKernel },
    a := { pc := 0x10004, win := { base := 31, frames := [{ size := 32, caller := 0 }] },
           hint := match placedStream w with | .a => h | .e _ => none },
    frags := [(0, { mask := firstLanes 32, pc := 0x10004, win := { base := 31, frames := [{ size := 32, caller := 0 }] },
                    hint := match placedStream w with | .a => none | .e _ => h })] }

/-- The state with the instruction of a word placed for the next step. No stream runs at reset, so it also places the team whose stream
issues it in slot 0 of core 0, the translation of its page, and the turn of that stream. -/
def State.withFetchWord (s : State) (_nbits w : Nat) : State :=
  let k := s.core 0
  let s := s.setCore 0 { k with tlb := { ctx := 0, leaf := placedLeaf } :: k.tlb }
  let s := s.setTeam 0 (placedTeam w)
  { s with mem := memWrite s.mem 0x10004 (natLe 4 w), agenda := [.issue 0 (placedStream w)] }

end Sys2Proof.Machine
end

