-- ==== Sys2Proof/Safety.lean ====
section
/-!
DEFINITION. Safety.lean: the terms of the claims: a sound state, a stream at an instruction, and what its team is like once the
instruction has issued.
-/
namespace Sys2Proof.Machine

/-- A sound state: memory stands in its canonical form. -/
def State.Sound (s : State) : Prop := Memory.wf s.mem = true

/-- Every byte of memory reads in `t` as in `s`, but for those at the `n` addresses from `a`. -/
def sameMemBut (s t : State) (a n : Nat) : Prop := ∀ k, (k < a ∨ a + n ≤ k) → memGet t.mem k = memGet s.mem k

/-- Every byte of memory reads in `t` as in `s`. -/
def sameMem (s t : State) : Prop := ∀ k, memGet t.mem k = memGet s.mem k

/-- The current stream stands at an instruction, as `i` describes its issue and `t` its team; it has no pending cause to raise, and the
word, the stream and the hint are none that Table 4-8 refuses. -/
structure Issuing (x : Instr) (s : State) (i : Issue) (t : Team) : Prop where
  turn : issueOf s = some (i, t)
  quiet : pendingAt t (fun _ => true) = none
  legal : issueCause i.estr i.hint (issueChain i t) x = none

/-- The team as the instruction finds it: the stream stands at the next word, and its hint is used up. -/
def atIssue (i : Issue) (t : Team) : Team := t.advance i.stream

/-- The team after an instruction that left it as `u`: a chain counts the instruction, and an answer that a page is declined is used up. -/
def Team.issued (u : Team) (x : StreamId) : Team := { u.chainStep x with declined := u.declined.filter (·.1 ≠ x) }

/-- The state after an instruction of `i` whose only effect leaves its team as `u`. -/
def doneWith (s : State) (i : Issue) (u : Team) : State := s.setTeam i.wid (u.issued i.stream)

/-- The state after an instruction of `i` whose effect leaves the state as `s'`. -/
def doneAs (s' : State) (i : Issue) : State := s'.modTeam i.wid fun u => u.issued i.stream

end Sys2Proof.Machine
end

