-- ==== Sys2Proof/Certificates/Slice0/Obligations.lean ====
section
/-!
DEFINITION. Certificates/Slice0/Obligations.lean: the statements for the provers. `Claims` names their parts. A statement on an instruction's effect concludes with the whole next state, or names
what of it the instruction leaves; where it speaks of a cause, `settle` is what becomes of it (TrapTaken, TrapTerminates).
-/
open Sys2Proof Sys2Proof.Machine

/-! ## Words -/

/-- Words of the spec's worked encodings, and of three that are no instruction, decode as the spec says: Worked encodings, R180, R187, R78, and the table after R79. -/
def Obligations.DecodeWords : Prop :=
  decodeWord 0x402105C2 = .ok (.lds 4 2 5 3 2) ∧ decodeWord 0xFC000100 = .ok (.imm 0x100) ∧ decodeWord 0x402160C0 = .ok (.lds 4 2 96 3 0) ∧
  decodeWord 0x207FFFE0 = .ok (.brA 1 0x3FFFE0) ∧ decodeWord 0xC2000000 = .ok .mflip ∧ decodeWord 0xCE030000 = .ok (.mwait 96) ∧
  decodeWord 0xEE031840 = .ok (.barj 99 4) ∧ decodeWord 0xE0140823 = .ok (.coll 5 1 2 3) ∧ decodeWord 0xE6180800 = .ok (.censusWait 6 1) ∧
  decodeWord 0 = .reject 0x001 ∧ decodeWord 0xFFFFFFFF = .reject 0x002 ∧ decodeWord 0x98000000 = .reject 0x003

/-- Every well-formed instruction that has a word is what its word decodes to. -/
def Obligations.DecodeEncode : Prop := ∀ i : Instr, i.wf = true → i.hasWord = true → decodeWord (encode i) = .ok i

/-- A word that decodes is the word of its instruction, which is well formed: no bit of it is passed over. -/
def Obligations.EncodeDecode : Prop := ∀ (w : BitVec 32) (i : Instr), decodeWord w = .ok i → encode i = w ∧ i.wf = true ∧ i.hasWord = true

/-- Words that no instruction has (Table 4-8, orders 2 to 4): the word 0, every word of major 0x7F, and those of the reserved majors of Table 4-7; and a word is never given a cause of another order for these reasons: 0x001 to 0x003 are raised by no
other word. -/
def Obligations.ReservedWords : Prop :=
  ∀ w : BitVec 32, let op := (w.extractLsb' 25 7).toNat
    (decodeWord w = .reject 0x001 ↔ w = 0) ∧ (decodeWord w = .reject 0x002 ↔ op = 0x7F) ∧
    (decodeWord w = .reject 0x003 ↔ op ∈ [0x1F, 0x4C, 0x4D, 0x4E, 0x4F, 0x55, 0x56, 0x57, 0x6F, 0x7D])

/-- A cause of Table 4-8 that the stream, the hint or the operand fields of an instruction give it is taken in place of the instruction, whichever it is, with the word and its hint's word as the trap value (R77 to R79, R231, Table 25-3). -/
def Claims.DecodeCauses : Prop :=
  ∀ (x : Instr) (s : State) (i : Issue) (t : Team) (c : Nat), x.hasWord = true → issueOf s = some (i, t) → pendingAt t (fun _ => true) = none →
    issueCause i.estr i.hint (issueChain i t) x = some c → c ≠ 0x018 →
    ∃ d, exec x s = .next (settle s i t d (raiseWith c (decodeValue i.hint (encode x))))

/-- The majors that only the address stream may issue, and those that only the compute stream may (Table 4-7). -/
def Claims.onlyA (op : Nat) : Prop := op ≤ 0x18 ∨ (0x20 ≤ op ∧ op ≤ 0x2C) ∨ (0x60 ≤ op ∧ op ≤ 0x6E ∧ op ≠ 0x65) ∨ (0x71 ≤ op ∧ op ≤ 0x76)
def Claims.onlyE (op : Nat) : Prop := (0x19 ≤ op ∧ op ≤ 0x1E) ∨ (0x2D ≤ op ∧ op ≤ 0x5F) ∨ op = 0x65 ∨ op = 0x70

/-- An instruction of a major of the other stream raises 0x007, whatever hint stands before it (R77). -/
def Claims.WrongStream : Prop :=
  ∀ (x : Instr) (i : Issue) (t : Team), x.hasWord = true → (if i.estr then Claims.onlyA (majorOf x) else Claims.onlyE (majorOf x)) →
    issueCause i.estr i.hint (issueChain i t) x = some 0x007

/-- The causes of Table 4-8 at the issue of an instruction. -/
def Obligations.DecodeCauses : Prop := Claims.DecodeCauses ∧ Claims.WrongStream

/-! ## Steps, reset and what every step keeps -/

/-- What the end of a step adds to the effect of its turn: time passes, resident teams and their tasks age, a stream that did not wait has issued, the boot check may end, and nothing else changes. -/
def Claims.timePasses (s s' : State) : Prop :=
  s'.mem = s.mem ∧ s'.agenda = s.agenda ∧ s'.cores = s.cores ∧ s'.clusters = s.clusters ∧ s'.eng = s.eng ∧ s'.fab = s.fab ∧ s'.tick = s.tick + 1 ∧
  s'.dev = { s.dev with time := s.dev.time + Config.elapsed s.tick } ∧ s'.fw = { s.fw with saved := s'.fw.saved } ∧ s'.host = { s.host with bring := s'.host.bring } ∧
  ∀ w, (s.team? w = none → s'.team? w = none) ∧ ∀ t, s.team? w = some t → ∃ u, s'.team? w = some u ∧
    u = { t with resident := u.resident, task := u.task, lastIssue := u.lastIssue, stalled := u.stalled }

/-- A step runs the decoded instruction: on a stream's turn, where the word at its program counter decodes, the step is that instruction's `exec`, in the state in which the fetch's translation stands in the buffers, and then time passes; a word that
does not decode is its cause's; an engine's turn, or an action from outside, is the `exec` of its row. -/
def Obligations.StepRunsDecoded : Prop :=
  ∀ (s : State) (rest : List Turn),
    (∀ wid x i t w, nextTurn s = (.issue wid x, rest) → let r : State := { s with agenda := rest, cur := some { wid := wid, stream := x } }
      issueOf r = some (i, t) → fetchWord r i t = .word w →
      let f := xlateFill r i.core t.info.ctx i.pc.toNat
      (∀ k s', decodeWord w = .ok k → exec k f = .next s' → ∃ u, step s = .next u ∧ u.cur = none ∧ Claims.timePasses s' u) ∧
      (∀ c s', decodeWord w = .reject c → c ≤ 0x003 → exec (.notAnInstruction c w) f = .next s' → ∃ u, step s = .next u ∧ u.cur = none ∧ Claims.timePasses s' u)) ∧
    (∀ x arg s', nextTurn s = (.event x arg, rest) → x.isEvent = true → exec x { s with agenda := rest, cur := none, arg := arg } = .next s' →
      ∃ u, step s = .next u ∧ u.arg = [] ∧ Claims.timePasses s' u)

/-- Every step answers a next state: no step of this machine ends in a fault or a refusal. -/
def Obligations.StepAnswers : Prop := ∀ s : State, ∃ s', step s = .next s'

/-- The machine right after reset, as the spec gives it: every trigger counter is 0 (R394), every rank script is the one word `RET g0` (R314), every core's energy budget is 64 (R192), TIME is 0 (R451), no team is resident, STATUS reads 0 (R453), the L2 is in
shared mode (R391), and memory is sound. -/
def Claims.ResetState : Prop :=
  State.reset.Sound ∧ (∀ c n, State.reset.ctr c n = 0) ∧ (∀ n, nodeScript State.reset n = [0xC0000000]) ∧ (∀ n, (State.reset.island n).budget = 64) ∧ registerRead State.reset 0x33000 = 0 ∧
  (∀ w, State.reset.team? w = none) ∧ State.reset.host.bring.ready = false ∧ registerRead State.reset 0 = 0 ∧ State.reset.dev.l2Mode = 0

/-- TIME counts units of 64 ns, 128 of the model's Apex cycles of half a nanosecond, from 0 at each reset, and a read returns all of its 64 bits; NOW is its low half (R451). -/
def Claims.TimeBase : Prop :=
  ∀ s : State, registerRead s 0x33000 = s.dev.time / 128 % 2 ^ 64 ∧ s.now = registerRead s 0x33000 % 2 ^ 32 ∧
    (∃ s', exec .coldReset s = .next s' ∧ registerRead s' 0x33000 = 0) ∧ ∃ s', exec .warm s = .next s' ∧ registerRead s' 0x33000 = 0

/-- Every step keeps memory in its canonical form. -/
def Obligations.SoundKept : Prop := ∀ s s' : State, s.Sound → step s = .next s' → s'.Sound

/-! ## The address stream's arithmetic -/

/-- An operation on values of any width. -/
abbrev Claims.WidthOp := (w : Nat) → BitVec w → BitVec w → BitVec w

/-- A typed form (R86): the low 8, 16, 32 or 64 bits of both operands, the operation at that width, sign- or zero-extended to 64 bits. -/
def Claims.typed (ty : BitVec 3) (op : Claims.WidthOp) (u v : DWord) : DWord :=
  let w := 8 * 2 ^ (ty.toNat % 4)
  let r := op w (u.setWidth w) (v.setWidth w)
  if ty.toNat < 4 then r.setWidth 64 else r.signExtend 64

/-- A shift of the low 8, 16, 32 or 64 bits; SAR sign-extends its result (R93). -/
def Claims.shift (w : BitVec 2) (signed : Bool) (op : (w : Nat) → BitVec w → Nat → BitVec w) (u : DWord) (n : Nat) : DWord :=
  let w := 8 * 2 ^ w.toNat
  let r := op w (u.setWidth w) n
  if signed then r.signExtend 64 else r.setWidth 64

/-- The upper half of the product of two values of w bits. -/
def Claims.upperProduct (signed : Bool) : Claims.WidthOp := fun w x y =>
  if signed then (x.signExtend (2 * w) * y.signExtend (2 * w)).extractLsb' w w
  else (x.setWidth (2 * w) * y.setWidth (2 * w)).extractLsb' w w

/-- The smaller or the larger of two values. -/
def Claims.pick (signed larger : Bool) : Claims.WidthOp := fun _ x y =>
  let less := if signed then x.slt y else x.ult y
  if less then (if larger then y else x) else (if larger then x else y)

/-- A type code is signed (Table 5-1). -/
def Claims.signedType (ty : BitVec 3) : Bool := decide (4 ≤ ty.toNat)

/-- A quotient truncated toward zero (R90). -/
def Claims.quotient (signed : Bool) : Claims.WidthOp := fun _ x y => if signed then x.sdiv y else x.udiv y

/-- An instruction s_d := f(a, b) of the A-stream: its d, a, b, and what it computes. -/
structure Claims.TwoSource where
  d : BitVec 6
  a : BitVec 7
  b : BitVec 7
  value : DWord → DWord → DWord

/-- The two-source instructions of the A-stream that meet no cause of their own (R86, R90, R93). -/
def Claims.twoSource : Instr → Option Claims.TwoSource
  | .addA d a b t => some ⟨d, a, b, Claims.typed t fun _ x y => x + y⟩
  | .subA d a b t => some ⟨d, a, b, Claims.typed t fun _ x y => x - y⟩
  | .mulA d a b t => some ⟨d, a, b, Claims.typed t fun _ x y => x * y⟩
  | .mulhA d a b t => some ⟨d, a, b, Claims.typed t (Claims.upperProduct (Claims.signedType t))⟩
  | .minA d a b t => some ⟨d, a, b, Claims.typed t (Claims.pick (Claims.signedType t) false)⟩
  | .maxA d a b t => some ⟨d, a, b, Claims.typed t (Claims.pick (Claims.signedType t) true)⟩
  | .andA d a b => some ⟨d, a, b, fun u v => u &&& v⟩
  | .orA d a b => some ⟨d, a, b, fun u v => u ||| v⟩
  | .xorA d a b => some ⟨d, a, b, fun u v => u ^^^ v⟩
  | .andnA d a b => some ⟨d, a, b, fun u v => u &&& ~~~v⟩
  | .shlA d a b w => some ⟨d, a, b, fun u v => Claims.shift w false (fun w x n => if w ≤ n then 0 else x <<< n) u v.toNat⟩
  | .shrA d a b w => some ⟨d, a, b, fun u v => Claims.shift w false (fun w x n => if w ≤ n then 0 else x >>> n) u v.toNat⟩
  | .sarA d a b w => some ⟨d, a, b, fun u v => Claims.shift w true (fun w x n => x.sshiftRight (min n w)) u v.toNat⟩
  | .rotA d a b w => some ⟨d, a, b, fun u v => Claims.shift w false (fun _ x n => x.rotateRight n) u v.toNat⟩
  | _ => none

/-- The team of `u` with physical scalar register `p` set. -/
def Claims.setS (u : Team) (p : Nat) (v : DWord) : Team := { u with a := { u.a with s := tabSetD 0 u.a.s p v } }

/-- ADD, SUB, MUL, MULH, MIN, MAX, AND, OR, XOR, ANDN, SHL, SHR, SAR and ROT of the A-stream: with both sources readable and the
destination in reach, the instruction completes, s_d takes the value of R90 or R93, and nothing else changes but that the stream has
moved on. -/
def Claims.AluTwoSource : Prop :=
  ∀ (x : Instr) (s : State) (i : Issue) (t : Team) (r : Claims.TwoSource) (u v : DWord) (p : Nat),
    Claims.twoSource x = some r → Issuing x s i t → i.stream = .a →
    sourceA i (atIssue i t) (coreWord s i.core) r.a = .ok u → sourceA i (atIssue i t) (coreWord s i.core) r.b = .ok v →
    (atIssue i t).a.win.reg 256 r.d.toNat = .ok p →
    exec x s = .next (doneWith s i (Claims.setS (atIssue i t) p (r.value u v)))

/-- An instruction s_d := f(a, old s_d) of the A-stream; `hint` is the hint that the instruction has. -/
structure Claims.OneSource where
  d : BitVec 6
  a : BitVec 7
  value : Option Hint → DWord → DWord → DWord

/-- The bits of a field of `w` bits at `o`. -/
def Claims.fieldMask (n o w : Nat) : BitVec n := (BitVec.allOnes n >>> (n - w)) <<< o

/-- The instructions of the A-stream with one source field (R91, R93, R94). The offset and the width of a bit field are those of
Table 5-5. -/
def Claims.oneSource : Instr → Option Claims.OneSource
  | .addImmA d a i => some ⟨d, a, fun h u _ => u + (signedImm h i).signExtend 64⟩
  | .andImm d a i => some ⟨d, a, fun _ u _ => u &&& i.setWidth 64⟩
  | .orImm d a i => some ⟨d, a, fun _ u _ => u ||| i.setWidth 64⟩
  | .xorImm d a i => some ⟨d, a, fun _ u _ => u ^^^ i.setWidth 64⟩
  | .shlImmA d a w m => some ⟨d, a, fun _ u _ => Claims.shift w false (fun w x n => if w ≤ n then 0 else x <<< n) u m.toNat⟩
  | .shrImmA d a w m => some ⟨d, a, fun _ u _ => Claims.shift w false (fun w x n => if w ≤ n then 0 else x >>> n) u m.toNat⟩
  | .sarImmA d a w m => some ⟨d, a, fun _ u _ => Claims.shift w true (fun w x n => x.sshiftRight (min n w)) u m.toNat⟩
  | .rotImmA d a w m => some ⟨d, a, fun _ u _ => Claims.shift w false (fun _ x n => x.rotateRight n) u m.toNat⟩
  | .bfxSA d a w o => some ⟨d, a, fun h u _ =>
      let f := fieldOf false (rawImm h (1#1 ++ w ++ o))
      ((u >>> f.1).setWidth f.2.1).signExtend 64⟩
  | .bfxZA d a w o => some ⟨d, a, fun h u _ =>
      let f := fieldOf false (rawImm h (0#1 ++ w ++ o))
      ((u >>> f.1).setWidth f.2.1).setWidth 64⟩
  | .bfiA d a w o => some ⟨d, a, fun h u old =>
      let f := fieldOf true (rawImm h (w ++ o))
      let m : DWord := Claims.fieldMask 64 f.1 f.2.1
      (old &&& ~~~m) ||| ((u <<< f.1) &&& m)⟩
  | .clzA d a w => some ⟨d, a, fun _ u _ =>
      let w := 8 * 2 ^ w.toNat
      BitVec.ofNat 64 ((List.range w).findIdx fun k => u.getLsbD (w - 1 - k))⟩
  | .popcA d a w => some ⟨d, a, fun _ u _ =>
      BitVec.ofNat 64 ((List.range (8 * 2 ^ w.toNat)).countP fun k => u.getLsbD k)⟩
  | _ => none

/-- ADD, AND, OR, XOR, SHL, SHR, SAR and ROT with an immediate, BFX.S, BFX.Z, BFI, CLZ and POPC of the A-stream complete likewise. -/
def Claims.AluOneSource : Prop :=
  ∀ (x : Instr) (s : State) (i : Issue) (t : Team) (r : Claims.OneSource) (u old : DWord) (p : Nat),
    Claims.oneSource x = some r → Issuing x s i t → i.stream = .a →
    sourceA i (atIssue i t) (coreWord s i.core) r.a = .ok u →
    (atIssue i t).a.win.reg 256 r.d.toNat = .ok p → tabGetD 0 t.a.s p = old →
    exec x s = .next (doneWith s i (Claims.setS (atIssue i t) p (r.value i.hint u old)))

/-- DIVS and DIVZ (R90): a divisor other than 0 gives the truncated quotient. A divisor of 0 raises 0x040 at DIVS, with nothing written;
at DIVZ it gives 0 and sets FSTAT.DZ. -/
def Claims.Division : Prop :=
  ∀ (s : State) (i : Issue) (t : Team) (d : BitVec 6) (a b : BitVec 7) (ty : BitVec 3) (u v : DWord) (p : Nat),
    i.stream = .a → sourceA i (atIssue i t) (coreWord s i.core) a = .ok u → sourceA i (atIssue i t) (coreWord s i.core) b = .ok v →
    (atIssue i t).a.win.reg 256 d.toNat = .ok p →
    let q := Claims.setS (atIssue i t) p (Claims.typed ty (Claims.quotient (Claims.signedType ty)) u v)
    let zero := v.setWidth (8 * 2 ^ (ty.toNat % 4)) = 0
    (Issuing (.divs d a b ty) s i t → ¬zero → exec (.divs d a b ty) s = .next (doneWith s i q)) ∧
    (Issuing (.divz d a b ty) s i t → ¬zero → exec (.divz d a b ty) s = .next (doneWith s i q)) ∧
    (Issuing (.divs d a b ty) s i t → zero →
      exec (.divs d a b ty) s =
        .next (settle s i t { value := valueOfA i t (coreWord s i.core) (.divs d a b ty) } (raise 0x040))) ∧
    (Issuing (.divz d a b ty) s i t → zero →
      exec (.divz d a b ty) s =
        .next (doneWith s i { Claims.setS (atIssue i t) p 0 with fstat := t.fstat ||| flagDZ }))

/-- FSHL and FSHR of the A-stream (R95): for a width of 1 to 64, the low bits of the shifted pair, extended; any other width raises
0x041. -/
def Obligations.FunnelShift : Prop :=
  ∀ (s : State) (i : Issue) (t : Team) (d : BitVec 6) (a b : BitVec 7) (sg : BitVec 1) (u v old : DWord) (p : Nat),
    i.stream = .a → sourceA i (atIssue i t) (coreWord s i.core) a = .ok u → sourceA i (atIssue i t) (coreWord s i.core) b = .ok v →
    (atIssue i t).a.win.reg 256 d.toNat = .ok p → tabGetD 0 t.a.s p = old →
    let o := (v.extractLsb' 0 7).toNat
    let w := (v.extractLsb' 8 7).toNat
    let cut := fun (y : DWord) => if sg = 1 then (y.setWidth w).signExtend 64 else (y.setWidth w).setWidth 64
    let left := ((old ++ u) <<< o).extractLsb' 64 64
    let right := ((u ++ old) >>> o).setWidth 64
    (1 ≤ w → w ≤ 64 → Issuing (.fshlA d a b sg) s i t →
      exec (.fshlA d a b sg) s = .next (doneWith s i (Claims.setS (atIssue i t) p (cut left)))) ∧
    (1 ≤ w → w ≤ 64 → Issuing (.fshrA d a b sg) s i t →
      exec (.fshrA d a b sg) s = .next (doneWith s i (Claims.setS (atIssue i t) p (cut right)))) ∧
    (w = 0 ∨ 64 < w → Issuing (.fshlA d a b sg) s i t →
      exec (.fshlA d a b sg) s =
        .next (settle s i t { value := valueOfA i t (coreWord s i.core) (.fshlA d a b sg) } (raise 0x041))) ∧
    (w = 0 ∨ 64 < w → Issuing (.fshrA d a b sg) s i t →
      exec (.fshrA d a b sg) s =
        .next (settle s i t { value := valueOfA i t (coreWord s i.core) (.fshrA d a b sg) } (raise 0x041)))

/-- The conditions of CMP (Table 5-6). -/
def Claims.condition {w : Nat} (c : BitVec 4) (x y : BitVec w) : Bool :=
  match c.toNat with
  | 0 => x == y
  | 1 => x != y
  | 2 => x.slt y
  | 3 => !x.slt y
  | 4 => x.ult y
  | 5 => !x.ult y
  | 6 => y.slt x
  | 7 => !y.slt x
  | 8 => y.ult x
  | _ => !y.ult x

/-- The team of `u` with predicate `p` set; p0 discards the write (R41). -/
def Claims.setP (u : Team) (p : BitVec 3) (v : Bool) : Team :=
  let m : BitVec 8 := 1#8 <<< p.toNat
  if p = 0 then u else { u with a := { u.a with p := (u.a.p &&& ~~~m) ||| (if v then m else 0) } }

/-- CMP, SEL, LI and LI.HI of the A-stream (R96 to R98). -/
def Obligations.CompareSelectLoad : Prop :=
  ∀ (s : State) (i : Issue) (t : Team), i.stream = .a →
    (∀ (p : BitVec 3) (a b : BitVec 7) (c : BitVec 4) (u v : DWord), c.toNat ≤ 9 → Issuing (.cmpA p a b c) s i t →
      sourceA i (atIssue i t) (coreWord s i.core) a = .ok u → sourceA i (atIssue i t) (coreWord s i.core) b = .ok v →
      exec (.cmpA p a b c) s = .next (doneWith s i (Claims.setP (atIssue i t) p (Claims.condition c u v)))) ∧
    (∀ (d : BitVec 6) (a b : BitVec 7) (p : BitVec 3) (u v : DWord) (r : Nat), Issuing (.selA d a b p) s i t →
      sourceA i (atIssue i t) (coreWord s i.core) a = .ok u → sourceA i (atIssue i t) (coreWord s i.core) b = .ok v →
      (atIssue i t).a.win.reg 256 d.toNat = .ok r →
      exec (.selA d a b p) s =
        .next (doneWith s i (Claims.setS (atIssue i t) r (if p = 0 ∨ t.a.p.getLsbD p.toNat then u else v)))) ∧
    (∀ (d : BitVec 6) (m : BitVec 11) (r : Nat), Issuing (.liA d m) s i t → (atIssue i t).a.win.reg 256 d.toNat = .ok r →
      exec (.liA d m) s = .next (doneWith s i (Claims.setS (atIssue i t) r ((signedImm i.hint m).signExtend 64)))) ∧
    (∀ (d : BitVec 6) (m : BitVec 11) (r : Nat), Issuing (.liHiA d m) s i t → (atIssue i t).a.win.reg 256 d.toNat = .ok r →
      exec (.liHiA d m) s = .next (doneWith s i
        (Claims.setS (atIssue i t) r (((signedImm i.hint m).setWidth 32) ++ (tabGetD 0 t.a.s r).setWidth 32))))

/-! ## The address stream's control flow -/

/-- The team of `u` with the A-stream at `pc`. -/
def Claims.goto (u : Team) (pc : DWord) : Team := { u with a := { u.a with pc := pc } }

/-- The predicate that a branch names reads as 1; p0 always does (R41). -/
def Claims.holds (t : Team) (c : BitVec 3) : Bool := c == 0 || t.a.p.getLsbD c.toNat

/-- BR, BRN and LOOP of the A-stream (R99, R63): the target is four times the signed offset from the word. LOOP lowers s0 by 1 and branches
while it is not 0 then; where its predicate is 0 it does nothing. -/
def Claims.AddressBranches : Prop :=
  ∀ (s : State) (i : Issue) (t : Team) (c : BitVec 3) (o : BitVec 22), i.stream = .a →
    let u := atIssue i t
    let target := i.pc + 4 * o.signExtend 64
    (Issuing (.brA c o) s i t →
      exec (.brA c o) s = .next (doneWith s i (if Claims.holds t c then Claims.goto u target else u))) ∧
    (Issuing (.brnA c o) s i t →
      exec (.brnA c o) s = .next (doneWith s i (if Claims.holds t c then u else Claims.goto u target))) ∧
    (Issuing (.loop c o) s i t → Claims.holds t c = false → exec (.loop c o) s = .next (doneWith s i u)) ∧
    (∀ p, Issuing (.loop c o) s i t → Claims.holds t c → u.a.win.reg 256 0 = .ok p →
      let n := tabGetD 0 t.a.s p - 1
      let v := Claims.setS u p n
      exec (.loop c o) s = .next (doneWith s i (if n = 0 then v else Claims.goto v target)))

/-- The window after a call to a callee of `c` registers that spills nothing (R47). -/
def Claims.pushed (w : Window) (phys c : Nat) (link : DWord) (trap : Bool) : Window :=
  { base := (w.base + c) % phys, depth := w.depth + 1,
    frames := { size := c, caller := w.size, link := link, trap := trap } :: w.frames }

/-- The resident frames of a window and one more of `c` registers fit in `phys` registers. -/
def Claims.fits (w : Window) (phys c : Nat) : Prop := (w.frames.map (·.size)).sum + c ≤ phys

/-- CALL with its predicate at 1, CALLI and RET of the A-stream (R47, R100, R101): a call to a listed entry slides the window to the callee's
registers with the next word as its link, and RET slides it back and goes on at the link. Where no frame is spilled or filled, the callee's
window and the caller's are given. A CALL whose predicate is 0 has no effect. -/
def Claims.AddressCalls : Prop :=
  ∀ (s : State) (i : Issue) (t : Team), i.stream = .a →
    let u := atIssue i t
    let code := t.info.kernel.code
    (∀ (c : BitVec 3) (o : BitVec 22), Issuing (.callA c o) s i t → Claims.holds t c = false →
      exec (.callA c o) s = .next (doneWith s i u)) ∧
    (∀ (c : BitVec 3) (o : BitVec 22) (e : CallEntry) (off : Nat), Issuing (.callA c o) s i t → Claims.holds t c →
      (i.pc + 4 * o.signExtend 64 - BitVec.ofNat 64 code).toNat = off → callTarget t false off = some e → off % 4 = 0 → off < 2 ^ 32 →
      t.a.win.depth < 65535 → Claims.fits t.a.win 256 e.fs →
      exec (.callA c o) s = .next (doneWith s i { u with a := { u.a with
        pc := BitVec.ofNat 64 (code + off), win := Claims.pushed t.a.win 256 e.fs (i.pc + 4) false } })) ∧
    (∀ (a : BitVec 7) (e : CallEntry) (off : DWord), Issuing (.calliA a) s i t →
      sourceA i u (coreWord s i.core) a = .ok off → callTarget t false off.toNat = some e → off.toNat % 4 = 0 → off.toNat < 2 ^ 32 →
      t.a.win.depth < 65535 → Claims.fits t.a.win 256 e.fs →
      exec (.calliA a) s = .next (doneWith s i { u with a := { u.a with
        pc := BitVec.ofNat 64 (code + off.toNat), win := Claims.pushed t.a.win 256 e.fs (i.pc + 4) false } })) ∧
    (∀ (c : BitVec 3) (o : BitVec 22) (e : CallEntry) (off : Nat) (r : State) (v : Team), Issuing (.callA c o) s i t → Claims.holds t c →
      (i.pc + 4 * o.signExtend 64 - BitVec.ofNat 64 code).toNat = off → callTarget t false off = some e → off % 4 = 0 → off < 2 ^ 32 →
      t.a.win.depth < 65535 → slideA (s.setTeam i.wid u) i u e.fs (i.pc + 4) false = .ok (r, v) →
      exec (.callA c o) s = .next (doneAs (r.setTeam i.wid (Claims.goto v (BitVec.ofNat 64 (code + off)))) i)) ∧
    (∀ (a : BitVec 7) (e : CallEntry) (off : DWord) (r : State) (v : Team), Issuing (.calliA a) s i t →
      sourceA i u (coreWord s i.core) a = .ok off → callTarget t false off.toNat = some e → off.toNat % 4 = 0 → off.toNat < 2 ^ 32 →
      t.a.win.depth < 65535 → slideA (s.setTeam i.wid u) i u e.fs (i.pc + 4) false = .ok (r, v) →
      exec (.calliA a) s = .next (doneAs (r.setTeam i.wid (Claims.goto v (BitVec.ofNat 64 (code + off.toNat)))) i)) ∧
    (∀ (f : Frame) (fs : List Frame) (v : Team), Issuing .retA s i t → t.a.win.depth ≠ 0 → t.a.win.frames = f :: fs → f.trap = false →
      slideBackA (s.setTeam i.wid u) i u = .ok v → exec .retA s = .next (doneWith s i (Claims.goto v f.link))) ∧
    (∀ (f g : Frame) (fs : List Frame), Issuing .retA s i t → t.a.win.depth ≠ 0 → t.a.win.frames = f :: g :: fs → f.trap = false →
      (fs ≠ [] ∨ t.a.win.depth = 1) →
      exec .retA s = .next (doneWith s i { u with a := { u.a with
        pc := f.link, win := { base := (t.a.win.base + 256 - f.size % 256) % 256, depth := t.a.win.depth - 1, frames := g :: fs } } }))

/-- What a call needs that is not there (R100, R101): a target that is no listed entry raises 0x019, a depth of 65,535 raises 0x01A, a RET
from a trap frame is cause 0x022; and nothing of the call or return takes effect. -/
def Claims.CallCauses : Prop :=
  ∀ (s : State) (i : Issue) (t : Team), i.stream = .a →
    let code := t.info.kernel.code
    let trap := fun (x : Instr) (c : Nat) => settle s i t { value := valueOfA i t (coreWord s i.core) x } (raise c)
    (∀ (a : BitVec 7) (off : DWord), Issuing (.calliA a) s i t → sourceA i (atIssue i t) (coreWord s i.core) a = .ok off →
      callTarget t false off.toNat = none → exec (.calliA a) s = .next (trap (.calliA a) 0x019)) ∧
    (∀ (c : BitVec 3) (o : BitVec 22), Issuing (.callA c o) s i t → Claims.holds t c →
      callTarget t false (i.pc + 4 * o.signExtend 64 - BitVec.ofNat 64 code).toNat = none →
      exec (.callA c o) s = .next (trap (.callA c o) 0x019)) ∧
    (∀ (a : BitVec 7) (off : DWord) (e : CallEntry), Issuing (.calliA a) s i t →
      sourceA i (atIssue i t) (coreWord s i.core) a = .ok off → callTarget t false off.toNat = some e → off.toNat % 4 = 0 →
      off.toNat < 2 ^ 32 → t.a.win.depth = 65535 → exec (.calliA a) s = .next (trap (.calliA a) 0x01A)) ∧
    (∀ (f : Frame) (fs : List Frame), Issuing .retA s i t → t.a.win.depth ≠ 0 → t.a.win.frames = f :: fs → f.trap = true →
      exec .retA s = .next (trap .retA 0x022))

/-- The end of the A-stream, by END or by RET at depth 0 (R47, R101, R204): the stream ends; a held task is cause 0x116 instead (R362), and
while a Lattice command of the team is under way the instruction waits. -/
def Claims.AddressEnd : Prop :=
  ∀ (x : Instr) (s : State) (i : Issue) (t : Team), i.stream = .a → (x = .endS ∨ (x = .retA ∧ t.a.win.depth = 0)) → Issuing x s i t →
    (t.task = none → latticeBusy t = false →
      exec x s = .next (doneWith s i { atIssue i t with a := { (atIssue i t).a with ended := true } })) ∧
    (t.task.isSome → exec x s = .next (settle s i t { value := valueOfA i t (coreWord s i.core) x } (raise 0x116))) ∧
    (t.task = none → latticeBusy t → exec x s = .next (noteWait s i (.lattice 0) []))

/-- Frames nest (R47): after a slide to a new frame that spills nothing, a slide back gives the window back and touches no register,
unless the frame slid from stands alone above frames in memory, whose caller must then be filled. -/
def Claims.WindowsNest : Prop :=
  ∀ (s : State) (i : Issue) (t : Team) (c : Nat) (link : DWord) (trap : Bool),
    c ≤ 64 → Claims.fits t.a.win 256 c → t.a.win.base < 256 → t.a.win.frames ≠ [] → (t.a.win.frames.length ≠ 1 ∨ t.a.win.depth = 0) →
    ∃ u, slideA s i t c link trap = .ok (s, u) ∧ u.a.win = Claims.pushed t.a.win 256 c link trap ∧ slideBackA s i u = .ok t

/-- The header of a spill record gives the frame back (R49, R101, R432): its size and its caller's, the trap-frame bit, and the link of a
frame that is no trap frame; a trap frame's link is not kept. -/
def Claims.SpillHeader : Prop :=
  ∀ (code k : Nat) (f : Frame), f.size < 128 → f.caller < 128 → k < 2 ^ 48 → code + 4 * k < 2 ^ 57 →
    f.link = (if f.trap then 0 else BitVec.ofNat 64 (code + 4 * k)) → frameOfHeader code (frameHeader code f) = f

/-- The translation register that TXL writes for an address on a page of `l` (R102, Table 3-2); `pa` is its physical address, where the
page is resident. -/
def Claims.run (va : Nat) (l : Leaf) (pa : Option Nat) : TReg :=
  { vbase := BitVec.ofNat 57 va, pbase := BitVec.ofNat 52 (pa.getD 0), limit := BitVec.ofNat 32 (min (l.vbase + l.size - va) (2 ^ 32 - 1)),
    valid := true, attr := { l.attr with resident := pa.isSome } }

/-- TXL, TXCLR and PGREQ (R102 to R104): the register of a mapped page, resident or not, and 0x084, 0x081, 0x088 and 0x089 with the
address as the trap value where there is none; TXCLR makes registers invalid; PGREQ of a resident page answers 1, of a declined one 0, and
of another absent one waits, with the page requested. -/
def Obligations.Translation : Prop :=
  ∀ (s : State) (i : Issue) (t : Team), i.stream = .a →
    let u := atIssue i t
    let at_ := fun (tn : BitVec 4) (r : TReg) => { u with a := { u.a with t := tabSetD {} u.a.t tn.toNat r } }
    let trap := fun (c : Nat) (va : DWord) => settle s i t {} (raiseWith c { value := va })
    let s1 := s.setTeam i.wid u
    (∀ (tn : BitVec 4) (a : BitVec 7) (va : DWord), Issuing (.txl tn a) s i t → sourceA i u (coreWord s i.core) a = .ok va →
      (2 ^ 57 ≤ va.toNat → exec (.txl tn a) s = .next (trap 0x084 va)) ∧
      (va.toNat < 2 ^ 57 →
        (∀ l pa, xlate s1 i.core t.info.ctx va.toNat = .hit l pa → exec (.txl tn a) s =
          .next (doneAs ((xlateFill s1 i.core t.info.ctx va.toNat).setTeam i.wid (at_ tn (Claims.run va.toNat l (some pa)))) i)) ∧
        (∀ l, xlate s1 i.core t.info.ctx va.toNat = .absent l → exec (.txl tn a) s =
          .next (doneWith s i (at_ tn (Claims.run va.toNat l none)))) ∧
        (xlate s1 i.core t.info.ctx va.toNat = .unmapped → exec (.txl tn a) s = .next (trap 0x081 va)) ∧
        (xlate s1 i.core t.info.ctx va.toNat = .malformed → exec (.txl tn a) s = .next (trap 0x088 va)) ∧
        (xlate s1 i.core t.info.ctx va.toNat = .unbacked → exec (.txl tn a) s = .next (trap 0x089 va)))) ∧
    (∀ (tn : BitVec 4), Issuing (.txclr tn) s i t → exec (.txclr tn) s = .next (doneWith s i (at_ tn {}))) ∧
    (Issuing .txclrAll s i t → exec .txclrAll s = .next (doneWith s i { u with a := { u.a with t := [] } })) ∧
    (∀ (p : BitVec 3) (a : BitVec 7) (va : DWord), Issuing (.pgreq p a) s i t → sourceA i u (coreWord s i.core) a = .ok va →
      va.toNat < 2 ^ 57 →
      (∀ l pa, xlate s1 i.core t.info.ctx va.toNat = .hit l pa → exec (.pgreq p a) s =
        .next (doneAs ((xlateFill s1 i.core t.info.ctx va.toNat).setTeam i.wid (Claims.setP u p true)) i)) ∧
      (∀ l, xlate s1 i.core t.info.ctx va.toNat = .absent l → t.declined.contains (.a, l.vbase) → exec (.pgreq p a) s =
        .next (doneWith s i (Claims.setP u p false))) ∧
      (∀ l, xlate s1 i.core t.info.ctx va.toNat = .absent l → ¬t.declined.contains (.a, l.vbase) → exec (.pgreq p a) s =
        .next (noteWait s i (.page l.vbase) [⟨l.vbase, l.size, 1⟩])) ∧
      (xlate s1 i.core t.info.ctx va.toNat = .unmapped → exec (.pgreq p a) s = .next (trap 0x081 va)))

/-! ## System registers, traps and hints -/

/-- The current fragment, the issuing one (R196). -/
def Claims.fragOf (i : Issue) (u : Team) : Frag :=
  (tabGet u.frags i.frag).getD { mask := 0, pc := 0, win := {}, partn := 0 }

/-- The value of a system register (Table 3-4); none for a number that the table does not list. -/
def Claims.systemRegister (s : State) (i : Issue) (u : Team) (n : Nat) : Option DWord :=
  let window := fun (w : Window) (f g : Nat) => BitVec.ofNat 64 (w.base + w.size * 2 ^ f + w.caller * 2 ^ g + w.depth * 2 ^ 32)
  match n with
  | 0x00 => some (u.info.seq.setWidth 48 ++ BitVec.ofNat 16 (i.wid % 16))
  | 0x01 => some (BitVec.ofNat 64 u.info.lanes)
  | 0x02 => some (BitVec.ofNat 64 (i.core % 256 + s.dev.devId * 2 ^ 8))
  | 0x03 => some ((Claims.fragOf i u).partn.setWidth 64)
  | 0x04 => some (window u.a.win 8 16)
  | 0x05 => some (window (Claims.fragOf i u).win 10 18)
  | 0x06 => some (BitVec.ofNat 64 u.info.vphys)
  | 0x07 => some (u.a.sspill.setWidth 64)
  | 0x08 => some (u.info.sslim.setWidth 64)
  | 0x09 => some (u.info.vspill.setWidth 64)
  | 0x0A => some (BitVec.ofNat 64 u.info.vspsz)
  | 0x0B => some (batchWord s u)
  | 0x0C => some (BitVec.ofNat 64 (((heldTiles (s.core i.core) i.wid).map fun k => 2 ^ k).sum + u.info.amq * 2 ^ 16))
  | 0x0D => some (u.fstat.setWidth 64)
  | 0x0E => some 0
  | 0x10 => some u.trap.cause
  | 0x11 => some u.trap.pc
  | 0x12 => some u.trap.value
  | 0x13 => some u.trap.tvec
  | _ => none

/-- The stream may name the register (Table 3-4): SWBASE and SSPILL are of the A-stream, PARTN and VWBASE of a fragment. -/
def Claims.inScope (estr : Bool) (n : Nat) : Bool :=
  if n == 0x04 || n == 0x07 then !estr else if n == 0x03 || n == 0x05 then estr else true

/-- The registers that may be written (Table 3-4). -/
def Claims.writable (n : Nat) : Bool := [0x03, 0x0D, 0x0E, 0x10, 0x11, 0x12, 0x13].contains n

/-- A value that sets no reserved bit of a register and gives no field a reserved value (Tables 3-4 and 25-2). -/
def Claims.permitted (n : Nat) (v : DWord) : Prop :=
  match n with
  | 0x03 => 1 ≤ v.toNat ∧ v.toNat ≤ 5
  | 0x0D => v.extractLsb' 7 57 = 0
  | 0x10 => v.extractLsb' 28 4 = 0
  | 0x11 => v.extractLsb' 57 7 = 0
  | 0x13 => v.getLsbD 1 = false ∧ v.getLsbD 33 = false
  | _ => True

/-- The team of `u` with a system register written (R31, R36, R45, R430): the bit CAUSE.ACTIVE keeps its value. -/
def Claims.systemWritten (i : Issue) (u : Team) (n : Nat) (v : DWord) : Team :=
  match n with
  | 0x03 => { u with frags := tabMod u.frags i.frag fun f => { f with partn := v.setWidth 3 } }
  | 0x0D => { u with fstat := v.setWidth 7 }
  | 0x0E => { u with rngSeed := v, rng := [] }
  | 0x10 => { u with trap := { u.trap with cause := (v &&& ~~~(1#64 <<< 16)) ||| (u.trap.cause &&& (1#64 <<< 16)) } }
  | 0x11 => { u with trap := { u.trap with pc := v } }
  | 0x12 => { u with trap := { u.trap with value := v } }
  | 0x13 => { u with trap := { u.trap with tvec := v } }
  | _ => u

/-- SRR (R435, Table 3-4): the register's value goes to s_d, or to the k register in the E-stream; nothing else changes. -/
def Claims.SystemRead : Prop :=
  ∀ (s : State) (i : Issue) (t : Team) (d : BitVec 6) (b : BitVec 7) (n : Nat) (v : DWord), Issuing (.srr d b) s i t → b.toNat = 96 + n →
    Claims.inScope i.estr n → (n = 0x0D → latticeBusy t = false) → Claims.systemRegister s i (atIssue i t) n = some v →
    (∀ p, i.stream = .a → (atIssue i t).a.win.reg 256 d.toNat = .ok p →
      exec (.srr d b) s = .next (doneWith s i (Claims.setS (atIssue i t) p v))) ∧
    (∀ k, i.stream = .e k → exec (.srr d b) s =
      .next (doneWith s i { atIssue i t with k := tabSetD 0 t.k d.toNat v }))

/-- SRW (R435, R45): the value of s_d, or of the k register, is written; nothing else changes. -/
def Claims.SystemWrite : Prop :=
  ∀ (s : State) (i : Issue) (t : Team) (d : BitVec 6) (b : BitVec 7) (n : Nat) (v : DWord), Issuing (.srw d b) s i t → b.toNat = 96 + n →
    Claims.inScope i.estr n → Claims.writable n → Claims.permitted n v → (n = 0x0D → latticeBusy t = false) →
    (∀ p, i.stream = .a → (atIssue i t).a.win.reg 256 d.toNat = .ok p → tabGetD 0 t.a.s p = v →
      exec (.srw d b) s = .next (doneWith s i (Claims.systemWritten i (atIssue i t) n v))) ∧
    (∀ k, i.stream = .e k → tabGetD 0 t.k d.toNat = v →
      exec (.srw d b) s = .next (doneWith s i (Claims.systemWritten i (atIssue i t) n v)))

/-- The causes of SRR and SRW, in the order of R45: 0x012 for a number that Table 3-4 does not list; 0x017 for a register of the other
stream; 0x012 for a write of a read-only register, or of a reserved bit or value. Nothing is written. -/
def Claims.SystemCauses : Prop :=
  ∀ (s : State) (i : Issue) (t : Team) (d : BitVec 6) (b : BitVec 7) (n : Nat), b.toNat = 96 + n →
    let trap := fun (c : Nat) => settle s i t {} (raise c)
    let listed := (Claims.systemRegister s i t n).isSome
    (∀ x, x = .srr d b ∨ x = .srw d b → Issuing x s i t →
      (listed = false → exec x s = .next (trap 0x012)) ∧
      (listed → Claims.inScope i.estr n = false → exec x s = .next (trap 0x017))) ∧
    (∀ v, Issuing (.srw d b) s i t → listed → Claims.inScope i.estr n → ¬(Claims.writable n ∧ Claims.permitted n v) →
      (∀ p, i.stream = .a → (atIssue i t).a.win.reg 256 d.toNat = .ok p → tabGetD 0 t.a.s p = v →
        exec (.srw d b) s = .next (trap 0x012)) ∧
      (∀ k, i.stream = .e k → tabGetD 0 t.k d.toNat = v → exec (.srw d b) s = .next (trap 0x012)))

/-- The word that CAUSE takes at a trap (Table 25-2): the code, IMP, ESTR, FRAG, ACTIVE, LANE with LANEV, and DETAIL. -/
def Claims.CauseFields : Prop :=
  ∀ (i : Issue) (c : Nat) (imp : Bool) (v : TrapValue), c < 2 ^ 9 → i.frag < 32 → (∀ l, v.lane = some l → l < 1024) →
    let w := causeWord i c imp v
    w.extractLsb' 0 9 = BitVec.ofNat 9 c ∧ w.getLsbD 9 = imp ∧ w.getLsbD 10 = i.estr ∧ w.extractLsb' 11 5 = BitVec.ofNat 5 i.frag ∧
    w.getLsbD 16 = true ∧ w.extractLsb' 17 10 = BitVec.ofNat 10 (v.lane.getD 0) ∧ w.getLsbD 27 = v.lane.isSome ∧
    w.extractLsb' 28 4 = 0 ∧ w.extractLsb' 32 32 = v.detail

/-- The offset of a stream's handler from CODE (Table 25-2). -/
def Claims.handlerOffset (i : Issue) (tvec : DWord) : Nat :=
  4 * (if i.estr then tvec.extractLsb' 34 30 else tvec.extractLsb' 2 30).toNat

/-- A stream's handler is enabled (Table 25-2). -/
def Claims.handlerOn (i : Issue) (tvec : DWord) : Bool := if i.estr then tvec.getLsbD 32 else tvec.getLsbD 0

/-- The team whose stream raises a cause: the declined pages of the stream are forgotten, since its instruction has issued (R234), and a pending
cause that is raised is held no longer (R429). -/
def Claims.raising (i : Issue) (t : Team) (c : Nat) (v : TrapValue) (imp : Bool) : Team :=
  { t with declined := t.declined.filter (·.1 ≠ i.stream),
           pend := if imp then t.pend.eraseP (fun p => p.cause = c ∧ p.value = v) else t.pend }

/-- Taking a cause (R432): with the stream's handler enabled, listed in the call-target table and its frame free, CAUSE, TRAPVAL and TRAPPC
take the cause, its value and the raising instruction's address (its hint's or chain hint's); every stream gives up its hint, chain and
wait; the window slides by the handler's frame, a trap frame; and the stream goes on at the handler. Memory is unchanged. -/
def Claims.TrapTaken : Prop :=
  ∀ (s : State) (i : Issue) (t : Team) (c : Nat) (v d : TrapValue) (imp : Bool) (e : CallEntry),
    t.trap.stream = none → Claims.handlerOn i t.trap.tvec → callTarget t i.estr (Claims.handlerOffset i t.trap.tvec) = some e →
    let h := BitVec.ofNat 64 (t.info.kernel.code + Claims.handlerOffset i t.trap.tvec)
    let t1 := (Claims.raising i t c v imp).rollback
    let trap : TrapRegs := { cause := causeWord i c imp v, pc := i.trapPc, value := v.value, tvec := t.trap.tvec, stream := some i.stream }
    (i.stream = .a → t.a.win.depth < 65535 → Claims.fits t.a.win 256 e.fs →
      settle s i t d (.error (.trap c (some v) imp)) = s.setTeam i.wid { t1 with
        trap := trap, a := { t.a.rollback with pc := h, win := Claims.pushed t.a.win 256 e.fs 0 true } }) ∧
    (∀ n f, i.stream = .e n → tabGet t.frags n = some f → f.win.depth < 65535 → Claims.fits f.win t.info.vphys e.fv →
      settle s i t d (.error (.trap c (some v) imp)) = s.setTeam i.wid { t1 with
        trap := trap, frags := tabMod t1.frags n fun f => { f with pc := h, win := Claims.pushed f.win t.info.vphys e.fv 0 true } })

/-- A cause that cannot be taken (R433, R434): in trap mode, with the stream's handler disabled, unlisted (cause 0x019) or at a depth of
65,535 (0x01A) it terminates the team: nothing of it issues again, its pending causes are discarded, and one fault record of cause 0x023 holds the
refused cause, the address and the trap value. -/
def Claims.TrapTerminates : Prop :=
  ∀ (s : State) (i : Issue) (t : Team) (c : Nat) (v d : TrapValue) (imp : Bool),
    let stop := fun (k : Nat) => faultRecord
      (s.setTeam i.wid { Claims.raising i t c v imp with terminated := true, pend := [], trap := { t.trap with stream := none } })
      (some t.info.node) 0x023 0 i.core (teamIdWord t i.wid)
      [[(24, 8, i.trapPc.toNat), (32, 8, (causeWord i k imp v).toNat), (40, 8, v.value.toNat)]]
    (t.trap.stream.isSome ∨ Claims.handlerOn i t.trap.tvec = false → settle s i t d (.error (.trap c (some v) imp)) = stop c) ∧
    (t.trap.stream = none → Claims.handlerOn i t.trap.tvec →
      (callTarget t i.estr (Claims.handlerOffset i t.trap.tvec) = none → settle s i t d (.error (.trap c (some v) imp)) = stop 0x019) ∧
      (∀ e, callTarget t i.estr (Claims.handlerOffset i t.trap.tvec) = some e → i.stream = .a → t.a.win.depth = 65535 →
        settle s i t d (.error (.trap c (some v) imp)) = stop 0x01A))

/-- TRAP raises 0x021 with its operand as the trap value (R436): the value of a, or in the E-stream that of the lowest active lane. -/
def Claims.TrapInstruction : Prop :=
  ∀ (s : State) (i : Issue) (t : Team) (a : BitVec 7), Issuing (.trap a) s i t →
    (∀ v, i.stream = .a → sourceA i (atIssue i t) (coreWord s i.core) a = .ok v →
      ∀ d, exec (.trap a) s = .next (settle s i t d (raiseWith 0x021 { value := v }))) ∧
    (∀ n o l, i.stream = .e n → eOperands i (atIssue i t) (coreWord s i.core) [(a, .int)] none = .ok o → o.lanes.head? = some l →
      ∀ d, exec (.trap a) s = .next (settle s i t d (raiseWith 0x021 { value := (o.arg 0 l).setWidth 64 })))

/-- TRET (R436): in the trap frame the window slides back as at RET, ACTIVE becomes 0 and the stream goes on at TRAPPC; outside a trap frame it
raises 0x022. -/
def Claims.TrapReturn : Prop :=
  ∀ (s : State) (i : Issue) (t : Team), Issuing .tret s i t →
    let u := atIssue i t
    let trap := { t.trap with cause := t.trap.cause &&& ~~~(1#64 <<< 16), stream := none }
    let s1 := s.setTeam i.wid u
    (inTrapFrame t i.stream = false → exec .tret s = .next (settle s i t {} (raise 0x022))) ∧
    (∀ v, inTrapFrame t i.stream → i.stream = .a → slideBackA s1 i u = .ok v →
      exec .tret s = .next (doneWith s i { v with trap := trap, a := { v.a with pc := t.trap.pc } })) ∧
    (∀ n f v w, inTrapFrame t i.stream → i.stream = .e n → tabGet u.frags n = some f → slideBackE s1 i u f.win f.mask = .ok (v, w) →
      exec .tret s = .next (doneWith s i
        { v with trap := trap, frags := tabMod v.frags n fun f => { f with pc := t.trap.pc, win := w } }))

/-- The team of `u` with a hint for its stream's next instruction. -/
def Claims.hinted (i : Issue) (u : Team) (h : Hint) : Team :=
  let p : Option PendHint := some { hint := h, pc := i.pc }
  match i.stream with
  | .a => { u with a := { u.a with hint := p } }
  | .e n => { u with frags := tabMod u.frags n fun f => { f with hint := p } }

/-- NOP and the hints (R68 to R75, R436): NOP changes nothing; IMM, MOD, EXT and SCHED hold for the stream's next instruction; CHAIN begins a
chain of l + 2 instructions, whose latches are invalid; nothing else changes. -/
def Claims.HintsAndNop : Prop :=
  ∀ (s : State) (i : Issue) (t : Team),
    let u := atIssue i t
    (Issuing .nop s i t → exec .nop s = .next (doneWith s i u)) ∧
    (∀ p, Issuing (.imm p) s i t → exec (.imm p) s = .next (doneWith s i (Claims.hinted i u (.imm p)))) ∧
    (∀ c o sc n r, Issuing (.mod c o sc n r) s i t → exec (.mod c o sc n r) s = .next (doneWith s i (Claims.hinted i u (.mod c o sc n r)))) ∧
    (∀ g e, Issuing (.ext g e) s i t → exec (.ext g e) s = .next (doneWith s i (Claims.hinted i u (.ext g e)))) ∧
    (∀ h y, Issuing (.sched h y) s i t → exec (.sched h y) s = .next (doneWith s i (Claims.hinted i u (.sched h y)))) ∧
    (∀ l n, i.stream = .e n → Issuing (.chain l) s i t → exec (.chain l) s = .next (s.setTeam i.wid { u with
      declined := t.declined.filter (·.1 ≠ i.stream),
      frags := tabMod u.frags n fun f => { f with chain := some { hintPc := i.pc, len := l.toNat + 2, left := l.toNat + 2 } } }))

/-- A word that is no instruction (R78, R231): its cause is raised, with the word and its hint's word as the trap value (Table 25-3), or
the address for a fetch that meets a memory cause; it has no other effect. -/
def Claims.NoInstruction : Prop :=
  ∀ (s : State) (i : Issue) (t : Team) (c : Nat) (w : BitVec 32), issueOf s = some (i, t) → pendingAt t (fun _ => true) = none →
    exec (.notAnInstruction c w) s = .next (settle s i t {} (raiseWith c
      (if c = 0x00B then {} else if 0x080 ≤ c then { value := i.pc }
       else { value := (match i.hint with | some h => hintWord h | none => 0#32) ++ w })))

/-- Pending causes (R429): outside trap mode an instruction that may raise one raises the oldest of the kinds that it may raise, with IMP set, and has
no effect of its own; END raises causes of every kind, and any A-stream instruction that of a task's limit. In trap mode none is raised. -/
def Claims.PendingRaised : Prop :=
  ∀ (s : State) (i : Issue) (t : Team), issueOf s = some (i, t) → i.stream = .a →
    let raised := fun (p : PendCause) (d : TrapValue) => settle s i t d (.error (.trap p.cause (some p.value) true))
    (∀ p d, t.trap.stream = none → t.pend.head? = some p → exec .endS s = .next (raised p d)) ∧
    (∀ p d, t.trap.stream = none → t.pend.find? (·.kind = .taskLimit) = some p → exec .nop s = .next (raised p d)) ∧
    (t.trap.stream.isSome → issueCause false i.hint none .nop = none → exec .nop s = .next (doneWith s i (atIssue i t)))

/-! ## The address stream's memory and queue instructions -/

/-- The byte count of a size code (R64). -/
def Claims.bytes (sz : BitVec 2) : Nat := 2 ^ sz.toNat

/-- No access of some located ones meets the race check of R256. -/
def Claims.noRace (s : State) (i : Issue) (t : Team) (ls : List Located) (size : Nat) : Prop :=
  ∀ l ∈ ls, raceTest s i.wid t.acq (s.region t.info.node).racechk l.attr.nc l.pa size = none

/-- After the instruction the issuing team is `u`, moved on; only its stash lines and what it has seen of releases may differ (R161, R239,
R255). -/
def Claims.leaves (s' : State) (i : Issue) (u : Team) : Prop :=
  ∃ v, s'.team? i.wid = some v ∧
    { v with stash := [], acq := [], seen := none } = { u.issued i.stream with stash := [], acq := [], seen := none }

/-- The address of a uniform operand (R64): VBASE + index + off × size, wrapping. -/
def Claims.address (r : TReg) (index : DWord) (off : Int) (size : Nat) : Nat :=
  ((r.vbase.setWidth 64 + index + BitVec.ofInt 64 (off * size)).toNat)

/-- LDS (R64, R107 to R109): where the access at VBASE + index + off × size passes its checks, s_d takes its 1, 2, 4 or 8 bytes, zero-extended
(of a trigger counter, its value: R395); memory and everything else of the team are unchanged. -/
def Claims.LoadScalar : Prop :=
  ∀ (s : State) (i : Issue) (t : Team) (d : BitVec 6) (tn : BitVec 4) (x : BitVec 7) (sz : BitVec 2) (off : BitVec 6) (idx : DWord)
    (p : Nat) (l : Located),
    let r := tabGetD {} t.a.t tn.toNat
    let n := Claims.bytes sz
    let v := if isAperture l.pa then counterAt s l.pa else BitVec.ofNat 64 (leNat (memBytes s.mem l.pa n))
    Issuing (.lds d tn x sz off) s i t → i.stream = .a → sourceA i (atIssue i t) (coreWord s i.core) x = .ok idx →
    (atIssue i t).a.win.reg 256 d.toNat = .ok p →
    checkAccess s i.core t.info.ctx r none (Claims.address r idx (offsetUnits i.hint off) n) n .read = .at_ l → Claims.noRace s i t [l] n →
    ∃ s', exec (.lds d tn x sz off) s = .next s' ∧ sameMem s s' ∧ Claims.leaves s' i (Claims.setS (atIssue i t) p v)

/-- What LDS and STS meet instead (R107, R208, R256): a failed check raises its cause, with the address; a race raises 0x0A0 at the load and
0x0A1 at the store; an absent page is requested and the instruction waits. Nothing else happens. -/
def Obligations.ScalarAccessCauses : Prop :=
  ∀ (s : State) (i : Issue) (t : Team) (d : BitVec 6) (tn : BitVec 4) (x : BitVec 7) (sz : BitVec 2) (off : BitVec 6) (idx : DWord)
    (p : Nat) (store : Bool),
    let y : Instr := if store then .sts d tn x sz off else .lds d tn x sz off
    let r := tabGetD {} t.a.t tn.toNat
    let n := Claims.bytes sz
    let va := Claims.address r idx (offsetUnits i.hint off) n
    let c := checkAccess s i.core t.info.ctx r none va n (if store then .write else .read)
    Issuing y s i t → i.stream = .a → sourceA i (atIssue i t) (coreWord s i.core) x = .ok idx → (atIssue i t).a.win.reg 256 d.toNat = .ok p →
    (∀ k, c = .cause k → memCauseOrder.contains k →
      exec y s = .next (settle s i t {} (raiseWith k { value := BitVec.ofNat 64 va }))) ∧
    (∀ q, c = .need q → t.wasDeclined i.stream q.page = false → exec y s = .next (noteWait s i (.page q.page) [q])) ∧
    (∀ l second, c = .at_ l → raceTest s i.wid t.acq (s.region t.info.node).racechk l.attr.nc l.pa n = some second →
      ∃ v, v.value = BitVec.ofNat 64 va ∧ v.lane = none ∧ v.detail.getLsbD 24 = second ∧
        v.detail.extractLsb' 0 24 = (tagAt s l.pa).mask ++ (tagAt s l.pa).gen ++ (tagAt s l.pa).wid ∧
        exec y s = .next (settle s i t {} (raiseWith (if store then 0x0A1 else 0x0A0) v)))

/-- The order and the scope of a MOD hint make the store a release (R158, R239). -/
def Claims.releases (h : Option Hint) : Bool := (modOf h).2.1.getLsbD 1 && (modOf h).2.2 != 0

/-- A release at system scope finds the acknowledgement counter at 0 (R158, R244). -/
def Claims.acked (i : Issue) (t : Team) : Prop := Claims.releases i.hint → (modOf i.hint).2.2 = 5 → t.acks = 0

/-- STS (R64, R107 to R109, R158, R396): where the access passes its checks, the low bytes of s_d are stored there and no other byte of memory changes;
at the counter aperture a trigger counter is raised instead and no byte changes. The team's registers keep their values. -/
def Claims.StoreScalar : Prop :=
  ∀ (s : State) (i : Issue) (t : Team) (d : BitVec 6) (tn : BitVec 4) (x : BitVec 7) (sz : BitVec 2) (off : BitVec 6) (idx : DWord)
    (p : Nat) (l : Located),
    let r := tabGetD {} t.a.t tn.toNat
    let n := Claims.bytes sz
    let v := tabGetD 0 t.a.s p
    Issuing (.sts d tn x sz off) s i t → i.stream = .a → sourceA i (atIssue i t) (coreWord s i.core) x = .ok idx →
    (atIssue i t).a.win.reg 256 d.toNat = .ok p →
    checkAccess s i.core t.info.ctx r none (Claims.address r idx (offsetUnits i.hint off) n) n .write = .at_ l → Claims.noRace s i t [l] n →
    Claims.acked i t →
    ∃ s', exec (.sts d tn x sz off) s = .next s' ∧ Claims.leaves s' i (atIssue i t) ∧
      (if isAperture l.pa then sameMem s s' else sameMemBut s s' l.pa n ∧ memBytes s'.mem l.pa n = natLe n v.toNat)

/-- What a lane's located access reads. -/
def Claims.loaded (s : State) (l : Located) (n : Nat) : DWord :=
  if isAperture l.pa then counterAt s l.pa else BitVec.ofNat 64 (leNat (memBytes s.mem l.pa n))

/-- A queue may take an entry of the A-stream: its number is of that kind, it is declared and has room (R55, R56, R88). -/
def Claims.takes (t : Team) (q : Nat) : Prop := (t.queue q).cap ≠ 0 ∧ hasRoom t q

/-- The lanes of a team that live. -/
def Claims.liveLanes (t : Team) (m : Mask) : List Nat := (List.range t.info.lanes).filter fun k => (t.live &&& m).getLsbD k

/-- The lanes of LDQ (R110) or GATHQ (R112), each with its address: lane L at the base + L × size, the uniform entry of q6 at the base, or
the address that a lane's index forms. -/
def Claims.queueAddresses (i : Issue) (t : Team) (r : TReg) (x : Instr) (idx : DWord) (e : QEntry) : Addressed :=
  match x with
  | .ldq d _ _ sz off =>
    let va := Claims.address r idx (offsetUnits i.hint off) (Claims.bytes sz)
    if d = 6 then [(none, va)] else (Claims.liveLanes t (BitVec.allOnes 1024)).map fun k => (some k, (va + k * Claims.bytes sz) % 2 ^ 64)
  | .gathq _ _ _ sz off => (Claims.liveLanes t (~~~e.void)).map fun k =>
      (some k, Claims.address r ((tabGetD 0 e.vals k).setWidth 32 |>.setWidth 64) (offsetUnits i.hint off) (Claims.bytes sz))
  | _ => []

/-- LDQ and GATHQ (R106, R108, R110, R112): with the queues declared, room in queue d and, at GATHQ, a complete index entry, and every lane's
access resident and free of causes, one entry with the lanes' values goes to the gather engine; GATHQ drops the index entry that it pops.
Memory is unchanged. -/
def Claims.QueueLoads : Prop :=
  ∀ (s : State) (i : Issue) (t : Team) (x : Instr) (d : BitVec 6) (sz : BitVec 2) (tn : BitVec 4) (f : BitVec 7) (off : BitVec 6) (idx : DWord)
    (e : QEntry) (loc : Option Nat × Nat → Located),
    let r := tabGetD {} t.a.t tn.toNat
    let u := atIssue i t
    let as := Claims.queueAddresses i t r x idx e
    Issuing x s i t → i.stream = .a → Claims.takes t d.toNat →
    (x = .ldq d tn f sz off ∧ (d.toNat < 4 ∨ d = 6) ∧ sourceA i u (coreWord s i.core) f = .ok idx ∨
      x = .gathq d tn f sz off ∧ d.toNat < 4 ∧ (t.queue (indexQueue f)).cap ≠ 0 ∧ headEtoA u (indexQueue f) = .ok e) →
    (∀ a ∈ as, checkAccess s i.core t.info.ctx r a.1 a.2 (Claims.bytes sz) .queueRead = .at_ (loc a)) →
    Claims.noRace s i t (as.map loc) (Claims.bytes sz) →
    ∃ (s' : State) (g : GatherOp), exec x s = .next s' ∧ sameMem s s' ∧ g.q = d.toNat ∧ g.entry.resid = 0 ∧
      (∀ a ∈ as, tabGetD 0 g.entry.vals (a.1.getD 0) = Claims.loaded s (loc a) (Claims.bytes sz)) ∧
      let v := match x with | .gathq .. => if isPopField f then dropEtoA u (indexQueue f) else u | _ => u
      Claims.leaves s' i { v with gather := t.gather ++ [g] }

/-- The lanes of STQ (R111) or SCATQ (R113) that store, each with its address. -/
def Claims.storeAddresses (i : Issue) (t : Team) (r : TReg) (x : Instr) (idx : DWord) (e data : QEntry) : Addressed :=
  match x with
  | .stq _ _ sz off => ((List.range t.info.lanes).filter fun k => (data.written &&& ~~~data.void).getLsbD k).map fun k =>
      (some k, (Claims.address r idx (offsetUnits i.hint off) (Claims.bytes sz) + k * Claims.bytes sz) % 2 ^ 64)
  | .scatq _ _ sz off =>
    ((List.range t.info.lanes).filter fun k => (e.written &&& data.written &&& ~~~e.void &&& ~~~data.void).getLsbD k).map fun k =>
      (some k, Claims.address r ((tabGetD 0 e.vals k).setWidth 32 |>.setWidth 64) (offsetUnits i.hint off) (Claims.bytes sz))
  | _ => []

/-- STQ and SCATQ (R106, R108, R111, R113): with the queues declared and their oldest entries complete, and every lane's access resident and free of causes,
the lanes that wrote the entries and did not void them store in ascending order; the entries are dropped. Every byte outside the lanes' addresses is unchanged, and the
bytes of the highest lane that stores hold its value. -/
def Claims.QueueStores : Prop :=
  ∀ (s : State) (i : Issue) (t : Team) (x : Instr) (sz : BitVec 2) (tn : BitVec 4) (f : BitVec 7) (off : BitVec 6) (idx : DWord)
    (e data : QEntry) (loc : Option Nat × Nat → Located),
    let r := tabGetD {} t.a.t tn.toNat
    let u := atIssue i t
    let n := Claims.bytes sz
    let as := Claims.storeAddresses i t r x idx e data
    Issuing x s i t → i.stream = .a → (t.queue 7).cap ≠ 0 → headEtoA u 7 = .ok data →
    (x = .stq tn f sz off ∧ sourceA i u (coreWord s i.core) f = .ok idx ∨
      x = .scatq tn f sz off ∧ (t.queue (indexQueue f)).cap ≠ 0 ∧ headEtoA u (indexQueue f) = .ok e) →
    (∀ a ∈ as, checkAccess s i.core t.info.ctx r a.1 a.2 n .queueWrite = .at_ (loc a)) →
    Claims.noRace s i t (as.map loc) n →
    ∃ s', exec x s = .next s' ∧
      (∀ k, (∀ a ∈ as, k < (loc a).pa ∨ (loc a).pa + n ≤ k) → memGet s'.mem k = memGet s.mem k) ∧
      (∀ a, as.getLast? = some a → isAperture (loc a).pa = false →
        memBytes s'.mem (loc a).pa n = natLe n ((tabGetD 0 data.vals (a.1.getD 0)).toNat)) ∧
      Claims.leaves s' i (dropEtoA (match x with | .scatq .. => if isPopField f then dropEtoA u (indexQueue f) else u | _ => u) 7)

/-- QPUSH of the A-stream (R106, R114): q6 takes a uniform entry of 64 bits; q0 to q3 take one in which lane L holds the low 32 bits of
a + L × b, for every lane that lives. -/
def Claims.QueuePush : Prop :=
  ∀ (s : State) (i : Issue) (t : Team) (d : BitVec 6) (a b : BitVec 7) (v w : DWord),
    let u := atIssue i t
    Issuing (.qpushA d a b) s i t → i.stream = .a → Claims.takes t d.toNat → (∀ g ∈ t.gather, g.q ≠ d.toNat) →
    sourceA i u (coreWord s i.core) a = .ok v →
    (d = 6 → exec (.qpushA d a b) s = .next (doneWith s i (pushAtoE u 6 { vals := tabSetD 0 [] 0 v }))) ∧
    (d.toNat < 4 → sourceA i u (coreWord s i.core) b = .ok w →
      ∃ e : QEntry, exec (.qpushA d a b) s = .next (doneWith s i (pushAtoE u d.toNat e)) ∧ e.resid = 0 ∧ e.void = 0 ∧
        ∀ k, tabGetD 0 e.vals k =
          if k < t.info.lanes ∧ t.live.getLsbD k then ((v + BitVec.ofNat 64 k * w).setWidth 32).setWidth 64 else 0)

/-- The queues (R55 to R57): an entry of the A-stream goes behind the others, pending in every lane that lives, unless no lane lives; an
entry for the A-stream is dropped from the head. The other queues, and everything else of the team, are unchanged. -/
def Claims.QueueEnds : Prop :=
  ∀ (t : Team) (q : Nat) (e : QEntry),
    (t.live ≠ 0 → (∀ x ∈ (t.queue q).entries, x.pend ≠ 0) →
      ((pushAtoE t q e).queue q).entries = (t.queue q).entries ++ [{ e with pend := t.live }]) ∧
    ((pushAtoE t q e).queue q).cap = (t.queue q).cap ∧
    ((dropEtoA t q).queue q).entries = (t.queue q).entries.tail ∧ ((dropEtoA t q).queue q).cap = (t.queue q).cap ∧
    (∀ k, k ≠ q → (pushAtoE t q e).queue k = t.queue k ∧ (dropEtoA t q).queue k = t.queue k) ∧
    { pushAtoE t q e with q := [] } = { t with q := [] } ∧ { dropEtoA t q with q := [] } = { t with q := [] }

/-- The value that an atomic leaves (R153); none where the comparison of CAS fails. FADD is the FP32 sum, to nearest-even. -/
def Claims.atomicValue {w : Nat} (fn : Nat) (old v c : BitVec w) : Option (BitVec w) :=
  match fn with
  | 0 => some (old + v)
  | 1 => some (old &&& v)
  | 2 => some (old ||| v)
  | 3 => some (old ^^^ v)
  | 4 => some (if v.slt old then v else old)
  | 5 => some (if old.slt v then v else old)
  | 6 => some (if v.ult old then v else old)
  | 7 => some (if old.ult v then v else old)
  | 8 => some v
  | 9 => if old = c then some v else none
  | _ => some (BitVec.ofNat w (atomicFadd .f32 old.toNat v.toNat))

/-- ATOM (R152, R153, R158): where the access passes its checks, s_d takes the old value, and memory holds the new one at that address and
is unchanged elsewhere; a CAS whose comparison fails writes nothing. CAS compares with s_(d+1). An ADD to a trigger counter raises the counter, and
no byte of memory changes (R395). -/
def Obligations.AtomicScalar : Prop :=
  ∀ (s : State) (i : Issue) (t : Team) (d : BitVec 6) (tn : BitVec 4) (x : BitVec 7) (sz : BitVec 2) (f : BitVec 4) (idx c : DWord)
    (p : Nat) (l : Located),
    let r := tabGetD {} t.a.t tn.toNat
    let u := atIssue i t
    let n := Claims.bytes sz
    let w := 8 * n
    let old := if isAperture l.pa then (counterAt s l.pa).setWidth w else BitVec.ofNat w (leNat (memBytes s.mem l.pa n))
    let new := Claims.atomicValue f.toNat old ((tabGetD 0 t.a.s p).setWidth w) (c.setWidth w)
    Issuing (.atom d tn x sz f) s i t → i.stream = .a → 2 ≤ sz.toNat → f.toNat ≤ 10 → sourceA i u (coreWord s i.core) x = .ok idx →
    u.a.win.reg 256 d.toNat = .ok p → (f = 9 → readS u (d.toNat + 1) = .ok c) →
    checkAccess s i.core t.info.ctx r none (Claims.address r idx (functionUnits i.hint) n) n
      (if f = 0 ∧ n = 8 then .counterAdd else .atomic) = .at_ l →
    Claims.noRace s i t [l] n → Claims.acked i t →
    ∃ s', exec (.atom d tn x sz f) s = .next s' ∧ Claims.leaves s' i (Claims.setS u p (old.setWidth 64)) ∧
      (match new with
        | none => sameMem s s'
        | some v => if isAperture l.pa then sameMem s s' else sameMemBut s s' l.pa n ∧ memBytes s'.mem l.pa n = natLe n v.toNat)

/-- The result queue of ATOMQ or AGGADD can take the result (R152, R156); 7 names no result. -/
def Claims.resultReady (t : Team) (q : Nat) : Prop := q = 7 ∨ (q < 4 ∨ q = 6) ∧ Claims.takes t q ∧ ∀ g ∈ t.gather, g.q ≠ q

/-- ATOMQ (R152, R154, R156): the lanes perform their atomics on 4-byte words in ascending order, each on what the lane before left; the index and data entries
are dropped, the second data entry too at CAS, and the old values go to queue d, if it is not 7. Bytes outside the lanes' addresses are unchanged. -/
def Claims.AtomicLanes : Prop :=
  ∀ (s : State) (i : Issue) (t : Team) (d : BitVec 6) (tn : BitVec 4) (x : BitVec 7) (sz : BitVec 2) (f : BitVec 4)
    (e v c : QEntry) (loc : Option Nat × Nat → Located),
    let r := tabGetD {} t.a.t tn.toNat
    let u := atIssue i t
    let as := (Claims.liveLanes t (~~~e.void &&& ~~~v.void &&& ~~~c.void)).map fun k =>
      (some k, Claims.address r ((tabGetD 0 e.vals k).setWidth 32 |>.setWidth 64) (functionUnits i.hint) 4)
    Issuing (.atomq d tn x sz f) s i t → i.stream = .a → Claims.resultReady t d.toNat → d ≠ 6 → f.toNat ≤ 10 →
    (t.queue 7).cap ≠ 0 → (t.queue (indexQueue x)).cap ≠ 0 →
    headEtoA u (indexQueue x) = .ok e → headEtoA u 7 = .ok v → (if f = 9 then headEtoA u 7 1 = .ok c else c = {}) →
    (∀ a ∈ as, checkAccess s i.core t.info.ctx r a.1 a.2 4 .atomic = .at_ (loc a)) →
    Claims.noRace s i t (as.map loc) 4 → Claims.acked i t →
    ∃ (s' : State) (olds : Tab DWord), exec (.atomq d tn x sz f) s = .next s' ∧
      (∀ k, (∀ a ∈ as, k < (loc a).pa ∨ (loc a).pa + 4 ≤ k) → memGet s'.mem k = memGet s.mem k) ∧
      (∀ a ∈ as, (∀ b ∈ as, b ≠ a → (loc b).pa + 4 ≤ (loc a).pa ∨ (loc a).pa + 4 ≤ (loc b).pa) →
        let old := BitVec.ofNat 32 (leNat (memBytes s.mem (loc a).pa 4))
        let new := Claims.atomicValue f.toNat old ((tabGetD 0 v.vals (a.1.getD 0)).setWidth 32) ((tabGetD 0 c.vals (a.1.getD 0)).setWidth 32)
        tabGetD 0 olds (a.1.getD 0) = old.setWidth 64 ∧ memBytes s'.mem (loc a).pa 4 = natLe 4 (new.getD old).toNat) ∧
      (let w := dropEtoA (if isPopField x then dropEtoA u (indexQueue x) else u) 7
       let w := if f = 9 then dropEtoA w 7 else w
       Claims.leaves s' i (if d = 7 then w else pushAtoE w d.toNat { vals := olds }))

/-- AGGADD and AGGADD.ONE (R152, R155, R156): the lanes' increments (of AGGADD.ONE, 1 each; of a void lane, 0) are added in one atomic to
the word, and q0 to q3 take, for each lane, the old value and the sum of the lanes below it, q6 the old value alone. The index entry is
dropped, if it is popped. No other byte changes. -/
def Claims.AtomicAggregate : Prop :=
  ∀ (s : State) (i : Issue) (t : Team) (one : Bool) (d : BitVec 6) (tn : BitVec 4) (x : BitVec 7) (sz : BitVec 2) (e : QEntry) (l : Located),
    let y : Instr := if one then .aggaddOne d tn x sz else .aggadd d tn x sz
    let r := tabGetD {} t.a.t tn.toNat
    let u := atIssue i t
    let n := Claims.bytes sz
    let old := BitVec.ofNat 64 (leNat (memBytes s.mem l.pa n))
    let inc := fun k => if e.void.getLsbD k then 0 else if one then 1 else (tabGetD 0 e.vals k).toNat % 2 ^ 32
    let sum := fun (m : Nat) => (((Claims.liveLanes t (BitVec.allOnes 1024)).filter fun k => decide (k < m)).map inc).sum
    Issuing y s i t → i.stream = .a → 2 ≤ sz.toNat → Claims.resultReady t d.toNat → (t.queue (indexQueue x)).cap ≠ 0 →
    headEtoA u (indexQueue x) = .ok e →
    checkAccess s i.core t.info.ctx r none (Claims.address r 0 (functionUnits i.hint) n) n .atomic = .at_ l → Claims.noRace s i t [l] n → Claims.acked i t →
    ∃ (s' : State) (g : QEntry), exec y s = .next s' ∧ sameMemBut s s' l.pa n ∧
      memBytes s'.mem l.pa n = natLe n (old.toNat + sum t.info.lanes) ∧
      (d = 6 → g.vals = tabSetD 0 [] 0 old) ∧
      (d.toNat < 4 → ∀ k, k < t.info.lanes → t.live.getLsbD k → tabGetD 0 g.vals k = BitVec.ofNat 64 ((old.toNat + sum k) % 2 ^ 32)) ∧
      (let w := if isPopField x then dropEtoA u (indexQueue x) else u
       Claims.leaves s' i (if d = 7 then w else pushAtoE w d.toNat g))

/-! ## The lanes of the compute stream -/

/-- The active lanes of a fragment, ascending. -/
def Claims.activeLanes (u : Team) (f : Frag) : List Nat := (List.range u.info.lanes).filter fun l => f.mask.getLsbD l

/-- A source field that reads no queue and no latch, and whose window register is in reach (Table 6-1, R46). -/
def Claims.plainField (f : Frag) (x : BitVec 7) : Prop :=
  x.toNat < f.win.size + f.win.caller ∧ x.toNat < 64 ∨ 88 ≤ x.toNat

/-- The value of such a field in a lane (Tables 3-3, 4-4 and 6-1): a window register of the lane, a special, or a constant of the operand's type. -/
def Claims.fieldValue (i : Issue) (u : Team) (core : Nat) (f : Frag) (x : BitVec 7) (ty : OpType) (l : Nat) : Word :=
  let size := 2 ^ f.partn.toNat
  if x.toNat < 64 then tabGetD 0 u.v (l * 1024 + (f.win.base + 64 * u.info.vphys - x.toNat) % u.info.vphys) else
  match x.toNat with
  | 88 => BitVec.ofNat 32 l
  | 89 => BitVec.ofNat 32 u.info.lanes
  | 90 => BitVec.ofNat 32 core
  | 91 => BitVec.ofNat 32 (i.wid % 16)
  | 92 => BitVec.ofNat 32 (l / size)
  | 93 => BitVec.ofNat 32 (l % size)
  | 94 => BitVec.ofNat 32 i.frag
  | 95 => i.cyclo
  | n => constantBits ty (n - 96)

/-- The operands of a lane instruction (R116, R117, Table 6-1): where no field names a queue or a latch they are read at once, in every active lane:
a and b, the extra fields e and g behind d, and d itself where it is a source. -/
def Claims.LaneOperands : Prop :=
  ∀ (i : Issue) (u : Team) (core : Nat) (f : Frag) (fs : ESources) (d : BitVec 6), tabGet u.frags i.frag = some f → fs.length ≤ 4 →
    (∀ x ∈ fs, Claims.plainField f x.1) →
    (∃ o, eOperands i u core fs none = .ok o ∧ o.frag = f ∧ o.lanes = Claims.activeLanes u f ∧ o.resid = none ∧ o.fields = fs.map (·.1) ∧
      ∀ k x l, fs[k]? = some x → o.arg (if k < 2 then k else k + 1) l = Claims.fieldValue i u core f x.1 x.2 l) ∧
    (d.toNat < f.win.size + f.win.caller →
      ∃ o, eOperands i u core fs (some d) = .ok o ∧ o.frag = f ∧ o.lanes = Claims.activeLanes u f ∧ o.resid = none ∧ o.fields = fs.map (·.1) ∧
        (∀ k x l, fs[k]? = some x → o.arg (if k < 2 then k else k + 1) l = Claims.fieldValue i u core f x.1 x.2 l) ∧
        ∀ l, o.arg 2 l = Claims.fieldValue i u core f (0#1 ++ d) .int l)

/-- A queue operand (R56, R88, R118, R194): it reads, in each active lane, the lane's oldest pending entry, with its residency bit; while some lane has
none it waits, and raises 0x01B once none can come. A peek (80 to 87) leaves the entries, and a pop (72 to 79) takes each active lane from its oldest one. -/
def Claims.LaneQueueOperand : Prop :=
  ∀ (i : Issue) (u : Team) (core : Nat) (f : Frag) (x : BitVec 7) (q : Nat), tabGet u.frags i.frag = some f → (q < 4 ∨ q = 6) →
    (x.toNat = 72 + q ∨ x.toNat = 80 + q) → (u.queue q).cap ≠ 0 →
    let lanes := Claims.activeLanes u f
    (∀ e : Nat → QEntry, (∀ l ∈ lanes, laneEntry (u.queue q) l = some (e l)) →
      ∃ o, eOperands i u core [(x, .int)] none = .ok o ∧ o.lanes = lanes ∧
        (∀ l ∈ lanes, o.arg 0 l = (tabGetD 0 (e l).vals (if q = 6 then 0 else l)).setWidth 32) ∧
        (∃ m, o.resid = some m ∧ ∀ l, m.getLsbD l = decide (l ∈ lanes ∧ (e l).resid.getLsbD l)) ∧
        popFields u f o.fields = (if 80 ≤ x.toNat then u else u.setQueue q (popLanes (u.queue q) lanes))) ∧
    (∀ l ∈ lanes, laneEntry (u.queue q) l = none →
      (u.a.ended = false ∨ u.gather ≠ [] → eOperands i u core [(x, .int)] none = waitOn (.queue q)) ∧
      (u.a.ended → u.gather = [] → eOperands i u core [(x, .int)] none = raise 0x01B))

/-- The end of a lane instruction (R35, R52, R118): v_d takes the result in the active lanes, unless nw is 1; in a chain the latch of the pipe takes it,
and an ALU result moves b0 to b1; FSTAT joins the flags, f7 the residency bits where a queue was read; nothing else changes but the queues that
were popped. -/
def Obligations.LaneDelivery : Prop :=
  ∀ (i : Issue) (u : Team) (o : ELanes) (n : BitVec 1) (p pipe : Nat) (val : Nat → Word) (fl : FpFlags), p < 1024 →
    tabGet u.frags i.frag = some o.frag → o.lanes.Nodup →
    let w := deliverV i u o n p pipe { vals := o.lanes.map fun l => (l, val l), flags := fl }
    (n = 0 → (∀ l ∈ o.lanes, tabGetD 0 w.v (l * 1024 + p) = val l) ∧
      ∀ k, (∀ l ∈ o.lanes, k ≠ l * 1024 + p) → tabGetD 0 w.v k = tabGetD 0 u.v k) ∧
    (n = 1 → w.v = u.v) ∧
    w.fstat = u.fstat ||| fl ∧
    (o.resid = none → w.f = u.f) ∧
    (∀ m, o.resid = some m → tabGetD 0 w.f 7 = (tabGetD 0 u.f 7 &&& ~~~o.frag.mask) ||| (m &&& o.frag.mask)) ∧
    (∀ k, k ≠ 7 → tabGetD 0 w.f k = tabGetD 0 u.f k) ∧
    (o.frag.chain = none → tabGet w.frags i.frag = some o.frag) ∧
    (∀ c, o.frag.chain = some c → ∃ c', tabGet w.frags i.frag = some { o.frag with chain := some c' } ∧
      tabGet c'.latches pipe = some (o.lanes.map fun l => (l, val l)) ∧
      (pipe = 0 → ∀ x, tabGet c.latches 0 = some x → tabGet c'.latches 1 = some x) ∧
      ∀ k, k ≠ pipe → (pipe = 0 → k ≠ 1) → tabGet c'.latches k = tabGet c.latches k) ∧
    (∀ k, k ≠ i.frag → tabGet w.frags k = tabGet u.frags k) ∧
    { w with v := [], q := [], f := [], frags := [], fstat := 0 } = { u with v := [], q := [], f := [], frags := [], fstat := 0 }

/-- A lane instruction with a v result: its operand fields, whether d is a source, its pipe's latch, and what each lane computes with the flags that it sets. -/
structure Claims.LaneOp where
  n : BitVec 1
  d : BitVec 6
  fields : ESources
  third : Bool
  pipe : Nat
  value : Issue → Team → (Nat → Word) → Word × FpFlags

/-- The flags of all lanes, joined. -/
def Claims.joined (o : ELanes) (f : Nat → FpFlags) : FpFlags := o.lanes.foldl (fun a l => a ||| f l) 0

/-- The instruction completes, with the values `val` and the flags `fl` of the lanes delivered. -/
def Claims.delivers (x : Instr) (s : State) (i : Issue) (u : Team) (o : ELanes) (n : BitVec 1) (p pipe : Nat) (val : Nat → Word × FpFlags) :
    Prop :=
  exec x s = .next (doneWith s i (deliverV i u o n p pipe
    { vals := o.lanes.map fun l => (l, (val l).1), flags := Claims.joined o fun l => (val l).2 }))

/-- The instruction's operands are there and its destination is in reach: it completes with the lanes' values. -/
def Claims.computes (x : Instr) (r : Claims.LaneOp) : Prop :=
  ∀ (s : State) (i : Issue) (t : Team) (o : ELanes) (p : Nat), Issuing x s i t →
    eOperands i (atIssue i t) (coreWord s i.core) r.fields (if r.third then some r.d else none) = .ok o →
    destV (atIssue i t) o r.n r.d = .ok p →
    Claims.delivers x s i (atIssue i t) o r.n p r.pipe fun l => r.value i (atIssue i t) fun k => o.arg k l

/-- A typed form of the E-stream (R122): the operands as numbers of 8, 16 or 32 bits, the result wrapped and extended to 32 bits; code 3 is the 32-bit
form that saturates and sets SAT. -/
def Claims.typedLane (sg : BitVec 1) (w : BitVec 2) (f : Int → Int → Int → Int) (a b d : Word) : Word × FpFlags :=
  let n := if w = 3 then 32 else 8 * 2 ^ w.toNat
  let num := fun (x : Word) => if sg = 1 then (x.setWidth n).toInt else ((x.setWidth n).toNat : Int)
  let r := f (num a) (num b) (num d)
  let lo : Int := if sg = 1 then -2147483648 else 0
  let hi : Int := if sg = 1 then 2147483647 else 4294967295
  if w = 3 then (BitVec.ofInt 32 (max lo (min hi r)), if lo ≤ r ∧ r ≤ hi then 0 else flagSAT)
  else ((if sg = 1 then (BitVec.ofInt n r).signExtend 32 else (BitVec.ofInt n r).setWidth 32), 0)

/-- The typed instructions of the E-stream, and ADD with an immediate (R122, R123, Table 6-2). -/
def Claims.integerLane : Instr → Option Claims.LaneOp
  | .addE n d a b s w => some ⟨n, d, [(a, .int), (b, .int)], false, 0, fun _ _ v => Claims.typedLane s w (fun x y _ => x + y) (v 0) (v 1) (v 2)⟩
  | .subE n d a b s w => some ⟨n, d, [(a, .int), (b, .int)], false, 0, fun _ _ v => Claims.typedLane s w (fun x y _ => x - y) (v 0) (v 1) (v 2)⟩
  | .mulE n d a b s w => some ⟨n, d, [(a, .int), (b, .int)], false, 2, fun _ _ v => Claims.typedLane s w (fun x y _ => x * y) (v 0) (v 1) (v 2)⟩
  | .mulhE n d a b s w => some ⟨n, d, [(a, .int), (b, .int)], false, 2, fun _ _ v =>
      Claims.typedLane s w (fun x y _ => x * y / 2 ^ (if w = 3 then 32 else 8 * 2 ^ w.toNat)) (v 0) (v 1) (v 2)⟩
  | .mad n d a b s w => some ⟨n, d, [(a, .int), (b, .int)], true, 2, fun _ _ v => Claims.typedLane s w (fun x y z => x * y + z) (v 0) (v 1) (v 2)⟩
  | .minE n d a b s w => some ⟨n, d, [(a, .int), (b, .int)], false, 0, fun _ _ v => Claims.typedLane s w (fun x y _ => min x y) (v 0) (v 1) (v 2)⟩
  | .maxE n d a b s w => some ⟨n, d, [(a, .int), (b, .int)], false, 0, fun _ _ v => Claims.typedLane s w (fun x y _ => max x y) (v 0) (v 1) (v 2)⟩
  | .addImmE n d a m => some ⟨n, d, [(a, .int)], false, 0, fun i _ v => (v 0 + (signedImm i.hint m).setWidth 32, 0)⟩
  | _ => none

/-- ADD, SUB, MUL, MULH, MAD, MIN, MAX and ADD with an immediate of the E-stream complete with those values in every active lane. -/
def Claims.LaneIntegers : Prop := ∀ (x : Instr) (r : Claims.LaneOp), Claims.integerLane x = some r → Claims.computes x r

/-- A shift of the low 8, 16 or 32 bits, extended to 32 (R93, R124). -/
def Claims.shiftLane (w : BitVec 2) (signed : Bool) (op : (w : Nat) → BitVec w → Nat → BitVec w) (u : Word) (k : Nat) : Word :=
  (Claims.shift w signed op (u.setWidth 64) k).setWidth 32

/-- The logical, shift, rotate, count and bit-field instructions of the E-stream (R124, R125). -/
def Claims.bitsLane : Instr → Option Claims.LaneOp
  | .andE n d a b => some ⟨n, d, [(a, .int), (b, .int)], false, 0, fun _ _ v => (v 0 &&& v 1, 0)⟩
  | .orE n d a b => some ⟨n, d, [(a, .int), (b, .int)], false, 0, fun _ _ v => (v 0 ||| v 1, 0)⟩
  | .xorE n d a b => some ⟨n, d, [(a, .int), (b, .int)], false, 0, fun _ _ v => (v 0 ^^^ v 1, 0)⟩
  | .andnE n d a b => some ⟨n, d, [(a, .int), (b, .int)], false, 0, fun _ _ v => (v 0 &&& ~~~v 1, 0)⟩
  | .shlE n d a b w => some ⟨n, d, [(a, .int), (b, .int)], false, 0, fun _ _ v =>
      (Claims.shiftLane w false (fun w x k => if w ≤ k then 0 else x <<< k) (v 0) (v 1).toNat, 0)⟩
  | .shrE n d a b w => some ⟨n, d, [(a, .int), (b, .int)], false, 0, fun _ _ v =>
      (Claims.shiftLane w false (fun w x k => if w ≤ k then 0 else x >>> k) (v 0) (v 1).toNat, 0)⟩
  | .sarE n d a b w => some ⟨n, d, [(a, .int), (b, .int)], false, 0, fun _ _ v =>
      (Claims.shiftLane w true (fun w x k => x.sshiftRight (min k w)) (v 0) (v 1).toNat, 0)⟩
  | .rotE n d a b w => some ⟨n, d, [(a, .int), (b, .int)], false, 0, fun _ _ v =>
      (Claims.shiftLane w false (fun _ x k => x.rotateRight k) (v 0) (v 1).toNat, 0)⟩
  | .shlImmE n d a w m => some ⟨n, d, [(a, .int)], false, 0, fun _ _ v =>
      (Claims.shiftLane w false (fun w x k => if w ≤ k then 0 else x <<< k) (v 0) m.toNat, 0)⟩
  | .shrImmE n d a w m => some ⟨n, d, [(a, .int)], false, 0, fun _ _ v =>
      (Claims.shiftLane w false (fun w x k => if w ≤ k then 0 else x >>> k) (v 0) m.toNat, 0)⟩
  | .sarImmE n d a w m => some ⟨n, d, [(a, .int)], false, 0, fun _ _ v =>
      (Claims.shiftLane w true (fun w x k => x.sshiftRight (min k w)) (v 0) m.toNat, 0)⟩
  | .rotImmE n d a w m => some ⟨n, d, [(a, .int)], false, 0, fun _ _ v =>
      (Claims.shiftLane w false (fun _ x k => x.rotateRight k) (v 0) m.toNat, 0)⟩
  | .bfxSE n d a w o => some ⟨n, d, [(a, .int)], false, 0, fun i _ v =>
      let f := fieldOf false (rawImm i.hint (1#1 ++ w ++ o))
      (((v 0 >>> f.1).setWidth f.2.1).signExtend 32, 0)⟩
  | .bfxZE n d a w o => some ⟨n, d, [(a, .int)], false, 0, fun i _ v =>
      let f := fieldOf false (rawImm i.hint (0#1 ++ w ++ o))
      (((v 0 >>> f.1).setWidth f.2.1).setWidth 32, 0)⟩
  | .bfiE n d a w o => some ⟨n, d, [(a, .int)], true, 0, fun i _ v =>
      let f := fieldOf true (rawImm i.hint (w ++ o))
      let m : Word := Claims.fieldMask 32 f.1 f.2.1
      ((v 2 &&& ~~~m) ||| ((v 0 <<< f.1) &&& m), 0)⟩
  | .clzE n d a w => some ⟨n, d, [(a, .int)], false, 0, fun _ _ v =>
      let w := 8 * 2 ^ w.toNat
      (BitVec.ofNat 32 ((List.range w).findIdx fun k => (v 0).getLsbD (w - 1 - k)), 0)⟩
  | .popcE n d a w => some ⟨n, d, [(a, .int)], false, 0, fun _ _ v =>
      (BitVec.ofNat 32 ((List.range (8 * 2 ^ w.toNat)).countP fun k => (v 0).getLsbD k), 0)⟩
  | _ => none

/-- AND, OR, XOR, ANDN, SHL, SHR, SAR, ROT, BFX, BFI, CLZ and POPC of the E-stream complete with those values in every active lane. -/
def Claims.LaneBits : Prop := ∀ (x : Instr) (r : Claims.LaneOp), Claims.bitsLane x = some r → Claims.computes x r

/-- FSHL and FSHR of the E-stream (R126, R119): the low bits of the shifted pair, extended; where the width is 0 or above 32 in some active lane,
0x041 with the lowest such lane and its operands, and no effect. -/
def Claims.LaneFunnelShift : Prop :=
  ∀ (s : State) (i : Issue) (t : Team) (left : Bool) (n : BitVec 1) (d : BitVec 6) (a b : BitVec 7) (sg : BitVec 1) (o : ELanes) (p : Nat),
    let x : Instr := if left then .fshlE n d a b sg else .fshrE n d a b sg
    let u := atIssue i t
    let width := fun (l : Nat) => ((o.arg 1 l).extractLsb' 8 6).toNat
    let by_ := fun (l : Nat) => ((o.arg 1 l).extractLsb' 0 6).toNat
    let pair := fun (l : Nat) => if left then ((o.arg 2 l ++ o.arg 0 l) <<< by_ l).extractLsb' 32 32
      else ((o.arg 0 l ++ o.arg 2 l) >>> by_ l).setWidth 32
    let good := fun (l : Nat) => decide (1 ≤ width l ∧ width l ≤ 32)
    Issuing x s i t → eOperands i u (coreWord s i.core) [(a, .int), (b, .int)] (some d) = .ok o → destV u o n d = .ok p →
    (o.lanes.all good → Claims.delivers x s i u o n p 0 fun l =>
      (if sg = 1 then ((pair l).setWidth (width l)).signExtend 32 else ((pair l).setWidth (width l)).setWidth 32, 0)) ∧
    (∀ l, o.lanes.find? (fun l => !good l) = some l →
      exec x s = .next (settle s i t {} (raiseWith 0x041 { lane := some l, value := o.arg 1 l ++ o.arg 0 l })))

/-- SEL, LI and LI from a k register (R128, R129). -/
def Claims.selectLane : Instr → Option Claims.LaneOp
  | .liE n d m => some ⟨n, d, [], false, 0, fun i _ _ => ((signedImm i.hint m).setWidth 32, 0)⟩
  | .liFromK n d k => some ⟨n, d, [], false, 5, fun _ u _ => ((tabGetD 0 u.k k.toNat).setWidth 32, 0)⟩
  | .liHiFromK n d k => some ⟨n, d, [], false, 5, fun _ u _ => ((tabGetD 0 u.k k.toNat).extractLsb' 32 32, 0)⟩
  | _ => none

/-- The flag of a lane; f0 is 1 in every lane (R41). -/
def Claims.flag (u : Team) (f : BitVec 3) (l : Nat) : Bool := if f = 0 then decide (l < 1024) else (tabGetD 0 u.f f.toNat).getLsbD l

/-- LI forms 0 and 1 complete with the immediate or the half of the k register in every lane; SEL with a where the lane's flag is 1 and with b elsewhere. -/
def Claims.LaneSelectLoad : Prop :=
  (∀ (x : Instr) (r : Claims.LaneOp), Claims.selectLane x = some r → Claims.computes x r) ∧
  (∀ (s : State) (i : Issue) (t : Team) (n : BitVec 1) (d : BitVec 6) (a b : BitVec 7) (f : BitVec 3) (o : ELanes) (p : Nat),
    Issuing (.selE n d a b f) s i t →
    eOperands i (atIssue i t) (coreWord s i.core) [(a, .int), (b, .int)] (some d) = .ok o → destV (atIssue i t) o n d = .ok p →
    Claims.delivers (.selE n d a b f) s i (atIssue i t) o n p 0 fun l => (if Claims.flag t f l then o.arg 0 l else o.arg 1 l, 0))

/-- The team of `u` with flag register `d` set to `c` in the active lanes; f0 discards the write (R41). -/
def Claims.flagsWritten (u w : Team) (o : ELanes) (d : BitVec 3) (c : Nat → Bool) : Prop :=
  (d = 0 → w = u) ∧
  (d ≠ 0 → (∀ l, l < 1024 → (tabGetD 0 w.f d.toNat).getLsbD l =
      if o.frag.mask.getLsbD l then decide (l ∈ o.lanes ∧ c l) else (tabGetD 0 u.f d.toNat).getLsbD l) ∧
    (∀ k, k ≠ d.toNat → tabGetD 0 w.f k = tabGetD 0 u.f k) ∧ { w with f := [] } = { u with f := [] })

/-- CMP and FCMP of the E-stream (R127, R133): the flag of each active lane tells whether the condition holds; FSTAT joins NV of FCMP; f7 takes the
result, not the residency bits. Nothing else changes but the queues that are popped. -/
def Claims.LaneCompares : Prop :=
  ∀ (s : State) (i : Issue) (t : Team) (d : BitVec 3) (a b : BitVec 7) (o : ELanes),
    let u := atIssue i t
    (∀ c : BitVec 4, c.toNat ≤ 9 → Issuing (.cmpE d a b c) s i t →
      eOperands i u (coreWord s i.core) [(a, .int), (b, .int)] none = .ok o →
      ∃ w, exec (.cmpE d a b c) s = .next (doneWith s i w) ∧
        Claims.flagsWritten (eFinish u o (d = 7) 0) w o d fun l => Claims.condition c (o.arg 0 l) (o.arg 1 l)) ∧
    (∀ c : BitVec 3, Issuing (.fcmp d a b c) s i t → eOperands i u (coreWord s i.core) [(a, .f32), (b, .f32)] none = .ok o →
      let r := fun l => fpCompare c.toNat (fpDecode .f32 (o.arg 0 l).toNat) (fpDecode .f32 (o.arg 1 l).toNat)
      ∃ w, exec (.fcmp d a b c) s = .next (doneWith s i w) ∧
        Claims.flagsWritten (eFinish u o (d = 7) (Claims.joined o fun l => (r l).2)) w o d fun l => (r l).1)

/-- LI forms 2 and 3 and QPUSH of the E-stream (R129, R130, R57): k takes the immediate, or the oldest entry of q6, whose residency bit goes to f7;
QPUSH adds each active lane's value, void where its flag is 0, to the oldest entry that it has yet to write, or opens one. -/
def Obligations.UniformAndPush : Prop :=
  ∀ (s : State) (i : Issue) (t : Team) (f : Frag), tabGet (atIssue i t).frags i.frag = some f →
    let u := atIssue i t
    (∀ (k : BitVec 4) (m : BitVec 11), Issuing (.liKImm k m) s i t →
      exec (.liKImm k m) s = .next (doneWith s i { u with k := tabSetD 0 t.k k.toNat ((signedImm i.hint m).signExtend 64) })) ∧
    (∀ (k : BitVec 4) (pk : BitVec 1) (l : Nat) (e : QEntry), Issuing (.liKQ6 k pk) s i t → (t.queue 6).cap ≠ 0 →
      lowLane f.mask = some l → laneEntry (t.queue 6) l = some e → (∀ k ∈ Claims.activeLanes u f, (laneEntry (t.queue 6) k).isSome) → l < t.info.lanes →
      ∃ m, (∀ k ∈ Claims.activeLanes u f, ∀ x, laneEntry (t.queue 6) k = some x → m.getLsbD k = x.resid.getLsbD k) ∧
        let w := if pk = 0 then u.setQueue 6 (popLanes (t.queue 6) (Claims.activeLanes u f)) else u
        exec (.liKQ6 k pk) s = .next (doneWith s i { writeF w 7 f.mask m with k := tabSetD 0 t.k k.toNat (tabGetD 0 e.vals 0) })) ∧
    (∀ (d : BitVec 6) (a : BitVec 7) (g : BitVec 3) (o : ELanes), Issuing (.qpushE d a g) s i t → (d = 4 ∨ d = 5 ∨ d = 7) →
      eOperands i u (coreWord s i.core) [(a, .int)] none = .ok o → Claims.takes t d.toNat →
      let es := o.lanes.foldl (fun es l => pushLane t.live ((o.arg 0 l).setWidth 64) (!Claims.flag t g l) l es) ((eFinish u o false 0).queue d.toNat).entries
      exec (.qpushE d a g) s = .next (doneWith s i
        ((eFinish u o false 0).setQueue d.toNat { (eFinish u o false 0).queue d.toNat with entries := es })))

/-! ## Floating point, conversions and cross-lane instructions -/

/-- A floating-point result as a word with its flags. -/
def Claims.asWord (r : Nat × FpFlags) : Word × FpFlags := (BitVec.ofNat 32 r.1, r.2)

/-- The FP32 instructions (R131, R132, R134): the exact sum or product rounded once, the smaller or larger operand, or a with another sign. -/
def Claims.floatLane : Instr → Option Claims.LaneOp
  | .fadd n d a b r => some ⟨n, d, [(a, .f32), (b, .f32)], false, 2, fun _ _ v =>
      Claims.asWord (fpFinish .f32 (rmOf r.toNat) true (fpAdd (rmOf r.toNat) (fpDecode .f32 (v 0).toNat) (fpDecode .f32 (v 1).toNat)))⟩
  | .fsub n d a b r => some ⟨n, d, [(a, .f32), (b, .f32)], false, 2, fun _ _ v =>
      Claims.asWord (fpFinish .f32 (rmOf r.toNat) true (fpAdd (rmOf r.toNat) (fpDecode .f32 (v 0).toNat) (fpDecode .f32 (v 1).toNat).negate))⟩
  | .fmul n d a b r => some ⟨n, d, [(a, .f32), (b, .f32)], false, 2, fun _ _ v =>
      Claims.asWord (fpFinish .f32 (rmOf r.toNat) true (fpTimes (fpDecode .f32 (v 0).toNat) (fpDecode .f32 (v 1).toNat)))⟩
  | .ffma n d a b r => some ⟨n, d, [(a, .f32), (b, .f32)], true, 2, fun _ _ v =>
      Claims.asWord (fpFinish .f32 (rmOf r.toNat) true
        (fpFma (rmOf r.toNat) false (fpDecode .f32 (v 0).toNat) (fpDecode .f32 (v 1).toNat) (fpDecode .f32 (v 2).toNat)))⟩
  | .ffms n d a b r => some ⟨n, d, [(a, .f32), (b, .f32)], true, 2, fun _ _ v =>
      Claims.asWord (fpFinish .f32 (rmOf r.toNat) true
        (fpFma (rmOf r.toNat) true (fpDecode .f32 (v 0).toNat) (fpDecode .f32 (v 1).toNat) (fpDecode .f32 (v 2).toNat)))⟩
  | .fmin n d a b u => some ⟨n, d, [(a, .f32), (b, .f32)], false, 0, fun _ _ v =>
      Claims.asWord (fpMinMax .f32 false (u == 1) (v 0).toNat (v 1).toNat)⟩
  | .fmax n d a b u => some ⟨n, d, [(a, .f32), (b, .f32)], false, 0, fun _ _ v =>
      Claims.asWord (fpMinMax .f32 true (u == 1) (v 0).toNat (v 1).toNat)⟩
  | .fsgn n d a b w o => some ⟨n, d, [(a, signType w), (b, signType w)], false, 0, fun _ _ v =>
      let top : Word := match w.toNat with | 0 => 0x80000000 | 1 => 0x80008000 | 2 => 0x80808080 | _ => 0x88888888
      let sign := match o.toNat with | 0 => v 1 | 1 => ~~~v 1 | 2 => v 0 ^^^ v 1 | _ => ~~~v 0
      ((v 0 &&& ~~~top) ||| (sign &&& top), 0)⟩
  | _ => none

/-- A packed instruction (R135): each sub-element on its own, FP8 saturating unless NS is set. -/
def Claims.packed (n : BitVec 1) (d : BitVec 6) (a b : BitVec 7) (third : Bool) (op : FpOp) (f : FpFmt) : Claims.LaneOp :=
  ⟨n, d, [(a, opTypeOf f), (b, opTypeOf f)], third, 2, fun i _ v => packedMap f.width fun k =>
    fpOp op f (rmOf (roundOf i.hint).1) (!(roundOf i.hint).2) (subElem f.width k (v 0)) (subElem f.width k (v 1)) (subElem f.width k (v 2))⟩

/-- A packed comparison (R136): all ones in a sub-element where the condition holds. -/
def Claims.packedCompare (n : BitVec 1) (d : BitVec 6) (a b : BitVec 7) (c : BitVec 3) (f : FpFmt) : Claims.LaneOp :=
  ⟨n, d, [(a, opTypeOf f), (b, opTypeOf f)], false, 0, fun _ _ v => packedMap f.width fun k =>
    let r := fpCompare c.toNat (fpDecode f (subElem f.width k (v 0))) (fpDecode f (subElem f.width k (v 1)))
    (if r.1 then 2 ^ f.width - 1 else 0, r.2)⟩

/-- The 16-bit format of a type bit. -/
def Claims.half (t : BitVec 1) : FpFmt := if t = 1 then .bf16 else .f16

/-- The 8-bit format of a type bit. -/
def Claims.fp8 (t : BitVec 1) : FpFmt := if t = 1 then .e5m2 else .e4m3

/-- The packed instructions (Table 6-6). -/
def Claims.packedLane : Instr → Option Claims.LaneOp
  | .hadd n d a b t => some (Claims.packed n d a b false .add (Claims.half t))
  | .hsub n d a b t => some (Claims.packed n d a b false .sub (Claims.half t))
  | .hmul n d a b t => some (Claims.packed n d a b false .mul (Claims.half t))
  | .hmin n d a b t => some (Claims.packed n d a b false (.min false) (Claims.half t))
  | .hmax n d a b t => some (Claims.packed n d a b false (.max false) (Claims.half t))
  | .hfma n d a b t => some (Claims.packed n d a b true .fma (Claims.half t))
  | .hfms n d a b t => some (Claims.packed n d a b true .fms (Claims.half t))
  | .hcmp n d a b t c => some (Claims.packedCompare n d a b c (Claims.half t))
  | .f8add n d a b t => some (Claims.packed n d a b false .add (Claims.fp8 t))
  | .f8sub n d a b t => some (Claims.packed n d a b false .sub (Claims.fp8 t))
  | .f8mul n d a b t => some (Claims.packed n d a b false .mul (Claims.fp8 t))
  | .f8min n d a b t => some (Claims.packed n d a b false (.min false) (Claims.fp8 t))
  | .f8max n d a b t => some (Claims.packed n d a b false (.max false) (Claims.fp8 t))
  | .f8fma n d a b t => some (Claims.packed n d a b true .fma (Claims.fp8 t))
  | .f8fms n d a b t => some (Claims.packed n d a b true .fms (Claims.fp8 t))
  | .f8cmp n d a b t c => some (Claims.packedCompare n d a b c (Claims.fp8 t))
  | _ => none

/-- The FP32 and packed floating-point instructions complete with those values and flags in every active lane. -/
def Obligations.LaneFloats : Prop :=
  (∀ (x : Instr) (r : Claims.LaneOp), Claims.floatLane x = some r → Claims.computes x r) ∧
  (∀ (x : Instr) (r : Claims.LaneOp), Claims.packedLane x = some r → Claims.computes x r)

/-- The seeds (R141, Table 6-8, R17) of the zeros, the infinities and the NaNs; none for the other operands. -/
def Claims.seedValue (x : Instr) (v : Fp) : Option (Word × FpFlags) :=
  match x, v with
  | .rcps .., .fin neg 0 _ => some (if neg then 0xFF800000 else 0x7F800000, flagDZ)
  | .rcps .., .inf neg => some (if neg then 0x80000000 else 0, 0)
  | .rsqs .., .fin neg 0 _ => some (if neg then 0xFF800000 else 0x7F800000, flagDZ)
  | .rsqs .., .inf false => some (0, 0)
  | .rsqs .., .inf true => some (0x7FC00000, flagNV)
  | .exps .., .inf neg => some (if neg then 0 else 0x7F800000, 0)
  | .logs .., .fin _ 0 _ => some (0xFF800000, flagDZ)
  | .logs .., .inf false => some (0x7F800000, 0)
  | .logs .., .inf true => some (0x7FC00000, flagNV)
  | .sins .., .inf _ => some (0x7FC00000, flagNV)
  | .coss .., .inf _ => some (0x7FC00000, flagNV)
  | _, .nan neg sig => some (if neg then 0xFFC00000 else 0x7FC00000, if sig then flagNV else 0)
  | _, _ => none

/-- The seed instructions, with their destination and operand. -/
def Claims.seed : Instr → Option (BitVec 1 × BitVec 6 × BitVec 7)
  | .rcps n d a | .rsqs n d a | .exps n d a | .logs n d a | .sins n d a | .coss n d a => some (n, d, a)
  | _ => none

/-- RCPS, RSQS, EXPS, LOGS, SINS and COSS (R141): they complete on every operand; every lane's result depends on its own operand alone, and for a zero,
an infinity or a NaN is the one of `Claims.seedValue`. -/
def Claims.LaneSeeds : Prop :=
  ∀ (x : Instr) (n : BitVec 1) (d : BitVec 6) (a : BitVec 7), Claims.seed x = some (n, d, a) →
    ∃ f : Word → Word × FpFlags, Claims.computes x ⟨n, d, [(a, .f32)], false, 3, fun _ _ v => f (v 0)⟩ ∧
      ∀ w r, Claims.seedValue x (fpDecode .f32 w.toNat) = some r → f w = r

/-- The random state of a lane (R31): as an instruction left it, or as RNGSEED set it. -/
def Claims.random (u : Team) (l : Nat) : DWord :=
  (tabGet u.rng l).getD (let z := u.rngSeed ^^^ BitVec.ofNat 64 (l * 0x9E3779B97F4A7C15); if z = 0 then 1 else z)

/-- A conversion with a v result, which rounds in mode `rm` with the lane's random state. -/
structure Claims.Conversion where
  n : BitVec 1
  d : BitVec 6
  fields : Option Hint → ESources
  value : Option Hint → ELanes → Nat → DWord → (Word × FpFlags) × DWord

/-- CVT, CVTF, CVTD and CVTMX (R137 to R140). -/
def Claims.conversion : Instr → Option Claims.Conversion
  | .cvt n d a b f => some ⟨n, d, fun _ => [(a, if f.getLsbD 3 then .f32 else .int), (b, .f32)],
      fun h o l => cvtLane f (roundOf h).1 (o.arg 0 l) (o.arg 1 l)⟩
  | .cvtf n d a b f => some ⟨n, d,
      fun h => [(a, cvtfType f.toNat), (b, if cvtfNarrow f.toNat then cvtfType f.toNat else .int)] ++
        (match h with | some (.ext g e) => if 14 ≤ f.toNat then [(e, cvtfType f.toNat), (g, cvtfType f.toNat)] else [] | _ => []),
      fun h o l => cvtfLane f.toNat (roundOf h).1 (roundOf h).2 fun k => o.arg k l⟩
  | .cvtd n d a b r => some ⟨n, d, fun _ => [(a, .int), (b, .int)],
      fun h o l => cvtdLane (cvtFmt r.toNat) (roundOf h).1 (o.arg 0 l) (o.arg 1 l)⟩
  | .cvtmx n d a b q e => some ⟨n, d, fun _ => [(a, if q = 0 then .f32 else .int), (b, .int)], fun h o l =>
      if q = 0 then mxQuantize e.toNat (roundOf h).1
        (mxScale (mxFmt e.toNat).2 ((o.lanes.filter fun k => k / 32 = l / 32).map fun k => fpDecode .f32 (o.arg 0 k).toNat)) (o.arg 0 l)
      else mxDequantize e.toNat (roundOf h).1 (o.arg 0 l) (o.arg 1 l)⟩
  | _ => none

/-- CVTD raises no cause in an active lane (R139): its format is not reserved, and its element is no malformed ternary one. -/
def Claims.described (x : Instr) (o : ELanes) : Prop :=
  match x with
  | .cvtd .. => ∀ l ∈ o.lanes, ∃ k e, cvtdElem (o.arg 0 l) (o.arg 1 l) = some (k, e) ∧ ¬(k = .ternary ∧ e = 2)
  | _ => True

/-- CVT, CVTF, CVTD and CVTMX complete (R137 to R140, R31): each active lane's value and flags, and in stochastic mode (4) its next random state, follow from its operands and its
random state; in the other modes no random state changes. CVTD raises 0x049 for a reserved format in any active lane, with the lowest such lane. -/
def Claims.LaneConversions : Prop :=
  ∀ (x : Instr) (r : Claims.Conversion) (s : State) (i : Issue) (t : Team) (o : ELanes) (p : Nat), Claims.conversion x = some r → Issuing x s i t →
    eOperands i (atIssue i t) (coreWord s i.core) (r.fields i.hint) none = .ok o → destV (atIssue i t) o r.n r.d = .ok p →
    let u := atIssue i t
    let c := fun l => r.value i.hint o l (Claims.random u l)
    (Claims.described x o → exec x s = .next (doneWith s i (deliverV i u o r.n p 2
      { vals := o.lanes.map fun l => (l, (c l).1.1), flags := Claims.joined o fun l => (c l).1.2,
        rng := if (roundOf i.hint).1 = 4 then o.lanes.map fun l => (l, (c l).2) else [] }))) ∧
    (∀ n d a b m l, x = .cvtd n d a b m → o.lanes.find? (fun l => (cvtdElem (o.arg 0 l) (o.arg 1 l)).isNone) = some l →
      exec x s = .next (settle s i t {} (raiseWith 0x049 { lane := some l, value := o.arg 1 l ++ o.arg 0 l })))

/-- The participants of a lane's group (R142): the active lanes of its lane set, or of the team. -/
def Claims.group (o : ELanes) (team : Bool) (l : Nat) : List Nat :=
  if team then o.lanes else o.lanes.filter fun k => k / 2 ^ o.frag.partn.toNat = l / 2 ^ o.frag.partn.toNat

/-- The size of a group's position space. -/
def Claims.span (u : Team) (o : ELanes) (team : Bool) : Nat := if team then u.info.lanes else 2 ^ o.frag.partn.toNat

/-- The vote of a group (R143). -/
def Claims.vote (u : Team) (o : ELanes) (team : Bool) (op : BitVec 3) (l : Nat) : Word :=
  let g := Claims.group o team l
  let yes := g.filter fun k => o.arg 0 k ≠ 0
  let one := fun (b : Bool) => if b then (1 : Word) else 0
  match op.toNat with
  | 0 => one (g.all fun k => o.arg 0 k ≠ 0)
  | 1 => one (g.any fun k => o.arg 0 k ≠ 0)
  | 2 => one (g.all fun k => o.arg 0 k = o.arg 0 l)
  | 3 =>
    let first := if team then 32 * ((o.arg 1 l).extractLsb' 0 5).toNat else 0
    let at_ := (yes.map fun k => k % Claims.span u o team).filter fun p => first ≤ p ∧ p < first + 32
    BitVec.ofNat 32 (at_.map fun p => 2 ^ (p - first)).sum
  | _ => BitVec.ofNat 32 yes.length

/-- The lane that a shuffle reads (R144): the source position's, if a participant stands there, else the lane itself. -/
def Claims.shuffle (u : Team) (o : ELanes) (team : Bool) (op : BitVec 2) (l : Nat) : Word :=
  let n := Claims.span u o team
  let p := l % n
  let b := (o.arg 1 l).toNat
  let src := match op.toNat with
    | 0 => some (b % n)
    | 1 => if b ≤ p then some (p - b) else none
    | 2 => if p + b < n then some (p + b) else none
    | _ => if p ^^^ (b % n) < n then some (p ^^^ (b % n)) else none
  match (Claims.group o team l).find? fun k => some (k % n) = src with
  | some k => o.arg 0 k
  | none => o.arg 0 l

/-- The integer and bitwise operations of REDS and REDT (Table 6-9). -/
def Claims.reduceOp (op : BitVec 4) (x y : Word) : Word :=
  match op.toNat with
  | 3 => x + y
  | 4 => if y.slt x then y else x
  | 5 => if x.slt y then y else x
  | 6 => x &&& y
  | 7 => x ||| y
  | 8 => x ^^^ y
  | 9 => if y.ult x then y else x
  | _ => if x.ult y then y else x

/-- A fold of the values of some lanes from the first; `empty` for none. -/
def Claims.foldLanes (f : Word → Word → Word) (empty : Word) (v : Nat → Word) : List Nat → Word
  | [] => empty
  | l :: ls => ls.foldl (fun a k => f a (v k)) (v l)

/-- The reduction of a group (R145): the fold of the integer operations; the pairwise tree of the floating-point ones. -/
def Claims.reduce (u : Team) (o : ELanes) (team : Bool) (op : BitVec 4) (l : Nat) : Word × FpFlags :=
  if 3 ≤ op.toNat then (Claims.foldLanes (Claims.reduceOp op) 0 (o.arg 0) (Claims.group o team l), 0)
  else
    let n := Claims.span u o team
    let first := if team then 0 else l / n * n
    let r := treeFold (combine op) 10 ((List.range n).map fun p =>
      if (Claims.group o team l).contains (first + p) then some (o.arg 0 (first + p)) else none) 0
    (r.1.getD 0, r.2)

/-- The integer scans (R146): ADD, the signed maximum and OR over the participants up to the lane, or before it. -/
def Claims.scan (o : ELanes) (excl : Bool) (op : BitVec 2) (l : Nat) : Word :=
  let g := (Claims.group o false l).filter fun k => k < l ∨ (excl = false ∧ k = l)
  match op.toNat with
  | 1 => Claims.foldLanes (· + ·) 0 (o.arg 0) g
  | 2 => Claims.foldLanes (fun x y => if x.slt y then y else x) 0x80000000 (o.arg 0) g
  | _ => Claims.foldLanes (· ||| ·) 0 (o.arg 0) g

/-- A cross-lane instruction, as `Claims.LaneOp` with the values of all lanes. -/
structure Claims.CrossOp where
  n : BitVec 1
  d : BitVec 6
  fields : ESources
  value : Team → ELanes → Nat → Word × FpFlags

/-- The cross-lane instructions (R142 to R147). -/
def Claims.cross : Instr → Option Claims.CrossOp
  | .vote n d a op => some ⟨n, d, [(a, .int)], fun u o l => (Claims.vote u o false op l, 0)⟩
  | .votet n d a b op => some ⟨n, d, [(a, .int), (b, .int)], fun u o l => (Claims.vote u o true op l, 0)⟩
  | .shfl n d a b op => some ⟨n, d, [(a, .int), (b, .int)], fun u o l => (Claims.shuffle u o false op l, 0)⟩
  | .shflt n d a b op => some ⟨n, d, [(a, .int), (b, .int)], fun u o l => (Claims.shuffle u o true op l, 0)⟩
  | .reds n d a op => some ⟨n, d, [(a, if op.toNat < 3 then .f32 else .int)], fun u o l => Claims.reduce u o false op l⟩
  | .redt n d a op => some ⟨n, d, [(a, if op.toNat < 3 then .f32 else .int)], fun u o l => Claims.reduce u o true op l⟩
  | .scan n d a x op => some ⟨n, d, [(a, if op = 0 then .f32 else .int)], fun _ o l =>
      if op = 0 then scanLane o (x == 1) 0 l else (Claims.scan o (x == 1) op l, 0)⟩
  | .argm n d a ty m => some ⟨n, d, [(a, if ty = 0 then .f32 else .int)], fun _ o l =>
      (BitVec.ofNat 32 (argmWinner ty (m == 1) (o.arg 0) (Claims.group o false l) % 2 ^ o.frag.partn.toNat),
        if ty = 0 ∧ (fpDecode .f32 (o.arg 0 l).toNat).sig then flagNV else 0)⟩
  | _ => none

/-- VOTE, VOTET, SHFL, SHFLT, REDS, REDT, SCAN and ARGM complete with those values in every active lane (R142 to R147). -/
def Claims.CrossLanes : Prop :=
  ∀ (x : Instr) (r : Claims.CrossOp) (s : State) (i : Issue) (t : Team) (o : ELanes) (p : Nat), Claims.cross x = some r → Issuing x s i t →
    t.info.lanes ≤ 1024 → eOperands i (atIssue i t) (coreWord s i.core) r.fields none = .ok o → destV (atIssue i t) o r.n r.d = .ok p →
    Claims.delivers x s i (atIssue i t) o r.n p 6 fun l => r.value (atIssue i t) o l

/-- ARGM's winner (R147): among integers, a participant that none ranks above, the lowest such; among FP32 values, the lowest NaN where there is one. -/
def Claims.ArgWinner : Prop :=
  ∀ (ty : BitVec 2) (isMin : Bool) (v : Nat → Word) (ls : List Nat), ls ≠ [] → ls.Pairwise (· < ·) →
    let w := argmWinner ty isMin v ls
    let better := fun x y : Nat => if ty = 1 then (if isMin then (v x).slt (v y) else (v y).slt (v x))
      else (if isMin then (v x).ult (v y) else (v y).ult (v x))
    let nan := fun l => (fpDecode .f32 (v l).toNat).isNan
    w ∈ ls ∧
    (ty = 1 ∨ ty = 2 → (∀ k ∈ ls, better k w = false) ∧ ∀ k ∈ ls, k < w → better w k) ∧
    (ty = 0 → (∃ k ∈ ls, nan k) → nan w ∧ ∀ k ∈ ls, k < w → nan k = false)

/-! ## The compute stream's memory and control flow -/

/-- The size of a lane's access (R148). -/
def Claims.laneBytes (l : BitVec 2) : Nat := 2 ^ l.toNat

/-- A lane's effective address (R148). -/
def Claims.laneAt (o : ELanes) (l : Nat) : Nat := (o.arg 0 l + o.arg 1 l).toNat

/-- The accesses of the lanes are aligned and lie in the constant space, in scratch or in a declared ring (R149). -/
def Claims.laneFits (u : Team) (sp : LaneSpace) (o : ELanes) (n : Nat) : Prop :=
  ∀ l ∈ o.lanes, Claims.laneAt o l % n = 0 ∧
    match sp with
    | .const => Claims.laneAt o l + n ≤ u.info.kernel.constLen
    | .scratch => Claims.laneAt o l + n ≤ u.info.scratchBytes
    | .ring => Claims.laneAt o l < 2 ^ 23 ∧ ∃ r, tabGet u.rings (Claims.laneAt o l / 2 ^ 20 % 8) = some r ∧
        Claims.laneAt o l % 2 ^ 20 + n ≤ r.slotSize * r.count

/-- Byte `a` of a space of the lanes (R148): of the constant image, of scratch, or of a ring; unlisted bytes are 0. -/
def Claims.laneByte (u : Team) (sp : LaneSpace) (a : Nat) : Byte :=
  match sp with
  | .const => tabGetD 0 u.info.kernel.const a
  | .scratch => scratchByte u a
  | .ring => tabGetD 0 u.ringMem a

/-- LDC, LDX, LDX.RING, STX and STX.RING, with the space and the size that they name. -/
def Claims.laneAccess : Instr → Option (LaneSpace × BitVec 2)
  | .ldc _ _ _ _ _ l => some (.const, l)
  | .ldx _ _ _ _ _ l => some (.scratch, l)
  | .ldxRing _ _ _ _ _ l => some (.ring, l)
  | .stx _ _ _ l => some (.scratch, l)
  | .stxRing _ _ _ l => some (.ring, l)
  | _ => none

/-- LDC, LDX and LDX.RING (R148, R149): v_d takes, in each active lane, the 1, 2 or 4 bytes at its address, extended; the highest cause that an active lane
meets is raised instead, with the lowest such lane and its address, for a misaligned address (0x083) first. -/
def Claims.LaneLoads : Prop :=
  ∀ (x : Instr) (n : BitVec 1) (d : BitVec 6) (a b : BitVec 7) (sg : BitVec 1) (l : BitVec 2) (sp : LaneSpace) (s : State) (i : Issue) (t : Team)
    (o : ELanes) (p : Nat),
    (x = .ldc n d a b sg l ∧ sp = .const ∨ x = .ldx n d a b sg l ∧ sp = .scratch ∨ x = .ldxRing n d a b sg l ∧ sp = .ring) →
    Issuing x s i t → eOperands i (atIssue i t) (coreWord s i.core) [(a, .int), (b, .int)] none = .ok o → destV (atIssue i t) o n d = .ok p →
    let k := Claims.laneBytes l
    (Claims.laneFits t sp o k → Claims.delivers x s i (atIssue i t) o n p 4 fun j =>
      let y := leNat ((List.range k).map fun m => Claims.laneByte t sp (Claims.laneAt o j + m))
      (if sg = 1 then (BitVec.ofNat (8 * k) y).signExtend 32 else BitVec.ofNat 32 y, 0)) ∧
    (∀ j, o.lanes.find? (fun j => Claims.laneAt o j % k ≠ 0) = some j →
      exec x s = .next (settle s i t {} (raiseWith 0x083 { lane := some j, value := BitVec.ofNat 64 (Claims.laneAt o j) }))) ∧
    (∀ j, (∀ j ∈ o.lanes, Claims.laneAt o j % k = 0) → sp = .scratch → o.lanes.find? (fun j => t.info.scratchBytes < Claims.laneAt o j + k) = some j →
      exec x s = .next (settle s i t {} (raiseWith 0x086 { lane := some j, value := BitVec.ofNat 64 (Claims.laneAt o j) })))

/-- STX to scratch (R148, R149): the active lanes store the low bytes of v_d in ascending order: every byte outside their addresses keeps its
value, and a lane's bytes hold its value where no higher lane stores. Nothing of the team but scratch and the popped queues changes. -/
def Claims.LaneStores : Prop :=
  ∀ (d : BitVec 6) (a b : BitVec 7) (l : BitVec 2) (s : State) (i : Issue) (t : Team) (o : ELanes),
    Issuing (.stx d a b l) s i t → eOperands i (atIssue i t) (coreWord s i.core) [(a, .int), (b, .int)] (some d) = .ok o →
    let k := Claims.laneBytes l
    Claims.laneFits t .scratch o k →
    ∃ w, exec (.stx d a b l) s = .next (doneWith s i (eFinish w o false 0)) ∧ { w with scratch := [] } = { atIssue i t with scratch := [] } ∧
      (∀ m, (∀ j ∈ o.lanes, m < Claims.laneAt o j ∨ Claims.laneAt o j + k ≤ m) → tabGetD 0 w.scratch m = tabGetD 0 t.scratch m) ∧
      (∀ j ∈ o.lanes, (∀ h ∈ o.lanes, j < h → Claims.laneAt o h + k ≤ Claims.laneAt o j ∨ Claims.laneAt o j + k ≤ Claims.laneAt o h) →
        ∀ m, m < k → tabGetD 0 w.scratch (Claims.laneAt o j + m) = (o.arg 2 j).extractLsb' (8 * m) 8)

/-- STX to ring space (R149, R150, R162): into a CLAIMED slot with that many bytes pending, the bytes are written and the slot's pending count falls by
them; when it reaches 0 the slot becomes FILLED. A slot that is not CLAIMED is cause 0x08B. -/
def Claims.RingStore : Prop :=
  ∀ (d : BitVec 6) (a b : BitVec 7) (l : BitVec 2) (s : State) (i : Issue) (t : Team) (o : ELanes) (j : Nat) (r : Ring),
    Issuing (.stxRing d a b l) s i t → eOperands i (atIssue i t) (coreWord s i.core) [(a, .int), (b, .int)] (some d) = .ok o →
    o.lanes = [j] →
    let k := Claims.laneBytes l
    let at_ := Claims.laneAt o j
    let n := at_ / 2 ^ 20 % 8
    let slot := at_ % 2 ^ 20 / r.slotSize
    tabGet t.rings n = some r → Claims.laneFits t .ring o k →
    (tabGetD .free r.slots slot ≠ .claimed →
      exec (.stxRing d a b l) s = .next (settle s i t {} (raiseWith 0x08B { lane := some j, value := BitVec.ofNat 64 at_ }))) ∧
    (tabGetD .free r.slots slot = .claimed → k ≤ tabGetD 0 r.pending slot →
      ∃ w, exec (.stxRing d a b l) s = .next (doneWith s i (eFinish w o false 0)) ∧
        { w with rings := [], ringMem := [] } = { atIssue i t with rings := [], ringMem := [] } ∧
        (∀ m, m < at_ ∨ at_ + k ≤ m → tabGetD 0 w.ringMem m = tabGetD 0 t.ringMem m) ∧
        (∀ m, m < k → tabGetD 0 w.ringMem (at_ + m) = (o.arg 2 j).extractLsb' (8 * m) 8) ∧
        ∃ r', tabGet w.rings n = some r' ∧ tabGetD 0 r'.pending slot = tabGetD 0 r.pending slot - k ∧
          tabGetD .free r'.slots slot = (if tabGetD 0 r.pending slot = k then .filled else .claimed))

/-- The fragment `f` on another path: it starts with no hint, chain or wait (R75, R198). -/
def Claims.path (f : Frag) (mask : Mask) (pc : DWord) : Frag := { f with mask := mask, pc := pc, hint := none, chain := none, wait := none }

/-- A fragment `f` that divides (R198): the lanes `m` go to `there` and the others to `here`. The smaller side, or the side `m` on a tie, detaches;
`f` keeps the other. -/
def Claims.divided (s : State) (i : Issue) (u : Team) (f g : Frag) (m : Mask) (there here : DWord) : Team :=
  let n := f.mask &&& ~~~m
  let small := popMask m ≤ popMask n
  let stay := fun (x : Frag) => if small then { x with mask := n, pc := here } else { x with mask := m, pc := there, win := g.win }
  let other := if small then Claims.path g m there else Claims.path f n here
  detach (s.setTeam i.wid (atIssue i u)) i.wid { atIssue i u with frags := tabMod (atIssue i u).frags i.frag stay } other

/-- Lanes that detach (R197): the lowest free fragment number takes them, where the team has fewer than 32 fragments and the core fewer than 64; else they
are parked, behind the sets parked before. -/
def Claims.Detach : Prop :=
  ∀ (s : State) (wid : Nat) (t : Team) (f : Frag),
    (∀ n, freeFragment s wid t = some n → detach s wid t f = { t with frags := tabSet t.frags n f } ∧ n < 32 ∧ tabGet t.frags n = none ∧
      ∀ k, k < n → (tabGet t.frags k).isSome) ∧
    (freeFragment s wid t = none → detach s wid t f =
      { t with parked := t.parked ++ [{ seq := t.parkSeq, frag := f }], parkSeq := t.parkSeq + 1 })

/-- BR and BRN of the E-stream (R198): the lanes whose flag is 1, or 0 at BRN, go to the target; with none, or with all of them, the fragment stays
whole; else it divides, which is cause 0x022 in trap mode (R433). -/
def Claims.LaneBranches : Prop :=
  ∀ (x : Instr) (s : State) (i : Issue) (t : Team) (f : Frag) (c : BitVec 3) (off : BitVec 22) (m : Mask), Issuing x s i t →
    tabGet (atIssue i t).frags i.frag = some f → (x = .brE c off ∧ m = f.mask &&& readF t c.toNat ∨ x = .brnE c off ∧ m = f.mask &&& ~~~readF t c.toNat) →
    let u := atIssue i t
    let target := i.pc + 4 * off.signExtend 64
    (m = 0 → exec x s = .next (doneWith s i u)) ∧
    (m ≠ 0 → m = f.mask → exec x s = .next (doneWith s i { u with frags := tabMod u.frags i.frag fun f => { f with pc := target } })) ∧
    (m ≠ 0 → m ≠ f.mask → t.trap.stream = none → exec x s = .next (doneWith s i (Claims.divided s i t f f m target (i.pc + 4)))) ∧
    (m ≠ 0 → m ≠ f.mask → t.trap.stream.isSome → exec x s = .next (settle s i t {} (raise 0x022)))

/-- CALL, CALLI and RET of the E-stream (R47, R199), where no frame is spilled: the lanes whose flag is 1 enter the callee with a window of their
own, as a division where some do not call; at CALLI all lanes that name one target; RET slides back and goes on at the link. -/
def Claims.LaneCalls : Prop :=
  ∀ (s : State) (i : Issue) (t : Team) (f : Frag), tabGet (atIssue i t).frags i.frag = some f →
    let u := atIssue i t
    let code := t.info.kernel.code
    let g := fun (e : CallEntry) => { f with win := Claims.pushed f.win t.info.vphys e.fv (i.pc + 4) false }
    let enters := fun (e : CallEntry) => f.win.depth < 65535 ∧ Claims.fits f.win t.info.vphys e.fv
    (∀ (c : BitVec 3) (off : BitVec 22), Issuing (.callE c off) s i t →
      let m := f.mask &&& readF t c.toNat
      let target := i.pc + 4 * off.signExtend 64
      (m = 0 → exec (.callE c off) s = .next (doneWith s i u)) ∧
      (∀ e, m ≠ 0 → callTarget t true (target - BitVec.ofNat 64 code).toNat = some e → enters e →
        (m = f.mask → exec (.callE c off) s = .next (doneWith s i
          { u with frags := tabMod u.frags i.frag fun _ => { g e with pc := target } })) ∧
        (m ≠ f.mask → t.trap.stream = none → exec (.callE c off) s = .next (doneWith s i (Claims.divided s i t f (g e) m target (i.pc + 4))))) ∧
      (m ≠ 0 → callTarget t true (target - BitVec.ofNat 64 code).toNat = none →
        exec (.callE c off) s = .next (settle s i t {} (raiseWith 0x019 { lane := lowLane m })))) ∧
    (∀ (a : BitVec 7) (o : ELanes) (off : Word) (e : CallEntry), Issuing (.calliE a) s i t →
      eOperands i u (coreWord s i.core) [(a, .int)] none = .ok o → o.lanes ≠ [] → (∀ l ∈ o.lanes, o.arg 0 l = off) →
      callTarget t true off.toNat = some e → enters e → lanesMask o.lanes = f.mask →
      exec (.calliE a) s = .next (doneWith s i { eFinish u o false 0 with
        frags := tabMod u.frags i.frag fun _ => { g e with pc := BitVec.ofNat 64 (code + off.toNat) } })) ∧
    (∀ (h k : Frame) (fs : List Frame), Issuing .retE s i t → f.win.depth ≠ 0 → f.win.frames = h :: k :: fs → h.trap = false →
      (fs ≠ [] ∨ f.win.depth = 1) →
      let w : Window := { base := (f.win.base + 64 * t.info.vphys - h.size) % t.info.vphys, depth := f.win.depth - 1, frames := k :: fs }
      exec .retE s = .next (doneWith s i { u with frags := tabMod u.frags i.frag fun f => { f with pc := h.link, win := w } }))

/-- CALLI of the E-stream with several targets (R199): the largest group of lanes calls, the lower target on a tie; every other group detaches at the
CALLI itself; a lane whose target is not listed is cause 0x019. -/
def Claims.LaneCallGroups : Prop :=
  ∀ (s : State) (i : Issue) (t : Team) (f : Frag) (a : BitVec 7) (o : ELanes) (e : Nat → CallEntry) (big : Nat × List Nat),
    tabGet (atIssue i t).frags i.frag = some f → Issuing (.calliE a) s i t → eOperands i (atIssue i t) (coreWord s i.core) [(a, .int)] none = .ok o →
    (∀ l, o.lanes.find? (fun l => (callTarget t true (o.arg 0 l).toNat).isNone) = some l →
      exec (.calliE a) s = .next (settle s i t {} (raiseWith 0x019 { lane := some l, value := o.arg 1 l ++ o.arg 0 l }))) ∧
    ((∀ l ∈ o.lanes, callTarget t true (o.arg 0 l).toNat = some (e (o.arg 0 l).toNat) ∧ f.win.depth < 65535 ∧
        Claims.fits f.win t.info.vphys (e (o.arg 0 l).toNat).fv) → t.trap.stream = none →
      largestGroup (targetGroups o) = some big →
      let calls := fun (f : Frag) => { f with mask := lanesMask big.2, pc := BitVec.ofNat 64 (t.info.kernel.code + big.1),
                                              win := Claims.pushed f.win t.info.vphys (e big.1).fv (i.pc + 4) false }
      (∀ g ∈ targetGroups o, g.2.length < big.2.length ∨ (g.2.length = big.2.length ∧ big.1 ≤ g.1)) ∧
      exec (.calliE a) s = .next (doneWith s i (((targetGroups o).filter fun g => g.1 ≠ big.1).foldl
        (fun w g => detach (s.setTeam i.wid (atIssue i t)) i.wid w (Claims.path f (lanesMask g.2) i.pc))
        { eFinish (atIssue i t) { o with frag := { f with mask := lanesMask big.2 } } false 0 with
          frags := tabMod (atIssue i t).frags i.frag calls })))

/-- The E-stream's branches, calls and returns complete so (R197 to R199). -/
def Obligations.LaneControlFlow : Prop := Claims.Detach ∧ Claims.LaneBranches ∧ Claims.LaneCalls ∧ Claims.LaneCallGroups

/-- MERGE.ARM and MERGE (R200 to R203): ARM puts a new token of the tag on the stack, the ninth being 0x01F; MERGE needs its tag on top, else 0x01F; while another set
carries the token and has not arrived, the fragment gives its slot up and waits; else the sets that wait become one fragment past the MERGE, with all their lanes. -/
def Claims.Merging : Prop :=
  ∀ (s : State) (i : Issue) (t : Team) (f : Frag) (n : BitVec 10), tabGet (atIssue i t).frags i.frag = some f →
    let u := atIssue i t
    let gone := { u with frags := tabDel u.frags i.frag }
    (Issuing (.mergeArm n) s i t →
      (f.tokens.length < 8 → exec (.mergeArm n) s = .next (doneWith s i { u with
        arm := t.arm + 1, frags := tabMod u.frags i.frag fun f => { f with tokens := (n, t.arm) :: f.tokens } })) ∧
      (8 ≤ f.tokens.length → exec (.mergeArm n) s = .next (settle s i t {} (raise 0x01F)))) ∧
    (Issuing (.merge n) s i t →
      (f.tokens.head?.any (·.1 = n) = false → exec (.merge n) s = .next (settle s i t {} (raise 0x01F))) ∧
      (∀ e es, f.tokens = (n, e) :: es →
        let here := fun p : Parked => p.held.isSome && p.frag.tokens.head? == some (n, e)
        let missing := (∃ p ∈ gone.frags, (n, e) ∈ p.2.tokens) ∨ (∃ p ∈ t.parked, (n, e) ∈ p.frag.tokens ∧ here p = false)
        let waits : Frag := { Claims.path f f.mask i.pc with wait := some (.merge n.toNat) }
        let set : Parked := { seq := t.parkSeq, frag := waits, held := some i.frag }
        (missing → exec (.merge n) s = .next (doneWith s i
          (unpark (s.setTeam i.wid u) i.wid { gone with parkSeq := t.parkSeq + 1, parked := t.parked ++ [set] }))) ∧
        (¬missing → mergeCause ({ f with pc := i.pc } :: (t.parked.filter here).map (·.frag)) = none →
          ∃ k g, exec (.merge n) s = .next (doneWith s i { gone with
              frags := tabSet gone.frags k g, parked := t.parked.filter fun p => !here p }) ∧
            g.pc = i.pc + 4 ∧ g.tokens = es ∧ tabGet gone.frags k = none ∧
            ∀ l, g.mask.getLsbD l = (f.mask.getLsbD l || (t.parked.filter here).any fun p => p.frag.mask.getLsbD l))))

/-- END and RET at depth 0 of the E-stream (R101, R204): the fragment's lanes live no longer, and leave every entry of the queues toward the E-stream. -/
def Claims.LanesEnd : Prop :=
  ∀ (x : Instr) (s : State) (i : Issue) (t : Team) (f : Frag) (n : Nat), i.stream = .e n → Issuing x s i t →
    tabGet (atIssue i t).frags n = some f → (x = .endS ∨ (x = .retE ∧ f.win.depth = 0)) →
    (∀ p ∈ t.frags, p.1 ≠ n → p.2.mask &&& f.mask = 0) → (∀ p ∈ t.parked, p.frag.mask &&& f.mask = 0) →
    ∃ s' v, exec x s = .next s' ∧ s'.team? i.wid = some v ∧ v.live &&& f.mask = 0 ∧
      ∀ q, q < 4 ∨ q = 6 → ∀ e ∈ (v.queue q).entries, e.pend &&& f.mask = 0

/-- The count of members that one A-stream or E-stream has at a tag. -/
def Claims.joined2 (r : RouteTag) (seq : Nat) : Bool := r.members.any fun m => m.1 = seq

/-- BARJ (R210): the team's launch joins the tag with the issuing stream, and the first fixes the count; 0x01D for a tag above 7, 0x01C for a team that has joined, 0x01E
for a count that is 0, above 4,096 or not the tag's, or for a full tag. -/
def Claims.BarrierJoin : Prop :=
  ∀ (s : State) (i : Issue) (t u : Team) (a b : BitVec 7) (tag c : Nat), Issuing (.barj a b) s i t →
    barOperands (s.setTeam i.wid (atIssue i t)) i (atIssue i t) [a, b] = .ok ([tag, c], u) →
    let r := tabGetD {} s.dev.routeTags tag
    let seq := t.info.seq.toNat
    let d := { value := valueOfA i t (coreWord s i.core) (.barj a b) }
    (7 < tag → exec (.barj a b) s = .next (settle s i t d (raise 0x01D))) ∧
    (tag ≤ 7 → Claims.joined2 r seq → exec (.barj a b) s = .next (settle s i t d (raise 0x01C))) ∧
    (tag ≤ 7 → Claims.joined2 r seq = false →
      let fits := 1 ≤ c ∧ c ≤ 4096 ∧ (r.members ≠ [] → c = r.count ∧ r.members.length ≠ c)
      (¬fits → exec (.barj a b) s = .next (settle s i t d (raise 0x01E))) ∧
      (fits → exec (.barj a b) s = .next (doneAs (({ s with dev := { s.dev with
        routeTags := tabSetD {} s.dev.routeTags tag { r with count := c, members := r.members ++ [(seq, i.estr)] } } }).setTeam i.wid u) i)))

/-- BAR of the A-stream (R211, R255): the team arrives, its release generation advancing, and waits past the BAR; the last member's arrival lets every member's streams go
on; 0x01D for a tag that the stream has not joined. -/
def Claims.BarrierWait : Prop :=
  ∀ (s : State) (i : Issue) (t : Team) (a : BitVec 7) (tag : DWord), Issuing (.bar a) s i t → i.stream = .a →
    sourceA i (atIssue i t) (coreWord s i.core) a = .ok tag →
    let r := tabGetD {} s.dev.routeTags tag.toNat
    let seq := t.info.seq.toNat
    (7 < tag.toNat ∨ (seq, false) ∉ r.members → exec (.bar a) s =
      .next (settle s i t { value := valueOfA i t (coreWord s i.core) (.bar a) } (raise 0x01D))) ∧
    (tag.toNat ≤ 7 → (seq, false) ∈ r.members →
      ∃ s' v, exec (.bar a) s = .next s' ∧ s'.team? i.wid = some v ∧
        (r.arrived.length + 1 ≠ r.count → v.a.bar = some tag.toNat ∧
          ((tabGetD {} s'.dev.routeTags tag.toNat).arrived.map (·.seq)) = r.arrived.map (·.seq) ++ [seq]) ∧
        (r.arrived.length + 1 = r.count → v.a.bar = none ∧ (tabGetD {} s'.dev.routeTags tag.toNat).arrived = [] ∧
          ∀ w k, s'.team? w = some k → (∃ e, (k.info.seq.toNat, e) ∈ r.members) → k.a.bar ≠ some tag.toNat ∧ ∀ p ∈ k.frags, p.2.bar ≠ some tag.toNat))

/-- BAR of the E-stream (R211): the fragment waits past the BAR; while another fragment or parked set of the team has not executed it, nothing else happens. -/
def Claims.LaneBarrier : Prop :=
  ∀ (s : State) (i : Issue) (t u : Team) (n : Nat) (a : BitVec 7) (tag : Nat), Issuing (.bar a) s i t → i.stream = .e n →
    barOperands (s.setTeam i.wid (atIssue i t)) i (atIssue i t) [a] = .ok ([tag], u) → tag ≤ 7 →
    (t.info.seq.toNat, true) ∈ (tabGetD {} s.dev.routeTags tag).members →
    let w := { u with frags := tabMod u.frags n fun f => { f with bar := some tag, wait := some (.barrier tag) } }
    exec (.bar a) s = .next (doneAs (checkArrivals (s.setTeam i.wid w) i.wid) i) ∧
    ((∀ k, k < 8 → allAtBar w k = false) → exec (.bar a) s = .next (doneWith s i w))

/-- BARJ and BAR complete so (R210 to R212). -/
def Obligations.RouteTags : Prop := Claims.BarrierJoin ∧ Claims.BarrierWait ∧ Claims.LaneBarrier

/-! ## The Lattice -/

/-- A command joins the end of the team's Lattice queue, numbered in the team's sequence (R175); `word` is the instruction's word and `vals` its
operands. -/
def Claims.queued (u : Team) (op : LatOp) (x : Instr) (vals : List DWord) : Team :=
  { u with lat := u.lat ++ [{ seq := u.latSeq, op := op, word := encode x, vals := vals }], latSeq := (u.latSeq + 1) % 2 ^ 32 }

/-- The commands of a team that have not started. -/
def Claims.unstarted (u : Team) : Nat := u.lat.countP fun c => !c.started

/-- An operand word (R179) whose reserved bits are 0, whose offsets are aligned, and whose `size` data bytes and `scales` scale bytes lie in the team's scratch. -/
def Claims.operandWord (u : Team) (w : DWord) (size scales : Nat) : Prop :=
  w.extractLsb' 26 6 = 0 ∧ w.extractLsb' 38 2 = 0 ∧ w.extractLsb' 60 4 = 0 ∧
    (w.extractLsb' 0 20).toNat % 128 = 0 ∧ (w.extractLsb' 40 20).toNat % 4 = 0 ∧ (w.extractLsb' 0 20).toNat + size ≤ u.info.scratchBytes ∧
    (scales = 0 ∨ (w.extractLsb' 40 20).toNat + scales ≤ u.info.scratchBytes)

/-- An AM handle names tile `k`, and team `wid` holds it (R171, R184). -/
def Claims.holdsTile (s : State) (i : Issue) (h : DWord) (k : Nat) : Prop :=
  k < 16 ∧ h = BitVec.ofNat 64 (0x1000 + k) ∧ ((s.core i.core).tile k).owner = some i.wid

/-- What a team's plane record will be once its commands that have not started have run (R178, R180). -/
def Claims.planes (u : Team) : Planes :=
  (u.lat.filter fun c => !c.started).foldl (fun p c => match c.op with
    | .mls m w => { p with shadow := some { mode := m, word := w } }
    | .mflip => { stationary := p.shadow, shadow := p.stationary }
    | _ => p) u.planes

/-- The byte size of a plane and of an activation row in a mode (R169), and whether the mode has MX scales. -/
def Claims.modeSizes (m : Nat) : Nat × Nat × Bool :=
  match m with
  | 0 => (16384, 256, false) | 1 => (16384, 256, false) | 2 => (8192, 128, false) | 3 => (8192, 128, true) | 4 => (4096, 64, true)
  | 6 => (2048, 128, false) | _ => (8192, 128, false)

/-- The instruction passes its checks as the command `op` with the operands `vals` (R175 to R185). -/
def Claims.accepted (s : State) (i : Issue) (u : Team) (x : Instr) (op : LatOp) (vals : List DWord) : Prop :=
  let src := fun f v => sourceA i u (coreWord s i.core) f = .ok v
  match x with
  | .mls a m => ∃ w, src a w ∧ op = .mls m w ∧ vals = [w] ∧
      let z := Claims.modeSizes (m.toNat % 8)
      Claims.operandWord u w z.1 (if z.2.2 then 256 else 0)
  | .mflip => op = .mflip ∧ vals = [] ∧ (Claims.planes u).shadow ≠ none
  | .mstream a b m => ∃ h w k, src a h ∧ src b w ∧ op = .mstream m k w ∧ vals = [h, w] ∧ Claims.holdsTile s i h k ∧
      let z := Claims.modeSizes (m.toNat % 8)
      let n := (w.extractLsb' 32 6).toNat + 1
      Claims.operandWord u w (n * z.2.1) (if z.2.2 then 4 * n else 0) ∧ (w.extractLsb' 20 6).toNat + n ≤ 64 ∧
        ∃ p, (Claims.planes u).stationary = some p ∧ p.mode.toNat % 8 = m.toNat % 8
  | .mtile d a b m => ∃ ha hb hc k sa sb ks, src a ha ∧ src b hb ∧ readS u d.toNat = .ok hc ∧ Claims.holdsTile s i hc k ∧
      op = .mtile m.toNat sa sb ks k ∧ vals = [ha, hb, hc] ∧ ks = (ha.extractLsb' 56 8).toNat ∧ ks ≠ 0 ∧ hb.extractLsb' 56 8 = 0 ∧
      (∀ h, h = ha ∨ h = hb → h.extractLsb' 12 4 = 0 ∧ (h.extractLsb' 0 12).toNat < u.info.kernel.ntiles) ∧
      let table := fun h : DWord => (List.range 64).map fun k => tabGetD 0 u.info.kernel.const (64 * (h.extractLsb' 0 12).toNat + k)
      resolveTile m.toNat true true u.info.args ha (table ha) = some sa ∧ resolveTile m.toNat false true u.info.args hb (table hb) = some sb ∧
      (∀ st, st < ks → 64 * sa.i < sa.rows ∧ 128 * (sa.j + st) < sa.cols ∧ 128 * (sb.i + st) < sb.rows ∧ 64 * sb.j < sb.cols) ∧
      sa.scratch = false ∧ sb.scratch = false
  | .amclr a => ∃ h k, src a h ∧ op = .amclr k ∧ vals = [h] ∧ Claims.holdsTile s i h k
  | .amld a b => ∃ h w k, src a h ∧ src b w ∧ op = .amld k w ∧ vals = [h, w] ∧ Claims.holdsTile s i h k ∧ Claims.operandWord u w 16384 0
  | .amst a b => ∃ h w k, src a h ∧ src b w ∧ op = .amst k w ∧ vals = [h, w] ∧ Claims.holdsTile s i h k ∧ Claims.operandWord u w 16384 0
  | _ => False

/-- MLS, MFLIP, MSTREAM, MTILE (of operands in memory), AMCLR, AMLD and AMST (R171 to R173, R175, R179 to R185): once checked, the command joins the end of the team's
Lattice queue with the next number of the team's sequence, and nothing else changes; with 8 commands not yet started it waits. -/
def Claims.LatticeCommands : Prop :=
  ∀ (x : Instr) (s : State) (i : Issue) (t : Team) (op : LatOp) (vals : List DWord), Issuing x s i t → i.stream = .a →
    Claims.accepted s i (atIssue i t) x op vals →
    (Claims.unstarted t < 8 → exec x s = .next (doneWith s i (Claims.queued (atIssue i t) op x vals))) ∧
    (8 ≤ Claims.unstarted t → exec x s = .next (noteWait s i (.lattice t.latSeq) []))

/-- The causes that the Lattice commands meet at issue (R179 to R182, R185): 0x106 of MLS's and AMLD's operand word, 0x105 of MFLIP without a loaded
shadow plane, and 0x100 and 0x103 of AMCLR's handle. Nothing else happens. -/
def Claims.LatticeCauses : Prop :=
  ∀ (x : Instr) (s : State) (i : Issue) (t : Team), Issuing x s i t → i.stream = .a →
    let u := atIssue i t
    let src := fun f v => sourceA i u (coreWord s i.core) f = .ok v
    let stops := fun c => ∃ v, exec x s = .next (settle s i t v (raise c))
    (∀ a m w, x = .mls a m → src a w → let z := Claims.modeSizes (m.toNat % 8)
      ¬Claims.operandWord u w z.1 (if z.2.2 then 256 else 0) → stops 0x106) ∧
    (x = .mflip → (Claims.planes u).shadow = none → stops 0x105) ∧
    (∀ a h, x = .amclr a → src a h →
      (h.extractLsb' 4 60 ≠ 0x100 → stops 0x100) ∧
      (h.extractLsb' 4 60 = 0x100 → ((s.core i.core).tile (h.toNat % 16)).owner ≠ some i.wid → stops 0x103)) ∧
    (∀ a b h w k, x = .amld a b → src a h → src b w → Claims.holdsTile s i h k → ¬Claims.operandWord u w 16384 0 → stops 0x106)

/-- AMALLOC (R184): s_d takes the handle of the lowest-numbered free tile of the core's team space, which the team then holds, with every element and its progress zero; a
team at its quota meets 0x104, and with no free tile it waits. -/
def Claims.AmAlloc : Prop :=
  ∀ (s : State) (i : Issue) (t : Team) (d : BitVec 6) (p : Nat), Issuing (.amalloc d) s i t → i.stream = .a →
    (atIssue i t).a.win.reg 256 d.toNat = .ok p →
    let c := s.core i.core
    let held := (List.range 16).countP fun k => (c.tile k).owner = some i.wid
    (t.info.amq ≤ held → exec (.amalloc d) s = .next (settle s i t {} (raise 0x104))) ∧
    (held < t.info.amq → ∀ k, k + c.ttiles < 16 → (c.tile k).owner = none → (∀ j, j < k → (c.tile j).owner ≠ none) →
      exec (.amalloc d) s = .next (doneAs ((s.setCore i.core { c with lat := { c.lat with am := tabSetD {} c.lat.am k { owner := some i.wid } } }).setTeam
        i.wid (Claims.setS (atIssue i t) p (BitVec.ofNat 64 (0x1000 + k)))) i)) ∧
    (held < t.info.amq → (∀ k, k + c.ttiles < 16 → (c.tile k).owner ≠ none) → exec (.amalloc d) s = .next (noteWait s i .amalloc []))

/-- AMFREE (R184): the tile is cleared and free; while a command of the team names it, AMFREE waits. -/
def Claims.AmFree : Prop :=
  ∀ (s : State) (i : Issue) (t : Team) (a : BitVec 7) (h : DWord) (k : Nat), Issuing (.amfree a) s i t → i.stream = .a →
    sourceA i (atIssue i t) (coreWord s i.core) a = .ok h → Claims.holdsTile s i h k →
    let c := s.core i.core
    let named := ∃ x ∈ t.lat, x.op.tile = some k
    (¬named → exec (.amfree a) s = .next (doneAs ((s.setTeam i.wid (atIssue i t)).setCore i.core
        { c with lat := { c.lat with am := tabSetD {} c.lat.am k {} } }) i)) ∧
    (named → exec (.amfree a) s = .next (noteWait s i (.lattice t.latSeq) []))

/-- MWAIT (R187): it completes once at most n of the team's commands are incomplete, and waits until then. -/
def Claims.LatticeWait : Prop :=
  ∀ (s : State) (i : Issue) (t : Team) (a : BitVec 7) (n : DWord), Issuing (.mwait a) s i t → i.stream = .a →
    sourceA i (atIssue i t) (coreWord s i.core) a = .ok n →
    (t.lat.length ≤ n.toNat → exec (.mwait a) s = .next (doneWith s i (atIssue i t))) ∧
    (n.toNat < t.lat.length → exec (.mwait a) s = .next (noteWait s i (.lattice t.latSeq) []))

/-- AMALLOC, AMFREE and MWAIT act so. -/
def Claims.AccumulatorTiles : Prop := Claims.AmAlloc ∧ Claims.AmFree ∧ Claims.LatticeWait

/-- AMRD (R186): v_d takes, in each active lane, element b of the tile that the low four bits of a name, raw or rounded to BF16 or FP16; any lane that names a tile the team does
not hold raises 0x103, else any element number above 4,095 raises 0x102; while a command writes a tile that it reads, it waits. -/
def Claims.ReadAccumulator : Prop :=
  ∀ (n : BitVec 1) (d : BitVec 6) (a b : BitVec 7) (r : BitVec 2) (s : State) (i : Issue) (t : Team) (o : ELanes) (p : Nat),
    let x : Instr := .amrd n d a b r
    Issuing x s i t → eOperands i (atIssue i t) (coreWord s i.core) [(a, .int), (b, .int)] none = .ok o → destV (atIssue i t) o n d = .ok p →
    let c := s.core i.core
    let k := fun l => (o.arg 0 l).toNat % 16
    let held := ∀ l ∈ o.lanes, (c.tile (k l)).owner = some i.wid
    let inside := ∀ l ∈ o.lanes, (o.arg 1 l).toNat < 4096
    let quiet := ∀ l ∈ o.lanes, tileWriting c t i.wid (k l) = false
    (held → inside → quiet → Claims.delivers x s i (atIssue i t) o n p 7 fun l =>
      let w := tabGetD 0 (c.tile (k l)).data (o.arg 1 l).toNat
      if r = 0 then (w, 0)
      else
        let v := fpDecode .f32 w.toNat
        let y := fpRound (if r = 1 then .bf16 else .f16) .rne true v
        (BitVec.ofNat 32 y.1, y.2 ||| sigFlag v)) ∧
    (∀ l, o.lanes.find? (fun l => (c.tile (k l)).owner ≠ some i.wid) = some l →
      exec x s = .next (settle s i t {} (raiseWith 0x103 { lane := some l, value := o.arg 1 l ++ o.arg 0 l }))) ∧
    (held → ∀ l, o.lanes.find? (fun l => 4096 ≤ (o.arg 1 l).toNat) = some l →
      exec x s = .next (settle s i t {} (raiseWith 0x102 { lane := some l, value := o.arg 1 l ++ o.arg 0 l }))) ∧
    (held → inside → ¬quiet → exec x s = .next (noteWait s i (.lattice t.latSeq) []))

/-! ## Rings, stash maps, fences, publication and way masks -/

/-- A slot of a ring set to a state, with so many bytes pending. -/
def Claims.slotSet (r : Ring) (k : Nat) (x : SlotState) (left : Nat) : Ring :=
  { r with slots := tabSetD .free r.slots k x, pending := tabSetD 0 r.pending k left }

/-- The team with ring `n` as `r`. -/
def Claims.setRing (u : Team) (n : Nat) (r : Ring) : Team := { u with rings := tabMod u.rings n fun _ => r }

/-- RING.CLAIM, SIG, WAIT and FREE (R162, R163, Tables 7-6 and 7-7): CLAIM takes the tail slot when it is FREE, with all its bytes pending, and the tail moves on; SIG lowers a
CLAIMED slot's pending count, and at 0 the slot is FILLED; WAIT gives the number of the slot that lies n behind the head once it is FILLED; FREE releases a FILLED head slot. -/
def Claims.RingMoves : Prop :=
  ∀ (s : State) (i : Issue) (t : Team) (d : BitVec 6) (a b : BitVec 7) (v n : DWord) (p : Nat) (r : Ring), i.stream = .a →
    let u := atIssue i t
    let core := coreWord s i.core
    let ring := v.toNat % 8
    sourceA i u core a = .ok v → tabGet t.rings ring = some r →
    (Issuing (.ringClaim d a) s i t → u.a.win.reg 256 d.toNat = .ok p → r.prod = none →
      (tabGetD .free r.slots r.tail = .free → exec (.ringClaim d a) s = .next (doneWith s i (Claims.setS
        (Claims.setRing u ring { Claims.slotSet r r.tail .claimed r.slotSize with tail := (r.tail + 1) % r.count }) p (BitVec.ofNat 64 r.tail)))) ∧
      (tabGetD .free r.slots r.tail ≠ .free → exec (.ringClaim d a) s = .next (noteWait s i (.other ring) []))) ∧
    (Issuing (.ringSig a b) s i t → sourceA i u core b = .ok n → r.prod = none →
      let k := (v.extractLsb' 16 16).toNat
      let left := tabGetD 0 r.pending k - n.toNat
      tabGetD .free r.slots k = .claimed → n.toNat ≤ tabGetD 0 r.pending k → exec (.ringSig a b) s = .next (doneWith s i
        (Claims.setRing u ring { r with pending := tabSetD 0 r.pending k left,
                                        slots := if left = 0 then tabSetD .free r.slots k .filled else r.slots }))) ∧
    (Issuing (.ringWait d a b) s i t → sourceA i u core b = .ok n → u.a.win.reg 256 d.toNat = .ok p → r.cons = none → n.toNat < r.count →
      let k := (r.head + n.toNat) % r.count
      (tabGetD .free r.slots k = .filled → exec (.ringWait d a b) s = .next (doneWith s i (Claims.setS u p (BitVec.ofNat 64 k)))) ∧
      (tabGetD .free r.slots k ≠ .filled → exec (.ringWait d a b) s = .next (noteWait s i (.other ring) []))) ∧
    (Issuing (.ringFree a b) s i t → r.cons = none → tabGetD .free r.slots r.head = .filled →
      let freed := { Claims.slotSet r r.head .free 0 with head := (r.head + 1) % r.count }
      (b = 96 → exec (.ringFree a b) s = .next (doneWith s i (Claims.setRing u ring freed))) ∧
      (∀ q e, (b = 76 ∧ q = 4 ∨ b = 77 ∧ q = 5) → (t.queue q).cap ≠ 0 → headEtoA u q = .ok e →
        exec (.ringFree a b) s = .next (doneWith s i (Claims.setRing (dropEtoA u q) ring freed))))

/-- RING.STAT (Table 7-7): s_d takes the counts of FREE and FILLED slots, the head and the tail, 16 bits each. -/
def Claims.RingStatus : Prop :=
  ∀ (s : State) (i : Issue) (t : Team) (d : BitVec 6) (a : BitVec 7) (v : DWord) (p : Nat) (r : Ring), i.stream = .a →
    sourceA i (atIssue i t) (coreWord s i.core) a = .ok v → tabGet t.rings (v.toNat % 8) = some r → Issuing (.ringStat d a) s i t →
    (atIssue i t).a.win.reg 256 d.toNat = .ok p →
    let n := fun x => (List.range r.count).countP fun k => tabGetD .free r.slots k = x
    exec (.ringStat d a) s = .next (doneWith s i (Claims.setS (atIssue i t) p
      (BitVec.ofNat 64 (n .free + 2 ^ 16 * n .filled + 2 ^ 32 * r.head + 2 ^ 48 * r.tail))))

/-- The causes of the ring instructions (R163): an undeclared ring is 0x08A, a side that an engine owns 0x08C, a slot in another state 0x08B, more bytes than
are pending 0x08D, and a WAIT number not below the slot count 0x009. -/
def Claims.RingCauses : Prop :=
  ∀ (s : State) (i : Issue) (t : Team) (d : BitVec 6) (a b : BitVec 7) (v n : DWord) (p : Nat), i.stream = .a →
    let u := atIssue i t
    let stops := fun x c => exec x s = .next (settle s i t { value := v } (raise c))
    sourceA i u (coreWord s i.core) a = .ok v → sourceA i u (coreWord s i.core) b = .ok n → u.a.win.reg 256 d.toNat = .ok p →
    (tabGet t.rings (v.toNat % 8) = none →
      (∀ x, x = .ringClaim d a ∨ x = .ringSig a b ∨ x = .ringWait d a b ∨ x = .ringStat d a → Issuing x s i t → stops x 0x08A)) ∧
    (∀ r, tabGet t.rings (v.toNat % 8) = some r →
      (r.prod ≠ none → ∀ x, x = .ringClaim d a ∨ x = .ringSig a b → Issuing x s i t → stops x 0x08C) ∧
      (r.cons ≠ none → Issuing (.ringWait d a b) s i t → stops (.ringWait d a b) 0x08C) ∧
      (r.prod = none → Issuing (.ringSig a b) s i t →
        (tabGetD .free r.slots (v.extractLsb' 16 16).toNat ≠ .claimed → stops (.ringSig a b) 0x08B) ∧
        (tabGetD .free r.slots (v.extractLsb' 16 16).toNat = .claimed → tabGetD 0 r.pending (v.extractLsb' 16 16).toNat < n.toNat →
          stops (.ringSig a b) 0x08D)) ∧
      (r.cons = none → r.count ≤ n.toNat → Issuing (.ringWait d a b) s i t → stops (.ringWait d a b) 0x009))

/-- The ring instructions act so (R162, R163). -/
def Obligations.Rings : Prop := Claims.RingMoves ∧ Claims.RingStatus ∧ Claims.RingCauses

/-- STASH.MAP (R160): a range of whole lines, clear of the team's other maps and within its stash, that can be read, goes into the lowest free of the four maps, whose number s_d
takes; a bad range is 0x090, and a fifth map 0x091. -/
def Claims.StashMapped : Prop :=
  ∀ (s : State) (i : Issue) (t : Team) (d : BitVec 6) (a b : BitVec 7) (v w : DWord) (p : Nat), i.stream = .a → Issuing (.stashMap d a b) s i t →
    sourceA i (atIssue i t) (coreWord s i.core) a = .ok v → sourceA i (atIssue i t) (coreWord s i.core) b = .ok w →
    (atIssue i t).a.win.reg 256 d.toNat = .ok p →
    let base := v.toNat
    let len := w.toNat
    let stops := fun c => exec (.stashMap d a b) s = .next (settle s i t { value := v } (raise c))
    let fits := base % 128 = 0 ∧ 0 < len ∧ len % 128 = 0 ∧ (∀ m ∈ t.stash, base + len ≤ m.2.base ∨ m.2.base + m.2.len ≤ base) ∧
      (t.stash.map fun m => m.2.len).sum + len ≤ t.info.stashBytes
    (¬fits → stops 0x090) ∧
    (fits → (∀ k, k < 4 → (tabGet t.stash k).isSome) → stops 0x091) ∧
    (fits → ∀ k, k < 4 → tabGet t.stash k = none → (∀ j, j < k → (tabGet t.stash j).isSome) → base + len ≤ 2 ^ 57 →
      (probeRange s i.core t.info.ctx base len false 1).1 = none →
      exec (.stashMap d a b) s = .next (doneWith s i (Claims.setS { atIssue i t with
        stash := tabSet t.stash k { base := base, len := len } } p (BitVec.ofNat 64 k))))

/-- STASH.UNMAP and STASH.CLEAN (R160, R161): UNMAP removes the map; CLEAN leaves its lines, none of them dirty; 0x092 for a map that is not in place. -/
def Claims.StashUnmapped : Prop :=
  ∀ (s : State) (i : Issue) (t : Team) (a : BitVec 7) (v : DWord), i.stream = .a → sourceA i (atIssue i t) (coreWord s i.core) a = .ok v →
    let u := atIssue i t
    (tabGet t.stash v.toNat = none → ∀ x, x = .stashUnmap a ∨ x = .stashClean a → Issuing x s i t →
      exec x s = .next (settle s i t { value := v } (raise 0x092))) ∧
    (∀ m, tabGet t.stash v.toNat = some m →
      (Issuing (.stashUnmap a) s i t → exec (.stashUnmap a) s = .next (doneWith s i { u with stash := tabDel t.stash v.toNat })) ∧
      (Issuing (.stashClean a) s i t → exec (.stashClean a) s = .next (doneWith s i { u with
        stash := tabMod t.stash v.toNat fun m => { m with lines := m.lines.map fun l => (l.1, false) } })))

/-- The stash instructions act so. -/
def Claims.StashMaps : Prop := Claims.StashMapped ∧ Claims.StashUnmapped

/-- FENCE (R159, R239, R252): scope 0 does nothing. At the other scopes, with no COLL flit of the fragment flying and, at system scope, no write unacknowledged, the team's release
generation advances; at system scope every stash line is clean. Memory and everything else of the team are as before. -/
def Claims.Fences : Prop :=
  ∀ (s : State) (i : Issue) (t : Team) (sc : BitVec 3), Issuing (.fence sc) s i t →
    (sc = 0 → exec (.fence sc) s = .next (doneWith s i (atIssue i t))) ∧
    (sc = 5 → t.acks ≠ 0 → i.stream = .a → exec (.fence sc) s = .next (noteWait s i (.other 0) [])) ∧
    (sc ≠ 0 → (sc = 5 → t.acks = 0) → i.estr = false →
      ∃ s' v, exec (.fence sc) s = .next s' ∧ sameMem s s' ∧ (genOf s' i.wid).cur = (genOf s i.wid).cur + 1 ∧ s'.team? i.wid = some v ∧
        { v with stash := [], acq := [], seen := none, fenced := true } =
          { (atIssue i t).issued i.stream with stash := [], acq := [], seen := none, fenced := true } ∧
        (sc = 5 → ∀ m ∈ v.stash, ∀ l ∈ m.2.lines, l.2 = false)) ∧
    (sc ≠ 0 → (sc = 5 → t.acks = 0) → i.estr = true → collFlying s (atIssue i t) i.frag = false →
      ∃ s' v, exec (.fence sc) s = .next s' ∧ sameMem s s' ∧ (genOf s' i.wid).cur = (genOf s i.wid).cur + 1 ∧ s'.team? i.wid = some v ∧
        { v with stash := [], acq := [] } = { (atIssue i t).issued i.stream with stash := [], acq := [] } ∧
        (sc = 5 → ∀ m ∈ v.stash, ∀ l ∈ m.2.lines, l.2 = false))

/-- PUBLISH (R164, R248): once no engine write into the object is to come and every write is acknowledged, the object's flip count goes up, in the table of its context and in the
publication word; s_d takes it; the translation registers that lie in the object have a LIMIT of 0. Every other byte is unchanged. 0x094 for an address that is no object. -/
def Claims.Publication : Prop :=
  ∀ (s : State) (i : Issue) (t : Team) (d : BitVec 6) (a : BitVec 7) (v : DWord) (p : Nat), i.stream = .a → Issuing (.publish d a) s i t →
    sourceA i (atIssue i t) (coreWord s i.core) a = .ok v → (atIssue i t).a.win.reg 256 d.toNat = .ok p →
    ((∀ x ∈ doubles s t.info.ctx, x.obase ≠ v.toNat) → exec (.publish d a) s = .next (settle s i t { value := v } (raise 0x094))) ∧
    (∀ x, (doubles s t.info.ctx).find? (fun x => x.obase = v.toNat) = some x →
      (∀ c ∈ s.eng.copies, c.2.owner = some t.seqNo → writesShadow x c.2 = false) → t.acks = 0 →
      let n := natLe 8 ((x.flips + 1) % 2 ^ 32)
      let word := x.base true + 8 * x.word
      let entry := ctxDouble s t.info.ctx + 32 * x.index + 12
      ∃ s' w, exec (.publish d a) s = .next s' ∧ memBytes s'.mem word 8 = n ∧
        (entry + 4 ≤ word ∨ word + 8 ≤ entry → memBytes s'.mem entry 4 = n.take 4) ∧
        (∀ k, (k < word ∨ word + 8 ≤ k) → (k < entry ∨ entry + 4 ≤ k) → memGet s'.mem k = memGet s.mem k) ∧
        s'.team? i.wid = some w ∧ tabGetD 0 w.a.s p = BitVec.ofNat 64 ((x.flips + 1) % 2 ^ 32) ∧
        ∀ j z, s'.team? j = some z → z.info.ctx = t.info.ctx → ∀ r ∈ z.a.t, x.obase ≤ r.2.vbase.toNat → r.2.vbase.toNat < x.obase + x.len →
          r.2.limit = 0)

/-- The L2 way masks (R165): OCC counts the lines of a slice of the region's partition that are the region's; MASK reads its way mask; SETMASK sets the mask to the bits that its
ceiling allows; the causes are 0x098, 0x099 and 0x09A. -/
def Claims.WayMasks : Prop :=
  ∀ (s : State) (i : Issue) (t : Team) (d : BitVec 6) (a : BitVec 7) (v : DWord) (p : Nat), i.stream = .a →
    let u := atIssue i t
    let r := s.region t.info.node
    sourceA i u (coreWord s i.core) a = .ok v → u.a.win.reg 256 d.toNat = .ok p →
    (Issuing (.l2ctlOcc d a) s i t →
      (127 < v.toNat → exec (.l2ctlOcc d a) s = .next (settle s i t { value := v } (raise 0x098))) ∧
      (v.toNat ≤ 127 →
        let mine := s.dev.l2Parts ≤ 1 ∨ v.toNat / 32 / (4 / s.dev.l2Parts) = r.l2part
        let sets := s.dev.l2.filter fun x => x.1 / 1024 = v.toNat
        let lines := (sets.map fun x => x.2.ways.countP fun w => w.2.node = some t.info.node).sum
        exec (.l2ctlOcc d a) s = .next (doneWith s i (Claims.setS u p (BitVec.ofNat 64 (if mine then lines else 0)))))) ∧
    (Issuing (.l2ctlMask d) s i t → exec (.l2ctlMask d) s = .next (doneWith s i (Claims.setS u p (r.fmask.setWidth 64)))) ∧
    (Issuing (.l2ctlSetmask d a) s i t →
      let m := v.setWidth 16 &&& r.fmaskCeil
      (r.masklock = true → exec (.l2ctlSetmask d a) s = .next (settle s i t { value := v } (raise 0x09A))) ∧
      (r.masklock = false → m = 0 → exec (.l2ctlSetmask d a) s = .next (settle s i t { value := v } (raise 0x099))) ∧
      (r.masklock = false → m ≠ 0 → exec (.l2ctlSetmask d a) s = .next (doneAs ((s.setRegion t.info.node { r with fmask := m }).setTeam i.wid
        (Claims.setS u p (m.setWidth 64))) i)))

/-! ## Copies, stream records and collectives -/

/-- A copy as its instruction enters it into the table (R259 to R261, Table 12-2): the flags word `w`, the source and the destination, the entry `n` and the team's batch. -/
def Claims.copyRecord (i : Issue) (u : Team) (kind fn size : Nat) (src dst : Nat) (w : DWord) (n : Nat) : Copy :=
  let scratch := w.getLsbD 34
  let dkind := (w.extractLsb' 32 2).toNat
  { kind := kind, fn := fn, size := size, len := (w.extractLsb' 0 32).toNat, dkind := dkind, srcScratch := scratch,
    src := if scratch then src % 2 ^ 32 else src, dst := if dkind = 0 then dst else dst % 2 ^ 32, shadow := w.getLsbD 35,
    cls := w.extractLsb' 36 2, rcore := (w.extractLsb' 38 8).toNat, rslot := (w.extractLsb' 46 4).toNat, rgen := (w.extractLsb' 50 8).toNat,
    owner := some u.info.seq.toNat, core := i.core, node := u.info.node, ctx := u.info.ctx, rank := u.info.rank, entry := n, batch := u.batch }

/-- A flags word that Table 12-2 allows for the instruction (R260): the reserved bits are 0, LEN is a multiple of the size, and the destination is of a kind it takes. -/
def Claims.flagsFit (w : DWord) (kind size : Nat) : Prop :=
  let len := (w.extractLsb' 0 32).toNat
  let dkind := (w.extractLsb' 32 2).toNat
  w.extractLsb' 58 6 = 0 ∧ len ≠ 0 ∧ len % size = 0 ∧ dkind ≠ 3 ∧ (w.getLsbD 35 = true → dkind = 0) ∧ (kind = 2 → dkind = 0) ∧ (kind = 1 → dkind = 1)

/-- The lowest entry of the team's copy table that no unfinished copy of the team has is `n` (R261). -/
def Claims.lowestEntry (s : State) (t : Team) (n : Nat) : Prop :=
  let used := fun k => ∃ p ∈ s.eng.copies, p.2.owner = some t.info.seq.toNat ∧ p.2.entry = k
  n < 64 ∧ ¬used n ∧ ∀ k, k < n → used k

/-- CPY, CPYM and CPYR with what they name: the kind, the function, d, the translation register, the index field and the size. -/
def Claims.copyKind (h : Option Hint) : Instr → Option (Nat × Nat × BitVec 6 × BitVec 4 × BitVec 7 × BitVec 2 × Int)
  | .cpy d tn x sz off => some (0, 0, d, tn, x, sz, offsetUnits h off)
  | .cpym d tn x sz off => some (1, 0, d, tn, x, sz, offsetUnits h off)
  | .cpyr d tn x sz f => some (2, f.toNat, d, tn, x, sz, functionUnits h)
  | _ => none

/-- The command that CPYM's follow-on word gives (R263), checked as the instruction that it names. -/
def Claims.follows (s : State) (i : Issue) (u : Team) (w : DWord) (op : LatOp) : Prop :=
  let kind := (w.extractLsb' 26 2).toNat
  let tile := (w.extractLsb' 28 4).toNat
  let m := w.extractLsb' 60 4
  let bare := w &&& ~~~(0xF0000000FC000000 : DWord)
  let z := Claims.modeSizes (m.toNat % 8)
  let legal := m.toNat % 8 ≠ 7 ∧ (m.toNat < 8 ∨ m.toNat % 8 = 2 ∨ m.toNat % 8 = 3)
  match kind with
  | 0 => tile = 0 ∧ legal ∧ op = .mls m bare ∧ Claims.operandWord u bare z.1 (if z.2.2 then 256 else 0)
  | 1 => legal ∧ op = .mstream m tile bare ∧ Claims.holdsTile s i (BitVec.ofNat 64 (0x1000 + tile)) tile ∧
      let n := (bare.extractLsb' 32 6).toNat + 1
      Claims.operandWord u bare (n * z.2.1) (if z.2.2 then 4 * n else 0) ∧ (bare.extractLsb' 20 6).toNat + n ≤ 64 ∧
        ∃ p, (Claims.planes u).stationary = some p ∧ p.mode.toNat % 8 = m.toNat % 8
  | 2 => m.toNat % 8 = 0 ∧ op = .amld tile bare ∧ Claims.holdsTile s i (BitVec.ofNat 64 (0x1000 + tile)) tile ∧ Claims.operandWord u bare 16384 0
  | _ => False

/-- CPY, CPYM and CPYR (R259 to R264): with s_d the source and s_{d+1} the flags word, both in order, no cause of its ranges and every page resident, the copy takes the
lowest free entry of the team's copy table and its segments enter the copy leaf of its core's engine; CPYM also queues the command of its follow-on word, which waits for
the copy. Memory is unchanged. -/
def Claims.Copies : Prop :=
  ∀ (x : Instr) (s : State) (i : Issue) (t : Team) (kind fn : Nat) (d : BitVec 6) (tn : BitVec 4) (f : BitVec 7) (sz : BitVec 2) (off : Int)
    (src w idx : DWord) (n : Nat), Issuing x s i t → i.stream = .a → Claims.copyKind i.hint x = some (kind, fn, d, tn, f, sz, off) →
    let u := atIssue i t
    let size := Claims.bytes sz
    readS u d.toNat = .ok src → readS u (d.toNat + 1) = .ok w → sourceA i u (coreWord s i.core) f = .ok idx → Claims.flagsFit w kind size →
    let far := (w.extractLsb' 32 2).toNat ≠ 0
    let r := if far then {} else tabGetD {} t.a.t tn.toNat
    (far → tn = 0) → (¬far → r.valid = true) → Claims.lowestEntry s t n →
    let c := Claims.copyRecord i u kind fn size src.toNat (Claims.address r idx off size) w n
    copyCause s i.core t.info.ctx t.info.scratchBytes c = none → copyNeeds s i.core t.info.ctx c = [] →
    let pushed := fun u : Team => pushSegments (addCopy (s.setTeam i.wid u) c).1 (copyLeaf i.core) s.eng.copySeq c
    (kind ≠ 1 → exec x s = .next (doneAs (pushed u) i)) ∧
    (kind = 1 → ∀ fw op, readS u (d.toNat + 2) = .ok fw → Claims.follows s i u fw op → Claims.unstarted t < 8 →
      exec x s = .next (doneAs (pushed { u with
        lat := u.lat ++ [{ seq := u.latSeq, op := op, after := some s.eng.copySeq }], latSeq := (u.latSeq + 1) % 2 ^ 32 }) i)) ∧
    sameMem s (pushed u)

/-- What the copies meet instead (R88, R260, R261): a flags word out of order is 0x108, a translation register that is not valid 0x080, and the causes of the ranges their own, those of
an address with the address; with all 64 entries taken the instruction waits. -/
def Claims.CopyCauses : Prop :=
  ∀ (x : Instr) (s : State) (i : Issue) (t : Team) (kind fn : Nat) (d : BitVec 6) (tn : BitVec 4) (f : BitVec 7) (sz : BitVec 2) (off : Int)
    (src w idx : DWord), Issuing x s i t → i.stream = .a → Claims.copyKind i.hint x = some (kind, fn, d, tn, f, sz, off) →
    let u := atIssue i t
    let size := Claims.bytes sz
    readS u d.toNat = .ok src → readS u (d.toNat + 1) = .ok w → sourceA i u (coreWord s i.core) f = .ok idx →
    (kind = 1 → ∃ fw, readS u (d.toNat + 2) = .ok fw) →
    let stops := fun c => ∃ v, exec x s = .next (settle s i t v (raise c))
    let far := (w.extractLsb' 32 2).toNat ≠ 0
    let r := if far then {} else tabGetD {} t.a.t tn.toNat
    let c := Claims.copyRecord i u kind fn size src.toNat (Claims.address r idx off size) w 0
    (¬Claims.flagsFit w kind size → stops 0x108) ∧
    (Claims.flagsFit w kind size → ¬far → (tabGetD {} t.a.t tn.toNat).valid = false → stops 0x080) ∧
    (Claims.flagsFit w kind size → (far → tn = 0) → (¬far → r.valid = true) →
      (∀ k at_, copyCause s i.core t.info.ctx t.info.scratchBytes c = some (k, at_) →
        (k = 0x10B ∨ k = 0x113 → stops k) ∧
        (k ≠ 0x10B → k ≠ 0x113 → exec x s = .next (settle s i t {} (raiseWith k { value := BitVec.ofNat 64 at_ })))) ∧
      (kind ≠ 1 → copyCause s i.core t.info.ctx t.info.scratchBytes c = none → copyNeeds s i.core t.info.ctx c = [] → copyEntries s t = [] →
        exec x s = .next (noteWait s i (.other 0) [])))

/-- CPSEAL and CPWAIT (R268, R269): CPSEAL closes the open batch, whose number s_d takes, unless 64 sealed batches are unfinished; CPWAIT waits until at most n sealed batches
are unfinished, and s_d takes the oldest unfinished one, with bit 32 where a finished batch dropped bytes. -/
def Claims.Batches : Prop :=
  ∀ (s : State) (i : Issue) (t : Team) (d : BitVec 6) (n : BitVec 11) (p : Nat), i.stream = .a → (atIssue i t).a.win.reg 256 d.toNat = .ok p →
    let u := atIssue i t
    (Issuing (.cpseal d) s i t →
      (unfinished s t < 64 → exec (.cpseal d) s = .next (doneWith s i (Claims.setS { u with batch := (u.batch + 1) % 2 ^ 32 } p
        (BitVec.ofNat 64 u.batch)))) ∧
      (64 ≤ unfinished s t → exec (.cpseal d) s = .next (noteWait s i (.other 0) []))) ∧
    (Issuing (.cpwait d n) s i t →
      let most := (rawImm i.hint n).toNat
      let dropped := fun b => b ≠ t.batch ∧ unfinished s t < batchAge t b
      (unfinished s t ≤ most → exec (.cpwait d n) s = .next (doneWith s i (Claims.setS { u with stale := u.stale.filter fun b => ¬dropped b } p
        (BitVec.ofNat 64 ((t.batch + 2 ^ 32 - unfinished s t) % 2 ^ 32 + if ∃ b ∈ t.stale, dropped b then 2 ^ 32 else 0))))) ∧
      (most < unfinished s t → exec (.cpwait d n) s = .next (noteWait s i (.other (oldestBatch s t)) [])))

/-- STRM (R271): a record of 128 bytes in order, of a declared ring whose side faces an engine, takes an entry of the copy table and enters the core's stream leaf; a
misaligned or malformed record is 0x110, and a ring without an engine on that side 0x111. Memory is unchanged. -/
def Claims.StreamRecords : Prop :=
  ∀ (s : State) (i : Issue) (t : Team) (a : BitVec 7) (v : DWord), Issuing (.strm a) s i t → i.stream = .a →
    sourceA i (atIssue i t) (coreWord s i.core) a = .ok v → v.toNat < 2 ^ 57 →
    let bytes := readVirt s i.core t.info.ctx v.toNat 128
    let stops := fun c => exec (.strm a) s = .next (settle s i t { value := v } (raise c))
    (v.toNat % 128 ≠ 0 → stops 0x110) ∧
    (v.toNat % 128 = 0 → probeRange s i.core t.info.ctx v.toNat 128 false 1 = (none, []) →
      (parseStream v.toNat bytes = none → stops 0x110) ∧
      (∀ r, parseStream v.toNat bytes = some r → streamSide t r = none → stops 0x111) ∧
      (∀ r e n, parseStream v.toNat bytes = some r → streamSide t r = some e → Claims.lowestEntry s t n →
        ∃ s', exec (.strm a) s = .next s' ∧ sameMem s s' ∧ Claims.leaves s' i (atIssue i t) ∧
          tabGet s'.eng.copies s.eng.copySeq = some (ownCopy i (atIssue i t) n (streamCopy r e)) ∧
          (s.host.fatal = false →
            let l := s'.leaf (leafId 3 i.core)
            ∃ y, (y ∈ l.items ∨ y ∈ l.waiting) ∧ y.rank = t.info.rank % 2 ^ 32 ∧ y.work = .stream s.eng.copySeq)))

/-- The lanes of a COLL (R281): peer word, address and data of each. -/
def Claims.collArgs (t : Team) (o : ELanes) (c : CollDesc) : List CollArg :=
  let at_ := fun (b : Nat) => if c.scratch then (c.offset + b) % 2 ^ 32
    else ((if c.abs then 0 else (t.info.args.getD c.barg 0).toNat) + c.offset + b) % 2 ^ 64
  o.lanes.map fun l => ⟨l, (o.arg 0 l).toNat, at_ (o.arg 1 l).toNat, (o.arg 2 l).toNat⟩

/-- COLL (R280 to R286): the collective word in order, every lane's device reached and its address aligned and in reach, and, of a switch operation, the chunk not paused, the flits of
the lanes are sent, each counted as an outstanding access of the team; a GET or SWAP holds the fragment until its replies have arrived. -/
def Claims.Collective : Prop :=
  ∀ (d : BitVec 6) (a b : BitVec 7) (k : BitVec 4) (s : State) (i : Issue) (t : Team) (o : ELanes) (p : Nat),
    let x : Instr := .coll d a b k
    Issuing x s i t → eOperands i (atIssue i t) (coreWord s i.core) [(a, .int), (b, .int)] (some d) = .ok o →
    let u := atIssue i t
    let w := tabGetD 0 t.k k.toNat
    let c := collDesc t (w.extractLsb' 0 20).toNat
    let chunk := (w.extractLsb' 32 32).toNat
    let xs := Claims.collArgs t o c
    let stops := fun n (y : CollArg) => exec x s = .next (settle s i t {} (raiseWith n { lane := some y.lane, value := BitVec.ofNat 64 y.addr }))
    (collBad t w = true → exec x s = .next (settle s i t {} (raiseWith 0x142 { lane := o.lanes.head? }))) ∧
    (collBad t w = false →
      let far := fun y : CollArg => reaches s (y.peer % 2 ^ 12) = false
      let odd := fun y : CollArg => y.addr % 4 ≠ 0
      let out := fun y : CollArg => c.scratch = true ∧ 2 ^ 20 < y.addr + 4
      (∀ y, xs.find? far = some y → stops 0x140 y) ∧
      ((∀ y ∈ xs, ¬far y) → ∀ y, xs.find? odd = some y → stops 0x083 y) ∧
      ((∀ y ∈ xs, ¬far y ∧ ¬odd y) → ∀ y, xs.find? out = some y → stops 0x141 y) ∧
      ((∀ y ∈ xs, ¬far y ∧ ¬odd y ∧ ¬out y) → o.frag.win.reg t.info.vphys d.toNat = .ok p →
        let fs := collFlits c chunk (w.extractLsb' 20 12).toNat xs
        (9 ≤ c.op → paused s c.group chunk = true → exec x s = .next (noteWait s i (.other 0) [])) ∧
        (t.acks + fs.length < 2 ^ 24 → (9 ≤ c.op → paused s c.group chunk = false) →
          let back := c.op = 1 ∨ c.op = 2
          let entry : Coll := {
            owner := t.info.seq.toNat, core := i.core, node := t.info.node, frag := i.frag, reg := p, op := c.op, group := c.group, chunk := chunk,
            batch := t.batch, pending := (List.range fs.length).map (s.fab.outSeq + ·),
            lanes := if back then collLanes c s.fab.outSeq fs xs else [], win := decide (9 ≤ c.op) && xs.any fun y => (contribOf c.fields.w y.data).2 }
          let v := eFinish u o false 0
          let v := if back then { v with frags := tabMod v.frags i.frag fun f => { f with hold := some s.fab.collSeq } } else v
          let s1 := s.setTeam i.wid v
          let s2 := { s1 with fab := { s1.fab with colls := tabSet s1.fab.colls s.fab.collSeq entry, collSeq := s.fab.collSeq + 1 } }
          let s3 := if 9 ≤ c.op then noteChunk s2 c.group chunk else s2
          exec x s = .next (doneAs (fs.foldl (fun s f => sendFlit s
            { flit := f, owner := .coll s1.fab.collSeq, node := t.info.node, ctx := t.info.ctx, counted := some t.info.seq.toNat }) s3) i))))

/-- The flits of the home path (R283): one for each unit that a lane names, with the words that lanes name there: at PUT and SWAP the data of the highest lane of a word, at GET
none, at a reduction the lanes' data combined. -/
def Claims.CollUnits : Prop :=
  ∀ (c : CollDesc) (chunk cidx : Nat) (xs : List CollArg), c.op ≤ 8 →
    let fs := collFlits c chunk cidx xs
    let unit := fun y => collShell c 0 0 y
    fs.Pairwise (fun f g => sameUnit f g = false) ∧
    ∀ f ∈ fs, (∃ y ∈ xs, sameUnit f (unit y)) ∧ f.op = c.op ∧ f.fields = none ∧
      ∀ n, tabGet f.words n =
        match xs.filter fun y => sameUnit f (unit y) && decide (y.addr % 64 / 4 = n) with
        | [] => none
        | y :: ys => some (if c.op = 1 then 0 else if c.op ≤ 2 then ((y :: ys).getLast?.map (·.data)).getD 0
            else ys.foldl (fun v z => collCombine c.op c.ty v z.data) y.data)

/-- A flit sent (R244, R284, R286, R288): it takes the next number and counts as an outstanding access of its team; one whose home is this device lies there to be performed, at the
reduction root where it is of a switch operation. -/
def Claims.FlitSent : Prop :=
  ∀ (s : State) (o : OutFlit) (seq w : Nat) (t : Team), o.counted = some seq → s.teamOf seq = some (w, t) → o.flit.dev = s.dev.devId →
    let n := s.fab.outSeq
    let s' := sendFlit s o
    s'.team? w = some { t with acks := t.acks + 1 } ∧ tabGet s'.fab.out n = some o ∧ s'.fab.outSeq = n + 1 ∧ sameMem s s' ∧
      (o.flit.fields = none → s'.fab.flits = s.fab.flits ++ [n] ∧ s'.fab.rootIn = s.fab.rootIn) ∧
      (o.flit.fields ≠ none → s'.fab.flits = s.fab.flits ∧ s'.fab.rootIn = s.fab.rootIn ++ [{ flit := o.flit, src := s.dev.devId, num := n }])

/-- COLL acts so (R280 to R286). -/
def Obligations.Collectives : Prop := Claims.Collective ∧ Claims.CollUnits ∧ Claims.FlitSent

/-! ## Counters, acorns, tasks and solicits -/

/-- A counter that is raised to `v` (R394, R399): it holds `v`, every acorn of the core that watches it, is not firing or paused, and has its threshold reached, fires, and the other
acorns and counters are as they were. -/
def Claims.raised (s s' : State) (core n : Nat) (v : DWord) : Prop :=
  s'.ctr core n = v ∧ (∀ c k, (c ≠ core ∨ k ≠ n) → s'.ctr c k = s.ctr c k) ∧
    ∀ k a, k < 64 → tabGet (s.core core).acorns k = some a → acornPaused s a.desc = false →
      tabGet (s'.core core).acorns k = some { a with firing := a.firing || (decide (a.desc.ctr = n) && decide (a.desc.thresh ≤ v.toNat)) }

/-- A counter reference (R404): its device and core, bit 31 standing for the issuing ones, and its counter; `none` where it is malformed. -/
def Claims.reference (s : State) (i : Issue) (v : DWord) : Option (Nat × Nat × Nat) :=
  if v.extractLsb' 28 3 ≠ 0 ∨ v.extractLsb' 32 32 ≠ 0 ∨ (v.getLsbD 31 = true ∧ v.extractLsb' 8 20 ≠ 0) then none
  else if v.getLsbD 31 then some (s.dev.devId, i.core, v.toNat % 256)
  else some ((v.extractLsb' 16 12).toNat, (v.extractLsb' 8 8).toNat, v.toNat % 256)

/-- CTRADD (R396, R404): a counter of this device is raised by b; for another device, once the team's writes are acknowledged, its stash is clean and a flit carries the raise there; a
malformed reference is 0x154, a device that is not reached 0x140. -/
def Claims.CounterAdd : Prop :=
  ∀ (s : State) (i : Issue) (t : Team) (a b : BitVec 7) (v w : DWord), Issuing (.ctradd a b) s i t → i.stream = .a →
    let u := atIssue i t
    sourceA i u (coreWord s i.core) a = .ok v → sourceA i u (coreWord s i.core) b = .ok w →
    let stops := fun c => exec (.ctradd a b) s = .next (settle s i t { value := v } (raise c))
    (Claims.reference s i v = none → stops 0x154) ∧
    (∀ dev core n, Claims.reference s i v = some (dev, core, n) →
      (reaches s dev = false → stops 0x140) ∧
      (dev = s.dev.devId → ∃ s', exec (.ctradd a b) s = .next s' ∧ sameMem s s' ∧ Claims.leaves s' i u ∧ Claims.raised s s' core n (s.ctr core n + w)) ∧
      (dev ≠ s.dev.devId → reaches s dev = true → t.acks = 0 → exec (.ctradd a b) s = .next (doneAs
        (sendFlit ((advanceGen (s.setTeam i.wid u) i.wid).modTeam i.wid cleanStash)
          { flit := { op := 18, dev := dev, core := core, fn := n, words := [(0, w.toNat)] }, owner := .team t.info.seq.toNat v.toNat,
            node := t.info.node, ctx := t.info.ctx, counted := some t.info.seq.toNat }) i)))

/-- CTRWAIT, CTRWAIT.POLL, CTRSET and CTRSEAL (R268, R404): the first waits until counter a of the core has reached b and empties the acquired-from table; s_d takes the counter. CTRSET
writes it, a rise acting as a raise. CTRSEAL closes the open batch, whose number s_d takes, and its completion raises the counter. A counter above 255 is 0x154. -/
def Claims.CounterRest : Prop :=
  ∀ (s : State) (i : Issue) (t : Team) (d : BitVec 6) (a b : BitVec 7) (v w : DWord) (p : Nat), i.stream = .a →
    let u := atIssue i t
    let n := v.toNat
    sourceA i u (coreWord s i.core) a = .ok v → sourceA i u (coreWord s i.core) b = .ok w → u.a.win.reg 256 d.toNat = .ok p →
    (∀ x, x = .ctrwait d a b ∨ x = .ctrwaitPoll d a ∨ x = .ctrset a b ∨ x = .ctrseal d a → Issuing x s i t → 256 ≤ n →
      exec x s = .next (settle s i t { value := v } (raise 0x154))) ∧
    (n < 256 →
      (Issuing (.ctrwait d a b) s i t →
        (w.toNat ≤ (s.ctr i.core n).toNat → exec (.ctrwait d a b) s = .next (doneWith s i { Claims.setS u p (s.ctr i.core n) with acq := [] })) ∧
        ((s.ctr i.core n).toNat < w.toNat → exec (.ctrwait d a b) s = .next (noteWait s i (.other n) []))) ∧
      (Issuing (.ctrwaitPoll d a) s i t → exec (.ctrwaitPoll d a) s = .next (doneWith s i (Claims.setS u p (s.ctr i.core n)))) ∧
      (Issuing (.ctrset a b) s i t → ∃ s', exec (.ctrset a b) s = .next s' ∧ sameMem s s' ∧ Claims.leaves s' i u ∧ s'.ctr i.core n = w ∧
        ((s.ctr i.core n).toNat < w.toNat → Claims.raised s s' i.core n w)) ∧
      (Issuing (.ctrseal d a) s i t → unfinished s t < 64 →
        let more : Bool := (pendingBatches s t.info.seq.toNat).contains t.batch
        ∃ s', exec (.ctrseal d a) s = .next s' ∧ sameMem s s' ∧
          Claims.leaves s' i (Claims.setS { u with batch := (t.batch + 1) % 2 ^ 32 } p (BitVec.ofNat 64 t.batch)) ∧
          (more = true → { owner := t.info.seq.toNat, batch := t.batch, core := i.core, ctr := n } ∈ s'.eng.seals) ∧
          (more = false → s.eng.seals = [] → s'.eng.seals = [] ∧ Claims.raised s s' i.core n (s.ctr i.core n + 1))))

/-- TRGPOST (R397, R398, R403): an acorn descriptor in order, of a device that is reached and a local range that can be read or written, takes the lowest free of the core's 64
entries, whose number s_d takes, and fires at once where its counter has reached its threshold. -/
def Claims.AcornPost : Prop :=
  ∀ (s : State) (i : Issue) (t : Team) (d : BitVec 6) (a : BitVec 7) (v : DWord) (p : Nat) (l : Located), Issuing (.trgpost d a) s i t → i.stream = .a →
    sourceA i (atIssue i t) (coreWord s i.core) a = .ok v → (atIssue i t).a.win.reg 256 d.toNat = .ok p →
    let stops := fun c => exec (.trgpost d a) s = .next (settle s i t { value := v } (raise c))
    (v.toNat % 64 ≠ 0 → stops 0x150) ∧
    (v.toNat % 64 = 0 → checkAccess s i.core t.info.ctx { valid := true } none v.toNat 64 .read = .at_ l → Claims.noRace s i t [l] 64 →
      let bs := memBytes s.mem l.pa 64
      let x := acornDesc bs
      (acornBad bs = true → stops 0x150) ∧
      (acornBad bs = false → x.op ≠ 4 → reaches s x.dev = false → stops 0x140) ∧
      (acornBad bs = false → (x.op = 4 ∨ reaches s x.dev = true) → probeLocal s i.core t.info.ctx x = (none, []) →
        ((∀ k, k < 64 → (tabGet (s.core i.core).acorns k).isSome) → stops 0x151) ∧
        (∀ n, n < 64 → tabGet (s.core i.core).acorns n = none → (∀ k, k < n → (tabGet (s.core i.core).acorns k).isSome) →
          ∃ s' w, exec (.trgpost d a) s = .next s' ∧ sameMem s s' ∧ Claims.leaves s' i (Claims.setS (atIssue i t) p (BitVec.ofNat 64 n)) ∧
            tabGet (s'.core i.core).acorns n = some w ∧ w.desc = x ∧ w.node = t.info.node ∧ w.ctx = t.info.ctx ∧ w.rank = t.info.rank ∧
            w.owner = t.info.seq.toNat ∧
            (x.op ≠ 2 ∨ x.rfn < 9 → w.firing = decide (x.thresh ≤ (s.ctr i.core x.ctr).toNat)) ∧
            ∀ k, k ≠ n → tabGet (s'.core i.core).acorns k = tabGet (s.core i.core).acorns k)))

/-- TRGCANCEL (R404): an armed acorn of the team's region is freed and s_d takes 0; of a firing one it waits for the end of its operation, and takes what that left. -/
def Claims.AcornCancel : Prop :=
  ∀ (s : State) (i : Issue) (t : Team) (d : BitVec 6) (a : BitVec 7) (v : DWord) (p : Nat), Issuing (.trgcancel d a) s i t → i.stream = .a →
    sourceA i (atIssue i t) (coreWord s i.core) a = .ok v → (atIssue i t).a.win.reg 256 d.toNat = .ok p →
    let n := v.toNat
    let u := atIssue i t
    (∀ c, t.cancelled = some (n, c) → exec (.trgcancel d a) s = .next (doneWith s i (Claims.setS { u with cancelled := none } p (BitVec.ofNat 64 c)))) ∧
    (t.cancelled = none →
      (tabGet (s.core i.core).acorns n = none → exec (.trgcancel d a) s = .next (settle s i t { value := v } (raise 0x152))) ∧
      (∀ x, tabGet (s.core i.core).acorns n = some x →
        (x.node ≠ t.info.node → exec (.trgcancel d a) s = .next (settle s i t { value := v } (raise 0x152))) ∧
        (x.node = t.info.node → x.firing = true → exec (.trgcancel d a) s = .next (noteWait s i (.cancel n) [])) ∧
        (x.node = t.info.node → x.firing = false → exec (.trgcancel d a) s = .next (doneAs
          ((s.setTeam i.wid (Claims.setS u p 0)).setCore i.core { s.core i.core with acorns := tabDel (s.core i.core).acorns n }) i))))

/-- The trigger counters and the acorns act so (R394 to R404). -/
def Obligations.CountersAndAcorns : Prop := Claims.CounterAdd ∧ Claims.CounterRest ∧ Claims.AcornPost ∧ Claims.AcornCancel

/-- The four registers of a record, from s_d on (R362): `p` are their places, and `ws` the words that they hold. -/
def Claims.recordAt (u : Team) (d : BitVec 6) (p : Nat → Nat) (ws : List Word) : Prop :=
  (∀ k, k < 4 → u.a.win.reg 256 (d.toNat + k) = .ok (p k)) ∧ ws.length = 8 ∧
    ∀ k, k < 4 → tabGetD 0 u.a.s (p k) = ws.getD (2 * k + 1) 0 ++ ws.getD (2 * k) 0

/-- A record written to the four registers. -/
def Claims.setRecord (u : Team) (p : Nat → Nat) (ws : List Word) : Team :=
  (List.range 4).foldl (fun u k => Claims.setS u (p k) (ws.getD (2 * k + 1) 0 ++ ws.getD (2 * k) 0)) u

/-- The team may use a core's task queue: its node is the leaf's parent or above it (R362). -/
def Claims.mayUse (s : State) (t : Team) (core : Nat) : Prop :=
  ∃ n, (s.leaf (taskLeaf core)).parent = some n ∧ nodeAbove s t.info.node 16 n = true

/-- What a pushed record does (R359): it enters the leaf while that has room and the ring holds nothing; else it fills the ring's slot at TAIL, and with 4,096 of them it waits. -/
def Claims.TaskPushed : Prop :=
  ∀ (s : State) (core : Nat) (ws : List Word), ws.length = 8 → core < 256 →
    let count := ringWord s core 2
    let tail := ringWord s core 1 % 4096
    let direct := count = 0 ∧ (s.leaf (taskLeaf core)).items.length < 32
    (direct → ∃ s' x, pushTask s core ws = some s' ∧ sameMem s s' ∧ x ∈ (s'.leaf (taskLeaf core)).items ∧ x.work = .task ws ∧
      x.rank = (ws.getD 1 0).toNat) ∧
    (¬direct → 4096 ≤ count → pushTask s core ws = none) ∧
    (¬direct → count < 4096 → ∃ s', pushTask s core ws = some s' ∧ s'.leaf (taskLeaf core) = s.leaf (taskLeaf core) ∧
      slotWords s' core tail = ws ∧ slotState s' core tail = 1 ∧ ringWord s' core 1 = (tail + 1) % 4096 ∧ ringWord s' core 2 = count + 1 ∧
      ∀ k, (k < taskRing s core + 4 ∨ taskRing s core + 12 ≤ k) → (k < slotAddr s core tail ∨ slotAddr s core tail + 48 ≤ k) →
        memGet s'.mem k = memGet s.mem k)

/-- TASKADD (R363): a record in order goes to the queue of the core that a names, a release of the team; while that has no room it waits. -/
def Claims.TaskAdd : Prop :=
  ∀ (s : State) (i : Issue) (t : Team) (d : BitVec 6) (a : BitVec 7) (v : DWord) (ws : List Word) (p : Nat → Nat), Issuing (.taskadd d a) s i t → i.stream = .a →
    let u := atIssue i t
    sourceA i u (coreWord s i.core) a = .ok v → Claims.recordAt u d p ws →
    let stops := fun c => exec (.taskadd d a) s = .next (settle s i t { value := v } (raise c))
    let core := if v.toNat < 256 then i.core else v.toNat % 256
    let w := ws.getD 0 0
    let inOrder := w.extractLsb' 18 14 = 0 ∧ w.extractLsb' 12 4 = 0 ∧ w.getLsbD 16 = false
    (512 ≤ v.toNat → stops 0x114) ∧
    (v.toNat < 512 → ¬Claims.mayUse s t core → stops 0x117) ∧
    (v.toNat < 512 → Claims.mayUse s t core → ¬inOrder → stops 0x115) ∧
    (v.toNat < 512 → Claims.mayUse s t core → inOrder →
      (pushTask (advanceGen (s.setTeam i.wid u) i.wid) core ws = none → exec (.taskadd d a) s = .next (noteWait s i (.other (taskLeaf core)) [])) ∧
      (∀ s', pushTask (advanceGen (s.setTeam i.wid u) i.wid) core ws = some s' → exec (.taskadd d a) s = .next (doneAs s' i)))

/-- TASKGET and TASKGET.POLL (R362, R364): the record at the head of the core's queue goes to the team, unless another has waited longer; the team then holds the task, with an empty
acquired-from table. With no record TASKGET waits, and POLL's registers take a record of all ones in the first word and zeros. A team that holds a task meets 0x116. -/
def Claims.TaskGet : Prop :=
  ∀ (s : State) (i : Issue) (t : Team) (d : BitVec 6) (p : Nat → Nat) (old : List Word), i.stream = .a →
    let u := atIssue i t
    Claims.recordAt u d p old →
    let leaf := taskLeaf i.core
    let takes := fun (x : LeafItem) (ws : List Word) => doneAs ((noteHead ((takeItem (s.setTeam i.wid u) leaf x).setTeam i.wid
      { Claims.setRecord u p ws with task := some (heldOf ws ((s.leaf leaf).parent.getD 0)), acq := [] }) i.core)) i
    (t.task ≠ none → (Issuing (.taskget d) s i t → exec (.taskget d) s = .next (settle s i t {} (raise 0x116))) ∧
      (Issuing (.taskgetPoll d) s i t → exec (.taskgetPoll d) s = .next (settle s i t {} (raise 0x116)))) ∧
    (t.task = none → ¬Claims.mayUse s t i.core → Issuing (.taskget d) s i t → exec (.taskget d) s = .next (settle s i t {} (raise 0x117))) ∧
    (t.task = none → Claims.mayUse s t i.core →
      (Issuing (.taskget d) s i t →
        (taskHead s i.core = none → exec (.taskget d) s = .next (noteWait s i .task [])) ∧
        (∀ x ws, taskHead s i.core = some (x, ws) → taskWaiters s i.core i.wid = [] → exec (.taskget d) s = .next (takes x ws))) ∧
      (Issuing (.taskgetPoll d) s i t →
        (taskHead s i.core = none ∨ taskWaiters s i.core i.wid ≠ [] →
          exec (.taskgetPoll d) s = .next (doneWith s i (Claims.setRecord u p [0xFFFFFFFF, 0, 0, 0, 0, 0, 0, 0]))) ∧
        (∀ x ws, taskHead s i.core = some (x, ws) → taskWaiters s i.core i.wid = [] → exec (.taskgetPoll d) s = .next (takes x ws))))

/-- TASKEND and TASKSTEAL (R365, R367): TASKEND ends the task, a responder's joining its census; TASKSTEAL asks the victim's engine and waits, and its answer goes to s_d to s_{d+3}, a
record of all ones in the first word where there was none. -/
def Claims.TaskEnds : Prop :=
  ∀ (s : State) (i : Issue) (t : Team), i.stream = .a →
    let u := atIssue i t
    (Issuing .taskend s i t →
      (t.task = none → exec .taskend s = .next (settle s i t {} (raise 0x116))) ∧
      (∀ h, t.task = some h →
        (h.resp = none → exec .taskend s = .next (doneWith s i { u with task := none })) ∧
        (∀ stamp, h.resp = some stamp → exec .taskend s = .next (doneAs
          (endResponder (s.setTeam i.wid { u with task := none }) (i.wid / 16) stamp h.given false) i)))) ∧
    (∀ (d : BitVec 6) (a : BitVec 7) (v : DWord) (p : Nat → Nat) (old : List Word), Issuing (.tasksteal d a) s i t →
      sourceA i u (coreWord s i.core) a = .ok v → Claims.recordAt u d p old →
      let stops := fun c => exec (.tasksteal d a) s = .next (settle s i t { value := v } (raise c))
      (∀ ws, t.stolen = some (some ws) → exec (.tasksteal d a) s = .next (doneWith s i { Claims.setRecord u p ws with stolen := none, acq := [] })) ∧
      (t.stolen = some none → exec (.tasksteal d a) s = .next (doneWith s i
        { Claims.setRecord u p [0xFFFFFFFF, 0, 0, 0, 0, 0, 0, 0] with stolen := none })) ∧
      (t.stolen = none →
        let victim := v.toNat < 256 ∧ v.toNat ≠ i.core ∧ clusterOf v.toNat = clusterOf i.core
        (t.task ≠ none → stops 0x116) ∧ (t.task = none → ¬victim → stops 0x11A) ∧ (t.task = none → victim → ¬Claims.mayUse s t v.toNat → stops 0x117) ∧
        (t.task = none → victim → Claims.mayUse s t v.toNat → exec (.tasksteal d a) s = .next (noteWait s i (.steal v.toNat) []))))

/-- The micro-task instructions act so (R359, R362 to R367). -/
def Obligations.MicroTasks : Prop := Claims.TaskPushed ∧ Claims.TaskAdd ∧ Claims.TaskGet ∧ Claims.TaskEnds

/-- SOLICIT.INS, DEL and REG (R296, R298): INS takes the lowest free of the core's 256 directory entries, whose number s_d takes; DEL frees a live entry; REG sets or clears a handler. -/
def Claims.Directory : Prop :=
  ∀ (s : State) (i : Issue) (t : Team) (d : BitVec 6) (a b : BitVec 7) (v w : DWord) (p : Nat), i.stream = .a →
    let u := atIssue i t
    let c := s.core i.core
    sourceA i u (coreWord s i.core) a = .ok v → sourceA i u (coreWord s i.core) b = .ok w → u.a.win.reg 256 d.toNat = .ok p →
    let stops := fun x n => exec x s = .next (settle s i t { value := v } (raise n))
    (Issuing (.solicitIns d a b) s i t →
      ((∀ k, k < 256 → (tabGet c.dir k).isSome) → stops (.solicitIns d a b) 0x146) ∧
      (∀ n, n < 256 → tabGet c.dir n = none → (∀ k, k < n → (tabGet c.dir k).isSome) →
        exec (.solicitIns d a b) s = .next (doneAs ((s.setCore i.core { c with
          dir := tabSet c.dir n { key := v, handle := w, state := .live, node := t.info.node } }).setTeam i.wid (Claims.setS u p (BitVec.ofNat 64 n))) i))) ∧
    (Issuing (.solicitDel a) s i t →
      (∀ e, v.toNat < 256 → tabGet c.dir v.toNat = some e → e.state = .live →
        exec (.solicitDel a) s = .next (doneAs ((s.setTeam i.wid u).setCore i.core { c with dir := tabDel c.dir v.toNat }) i)) ∧
      (tabGet c.dir (v.toNat % 256) = none → stops (.solicitDel a) 0x147)) ∧
    (Issuing (.solicitReg a b) s i t →
      (15 < v.toNat → stops (.solicitReg a b) 0x009) ∧
      (v.toNat ≤ 15 → exec (.solicitReg a b) s = .next (doneAs ((s.setTeam i.wid u).setCore i.core { c with
        handlers := if w = 0 then tabDel c.handlers v.toNat
          else tabSet c.handlers v.toNat { word0 := w.extractLsb' 0 32, rank := (w.extractLsb' 32 32).toNat, node := t.info.node } }) i)))

/-- SOLICIT.MOVE and COMMIT (R297): MOVE of a live entry waits for the destination's reply, a ticket that s_d takes, or 0x146; COMMIT of one of the team's tickets is broadcast under the next
stamp, which s_d takes. -/
def Claims.DirectoryMove : Prop :=
  ∀ (s : State) (i : Issue) (t : Team) (d : BitVec 6) (a b : BitVec 7) (v w : DWord) (p : Nat), i.stream = .a →
    let u := atIssue i t
    sourceA i u (coreWord s i.core) a = .ok v → sourceA i u (coreWord s i.core) b = .ok w → u.a.win.reg 256 d.toNat = .ok p →
    let stops := fun x n => exec x s = .next (settle s i t { value := v } (raise n))
    (Issuing (.solicitMove d a b) s i t →
      (t.moveReply = none →
        (256 ≤ w.toNat → stops (.solicitMove d a b) 0x147) ∧
        (∀ e, w.toNat < 256 → v.toNat < 256 → tabGet (s.core i.core).dir v.toNat = some e → e.state = .live →
          exec (.solicitMove d a b) s = .next (noteWait s i (.move v.toNat w.toNat) []))) ∧
      (t.moveReply = some (v.toNat, w.toNat, none) → stops (.solicitMove d a b) 0x146) ∧
      (∀ j, t.moveReply = some (v.toNat, w.toNat, some j) →
        let ticket := w.toNat + 2 ^ 8 * j + 2 ^ 16 * v.toNat
        exec (.solicitMove d a b) s = .next (doneWith s i
          { Claims.setS u p (BitVec.ofNat 64 ticket) with moveReply := none, moves := t.moves ++ [ticket] }))) ∧
    (Issuing (.solicitCommit d a b) s i t →
      (v.toNat ∉ t.moves → stops (.solicitCommit d a b) 0x147) ∧
      (v.toNat ∈ t.moves →
        let s1 := s.setTeam i.wid (Claims.setS { u with moves := t.moves.filter (· ≠ v.toNat) } p (BitVec.ofNat 64 s.fab.stamp))
        let sent : Broadcast := .commit i.core (v.extractLsb' 16 8).toNat (v.extractLsb' 0 8).toNat (v.extractLsb' 8 8).toNat w
        let stamps := { s1.fab with stamp := (s.fab.stamp + 1) % 2 ^ 32, broadcasts := tabSet s.fab.broadcasts s.fab.stamp sent }
        exec (.solicitCommit d a b) s = .next (doneAs { s1 with fab := stamps } i)))

/-- SOLICIT.SUM, MIN, MAX and OR (R295): with its control word in order and the page of its record resident, the solicit is broadcast under the next stamp, which s_d takes, with a census that
starts at the operation's identity; a set reserved bit is 0x14C, and with 64 censuses, or 8 of the team's, it waits. -/
def Claims.SolicitSent : Prop :=
  ∀ (s : State) (i : Issue) (t : Team) (d : BitVec 6) (a b g e : BitVec 7) (o : BitVec 2) (key mask ctrl rec : DWord) (p : Nat) (l : Located),
    let x : Instr := .solicit d a b o
    let u := atIssue i t
    let src := fun f v => sourceA i u (coreWord s i.core) f = .ok v
    Issuing x s i t → i.stream = .a → i.hint = some (.ext g e) → src a key → src b mask → src e ctrl → src g rec → u.a.win.reg 256 d.toNat = .ok p →
    (ctrl.extractLsb' 42 22 ≠ 0 → exec x s = .next (settle s i t { value := key } (raise 0x14C))) ∧
    (ctrl.extractLsb' 42 22 = 0 → (ctrl.getLsbD 41 = true → checkAccess s i.core t.info.ctx { valid := true } none rec.toNat 16 .write = .at_ l) →
      (64 ≤ s.fab.census.length ∨ 8 ≤ t.solicits.length → exec x s = .next (noteWait s i (.other 0) [])) ∧
      (s.fab.census.length < 64 → t.solicits.length < 8 →
        ∃ s', exec x s = .next s' ∧ sameMem s s' ∧ s'.fab.stamp = (s.fab.stamp + 1) % 2 ^ 32 ∧
          Claims.leaves s' i (Claims.setS { u with solicits := t.solicits ++ [s.fab.stamp] } p (BitVec.ofNat 64 s.fab.stamp)) ∧
          tabGet s'.fab.broadcasts s.fab.stamp = some .solicit ∧
          let c : Census := { owner := t.info.seq.toNat, core := i.core, node := t.info.node, ctx := t.info.ctx, op := o.toNat, key := key, mask := mask,
                              arg := (ctrl.extractLsb' 0 32).toNat, ctrl := ctrl.toNat, recAddr := rec.toNat, acc := if o = 1 then BitVec.allOnes 64 else 0 }
          tabGet s'.fab.census s.fab.stamp = some c))

/-- RESPOND, CENSUS.WAIT and CENSUS.POLL (R300, R302): RESPOND gives a responder's contribution, once; a complete census of the team's goes to s_d and s_{d+1} and is consumed; before that WAIT
waits, and POLL's registers take 0 and a set bit 63. -/
def Claims.CensusTaken : Prop :=
  ∀ (s : State) (i : Issue) (t : Team) (d : BitVec 6) (a : BitVec 7) (v : DWord) (p q : Nat), i.stream = .a →
    let u := atIssue i t
    sourceA i u (coreWord s i.core) a = .ok v → u.a.win.reg 256 d.toNat = .ok p → u.a.win.reg 256 (d.toNat + 1) = .ok q →
    let stops := fun x n => exec x s = .next (settle s i t { value := v } (raise n))
    (Issuing (.respond a) s i t →
      (∀ h, t.task = some h → h.resp ≠ none → h.given = none → ∃ s', exec (.respond a) s = .next s' ∧ sameMem s s' ∧
        Claims.leaves s' i { u with task := some { h with given := some v } }) ∧
      ((∀ h, t.task = some h → h.resp = none ∨ h.given ≠ none) → stops (.respond a) 0x148)) ∧
    (∀ x, x = .censusWait d a ∨ x = .censusPoll d a → Issuing x s i t →
      (v.toNat ∉ t.solicits ∨ tabGet s.fab.census v.toNat = none → stops x 0x149) ∧
      (∀ c, v.toNat ∈ t.solicits → tabGet s.fab.census v.toNat = some c →
        (c.complete = true →
          let w := Claims.setS (Claims.setS u p c.acc) q (BitVec.ofNat 64 (c.count % 2 ^ 32 + if c.failed then 2 ^ 32 else 0))
          let s1 := s.setTeam i.wid { w with solicits := t.solicits.filter (· ≠ v.toNat), acq := [] }
          exec x s = .next (doneAs { s1 with fab := { s1.fab with census := tabDel s.fab.census v.toNat } } i)) ∧
        (c.complete = false →
          (x = .censusWait d a → exec x s = .next (noteWait s i (.other v.toNat) [])) ∧
          (x = .censusPoll d a → exec x s = .next (doneWith s i (Claims.setS (Claims.setS u p 0) q (BitVec.ofNat 64 (2 ^ 63))))))))

/-- The instructions of solicits and of the census act so (R295 to R302). -/
def Obligations.Solicits : Prop := Claims.Directory ∧ Claims.DirectoryMove ∧ Claims.SolicitSent ∧ Claims.CensusTaken

/-! ## The Lattice's own steps -/

/-- The core `c` with the Lattice `l`. -/
def Claims.setLattice (s : State) (c : Nat) (l : Lattice) : State := s.setCore c { s.core c with lat := l }

/-- The sums of a landing (R38, R170): element [m][n] of the tile takes the sum of its old value and the products of row m with column n of the weights, in the order of R38, for each row that landed;
every other element keeps its value. -/
def Claims.LandedSums : Prop :=
  ∀ (l : Landing) (old : Tab Word),
    let new := (addRows l old).1
    (∀ r n, r < l.rows.length → n < 64 →
      let column := (List.range 128).map fun k => l.weights.getD (64 * k + n) { fmt := 0, bits := 0, absent := true }
      tabGetD 0 new (64 * (l.row0 + r) + n) = (columnSum (l.mode = 5 ∨ l.mode = 6) (tabGetD 0 old (64 * (l.row0 + r) + n)) (l.rows.getD r []) column).1) ∧
    ∀ e, (e < 64 * l.row0 ∨ 64 * (l.row0 + l.rows.length) ≤ e) → tabGetD 0 new e = tabGetD 0 old e

/-- LATTICE_COMMAND_EXECUTE (R175, R178 to R180, R185): the running team's oldest command starts: MLS fills the shadow plane and its record, AMCLR zeroes the tile, AMLD copies scratch into it, and AMST
copies it to scratch. -/
def Claims.CommandExecutes : Prop :=
  ∀ (s : State) (c w : Nat) (t : Team) (cmd : LatCmd) (rest : List LatCmd), s.argN 0 = c → (s.core c).lat.run = some (.team w) → s.team? w = some t →
    t.lat = cmd :: rest → cmd.started = false →
    let k := s.core c
    let u := { t with lat := { cmd with started := true } :: rest }
    let next := fun s' => exec .latticeCommandExecute s = .next s'
    (∀ m x, cmd.op = .mls m x → badTernary (planeElems t m x) = false → next (Claims.setLattice
      (s.setTeam w { u with planes := { t.planes with shadow := some { mode := m, word := x } } }) c
      { k.lat with shadow := planeElems t m x, shadowOf := some w })) ∧
    (∀ n, cmd.op = .amclr n → next ((s.setTeam w u).setCore c (k.setTile n { k.tile n with data := [], progress := 0 }))) ∧
    (∀ n x, cmd.op = .amld n x → ∃ data, next ((s.setTeam w u).setCore c (k.setTile n { k.tile n with data := data })) ∧
      ∀ e, e < 4096 → tabGetD 0 data e = BitVec.ofNat 32 (scratchNat t (x.toNat % 2 ^ 20 + 4 * e) 4)) ∧
    (∀ n x, cmd.op = .amst n x → ∃ m, next (s.setTeam w { u with scratch := m }) ∧
      (∀ e j, e < 4096 → j < 4 → tabGetD 0 m (x.toNat % 2 ^ 20 + 4 * e + j) = (tabGetD 0 (k.tile n).data e).extractLsb' (8 * j) 8) ∧
      ∀ o, (o < x.toNat % 2 ^ 20 ∨ x.toNat % 2 ^ 20 + 16384 ≤ o) → tabGetD 0 m o = tabGetD 0 t.scratch o)

/-- SEQUENCER_DECISION (R177): with nothing running the candidate of least rank runs; a running item that stands at a K-step boundary is held aside where a candidate's rank lies
the leaf's margin or more below its own. -/
def Claims.SequencerDecides : Prop :=
  ∀ (s : State) (c : Nat), s.argN 0 = c → s.host.fatal = false → coreGated s c = false → s.dev.l2Next = none →
    let l := (s.core c).lat
    (l.run = none → candidates s c = [] → exec .sequencerDecision s = .next s) ∧
    (∀ x, bestItem s (candidates s c) = some x → (∀ y ∈ candidates s c, itemRank s x ≤ itemRank s y) ∧ x ∈ candidates s c ∧
      (l.run = none → ∃ s', exec .sequencerDecision s = .next s' ∧ (s'.core c).lat.run = some x ∧ (s'.core c).lat.boundary = false) ∧
      (∀ r, l.run = some r → l.boundary = true →
        let m := s.margin (leafId 1 c)
        (m ≠ 0 → itemRank s x + m ≤ itemRank s r → sameItem r x = false →
          ∃ s', exec .sequencerDecision s = .next s' ∧ (s'.core c).lat.run = some x ∧ r ∈ (s'.core c).lat.held) ∧
        (itemRank s r < itemRank s x + m → exec .sequencerDecision s = .next (Claims.setLattice s c { l with boundary := false }))))

/-- K_STEP, OPERAND_FETCH and LATTICE_COMMAND_COMPLETION (R182, R187, R458): the running MTILE's next step is fetched into the operand buffer; a fetched step enters the array and, until its sums
have landed, stands among the landing ones, the item then at a boundary; a command other than MTILE that has run is complete. -/
def Claims.KSteps : Prop :=
  ∀ (s : State) (c w : Nat) (t : Team) (cmd : LatCmd) (rest : List LatCmd), s.argN 0 = c → (s.core c).lat.run = some (.team w) → s.team? w = some t →
    t.lat = cmd :: rest → cmd.started = true →
    let l := (s.core c).lat
    (∀ m a b ks tile, cmd.op = .mtile m a b ks tile →
      let n := nextStep s c (.team w)
      n = ((s.core c).tile tile).progress + (l.landing.filter fun y => sameItem y.item (.team w)).length ∧
      (∀ o, n < ks → (∀ x ∈ l.buf, x.step ≠ n) → fetchStep s c t.info.ctx (.engine c (w % 16) 0) (some t) a b m n = .ok o →
        ∃ s', exec .operandFetch s = .next s' ∧ sameMem s s' ∧ (s'.core c).lat = { l with buf := l.buf ++ [o] } ∧ o.step = n) ∧
      (∀ o, l.boundary = false → l.buf.find? (fun x => x.step = n) = some o → o.cause = none → a.scratch = false → b.scratch = false →
        let x : Landing := { item := .team w, mode := m, tile := tile, row0 := 0, rows := (List.range 64).map (fun r => (o.a.drop (128 * r)).take 128),
                             weights := o.b, step := some n, last := decide (n + 1 = ks) }
        let run := if n + 1 = ks then none else l.run
        let buf := l.buf.filter fun y => y.step ≠ n
        let l' := { l with landing := l.landing ++ [x], stationaryOf := none, shadowOf := none, boundary := true, run := run, buf := buf }
        exec .kStep s = .next (Claims.setLattice s c l'))) ∧
    ((∀ m a b ks tile, cmd.op ≠ .mtile m a b ks tile) → l.landing = [] →
      exec .latticeCommandCompletion s = .next ((Claims.setLattice s c { l with run := none }).setTeam w { t with lat := rest }))

/-- K_STEP_SUMS_LANDED and LATTICE_COMMAND_COMPLETION of sums (R170, R182): the oldest landing sums go into their tile, its progress counter counts the K step, FSTAT joins the flags, and the MTILE
whose last step has landed is complete. -/
def Claims.SumsLand : Prop :=
  ∀ (s : State) (c w : Nat) (t : Team) (x : Landing) (rest : List Landing), s.argN 0 = c → (s.core c).lat.landing = x :: rest → x.item = .team w → s.team? w = some t →
    let k := s.core c
    let r := addRows x (k.tile x.tile).data
    let put := fun n => { (k.setTile x.tile { k.tile x.tile with data := r.1, progress := n }) with
      lat := { (k.setTile x.tile { k.tile x.tile with data := r.1, progress := n }).lat with landing := rest } }
    let u := { t with fstat := t.fstat ||| r.2 }
    (∀ n, x.step = some n → x.last = false → exec .kStepSumsLanded s = .next ((s.setCore c (put (n + 1))).setTeam w u)) ∧
    (∀ n, x.step = some n → x.last = true → exec .kStepSumsLanded s = .next ((s.setCore c (put 0)).setTeam w { u with lat := t.lat.tail })) ∧
    (x.step = none → exec .latticeCommandCompletion s = .next ((s.setCore c (put (k.tile x.tile).progress)).setTeam w { u with lat := t.lat.tail }))

/-- STAGING_FETCH (R325, R326): a waiting tile task within its share of the staging area stages its next K step, once its pages are resident. -/
def Claims.StagingFetched : Prop :=
  ∀ (s : State) (c n : Nat) (x : LeafItem) (y : TileTask) (a b : TileSrc) (o : KOperands), s.argN 0 = c → (s.core c).lat.run = none → (s.core c).lat.held = [] →
    let leaf := s.leaf (leafId 1 c)
    let t := { y with rank := x.rank, stamp := x.stamp }
    leaf.items = [x] → x.work = .tile y → leaf.parent = some n → (s.region n).depth ≠ 0 →
    let step := y.progress + ((s.core c).lat.landing.filter fun z => sameItem z.item (.task t)).length + y.staged.length
    step < t.steps → mayStage ((s.core c).stage * 4096) (s.region n).depth false 0 t = true → taskSources s c t = .ok (a, b) →
    fetchStep s c y.ctx (.engine c 0 (2 * x.stamp + 1)) none a b y.mode step = .ok o →
    ∃ s', exec .stagingFetch s = .next s' ∧ sameMem s s' ∧
      (s'.leaf (leafId 1 c)).items = [{ x with work := .tile { t with staged := t.staged ++ [o] } }]

/-- The Lattice takes its steps so (R170 to R187, R326, R458). -/
def Obligations.LatticeSteps : Prop :=
  Claims.LandedSums ∧ Claims.CommandExecutes ∧ Claims.SequencerDecides ∧ Claims.KSteps ∧ Claims.SumsLand ∧ Claims.StagingFetched

/-! ## The life of a team, and the engines of a core -/

/-- The step of a core whose power is on, with no fatal error (R446, R457). -/
def Claims.powered (s : State) (c : Nat) : Prop := s.host.fatal = false ∧ coreGated s c = false

/-- TEAM_ADMISSION (R59, R191, R217, Table 3-7): the launch at the head of a core's leaf that fits becomes a team: its pc at the kernel's code, one fragment of all its lanes at EOFF, and its arguments in
s_0 on and in k_0 on. -/
def Claims.Admission : Prop :=
  ∀ (s : State) (c slot : Nat) (x : LeafItem) (l : Launch) (grans : List (Nat × Nat)), s.argN 0 = c → Claims.powered s c → s.dev.l2Next = none →
    leafHead s.now (s.leaf (leafId 0 c)) = some x → x.work = .launch l → admits s c { info := l.info, parts := l.parts } [] = some (slot, grans) →
    ∃ s' t, exec .teamAdmission s = .next s' ∧ sameMem s s' ∧ s'.team? (c * 16 + slot) = some t ∧
      t.a.pc = BitVec.ofNat 64 l.info.kernel.code ∧ t.info.kernel = l.info.kernel ∧ t.info.rank = x.rank ∧ t.info.granules = grans ∧ t.info.args = l.info.args ∧
      (∃ f, t.frags = [(0, f)] ∧ f.pc = BitVec.ofNat 64 (l.info.kernel.code + l.info.kernel.eoff) ∧
        ∀ k, f.mask.getLsbD k = decide (k < min l.info.lanes 1024)) ∧
      (l.info.args.length ≤ 16 → (rootSizes l.info.kernel).1 ≤ 256 → ∀ k, k < l.info.args.length →
        readS t k = .ok (l.info.args.getD k 0) ∧ tabGetD 0 t.k k = l.info.args.getD k 0)

/-- TEAM_RETIREMENT (R184, R193): a team whose streams have ended, with no Lattice command and no outstanding access, leaves its slot, and its accumulator tiles are free; until then nothing happens. -/
def Claims.Retirement : Prop :=
  ∀ (s : State) (w : Nat) (t : Team), s.argN 0 = w → s.host.fatal = false → s.team? w = some t →
    let ended := t.terminated ∨ (t.a.ended ∧ t.eEnded)
    let busy := t.lat ≠ [] ∨ t.acks ≠ 0 ∨ ∃ x ∈ (s.core (w / 16)).lat.landing, sameItem x.item (.team w) = true
    (ended → ¬busy → ∃ s', exec .teamRetirement s = .next s' ∧ s'.team? w = none ∧ ∀ k, k < 16 → ((s'.core (w / 16)).tile k).owner ≠ some w) ∧
    (¬ended ∨ busy → exec .teamRetirement s = .next s)

/-- What of a team a save keeps (R372, R373): its registers, flags, scratch and rings. -/
def Claims.keeps (t u : Team) : Prop :=
  u.a.s = t.a.s ∧ u.a.p = t.a.p ∧ u.a.win = t.a.win ∧ u.v = t.v ∧ u.k = t.k ∧ u.f = t.f ∧ u.scratch = t.scratch ∧ u.ringMem = t.ringMem ∧ u.rings = t.rings ∧ u.q = t.q ∧
    u.planes = t.planes ∧ u.fstat = t.fstat

/-- The team of slot `w` is saved, for a reason, and waits for its resume (R373). -/
def Claims.saved (s' : State) (w n : Nat) (t : Team) (r : SaveReason) : Prop :=
  s'.team? w = none ∧ ∃ x, tabGet s'.fw.saved t.info.seq.toNat = some x ∧ x.core = w / 16 ∧ x.frame = n ∧ x.reason = r ∧ Claims.keeps t x.team ∧
    ∃ y ∈ (s'.leaf (leafId 0 (w / 16))).items, y.work = .saved t.info.seq.toNat ∧ y.rank = t.info.rank

/-- TEAM_SAVE and AM_DEADLOCK (R372, R373, R383): a team that is to yield, or the one holder of tiles that waits at AMALLOC while none is free, is saved into the lowest free frame once what it has
issued is complete, and its launch goes back to the leaf. -/
def Claims.Saving : Prop :=
  ∀ (s : State) (w n : Nat) (t : Team) (rest : List Nat), s.host.fatal = false → s.team? w = some t → saveReady s w t = true → freeFrames s (w / 16) = n :: rest →
    (s.argN 0 = w → teamOver t = false → ∀ r, saveReason s w t = some r → ∃ s', exec .teamSave s = .next s' ∧ Claims.saved s' w n t r) ∧
    (s.argN 0 = w → teamOver t = true ∨ saveReason s w t = none → exec .teamSave s = .next s) ∧
    (∀ c, s.argN 0 = c → w / 16 = c → (∀ k, k + (s.core c).ttiles < 16 → ((s.core c).tile k).owner ≠ none) → t.a.wait = some .amalloc →
      (s.teams.filter fun p => p.1 / 16 = c ∧ heldTiles (s.core c) p.1 ≠ []) = [(w, t)] →
      ∃ s', exec .amDeadlock s = .next s' ∧ Claims.saved s' w n t .deadlock)

/-- TEAM_RESUME (R379, R380): the saved team at the head of a core's leaf that fits returns with what its save kept. -/
def Claims.Resuming : Prop :=
  ∀ (s : State) (c slot seq : Nat) (x : LeafItem) (v : Saved) (grans : List (Nat × Nat)), s.argN 0 = c → Claims.powered s c → s.dev.l2Next = none →
    leafHead s.now (s.leaf (leafId 0 c)) = some x → x.work = .saved seq → tabGet s.fw.saved seq = some v → heldBack s v = false →
    admits s c { info := v.team.info, parts := v.team.info.granules.map (·.2), frags := v.team.frags.length, tiles := v.tiles.map (·.1) } [] = some (slot, grans) →
    ∃ s' t, exec .teamResume s = .next s' ∧ tabGet s'.fw.saved seq = none ∧ s'.team? (c * 16 + slot) = some t ∧ Claims.keeps v.team t ∧ t.info.granules = grans

/-- REGION_WATCHDOG and TEAM_RESIDENCY_LIMIT (R208, R354): a team that has issued nothing for its region's interval is reported once; a team resident for its region's TEAMLIM is stopped, to retire. -/
def Claims.TeamLimits : Prop :=
  ∀ (s : State) (w : Nat) (t : Team), s.argN 0 = w → s.host.fatal = false → s.team? w = some t →
    let r := s.region t.info.node
    (t.stalled = false → t.lastIssue + r.wdog * 2000 ≤ s.dev.time → ∃ s', exec .regionWatchdog s = .next s' ∧ s'.team? w = some { t with stalled := true }) ∧
    (t.stalled = true ∨ s.dev.time < t.lastIssue + r.wdog * 2000 → exec .regionWatchdog s = .next s) ∧
    (r.teamLim ≠ 0 → t.terminated = false → r.teamLim * 65536 ≤ t.resident → ∃ s', exec .teamResidencyLimit s = .next s' ∧
      s'.team? w = some { t with terminated := true, pend := [], trap := { t.trap with stream := none } }) ∧
    (r.teamLim = 0 ∨ t.terminated = true ∨ t.resident < r.teamLim * 65536 → exec .teamResidencyLimit s = .next s)

/-- The events of a team's life act so. -/
def Obligations.TeamLife : Prop := Claims.Admission ∧ Claims.Retirement ∧ Claims.Saving ∧ Claims.Resuming ∧ Claims.TeamLimits

/-- CHAIN_ABANDON and GATHER_ENGINE_PUSH (R54, R89, R110): a fragment's chain goes back to its hint; the oldest gathered entry for a queue is pushed, pending for the lanes that live. -/
def Claims.StreamEvents : Prop :=
  ∀ (s : State) (w n : Nat) (t : Team), s.argN 0 = w → s.argN 1 = n → s.team? w = some t →
    (∀ f c, tabGet t.frags n = some f → f.chain = some c → exec .chainAbandon s = .next (s.setTeam w { t with
      frags := tabSet t.frags n { f with pc := c.hintPc, hint := none, chain := none, wait := none } })) ∧
    (∀ g, t.gather.find? (fun g => g.q = n) = some g → t.live ≠ 0 → (∀ e ∈ (t.queue n).entries, e.pend ≠ 0) →
      exec .gatherEnginePush s = .next (s.setTeam w ({ t with gather := t.gather.eraseP fun g => g.q = n }.setQueue n { t.queue n with
        entries := (t.queue n).entries ++ [{ g.entry with pend := t.live }] })))

/-- MISS_FILL and TABLE_WALK (R221, R222, R230): a fill that is not stale makes its sectors valid in the core's L1; a walk's page is found in the core's buffer. -/
def Claims.Fills : Prop :=
  ∀ (s : State) (c a b : Nat), s.argN 0 = c → s.argN 1 = a → s.argN 2 = b →
    let k := s.core c
    (∀ f, k.fills.find? (fun f => f.line = a) = some f → ∃ s', exec .missFill s = .next s' ∧ sameMem s s' ∧ (∀ g ∈ (s'.core c).fills, g.line ≠ a) ∧
      (f.stale = false → f.alloc = true → ∃ x ∈ tabGetD [] (s'.core c).l1 (l1Set k a), x.line = a ∧ x.valid &&& f.sectors = f.sectors) ∧
      (f.stale = true → (s'.core c).l1 = k.l1)) ∧
    (∀ leaf pa, doubleOf s a b = none → tlbLook s c a b = none → shotDown s a b = false → walkCtx s a b = .hit leaf pa → leaf.vbase ≤ b → b < leaf.vbase + leaf.size →
      ∃ s', exec .tableWalk s = .next s' ∧ sameMem s s' ∧ tlbLook s' c a b = some { ctx := a, leaf := leaf })

/-- COPY_SEGMENT and COPY_SECTOR_ARRIVAL (R262, R265, R267): the engine of a copy leaf moves the next sector of a copy into its team's scratch, and a copy that has moved all of them leaves the table; a sector
that arrives at another core is written where the team is still the one that the copy named, and else counted as stale. -/
def Claims.CopyEngine : Prop :=
  ∀ (s : State),
    (∀ (leaf id part seq w : Nat) (r : EngineRun) (c : Copy) (t : Team), s.argN 0 = leaf → tabGet s.eng.running leaf = some r → r.item.work = .seg id part →
      tabGet s.eng.copies id = some c → r.stop = false → c.moved = false → c.flying = 0 → c.dkind = 1 → c.srcScratch = false → c.owner = some seq →
      s.teamOf seq = some (w, t) → probeCopy s c (copyWho s id c) (sectorLen c) = .ready →
      let n := min (4096 - (c.dst + c.done) % 4096) (c.len - c.done)
      let bytes := readVirt s c.core c.ctx (c.src + c.done) n
      ∃ s' v, exec .copySegment s = .next s' ∧ sameMem s s' ∧ s'.team? w = some v ∧
        (∀ k, k < n → tabGetD 0 v.scratch (c.dst + c.done + k) = bytes.getD k 0) ∧
        (∀ k, (k < c.dst + c.done ∨ c.dst + c.done + n ≤ k) → tabGetD 0 v.scratch k = tabGetD 0 t.scratch k) ∧
        tabGet s'.eng.copies id = (if c.done + n = c.len then none else some { c with done := c.done + n, out := false })) ∧
    (∀ (n : Nat) (x : SectorFlight), s.argN 0 = n → s.eng.sectors[n]? = some x →
      let w := x.core * 16 + x.slot
      ∃ s', exec .copySectorArrival s = .next s' ∧ sameMem s s' ∧ s'.eng.sectors = s.eng.sectors.eraseIdx n ∧
        (∀ t, s.team? w = some t → t.info.scratchGen = x.gen → t.info.scratchBytes ≠ 0 → ∃ v, s'.team? w = some v ∧
          ∀ k, k < x.bytes.length → x.off + k < t.info.scratchBytes → tabGetD 0 v.scratch (x.off + k) = x.bytes.getD k 0) ∧
        (s.team? w = none → (s'.core x.core).staleSectors = (s.core x.core).staleSectors + 1))

/-- STREAM_FILL and STREAM_DRAIN (R272, R275): a fill claims the FREE tail slot of its ring, writes the next bytes of its record into it and leaves it FILLED; a drain writes a FILLED head slot to memory and
releases it. -/
def Claims.StreamEngines : Prop :=
  ∀ (s : State) (c e id w : Nat) (r : EngineRun) (y : Copy) (x : StreamRec) (t : Team) (g : Ring), s.argN 0 = c → s.argN 1 = e →
    tabGet (s.core c).streams e = some r → r.item.work = .stream id → tabGet s.eng.copies id = some y → y.srec = some x → streamTeam s y = some (w, t) →
    s.team? w = some t → tabGet t.rings x.ring = some g → r.stop = false →
    let put := fun (f : Copy → Copy) (s : State) => { s with eng := { s.eng with copies := tabMod s.eng.copies id f } }
    (x.drain = false → y.claimed = false → x.pack ≠ 2 → tabGetD .free g.slots g.tail = .free → exec .streamFill s =
      .next (put (fun y => { y with claimed := true }) (s.setTeam w (Claims.setRing t x.ring
        { Claims.slotSet g g.tail .claimed g.slotSize with tail := (g.tail + 1) % g.count })))) ∧
    (x.drain = false → y.claimed = true → ∀ bs fl, fillSlot s y x (copyWho s id y) g.slotSize = (.bytes bs, fl) → y.done + bs.length < x.total →
      let slot := (g.tail + g.count - 1) % g.count
      ∃ s' v g', exec .streamFill s = .next s' ∧ sameMem s s' ∧ s'.team? w = some v ∧ tabGet v.rings x.ring = some g' ∧ tabGetD .free g'.slots slot = .filled ∧
        (∀ k, k < bs.length → tabGetD 0 v.ringMem (slotKey x.ring g slot + k) = bs.getD k 0) ∧
        tabGet s'.eng.copies id = some { y with done := y.done + bs.length, claimed := false, flags := y.flags ||| fl }) ∧
    (x.drain = true → tabGetD .free g.slots g.head = .filled →
      let n := min g.slotSize (x.total - y.done)
      let parts := plainParts x (n + 1) y.done n
      ∀ s1, engineProbe s c y.ctx (copyWho s id y) parts true 18 = .ready →
        drainParts s y (copyWho s id y) parts (ringBytes t (slotKey x.ring g g.head) n) = (s1, none) → y.done + n < x.total →
        ∃ s' v g', exec .streamDrain s = .next s' ∧ s'.mem = s1.mem ∧ s'.team? w = some v ∧ tabGet v.rings x.ring = some g' ∧
          tabGetD .free g'.slots g.head = .free ∧ g'.head = (g.head + 1) % g.count ∧ tabGet s'.eng.copies id = some { y with done := y.done + n })

/-- The engines of a core act so. -/
def Obligations.CoreEngines : Prop := Claims.StreamEvents ∧ Claims.Fills ∧ Claims.CopyEngine ∧ Claims.StreamEngines

/-! ## The rank tree, task queues, solicits and the fabric -/

/-- A rank script's words (R315, R317, Table 16-4), for the eight registers `g`: RET gives the rank; STN records a state word; the other operations write g_d and go on. -/
def Claims.ScriptRuns : Prop :=
  ∀ (now : Nat) (fields state ws g : List Word) (st : List (Nat × Word)) (w : Word),
    let op := (w.extractLsb' 28 4).toNat
    let d := (w.extractLsb' 25 3).toNat
    let a := g.getD (w.extractLsb' 22 3).toNat 0
    let b := g.getD (w.extractLsb' 19 3).toNat 0
    let n := (w.extractLsb' 0 3).toNat
    let goes := fun v => runScript now fields state (w :: ws) g st = runScript now fields state ws (g.set d v) st
    (op = 12 → runScript now fields state (w :: ws) g st = (a, st)) ∧
    (op = 11 → runScript now fields state (w :: ws) g st = runScript now fields state ws g (st ++ [(n, a)])) ∧
    (op = 0 → goes (fields.getD n 0)) ∧ (op = 1 → goes (state.getD n 0)) ∧
    (op = 3 → goes (BitVec.ofNat 32 (min (a.toNat + b.toNat) (2 ^ 32 - 1)))) ∧
    (op = 4 → goes (if b ≤ a then a - b else 0)) ∧
    (op = 5 → goes (BitVec.ofNat 32 (min (a.toNat * b.toNat) (2 ^ 32 - 1)))) ∧
    (op = 6 → goes (a >>> (w.extractLsb' 0 5).toNat)) ∧ (op = 7 → goes (if a ≤ b then a else b)) ∧ (op = 8 → goes (if a ≤ b then b else a)) ∧
    (op = 9 → goes (if g.getD (w.extractLsb' 16 3).toNat 0 = 0 then b else a)) ∧ (op = 10 → goes (BitVec.ofNat 32 now))

/-- PUSH, CALENDAR_RELEASE, LEAF_POP and FULL_LEAF_WATCHDOG (R313, R317 to R319, R321): a push at a node takes the rank that the node's script gives, with its STNs applied, and goes on, or is held where the node is a
calendar; a calendar sends its due item on; an idle copy engine takes its leaf's head; a push that has waited at a full leaf for the interval is reported once. -/
def Claims.TreeSteps : Prop :=
  ∀ (s : State) (n : Nat), s.argN 0 = n → s.host.fatal = false →
    (∀ k d m rest, s.dev.descents.findIdx? (fun d => d.heldAt.isNone && d.path.head? == some n) = some k → s.dev.descents[k]? = some d → d.path = n :: m :: rest →
      let r := s.region n
      let out := runScript s.now d.fields r.words ((tabGet s.dev.scripts r.script).getD [0xC0000000]) (BitVec.ofNat 32 d.item.rank :: List.replicate 7 0) []
      let d' := { d with path := m :: rest, item := { d.item with rank := out.1.toNat } }
      let r' := { r with words := out.2.foldl (fun ws p => ws.set p.1 p.2) r.words }
      (r.calendarKind = false ∨ calendarItems s < 16384) →
      ∃ s', exec .pushItem s = .next s' ∧ sameMem s s' ∧ s'.region n = r' ∧
        s'.dev.descents = s.dev.descents.eraseIdx k ++ [{ d' with heldAt := if r.calendarKind then some n else none }]) ∧
    (∀ k d m rest, s.dev.descents[k]? = some d → d.heldAt = some n → isDue s.now d.item.rank = true → d.path = m :: rest →
      (∀ j e, s.dev.descents[j]? = some e → e.heldAt = some n → isDue s.now e.item.rank = true → j = k) →
      ∃ s', exec .calendarRelease s = .next s' ∧ sameMem s s' ∧ s'.dev.descents = s.dev.descents.eraseIdx k ++ [{ d with heldAt := none }]) ∧
    (∀ x id part, n / 4096 = 4 → s.dev.l2Next = none → tabGet s.eng.running n = none → (s.leaf n).waiting = [] →
      leafHead s.now { s.leaf n with items := (s.leaf n).items.filter (mayRun s) } = some x → x.work = .seg id part →
      ∃ s', exec .leafPop s = .next s' ∧ sameMem s s' ∧ tabGet s'.eng.running n = some { item := x } ∧
        (s'.leaf n).items = (s.leaf n).items.filter fun y => y.stamp ≠ x.stamp) ∧
    (let l := s.leaf n
     let due := fun x : LeafItem =>
       !x.reported && decide (x.since + (s.region ((x.entry <|> l.parent).getD 0)).wdog * 2000 ≤ s.dev.time)
     (l.waiting.find? due = none → exec .fullLeafWatchdog s = .next s) ∧
     (∀ k x, l.waiting.findIdx? due = some k → l.waiting[k]? = some x → ∃ s', exec .fullLeafWatchdog s = .next s' ∧
       s'.leaf n = { l with waiting := l.waiting.set k { x with reported := true } }))

/-- The rank tree acts so (R313 to R321). -/
def Obligations.RankTree : Prop := Claims.ScriptRuns ∧ Claims.TreeSteps

/-- TASK_REFILL, TASK_HEAD_WATCHDOG, TASK_CYCLE_LIMIT and LEASE_EXPIRY (R360, R361, R366 to R368): the oldest queued slot of the ring goes to the leaf; a head that has stood for the interval is reported; a
task that has used its cycles ends as failed, with 0x118 held; a lease that ends gives its slot back. -/
def Claims.TaskEngine : Prop :=
  ∀ (s : State) (c : Nat), s.argN 0 = c → c < 256 → s.host.fatal = false →
    let k := s.core c
    let head := ringWord s c 0 % 4096
    (ringWord s c 2 ≠ 0 → (s.leaf (taskLeaf c)).items.length < 32 → slotState s c head = 1 → k.spawns = [] →
      ∃ s' y, exec .taskRefill s = .next s' ∧ ringWord s' c 2 = ringWord s c 2 - 1 ∧ ringWord s' c 0 = (head + 1) % 4096 ∧ slotState s' c head = 0 ∧
        y ∈ (s'.leaf (taskLeaf c)).items ∧ y.work = .task (slotWords s c head)) ∧
    (∀ p x ws, (s.leaf (taskLeaf c)).parent = some p → taskHead s c = some (x, ws) →
      (k.headStamp ≠ some x.stamp → exec .taskHeadWatchdog s = .next (s.setCore c { k with headStamp := some x.stamp, headSince := s.dev.time })) ∧
      (k.headStamp = some x.stamp → s.dev.time < k.headSince + (s.region p).wdog * 2000 → exec .taskHeadWatchdog s = .next s) ∧
      (k.headStamp = some x.stamp → k.headSince + (s.region p).wdog * 2000 ≤ s.dev.time → recordResp ws = false →
        ∃ s', exec .taskHeadWatchdog s = .next s' ∧ (s'.core c).headSince = s.dev.time)) ∧
    (∀ l, k.leases.find? (fun l => l.ends ≤ s.dev.time) = some l → ∃ s', exec .leaseExpiry s = .next s' ∧
      (s'.core c).leases = k.leases.filter (· ≠ l) ∧ (lentUnder s c l.slot l.ticket = true → slotState s' c l.slot = 1))

/-- TASK_CYCLE_LIMIT, TASK_LEND and TASK_COMMIT of the team of a slot (R366, R367). -/
def Claims.TaskTeams : Prop :=
  ∀ (s : State) (w : Nat) (t : Team), s.argN 0 = w → s.host.fatal = false → s.team? w = some t →
    (∀ h, t.task = some h →
      (h.cycles < (s.region h.node).taskLim → exec .taskCycleLimit s = .next s) ∧
      ((s.region h.node).taskLim ≤ h.cycles → t.terminated = false → t.pend.length < 64 → ∃ s' v, exec .taskCycleLimit s = .next s' ∧ s'.team? w = some v ∧
        v.task = none ∧ v.pend = t.pend ++ [{ cause := 0x118, kind := .taskLimit }])) ∧
    (∀ v, t.a.wait = some (.steal v) → t.lend = none → t.stolen = none →
      let same := (s.leaf (taskLeaf v)).parent = (s.leaf (taskLeaf (w / 16))).parent
      (¬same ∨ lendable s v = none → exec .taskLend s = .next (s.setTeam w { t with stolen := some none })) ∧
      (∀ k, same → lendable s v = some k →
        let ticket := (s.core v).lends % 2 ^ 32
        ∃ s', exec .taskLend s = .next s' ∧ s'.team? w = some { t with lend := some { victim := v, words := slotWords s v k, slot := k, ticket := ticket } } ∧
          slotState s' v k = 2 ∧ (s'.core v).lends = (s.core v).lends + 1 ∧ { slot := k, ticket := ticket, ends := s.dev.time + 8000 } ∈ (s'.core v).leases)) ∧
    (∀ l, t.lend = some l →
      let live := lentUnder s l.victim l.slot l.ticket = true ∧ ∃ x ∈ (s.core l.victim).leases, x.slot = l.slot ∧ x.ticket = l.ticket ∧ s.dev.time < x.ends
      (¬live → exec .taskCommit s = .next (s.setTeam w { t with lend := none, stolen := some none })) ∧
      (live → ∃ s', exec .taskCommit s = .next s' ∧ slotState s' l.victim l.slot = 3 ∧
        s'.team? w = some { t with lend := none, stolen := some (some l.words),
                                   task := some (heldOf l.words ((s.leaf (taskLeaf l.victim)).parent.getD 0)) }))

/-- The task engines act so. -/
def Claims.TaskEngines : Prop := Claims.TaskEngine ∧ Claims.TaskTeams

/-- SOLICIT_DELIVERY and COMMIT_DELIVERY (R297, R299, R303): the broadcast of a core's next stamp reaches it: a solicit counts its matches without a handler and spawns a responder for each of the others; a commit makes
its destination entry live with the new handle and frees its source. The core then awaits the next stamp. -/
def Claims.Deliveries : Prop :=
  ∀ (s : State) (c : Nat), s.argN 0 = c → Claims.powered s c → (s.core c).spawns = [] →
    let k := s.core c
    (∀ x, tabGet s.fab.broadcasts k.stamp = some .solicit → tabGet s.fab.census k.stamp = some x →
      let found := (k.dir.map (·.2)).filter fun e => (e.state = .live ∨ e.state = .out) ∧ (e.key ^^^ x.key) &&& x.mask = 0
      let heard := found.countP fun e => (tabGet k.handlers (e.key.extractLsb' 60 4).toNat).isSome
      ∃ s', exec .solicitDelivery s = .next s' ∧ (s'.core c).stamp = (k.stamp + 1) % 2 ^ 32 ∧
        let part : CoreCensus := { waiting := heard, acc := censusIdentity x.op, count := found.length - heard }
        tabGet s'.fab.census k.stamp = some { x with cores := tabSet x.cores c part }) ∧
    (∀ src n dst j h, tabGet s.fab.broadcasts k.stamp = some (.commit src n dst j h) →
      ∃ s', exec .commitDelivery s = .next s' ∧ sameMem s s' ∧ (s'.core c).stamp = (k.stamp + 1) % 2 ^ 32 ∧
        (c = dst → c ≠ src → ∀ e, tabGet k.dir j = some e → e.state = .inn → e.partner = (src, n) →
          tabGet (s'.core c).dir j = some { e with state := .live, handle := h, partner := (0, 0) }) ∧
        (c = src → c ≠ dst → ∀ e, tabGet k.dir n = some e → e.state = .out → e.partner = (dst, j) → tabGet (s'.core c).dir n = none))

/-- MOVE_REQUEST and CORE_ANSWER (R297, R301, Table 13-6): the destination takes the tile into its lowest free entry, or refuses; a core whose responders have ended joins its answer to the census. -/
def Claims.CensusSteps : Prop :=
  ∀ (s : State) (w n : Nat), s.argN 0 = w → s.argN 1 = n →
    (∀ t m dest e, s.team? w = some t → t.a.wait = some (.move m dest) → t.moveReply = none → tabGet (s.core (w / 16)).dir m = some e → w / 16 ≠ dest →
      ((∀ k, k < 256 → (tabGet (s.core dest).dir k).isSome) → exec .moveRequest s = .next (s.setTeam w { t with moveReply := some (m, dest, none) })) ∧
      (∀ j, j < 256 → tabGet (s.core dest).dir j = none → (∀ k, k < j → (tabGet (s.core dest).dir k).isSome) →
        ∃ s', exec .moveRequest s = .next s' ∧ sameMem s s' ∧ s'.team? w = some { t with moveReply := some (m, dest, some j) } ∧
          tabGet (s'.core dest).dir j = some { e with state := .inn, partner := (w / 16, m) } ∧
          tabGet (s'.core (w / 16)).dir m = some { e with state := .out, partner := (dest, j) })) ∧
    (∀ c k, tabGet s.fab.census n = some c → c.complete = false → c.summed = false → tabGet c.cores w = some k → k.answered = false → k.waiting = 0 →
      (∃ j, j < 256 ∧ j ≠ w ∧ ∀ x, tabGet c.cores j = some x → x.answered = false) →
      let cores := tabSet c.cores w { k with answered := true }
      let c' := { c with cores := cores, acc := censusJoin c.op c.acc k.acc, count := c.count + k.count, summed := false }
      exec .coreAnswer s = .next { s with fab := { s.fab with census := tabSet s.fab.census n c' } })

/-- The steps of solicits and of the census act so. -/
def Claims.SolicitSteps : Prop := Claims.Deliveries ∧ Claims.CensusSteps

/-- COLL_REPLY and COLL_FLIT_HOME (R284 to R287): every lane of a GET or SWAP whose replies have all arrived takes its value, 0 where its access failed, and the fragment goes on; a PUT to memory of this device writes its
words, and one to a slot whose team has another scratch generation is counted as stale. -/
def Claims.CollSteps : Prop :=
  ∀ (s : State) (n : Nat), s.argN 0 = n →
    (∀ c w t, tabGet s.fab.colls n = some c → c.pending = [] → c.op = 1 ∨ c.op = 2 → s.teamOf c.owner = some (w, t) → (c.lanes.map (·.lane)).Nodup → c.reg < 1024 →
      ∃ s' v, exec .collReply s = .next s' ∧ sameMem s s' ∧ tabGet s'.fab.colls n = none ∧ s'.team? w = some v ∧
        (∀ l ∈ c.lanes, tabGetD 0 v.v (l.lane * 1024 + c.reg) = BitVec.ofNat 32
          (match tabGet c.replies (l.flit * 16 + l.word) with | some r => l.given.getD r | none => 0)) ∧
        ∀ f, tabGet t.frags c.frag = some f → tabGet v.frags c.frag = some { f with hold := none, wait := none }) ∧
    (∀ o id, n ∈ s.fab.flits → tabGet s.fab.out n = some o → o.owner = .coll id →
      (o.flit.op = 0 → o.flit.scratch = false → ∀ pa attr, flitHome s s.dev.devId (64 * o.flit.unit) 64 true = some (.ok (pa, attr)) → pa / 64 ∉ s.dev.bad →
        tabSorted o.flit.words = true →
        ∃ s', exec .collFlitHome s = .next s' ∧ tabGet s'.fab.out n = none ∧ n ∉ s'.fab.flits ∧
          (∀ x ∈ o.flit.words, memBytes s'.mem (pa + 4 * x.1) 4 = natLe 4 x.2) ∧
          ∀ k, (∀ x ∈ o.flit.words, k < pa + 4 * x.1 ∨ pa + 4 * x.1 + 4 ≤ k) → memGet s'.mem k = memGet s.mem k) ∧
      (o.flit.op ≠ 18 → o.flit.scratch = true → s.team? (o.flit.core * 16 + o.flit.slot) = none →
        ∃ s', exec .collFlitHome s = .next s' ∧ sameMem s s' ∧ tabGet s'.fab.out n = none ∧
          (s'.core o.flit.core).staleSectors = (s.core o.flit.core).staleSectors + 1))

/-- ROOT_FLIT and UNIT_ABANDON (R288 to R290): the first flit of a key claims a unit, which holds its contributors and its sums; a unit that has not completed 2^24 cycles after its first flit is abandoned. -/
def Claims.RootSteps : Prop :=
  ∀ (s : State) (n : Nat), s.argN 0 = n →
    (∀ x fd pa, s.fab.rootIn[n]? = some x → x.flit.fields = some fd → flitHome s x.src (64 * x.flit.unit) 64 true = some (.ok pa) →
      (∀ u ∈ s.fab.units, ¬(u.group = x.flit.group ∧ u.chunk = x.flit.chunk ∧ u.unit = x.flit.unit)) → s.fab.units.length < 2048 →
      x.flit.contribs.length < fd.ncontrib →
      ∃ s' u, exec .rootFlit s = .next s' ∧ s'.fab.rootIn = s.fab.rootIn.eraseIdx n ∧ s'.fab.units = s.fab.units ++ [u] ∧ u.group = x.flit.group ∧
        u.chunk = x.flit.chunk ∧ u.unit = x.flit.unit ∧ u.fields = fd ∧ u.bitmap = x.flit.contribs ∧ u.sums = joinSums fd.op [] x.flit.sums ∧ u.since = s.dev.time) ∧
    (∀ u, s.fab.units[n]? = some u →
      (s.dev.time < u.since + 2 ^ 24 → exec .unitAbandon s = .next s) ∧
      (u.since + 2 ^ 24 ≤ s.dev.time → ∃ s', exec .unitAbandon s = .next s' ∧ s'.fab.units = s.fab.units.eraseIdx n))

/-- ACORN_OPERATION and ACORN_LOCAL_COMPLETION (R400, R401, R404): a PUT to this device sends the flits of its packet; an operation that is locally complete frees its acorn, or arms it again with the next threshold, and raises
the chained counter. -/
def Claims.AcornSteps : Prop :=
  ∀ (s : State) (id : Nat) (o : FabOp), tabGet s.fab.ops id = some o → o.failed = false →
    (∀ leaf r src dst len, s.argN 0 = 0 → s.argN 1 = leaf → tabGet s.eng.running leaf = some r → r.item.work = .op id src dst len → o.desc.op = 0 →
      o.desc.dev = s.dev.devId → engineProbe s o.core o.ctx (.engine o.core 16 id) [(src, len)] false 17 = .ready →
      let fs := opFlits id o.desc src dst len (readVirt s o.core o.ctx src len)
      ∃ s', exec .acornOperation s = .next s' ∧ sameMem s s' ∧ tabGet s'.eng.running leaf = none ∧
        tabGet s'.fab.ops id = some { o with unsent := o.unsent - 1, unacked := o.unacked + fs.length } ∧
        s'.fab.flits = s.fab.flits ++ (List.range fs.length).map (s.fab.outSeq + ·) ∧
        ∀ k f, fs[k]? = some f → ∃ y, tabGet s'.fab.out (s.fab.outSeq + k) = some y ∧ y.flit = f ∧ y.owner = .op id) ∧
    (∀ c n a, s.argN 0 = id → o.source = .acorn c n → o.localDone = false → o.unsent = 0 → o.unacked = 0 → o.desc.rcen = false → tabGet (s.core c).acorns n = some a →
      id < s.fab.opSeq →
      ∃ s', exec .acornLocalCompletion s = .next s' ∧ sameMem s s' ∧ tabGet s'.fab.ops id = none ∧
        (a.desc.rearm = false → tabGet (s'.core c).acorns n = none) ∧
        (a.desc.rearm = true → a.torn = false → a.firing = true → cancelWaiters s c n = [] →
          ∃ b, tabGet (s'.core c).acorns n = some b ∧ b.desc = { a.desc with thresh := (a.desc.thresh + a.desc.step) % 2 ^ 64 }) ∧
        s'.ctr c a.desc.chctr = s.ctr c a.desc.chctr + (if a.desc.chen ∧ a.torn = false then BitVec.ofNat 64 a.desc.chinc else 0))

/-- No flit waits for room in a retry buffer. -/
def Claims.noneWaiting (s : State) : Prop := ∀ x ∈ s.fab.out, x.2.port ≠ none ∨ x.2.flit.dev = s.dev.devId

/-- FLIT_RECEIVE (R406, R408): a flit out of the link's sequence, or corrupted, changes nothing; the next one, for this device and not seen before, is performed, its number accepted and its acknowledgement made. -/
def Claims.FlitsReceived : Prop :=
  ∀ (s : State),
    let p := s.argN 0 % 16
    let q := s.port p
    let f := (flitOfArgs s.arg).1
    let src := (flitOfArgs s.arg).2.1
    let num := (flitOfArgs s.arg).2.2 % 2 ^ 32
    (q.up = false ∨ s.argN 1 ≠ q.expect ∨ s.argN 2 ≠ 0 → exec .flitReceive s = .next s) ∧
    (q.up = true → s.argN 1 = q.expect → s.argN 2 = 0 → src < 4096 → src ≠ s.dev.devId → f.dev = s.dev.devId → f.fields = none → f.rcen = false →
      ∀ r, (tabGetD {} s.fab.accepted src).standing num = .fresh → performFlit s src f = some r →
        ∃ s', exec .flitReceive s = .next s' ∧ s'.mem = r.state.mem ∧ (s'.port p).expect = (q.expect + 1) % 2 ^ 20 ∧
          s'.fab.reply = some { dev := src, num := num, cause := r.cause, stale := r.stale, words := r.words })

/-- LINK_ACK, LINK_REPLAY, LINK_DOWN and REMOTE_COMPLETION (R244, R406, R407): an acknowledged flit leaves its port's retry buffer; a negative acknowledgement sends the buffer again from the flit it names; a link that is down keeps no
flit; an end-to-end acknowledgement ends the flit and lowers its team's counter. -/
def Claims.Links : Prop :=
  ∀ (s : State) (p : Nat), s.argN 0 = p →
    (∀ n o, retryFind s p (s.argN 1) = some n → tabGet s.fab.out n = some o → Claims.noneWaiting s →
      (∀ a b, o.owner ≠ .transit a b) → o.port = some p →
      ∃ s', exec .linkAck s = .next s' ∧ sameMem s s' ∧ (s'.port p).retry = (s.port p).retry.filter (· ≠ n) ∧
        tabGet s'.fab.out n = some { o with buffered := false }) ∧
    (∀ n o, retryFind s p (s.argN 1) = some n → tabGet s.fab.out n = some o → o.replays < 16 → (s.port p).retry.Nodup →
      ∃ s', exec .linkReplay s = .next s' ∧ sameMem s s' ∧ s'.fab.ports = s.fab.ports ∧ ∀ m x, tabGet s.fab.out m = some x →
        tabGet s'.fab.out m = some (if m ∈ (s.port p).retry.dropWhile (· ≠ n) then { x with replays := x.replays + 1 } else x)) ∧
    ((s.port p).up = true → ∃ s', exec .linkDown s = .next s' ∧ (s'.port p).up = false ∧ (s'.port p).retry = []) ∧
    ((s.port p).up = false → exec .linkDown s = .next s) ∧
    (∀ o q id seq w t, tabGet s.fab.out p = some o → o.port = some q → o.owner = .coll id → o.counted = some seq → s.teamOf seq = some (w, t) → s.argN 1 = 0 →
      Claims.noneWaiting s →
      ∃ s' v, exec .remoteCompletion s = .next s' ∧ sameMem s s' ∧ tabGet s'.fab.out p = none ∧ s'.team? w = some v ∧ v.acks = t.acks - 1)

/-- The fabric acts so (R284 to R290, R400 to R408). -/
def Obligations.FabricSteps : Prop := Claims.CollSteps ∧ Claims.RootSteps ∧ Claims.AcornSteps ∧ Claims.FlitsReceived ∧ Claims.Links

/-! ## Command packets -/

/-- It is a queue's turn in the round, and its next packet, of so many slots, can be read (R340 to R342): `hd` is the packet's first slot, `bs` its bytes and `p` what its header gives. -/
structure Claims.Head (s : State) (qn slots : Nat) (hd bs : List Byte) (p : Packet) : Prop where
  alive : s.host.fatal = false
  turn : (openRound s).fw.round.head? = some qn
  first : slotProbe (openRound s) qn (s.queue qn) 1 = .ready
  head : headSlots (openRound s) (s.queue qn) 1 = hd
  count : bitsOf (field hd 0 8) 9 8 + 1 = slots
  written : slots ≤ (queuePlace (openRound s) (s.queue qn)).avail
  ready : slotProbe (openRound s) qn (s.queue qn) slots = .ready
  bytes : headSlots (openRound s) (s.queue qn) slots = bs
  packet : packetOf (openRound s) qn (queuePlace (openRound s) (s.queue qn)) hd = p

/-- The packet is not the last of an indirect buffer. -/
def Claims.stays (q : CmdQueue) (slots : Nat) : Prop := ∀ l ls, q.levels = l :: ls → l.next + slots < l.slots

/-- The packet's header is one that R342 accepts, and the packet is not the last of an indirect buffer. -/
def Claims.Legal (s : State) (qn slots : Nat) (hd bs : List Byte) (p : Packet) : Prop :=
  Claims.Head s qn slots hd bs p ∧ headerBad (openRound s) qn p bs = false ∧ Claims.stays (s.queue qn) slots

/-- The queue with its pointer past the packet (R340, R349). -/
def Claims.passed (q : CmdQueue) (slots : Nat) : CmdQueue :=
  match q.levels with
  | [] => { q with rptr := q.rptr + BitVec.ofNat 32 slots }
  | l :: ls => { q with levels := { l with next := l.next + slots } :: ls }

/-- The state in which the firmware begins a packet's work: the pointer has moved and the packet is listed under the next number. -/
def Claims.begun (s : State) (qn slots : Nat) (p : Packet) : State :=
  let r := leaveRound (openRound s) qn
  advanceQueue { r with fw := { r.fw with packets := tabSet r.fw.packets r.fw.packetSeq p, packetSeq := r.fw.packetSeq + 1 } } qn slots

/-- The firmware has taken a packet from a queue: the queue is left as `q`, the packet stands among those not completed as `x`, and the queue has had its turn. -/
structure Claims.Taken (s s' : State) (qn : Nat) (q : CmdQueue) (x : Packet) : Prop where
  queue : s'.queue qn = q
  packet : tabGet s'.fw.packets s.fw.packetSeq = some x
  number : s'.fw.packetSeq = s.fw.packetSeq + 1
  turn : qn ∉ s'.fw.round

/-- A command fault (R350): the packet has gone without completing, and the queue, its pointer past the packet, halts. -/
structure Claims.Refused (s s' : State) (qn slots : Nat) : Prop where
  queue : s'.queue qn = { Claims.passed (s.queue qn) slots with halted := true }
  packet : tabGet s'.fw.packets s.fw.packetSeq = none
  turn : qn ∉ s'.fw.round

/-- SIGNAL, NOP and a packet whose opcode Table 17-5 does not give (R342, R343, R350): the first two are taken, with no part of their work to end; the last is a command fault, and so is a NOP with a set bit outside its
header. The last packet of an indirect buffer ends the buffer's INDIRECT (R349). A queue whose turn it is not waits. -/
def Claims.EmptyPackets : Prop :=
  ∀ (s : State) (qn slots : Nat) (hd bs : List Byte) (p : Packet), s.argN 0 = qn →
    (Claims.Legal s qn slots hd bs p → restZero bs [] = true →
      (field hd 0 1 = 0x0F → ∃ s', exec .nopPacket s = .next s' ∧ sameMem s s' ∧ Claims.Taken s s' qn (Claims.passed (s.queue qn) slots) p) ∧
      (field hd 0 1 = 0x0A → ∃ s', exec .signalPkt s = .next s' ∧ sameMem s s' ∧ Claims.Taken s s' qn (Claims.passed (s.queue qn) slots) p)) ∧
    (Claims.Legal s qn slots hd bs p → restZero bs [] = false → field hd 0 1 = 0x0F → ∃ s', exec .nopPacket s = .next s' ∧ Claims.Refused s s' qn slots) ∧
    (Claims.Head s qn slots hd bs p → Claims.stays (s.queue qn) slots → opcodeOrder.contains (field hd 0 1) = false → p.opcode = field hd 0 1 →
      ∃ s', exec .opcodeNotInTable s = .next s' ∧ Claims.Refused s s' qn slots) ∧
    (∀ l ls, Claims.Head s qn slots hd bs p → headerBad (openRound s) qn p bs = false → restZero bs [] = true → field hd 0 1 = 0x0F → (s.queue qn).levels = l :: ls →
      l.next + slots = l.slots → (∀ m ∈ ls.head?, m.next < m.slots) → l.key ≠ s.fw.packetSeq → ∃ s', exec .nopPacket s = .next s' ∧
        (s'.queue qn).levels = ls ∧ tabGet s'.fw.packets l.key = (tabGet s.fw.packets l.key).map fun x => { x with left := x.left - 1 }) ∧
    (s.host.fatal = false → (openRound s).fw.round.head? ≠ some qn → exec .nopPacket s = .next s ∧ exec .signalPkt s = .next s ∧ exec .opcodeNotInTable s = .next s)

/-- INDIRECT (R349): its queue goes on in the buffer, and the packet waits for the buffer's end; below four buffers it is a command fault (0x136). -/
def Claims.IndirectPacket : Prop :=
  ∀ (s : State) (qn slots : Nat) (hd bs : List Byte) (p : Packet), s.argN 0 = qn → Claims.Legal s qn slots hd bs p → field hd 0 1 = 0x03 → restZero bs [(24, 12)] = true →
    field bs 24 8 % 64 = 0 → 0 < field bs 32 4 → field bs 32 4 ≤ 65536 →
    ((s.queue qn).levels.length < 4 → ∃ s', exec .indirectPkt s = .next s' ∧ sameMem s s' ∧ Claims.Taken s s' qn { Claims.passed (s.queue qn) slots with
        levels := { buf := field bs 24 8, slots := field bs 32 4, next := 0, key := s.fw.packetSeq } :: (Claims.passed (s.queue qn) slots).levels } { p with left := 1 }) ∧
    (4 ≤ (s.queue qn).levels.length → ∃ s', exec .indirectPkt s = .next s' ∧ Claims.Refused s s' qn slots)

/-- WAIT (R352): it takes its place behind the other watches, and nothing more of its queue is parsed. -/
def Claims.WaitPacket : Prop :=
  ∀ (s : State) (qn slots : Nat) (hd bs : List Byte) (p : Packet), s.argN 0 = qn → Claims.Legal s qn slots hd bs p → field hd 0 1 = 0x09 → restZero bs [(24, 9), (40, 16)] = true →
    let b := Claims.begun s qn slots p
    let mode := field bs 32 1
    let size := if mode % 2 = 0 then 4 else 8
    mode < 12 → field bs 24 8 % size = 0 → fwProbe b p.ctx (queueWho p.queue) [(field bs 24 8, size)] false = .ready →
    ∀ va n pa attr, fwParts b p.ctx (field bs 24 8) size = [(va, n, pa, attr)] →
      ∃ s', exec .waitPkt s = .next s' ∧ sameMem s s' ∧ Claims.Taken s s' qn { Claims.passed (s.queue qn) slots with waiting := some s.fw.packetSeq } p ∧
        s'.fw.watches = settleWatches s.mem (s.fw.watches ++
          [{ pa := pa, size := size, cmp := mode / 2, mask := field bs 40 8, val := field bs 48 8, key := s.fw.packetSeq }])

/-- SCRIPT, PART and PAGEANS (R316, R335, R339): a script that R316 accepts is written, one that it refuses is a command fault; the partition of a core with no team takes the packet's values; an answer frees every entry of
the page's filters. -/
def Claims.TablePackets : Prop :=
  ∀ (s : State) (qn slots : Nat) (hd bs : List Byte) (p : Packet), s.argN 0 = qn → Claims.Legal s qn slots hd bs p →
    let b := Claims.begun s qn slots p
    let q := Claims.passed (s.queue qn) slots
    (field hd 0 1 = 0x0C → restZero bs [(24, 1), (64, 64)] = true → field bs 24 1 < 64 →
      let ws : List Word := (List.range 16).map fun k => BitVec.ofNat 32 (field bs (64 + 4 * k) 4)
      (scriptBad ws = false → ∃ s', exec .scriptPkt s = .next s' ∧ sameMem s s' ∧ Claims.Taken s s' qn q p ∧ s'.dev.scripts = tabSet s.dev.scripts (field bs 24 1) ws) ∧
      (scriptBad ws = true → ∃ s', exec .scriptPkt s = .next s' ∧ Claims.Refused s s' qn slots ∧ s'.dev.scripts = s.dev.scripts)) ∧
    (field hd 0 1 = 0x0D → restZero bs [(24, 3), (28, 2)] = true → field bs 25 1 < 8 → field bs 26 1 ≤ 16 →
      let c := field bs 24 1
      (∀ x ∈ s.teams, coreOf x.1 ≠ c) → (∀ x ∈ s.fw.saved, x.2.core ≠ c) → holdsTileTask b c = false →
      (field bs 25 1 + 1) * 0x10000 + field bs 28 2 * 0x1000 ≤ 2 ^ 20 → (field bs 26 1 = 0 ∨ 8 ≤ field bs 28 2) →
      ∃ s', exec .partPkt s = .next s' ∧ sameMem s s' ∧ Claims.Taken s s' qn q p ∧ (s'.core c).ttiles = field bs 26 1 ∧ (s'.core c).stage = field bs 28 2 ∧
        (s'.core c).l1Units = field bs 25 1 + 1) ∧
    (field hd 0 1 = 0x0E → restZero bs [(24, 11)] = true → field bs 24 8 % 0x10000 = 0 → field bs 24 8 < 2 ^ 57 → field bs 32 2 < 4096 → field bs 34 1 < 2 →
      let answered := fun (e : FilterEntry) => e.ctx = field bs 32 2 ∧ e.page = field bs 24 8
      ∃ s', exec .pageansPkt s = .next s' ∧ sameMem s s' ∧ Claims.Taken s s' qn q p ∧ (∀ c, ∀ e ∈ (s'.core c).filter, ¬answered e) ∧
        (∀ c, ∀ e ∈ (s'.cluster c).filter, ¬answered e) ∧ ∀ e ∈ s'.dev.apexFilter, ¬answered e)

/-- One packet's work has been pushed toward a leaf, from the packet's entry node on (R313). -/
def Claims.sent (s s' : State) (p : Packet) (leaf : Nat) (path : List Nat) (fields : List Word) (w : Work) : Prop :=
  s'.dev.descents = s.dev.descents ++
    [{ leaf := leaf, path := path, fields := fields, item := { rank := 0, stamp := 0, entry := some p.node, work := w } }]

/-- The launches of a packet have been pushed in repeat order, with their numbers and the packet that they come from (R344, R347). -/
def Claims.launched (s s' : State) (p : Packet) (each : List (Nat × Launch)) : Prop :=
  s'.dev.descents.length = s.dev.descents.length + each.length ∧ ∀ k c l, each[k]? = some (c, l) →
    ∃ d m, s'.dev.descents[s.dev.descents.length + k]? = some d ∧ d.leaf = leafId 0 c ∧ d.fields = l.info.fields ∧ d.item.entry = some p.node ∧ d.item.work = .launch m ∧
      m.info.kernel = l.info.kernel ∧ m.info.args = l.info.args ∧ m.info.seq = BitVec.ofNat 32 (s.fw.launchSeq + k) ∧ m.info.origin = some s.fw.packetSeq

/-- LAUNCH and LAUNCHI (R345 to R348): the launches of a record that passes the checks are pushed, and the packet waits for as many; one that fails is a command fault. A prologue that cancels leaves nothing to do, one that
faults is a command fault, and else its buffer is the record. -/
def Claims.LaunchPackets : Prop :=
  ∀ (s : State) (qn slots : Nat) (hd bs : List Byte) (p : Packet), s.argN 0 = qn → Claims.Legal s qn slots hd bs p → field bs 24 8 % 64 = 0 →
    let b := Claims.begun s qn slots p
    let q := Claims.passed (s.queue qn) slots
    let rec_ := fwBytes b p.ctx (field bs 24 8) 320
    fwProbe b p.ctx (queueWho p.queue) [(field bs 24 8, 320)] false = .ready →
    (field hd 0 1 = 0x01 → restZero bs [(24, 8)] = true →
      (∀ each, checkLaunch b p.ctx (queueWho p.queue) rec_ = .ok each → (∀ x ∈ each, (leafPath b p.node (leafId 0 x.1)).isSome) →
        ∃ s', exec .launchPkt s = .next s' ∧ sameMem s s' ∧ Claims.Taken s s' qn q { p with left := each.length } ∧ Claims.launched s s' p each) ∧
      (∀ n, checkLaunch b p.ctx (queueWho p.queue) rec_ = .bad n → ∃ s', exec .launchPkt s = .next s' ∧ Claims.Refused s s' qn slots ∧ s'.dev.descents = s.dev.descents)) ∧
    (∀ ctx, field hd 0 1 = 0x02 → restZero bs [(24, 18), (48, 8)] = true → p.ctx = some ctx → field bs 32 8 % 4 = 0 → 0 < field bs 40 2 → field bs 40 2 ≤ 256 →
      let run := runPrologue b ctx (field bs 32 8) (field bs 40 2) 4096 (prologueTeam (field bs 32 8) (field bs 48 8)) rec_
      (∀ buf, run = some (true, buf) → ∃ s', exec .launchiPkt s = .next s' ∧ sameMem s s' ∧ Claims.Taken s s' qn q p ∧ s'.dev.descents = s.dev.descents) ∧
      (run = none → ∃ s', exec .launchiPkt s = .next s' ∧ Claims.Refused s s' qn slots) ∧
      (∀ buf each, run = some (false, buf) → checkLaunch b p.ctx (queueWho p.queue) buf = .ok each → (∀ x ∈ each, (leafPath b p.node (leafId 0 x.1)).isSome) →
        ∃ s', exec .launchiPkt s = .next s' ∧ sameMem s s' ∧ Claims.Taken s s' qn q { p with left := each.length } ∧ Claims.launched s s' p each))

/-- TILETASK, COPY, STREAM and HOSTXFER (R343, R351, R454): where the body and what it names pass their checks, the packet's work is pushed toward the leaf that the packet names: one item for the first three (a COPY's segments enter at its
rank), and for a host transfer as many parts to end as it has. -/
def Claims.WorkPackets : Prop :=
  ∀ (s : State) (qn slots : Nat) (hd bs : List Byte) (p : Packet) (ctx : Nat) (path : List Nat), s.argN 0 = qn → Claims.Legal s qn slots hd bs p → p.ctx = some ctx →
    let b := Claims.begun s qn slots p
    let q := Claims.passed (s.queue qn) slots
    let key := s.fw.packetSeq
    let who := queueWho p.queue
    (field hd 0 1 = 0x04 → restZero bs [(24, 9)] = true → field bs 24 8 % 128 = 0 → fwProbe b p.ctx who [(field bs 24 8, 128)] false = .ready →
      let r := fwBytes b p.ctx (field bs 24 8) 128
      let leaf := leafId 1 (field bs 32 1)
      fwProbe b p.ctx who [(field r 32 8, 128)] false = .ready → taskRecordBad b (field bs 32 1) r = false → leafPath b p.node leaf = some path →
      ∃ s', exec .tiletaskPkt s = .next s' ∧ sameMem s s' ∧ Claims.Taken s s' qn q { p with left := 1 } ∧
        Claims.sent s s' p leaf path ((List.range 8).map fun k => BitVec.ofNat 32 (field r (64 + 4 * k) 4)) (.tile (tileTaskOf p key ctx r (fwBytes b p.ctx (field r 32 8) 128)))) ∧
    (field hd 0 1 = 0x05 → restZero bs [(24, 22), (64, 32)] = true → field bs 44 1 < 4 → field bs 45 1 < 16 → field bs 40 4 ≠ 0 → field bs 40 4 % 8 = 0 →
      let leaf := field bs 45 1
      let core := leaf / 4 * 64 + leaf % 4 * 16
      let c : Copy := { origin := some key, core := core, node := p.node, ctx := ctx, size := 8, src := field bs 24 8, dst := field bs 32 8, len := field bs 40 4, cls := BitVec.ofNat 2 (field bs 44 1) }
      leafPath b p.node (leafId 4 leaf) = some path → copyCause b core ctx 0 c = none → copyNeeds b core ctx c = [] →
      ∃ s', exec .copyPkt s = .next s' ∧ sameMem s s' ∧ Claims.Taken s s' qn q { p with left := 1 } ∧ tabGet s'.eng.copies s.eng.copySeq = some c ∧
        Claims.sent s s' p (leafId 4 leaf) path (packetTaskFields bs) (.seg s.eng.copySeq 0)) ∧
    (∀ t x e, field hd 0 1 = 0x06 → restZero bs [(24, 11), (64, 32)] = true → field bs 33 1 < 16 → s.team? (field bs 32 1 * 16 + field bs 33 1) = some t → t.info.scratchGen = field bs 34 1 →
      field bs 24 8 < 2 ^ 57 → field bs 24 8 % 128 = 0 → fwProbe b p.ctx who [(field bs 24 8, 128)] false = .ready → parseStream (field bs 24 8) (fwBytes b p.ctx (field bs 24 8) 128) = some x →
      streamSide t x = some e → leafPath b p.node (leafId 3 (field bs 32 1)) = some path →
      ∃ s' c, exec .streamPkt s = .next s' ∧ sameMem s s' ∧ Claims.Taken s s' qn q { p with left := 1 } ∧ tabGet s'.eng.copies s.eng.copySeq = some c ∧ c.srec = some x ∧ c.origin = some key ∧
        c.rcore = field bs 32 1 ∧ c.rslot = field bs 33 1 ∧ c.rgen = field bs 34 1 ∧
        Claims.sent s s' p (leafId 3 (field bs 32 1)) path (packetTaskFields bs) (.stream s.eng.copySeq)) ∧
    (field hd 0 1 = 0x08 → restZero bs [(24, 21), (64, 32)] = true → field bs 24 8 + field bs 40 4 ≤ 2 ^ 51 → field bs 40 4 ≠ 0 → field bs 40 4 % 8 = 0 → field bs 44 1 < 2 →
      let x : HostXfer := { key := key, node := p.node, ctx := ctx, host := field bs 24 8, va := field bs 32 8, len := field bs 40 4, toDevice := decide (field bs 44 1 = 1) }
      let leaf := leafId 6 (bitsOf (field bs 24 8) 50 50)
      leafPath b p.node leaf = some path →
      ∃ s', exec .hostxferPkt s = .next s' ∧ sameMem s s' ∧ Claims.Taken s s' qn q { p with left := (hostPieces x).length } ∧ Claims.sent s s' p leaf path (packetTaskFields bs) (.host x))

/-- PUT, GET and CTRADD of a FABRIC packet (R413): the operation is listed, with a flit to send for each of its pieces, and is pushed toward the leaf of the port that reaches its device; one toward the device itself toward a copy leaf
(the model's choice: assumption 33). -/
def Claims.FabricPackets : Prop :=
  ∀ (s : State) (qn slots : Nat) (hd bs : List Byte) (p : Packet) (ctx leaf : Nat) (path : List Nat), s.argN 0 = qn → Claims.Legal s qn slots hd bs p → p.ctx = some ctx → field hd 0 1 = 0x07 →
    let b := Claims.begun s qn slots p
    let d := fabricDesc bs
    fabricBad bs = false → (if d.dev = s.dev.devId then some (copyLeaf 0) else (choosePort b d.dev).map (leafId 5)) = some leaf → leafPath b p.node leaf = some path →
    let done := fun (s' : State) => sameMem s s' ∧ Claims.Taken s s' qn (Claims.passed (s.queue qn) slots) { p with left := 1 } ∧
      (∃ o, tabGet s'.fab.ops s.fab.opSeq = some o ∧ o.desc = d ∧ o.source = .packet s.fw.packetSeq ∧ o.unsent = (opPieces d).length) ∧
      Claims.sent s s' p leaf path (packetTaskFields bs) (.op s.fab.opSeq d.src d.dst d.len)
    (field hd 24 1 % 8 = 0 → ∃ s', exec .fabricPut s = .next s' ∧ done s') ∧ (field hd 24 1 % 8 = 1 → ∃ s', exec .fabricGet s = .next s' ∧ done s') ∧
    (field hd 24 1 % 8 = 2 → ∃ s', exec .fabricCtradd s = .next s' ∧ done s')

/-- PAUSE and RESUME of a FABRIC packet (R413, R414): a pause takes the next number and asks the members of its list; a resume lifts the pause that this device began for the group, and is a command fault (0x156) where it began none. -/
def Claims.GangPackets : Prop :=
  ∀ (s : State) (qn slots : Nat) (hd bs : List Byte) (p : Packet), s.argN 0 = qn → Claims.Legal s qn slots hd bs p → field hd 0 1 = 0x07 → gangBad bs = false →
    let b := Claims.begun s qn slots p
    let n := field bs 48 4
    let list := fwBytes b p.ctx (field bs 32 8) (2 * n)
    let members := ((List.range n).map fun k => field list (2 * k) 2 % 4096).eraseDups
    let gang := fun (number : Nat) (resume : Bool) => ({ key := s.fw.packetSeq, number := number, group := field bs 52 2, node := field bs 54 2, resume := resume, members := members, since := s.dev.time } : Gang)
    let taken := fun (s' : State) => sameMem s s' ∧ Claims.Taken s s' qn (Claims.passed (s.queue qn) slots) { p with left := 1 }
    fwProbe b p.ctx (queueWho p.queue) [(field bs 32 8, 2 * n)] false = .ready →
    (field hd 24 1 % 8 = 3 → ∃ s', exec .fabricPause s = .next s' ∧ taken s' ∧ s'.fab.gangSeq = s.fab.gangSeq + 1 ∧ s'.fab.gangs = s.fab.gangs ++ [gang s.fab.gangSeq false]) ∧
    (∀ m, field hd 24 1 % 8 = 4 → tabGet s.fab.initiated (field bs 52 2) = some m → ∃ s', exec .fabricResume s = .next s' ∧ taken s' ∧
      tabGet s'.fab.initiated (field bs 52 2) = none ∧ s'.fab.gangs = s.fab.gangs ++ [gang m true]) ∧
    (field hd 24 1 % 8 = 4 → tabGet s.fab.initiated (field bs 52 2) = none → ∃ s', exec .fabricResume s = .next s' ∧ Claims.Refused s s' qn slots)

/-- REGION_LOAD and REGION_FREE (R331 to R334): a block that R333 accepts becomes its node's region, its listed leaves the node's and those that the node loses nobody's; one that it refuses is a command fault. A free node's region and leaves
are gone; freeing a node with no region does nothing, and one that R334 refuses is a command fault. -/
def Claims.RegionPackets : Prop :=
  ∀ (s : State) (qn slots : Nat) (hd bs : List Byte) (p : Packet), s.argN 0 = qn → Claims.Legal s qn slots hd bs p → field hd 0 1 = 0x0B → restZero bs [(24, 9)] = true → field bs 32 1 < 2 →
    field bs 24 8 % 128 = 0 → (isHbm (field bs 24 8) = true ∨ isHost (field bs 24 8) = true) →
    let b := Claims.begun s qn slots p
    let q := Claims.passed (s.queue qn) slots
    let blk := memBytes s.mem (field bs 24 8) 128
    let node := bitsOf (field blk 0 2) 9 0
    let root := bitsOf (field blk 2 2) 15 15 = 1
    let r := blockRegion blk (if root then {} else s.region (bitsOf (field blk 2 2) 9 0))
    let leaves := blockLeaves s blk
    (field hd 32 1 % 2 = 0 → loadRefused b blk node r leaves = false → ∃ s', exec .regionLoad s = .next s' ∧ sameMem s s' ∧ Claims.Taken s s' qn q p ∧
      s'.region node = { r with leaves := leaves } ∧ (∀ id ∈ leaves, (s'.leaf id).parent = some node ∧ (s'.leaf id).items = (s.leaf id).items) ∧
      ∀ id ∈ (s.region node).leaves, id ∉ leaves → (s'.leaf id).parent = none) ∧
    (field hd 32 1 % 2 = 0 → loadRefused b blk node r leaves = true → ∃ s', exec .regionLoad s = .next s' ∧ Claims.Refused s s' qn slots) ∧
    (field hd 32 1 % 2 = 1 → (s.region node).loaded = false → ∃ s', exec .regionFree s = .next s' ∧ sameMem s s' ∧ Claims.Taken s s' qn q p ∧ s'.dev.nodes = s.dev.nodes) ∧
    (field hd 32 1 % 2 = 1 → (s.region node).loaded = true → freeRefused b node = false → ∃ s', exec .regionFree s = .next s' ∧ Claims.Taken s s' qn q p ∧
      (s'.region node).loaded = false ∧ (∀ id ∈ (s.region node).leaves, (s'.leaf id).parent = none) ∧ ∀ c, ∀ e ∈ (s'.core c).dir, e.2.node ≠ node) ∧
    (field hd 32 1 % 2 = 1 → (s.region node).loaded = true → freeRefused b node = true → ∃ s', exec .regionFree s = .next s' ∧ Claims.Refused s s' qn slots ∧
      s'.region node = s.region node)

/-- PACKET_COMPLETION (R342, R344, R352): a packet whose work has ended, but for a SIGNAL with earlier packets of its queue and a WAIT whose condition has not held, leaves, its signal written where the header asks for one: stored, or added to
the word there; till then nothing happens. -/
def Claims.Completion : Prop :=
  ∀ (s : State) (key : Nat) (p : Packet), s.argN 0 = key → s.host.fatal = false → s.packet? key = some p →
    let blocked := p.opcode = 0x0A ∧ ∃ k ∈ earlierPackets s p.queue, k < key
    let held := p.opcode = 0x09 ∧ ∀ w ∈ s.fw.watches, w.key = key → w.hit = false
    (p.left ≠ 0 ∨ blocked ∨ held → exec .packetCompletion s = .next s) ∧
    (p.left = 0 → ¬blocked → ¬held → p.sigen = false → ∃ s', exec .packetCompletion s = .next s' ∧ sameMem s s' ∧ tabGet s'.fw.packets key = none ∧
      (p.opcode = 0x09 → (s'.queue p.queue).waiting = none ∧ ∀ w ∈ s'.fw.watches, w.key ≠ key)) ∧
    (p.left = 0 → ¬blocked → ¬held → p.sigen = true → fwProbe s p.ctx (packetWho key) [(p.sigaddr, signalBytes p.sigop)] true = .ready →
      let n := signalBytes p.sigop
      ∀ pa attr, fwParts s p.ctx p.sigaddr n = [(p.sigaddr, n, pa, attr)] →
        let old := if p.sigop < 2 then 0 else leNat (memBytes s.mem pa n)
        ∃ s', exec .packetCompletion s = .next s' ∧ tabGet s'.fw.packets key = none ∧ sameMemBut s s' pa n ∧ memBytes s'.mem pa n = natLe n (old + p.sigval))

/-- COALESCER_MESSAGE (R353): once as many events as the domain's block asks for are counted, or the oldest has waited the block's microseconds, or none has come for two, the message goes out and the count starts again; till then
nothing happens. -/
def Claims.Coalescing : Prop :=
  ∀ (s : State) (dom : Nat), s.argN 0 = dom →
    let c := tabGetD {} s.dev.coalescers dom
    let due := memNat s.mem (dom + 44) 2 ≤ c.pending ∨ c.oldest + memNat s.mem (dom + 46) 1 * 2000 ≤ s.dev.time ∨ c.newest + 2 * 2000 ≤ s.dev.time
    (c.pending ≠ 0 → due → ∃ s', exec .coalescerMessage s = .next s' ∧ sameMem s s' ∧ tabGet s'.dev.coalescers dom = none) ∧ (c.pending = 0 ∨ ¬due → exec .coalescerMessage s = .next s)

/-- The firmware's packets that do their work at the parse act so. -/
def Obligations.ControlPackets : Prop := Claims.EmptyPackets ∧ Claims.IndirectPacket ∧ Claims.WaitPacket ∧ Claims.TablePackets ∧ Claims.RegionPackets

/-- The packets that begin work act so, and completions. -/
def Obligations.WorkPackets : Prop :=
  Claims.LaunchPackets ∧ Claims.WorkPackets ∧ Claims.FabricPackets ∧ Claims.GangPackets ∧ Claims.Completion ∧ Claims.Coalescing

/-! ## Gangs, shootdowns and the L2 mode -/

/-- The message that goes back to another device. -/
def Claims.replies (s' : State) (dev number cause : Nat) (words : Tab Nat) : Prop :=
  s'.fab.reply = some { dev := dev, num := number, cause := cause, stale := false, words := words }

/-- A pause has failed (R414): it is listed no more, and its packet is a command fault. -/
def Claims.gangFailed (s s' : State) (g : Gang) : Prop :=
  gangFind s' g.number = none ∧ ∀ p, s.packet? g.key = some p → tabGet s'.fw.packets g.key = none ∧ (s'.queue p.queue).halted = true

/-- PROPOSE and CANCEL (R384, R414): another device's proposal is held, from the highest chunk that this device has named on, and answered with that chunk; while another pause of the group is held the answer is BUSY. A cancel
lifts the proposal of its own identifier alone. -/
def Claims.Proposals : Prop :=
  ∀ (s : State) (init number group : Nat), s.argN 0 = init → s.argN 1 = number → s.argN 2 = group → s.host.fatal = false →
    let top := tabGetD 0 s.fab.chunkMax group
    (init ≠ s.dev.devId → (∀ p, tabGet s.fab.pauses group = some p → p.init = init ∧ p.number = number) → ∃ s', exec .propose s = .next s' ∧ sameMem s s' ∧
      tabGet s'.fab.pauses group = some { init := init, number := number, limit := top } ∧ Claims.replies s' init number 0 [(0, top)]) ∧
    (∀ p, init ≠ s.dev.devId → tabGet s.fab.pauses group = some p → (p.init ≠ init ∨ p.number ≠ number) → ∃ s', exec .propose s = .next s' ∧ sameMem s s' ∧ s'.fab.pauses = s.fab.pauses ∧
      Claims.replies s' init number 0x156 [(0, top)]) ∧
    (∀ p, init ≠ s.dev.devId → holdsPause s init number group = some p → p.proposed = true → ∃ s', exec .cancel s = .next s' ∧ tabGet s'.fab.pauses group = none) ∧
    (holdsPause s init number group = none → exec .cancel s = .next s)

/-- PROPOSE_ANSWER and GANG_PAUSE_TIMEOUT (R384, R414): an answer of a member is noted, and the last one gives the chunk at which the gang stops, one more than the highest named; a BUSY, or no answer of a member within the watchdog
interval of the packet's region, fails the pause. -/
def Claims.Answers : Prop :=
  ∀ (s : State) (number : Nat) (g : Gang), s.argN 0 = number → s.host.fatal = false → gangFind s number = some g → g.resume = false → g.limit = none →
    (∀ dev busy top, s.argN 1 = dev → s.argN 2 = busy → s.argN 3 = top → dev ≠ s.dev.devId → dev ∈ g.members → tabGet g.answers dev = none →
      (busy ≠ 1 → let l := tabSet g.answers dev top
        let stop := if l.length = g.members.length then some (l.foldl (fun m a => max m a.2) 0) else none
        ∃ s', exec .proposeAnswer s = .next s' ∧ sameMem s s' ∧ gangFind s' number = some { g with answers := l, limit := stop }) ∧
      (busy = 1 → ∃ s', exec .proposeAnswer s = .next s' ∧ Claims.gangFailed s s' g)) ∧
    (∀ p, s.packet? g.key = some p →
      (g.since + (s.region p.node).wdog * 2000 ≤ s.dev.time → ∃ s', exec .gangPauseTimeout s = .next s' ∧ Claims.gangFailed s s' g) ∧
      (s.dev.time < g.since + (s.region p.node).wdog * 2000 → exec .gangPauseTimeout s = .next s))

/-- PAUSE and QUIESCENCE_REPORT (R384): the chunk and node of another device's pause take effect; once the device is quiescent below the chunk and no team of the node is left in a slot, it reports, once; the last report of another
device ends the packet's work. -/
def Claims.Pausing : Prop :=
  ∀ (s : State), s.host.fatal = false →
    (∀ init number group p, s.argN 0 = init → s.argN 1 = number → s.argN 2 = group → init ≠ s.dev.devId → holdsPause s init number group = some p → p.proposed = true →
      ∃ s', exec .pause s = .next s' ∧ tabGet s'.fab.pauses group = some { p with proposed := false, limit := s.argN 3, node := s.argN 4 }) ∧
    (∀ group p, s.argN 0 = 0 → s.argN 1 = group → tabGet s.fab.pauses group = some p → p.init ≠ s.dev.devId →
      let rest := p.proposed = false ∧ p.quiet = false ∧ quiescent s group p.limit = true ∧ ∀ t ∈ s.teams, t.2.info.node ≠ p.node
      (rest → ∃ s', exec .quiescenceReport s = .next s' ∧ sameMem s s' ∧ tabGet s'.fab.pauses group = some { p with quiet := true } ∧ Claims.replies s' p.init p.number 0 []) ∧
      (¬rest → exec .quiescenceReport s = .next s)) ∧
    (∀ number dev g, s.argN 0 = 1 → s.argN 1 = number → s.argN 2 = dev → dev ≠ s.dev.devId → gangFind s number = some g → g.resume = false → g.limit ≠ none → dev ∈ g.members → dev ∉ g.reports →
      (g.reports.length + 1 < g.members.length → ∃ s', exec .quiescenceReport s = .next s' ∧ sameMem s s' ∧ gangFind s' number = some { g with reports := dev :: g.reports }) ∧
      (g.members.length ≤ g.reports.length + 1 → ∃ s', exec .quiescenceReport s = .next s' ∧ sameMem s s' ∧ gangFind s' number = none ∧ tabGet s'.fab.initiated g.group = some number ∧
        tabGet s'.fw.packets g.key = (tabGet s.fw.packets g.key).map fun p => { p with left := p.left - 1 }))

/-- GANG_RESUME and RESUME_ACKNOWLEDGEMENT (R385, R413): the pause of another device is lifted and acknowledged; the last acknowledgement of another device ends the packet's work. -/
def Claims.Resumes : Prop :=
  ∀ (s : State), s.host.fatal = false →
    (∀ init number group, s.argN 0 = init → s.argN 1 = number → s.argN 2 = group → init ≠ s.dev.devId →
      ∃ s', exec .gangResume s = .next s' ∧ Claims.replies s' init number 0 [] ∧ holdsPause s' init number group = none) ∧
    (∀ number dev g, s.argN 0 = number → s.argN 1 = dev → dev ≠ s.dev.devId → s.fab.gangs.find? (fun g => g.number = number ∧ g.resume) = some g → dev ∈ g.members → dev ∉ g.reports →
      g.members.length ≤ g.reports.length + 1 → ∃ s', exec .resumeAcknowledgement s = .next s' ∧ sameMem s s' ∧ gangFind s' number = none ∧
        tabGet s'.fw.packets g.key = (tabGet s.fw.packets g.key).map fun p => { p with left := p.left - 1 })

/-- SDGO and SHOOTDOWN_COMPLETE (R386, R387): a GO sets BUSY, or REJECTED while one is under way or its range is empty or too high; when it completes, no core's or cluster's buffer holds a covered page, the saved teams of its context
are marked, BUSY clears and the count rises. -/
def Claims.Shootdowns : Prop :=
  ∀ (s : State),
    let d := s.dev.shoot
    let bad := d.busy = true ∨ d.all = false ∧ (d.count = 0 ∨ 2 ^ 57 < d.base + d.count * 0x10000)
    (s.host.fatal = false → s.host.bring.ready = true → ¬bad → ∃ s', exec .sdgo s = .next s' ∧ sameMem s s' ∧ s'.dev.shoot = { d with busy := true, rejected := false }) ∧
    (s.host.fatal = false → s.host.bring.ready = true → bad → ∃ s', exec .sdgo s = .next s' ∧ sameMem s s' ∧ s'.dev.shoot = { d with rejected := true }) ∧
    (s.host.bring.ready = false → exec .sdgo s = .next s) ∧
    (d.busy = true → ∃ s', exec .shootdownComplete s = .next s' ∧ s'.dev.shoot = { d with busy := false, completed := (d.completed + 1) % 2 ^ 32 } ∧
      (∀ c, ∀ e ∈ (s'.core c).tlb, d.covers e.ctx e.leaf.vbase e.leaf.size = false) ∧
      (∀ c, ∀ x ∈ (s'.cluster c).tlb, ∀ e ∈ x.2, d.covers e.ctx e.leaf.vbase e.leaf.size = false) ∧
      ∀ x ∈ s'.fw.saved, x.2.team.info.ctx = d.ctx → x.2.shot = true) ∧
    (d.busy = false → exec .shootdownComplete s = .next s)

/-- L2_MODE_WRITE and L2_MODE_SWITCH_DONE (R391): a write that changes the mode begins a switch; once the cores and engines are at rest it is done: the L2 is empty, and the mode and its partitions are the new ones. -/
def Claims.Modes : Prop :=
  ∀ (s : State),
    (s.host.fatal = false → s.host.bring.ready = true → s.dev.l2Next = none → s.argN 0 % 4 ≠ s.dev.l2Mode →
      ∃ s', exec .l2ModeWrite s = .next s' ∧ sameMem s s' ∧ s'.dev.l2Next = some (s.argN 0 % 4) ∧ s'.dev.l2Mode = s.dev.l2Mode) ∧
    (s.host.bring.ready = false ∨ s.dev.l2Next ≠ none ∨ s.argN 0 % 4 = s.dev.l2Mode → exec .l2ModeWrite s = .next s) ∧
    (∀ v, s.dev.l2Next = some v → atRest s = true → ∃ s', exec .l2ModeSwitchDone s = .next s' ∧ s'.dev.l2 = [] ∧ s'.dev.l2Mode = v ∧
      s'.dev.l2Parts = (if v % 2 = 0 then 1 else if v / 2 % 2 = 0 then 2 else 4) ∧ s'.dev.l2Next = none) ∧
    (s.dev.l2Next = none ∨ atRest s = false → exec .l2ModeSwitchDone s = .next s)

/-- Gang pauses, shootdowns and the L2 mode act so. -/
def Obligations.DeviceWide : Prop := Claims.Proposals ∧ Claims.Answers ∧ Claims.Pausing ∧ Claims.Resumes ∧ Claims.Shootdowns ∧ Claims.Modes

/-! ## Errors and attestation -/

/-- SCRUB (R252, R441 to R445): a corrected error is counted, up to 2³² − 1; an uncorrectable sector is noted; a sector of a wrapped writer has its MASK cleared; the end of a pass clears every such MASK, and LAP of the writers that have not
wrapped since it began. What an access finds elsewhere: an uncorrectable acorn or directory entry is freed, a team whose storage is lost is terminated, and a lost counter's value is free (assumption 24). -/
def Claims.Scrubbing : Prop :=
  ∀ (s : State) (a found : Nat), s.argN 0 = a → s.argN 1 = found →
    let key := 6 * 1024 + relSlice a
    (found = 0 → isHbm a = true → (genOf s (tagAt s a).wid.toNat).lap = false → exec .scrub s = .next s) ∧
    (found = 0 → isHbm a = true → (genOf s (tagAt s a).wid.toNat).lap = true → ∃ s', exec .scrub s = .next s' ∧ sameMem s s' ∧ tagAt s' a = { tagAt s a with mask := 0 }) ∧
    (found = 1 → isHbm a = true → ∃ s', exec .scrub s = .next s' ∧ tabGetD 0 s'.host.errors key = min (tabGetD 0 s.host.errors key + 1) (2 ^ 32 - 1)) ∧
    (found = 2 → isHbm a = true → ∃ s', exec .scrub s = .next s' ∧ a / 64 ∈ s'.dev.bad) ∧
    (found = 3 → ∃ s', exec .scrub s = .next s' ∧ sameMem s s' ∧ (∀ w, w ∉ s.dev.scrubWraps → (genOf s' w).lap = false) ∧ s'.dev.scrubWraps = [] ∧
      ∀ k, (genOf s (tabGetD {} s.dev.tags k).wid.toNat).lap = true → (tabGetD {} s'.dev.tags k).mask = 0) ∧
    (s.host.bring.ready = true → found = 4 → ∃ s', exec .scrub s = .next s' ∧
      let k := s.argN 3 * 1024 + s.argN 4
      tabGetD 0 s'.host.errors k = min (tabGetD 0 s.host.errors k + 1) (2 ^ 32 - 1)) ∧
    (∀ t, s.host.bring.ready = true → found = 5 → s.team? a = some t → ∃ s' u, exec .scrub s = .next s' ∧ s'.team? a = some u ∧ u.terminated = true) ∧
    (s.host.bring.ready = true → found = 6 → ∃ s', exec .scrub s = .next s' ∧ s'.ctr a (s.argN 6 % 256) = Config.lostCounter s.tick) ∧
    (s.host.bring.ready = true → found = 7 → ∃ s', exec .scrub s = .next s' ∧ tabGet (s'.core a).acorns (s.argN 6) = none) ∧
    (s.host.bring.ready = true → found = 8 → ∃ s', exec .scrub s = .next s' ∧ tabGet (s'.core a).dir (s.argN 6) = none)

/-- FATAL_ERROR (R446): the device stops, the husk and its signature are written (shown where no fault record follows them), and HUSKVALID is set; where the write fails it is HUSKERR. A second fatal error does nothing. -/
def Claims.Fatal : Prop :=
  ∀ (s : State),
    (s.host.fatal = true → exec .fatalError s = .next s) ∧
    (s.host.fatal = false → s.argN 1 ≠ 1 → ∃ s', exec .fatalError s = .next s' ∧ s'.host.fatal = true ∧ s'.host.attest = { s.host.attest with huskValid := true } ∧
      (s.host.bring.ready = false →
        let bytes := huskBytes { s with host := { s.host with fatal := true } } (s.argN 0)
        (∀ k, k < 0x55800 → memGet s'.mem (s.host.bring.husk + k) = bytes.getD k 0) ∧ memBytes s'.mem (s.host.bring.husk + 0x55800) 1280 = natLe 1280 (Config.signature bytes))) ∧
    (s.host.fatal = false → s.argN 1 = 1 → ∃ s', exec .fatalError s = .next s' ∧ s'.host.fatal = true ∧ s'.host.attest = { s.host.attest with huskErr := true })

/-- ATTEST_GO and HUSKVALID_CLEAR (R448, R450): GO sets BUSY, or REJECTED while BUSY; the firmware then writes the report, its signature last, clears BUSY, sets DONE and counts it; a write clears HUSKVALID. -/
def Claims.Attestation : Prop :=
  ∀ (s : State),
    let a := s.host.attest
    let put := fun (a : Attest) => { s with host := { s.host with attest := a } }
    (s.host.bring.ready = true → s.argN 0 ≠ 1 → a.busy = false → exec .attestGo s = .next (put { a with busy := true, done := false })) ∧
    (s.host.bring.ready = true → s.argN 0 ≠ 1 → a.busy = true → exec .attestGo s = .next (put { a with rejected := true })) ∧
    (s.argN 0 = 1 → a.busy = true → ∃ s', exec .attestGo s = .next s' ∧ s'.host.attest = { a with busy := false, done := true, count := a.count + 1 } ∧
      memBytes s'.mem (2 ^ 51 + a.report % 2 ^ 51) 1472 = reportBody s ++ natLe 1280 (Config.signature (reportBody s))) ∧
    (s.argN 0 = 1 → a.busy = false → exec .attestGo s = .next s) ∧
    (s.host.bring.ready = true → exec .huskvalidClear s = .next (put { a with huskValid := false })) ∧
    (s.host.bring.ready = false → exec .huskvalidClear s = .next s)

/-! ## Reset, bring-up and the host's side -/

/-- COLD_RESET and WARM (R453): the device returns to its reset state; a cold one leaves host memory, and HBM reads as it does at first; a warm one leaves all of memory, the tags, the noted sectors and HUSKVALID. -/
def Claims.Resets : Prop :=
  ∀ (s : State),
    let as := fun (s' : State) => s'.cur = none ∧ s'.teams = [] ∧ s'.cores = State.reset.cores ∧ s'.clusters = State.reset.clusters ∧ s'.eng = State.reset.eng ∧ s'.fab = State.reset.fab ∧ s'.fw = State.reset.fw
    (∃ s', exec .coldReset s = .next s' ∧ as s' ∧ s'.dev = State.reset.dev ∧ s'.host = State.reset.host ∧
      ∀ k, memGet s'.mem k = if isHost k then memGet s.mem k else memGet [] k) ∧
    (∃ s', exec .warm s = .next s' ∧ as s' ∧ s'.dev = { State.reset.dev with tags := s.dev.tags, bad := s.dev.bad } ∧ sameMem s s' ∧
      s'.host = { State.reset.host with attest := { State.reset.host.attest with huskValid := s.host.attest.huskValid } })

/-- START (R453): where every row of Table 27-3 holds and no two ranges overlap, the device is READY, its ports are up and the route table is as memory has it; else BUERR and the row's code are set. It is ignored when READY, and before FWOK (the
model's choice: assumption 39). -/
def Claims.Start : Prop :=
  ∀ (s : State), let b := s.host.bring
    (b.ready = false → b.fwOk = true → s.host.fatal = false → bringError s = none → ∃ s', exec .start s = .next s' ∧ sameMem s s' ∧
      s'.host.bring = { b with ready := true, buErr := false, code := 0 } ∧ (∀ n, n < 16 → (s'.port n).up = true) ∧
      ∀ n, n < 4096 → tabGetD 0 s'.fab.routes n = memNat s.mem (b.routes + 4 * n) 4) ∧
    (∀ c, b.ready = false → b.fwOk = true → s.host.fatal = false → bringError s = some c → exec .start s = .next { s with host := { s.host with bring := { b with buErr := true, code := c } } }) ∧
    (b.ready = true ∨ b.fwOk = false ∨ s.host.fatal = true → exec .start s = .next s)

/-- DOORBELL and RESTART (R454): a write of WPTR by the queue's producer is taken once the device is READY, and no other; a restart clears the halt. -/
def Claims.Queues : Prop :=
  ∀ (s : State) (n : Nat), s.argN 0 = n → n < 32 → s.host.fatal = false →
    let q := s.queue n
    let heard := s.host.bring.ready = true ∧ q.producer = s.argN 2 ∧ (s.argN 2 = 2 → q.peer = s.argN 3)
    (heard → ∃ s', exec .doorbell s = .next s' ∧ sameMem s s' ∧ s'.queue n = { q with wptr := BitVec.ofNat 32 (s.argN 1) } ∧ ∀ m, m ≠ n → s'.queue m = s.queue m) ∧
    (¬heard → exec .doorbell s = .next s) ∧
    (∃ s', exec .restart s = .next s' ∧ sameMem s s' ∧ s'.queue n = { q with halted := false } ∧ ∀ m, m ≠ n → s'.queue m = s.queue m)

/-- SEMAPHORE_READ, SEMAPHORE_FREE and HOST_LINK_DOWN (R455): a read of a free semaphore takes it, and 1 is read by its holder and 0 by the other; of two ports that read a free one in one cycle, the one that won the last such tie loses. The holder's
write frees it, and a link that goes down frees all that its port holds. -/
def Claims.Semaphores : Prop :=
  ∀ (s : State) (n p : Nat), s.argN 0 = n → s.argN 1 = p → n < 64 → s.host.fatal = false →
    (p < 2 → tabGet s.host.semaphores n = none → ∃ s', exec .semaphoreRead s = .next s' ∧ sameMem s s' ∧ tabGet s'.host.semaphores n = some p ∧ s'.host.readData = 1) ∧
    (∀ h, p < 2 → tabGet s.host.semaphores n = some h → ∃ s', exec .semaphoreRead s = .next s' ∧ sameMem s s' ∧ s'.host.semaphores = s.host.semaphores ∧
      s'.host.readData = if h = p then 1 else 0) ∧
    (p = 2 → tabGet s.host.semaphores n = none → s.host.lastTie < 2 → ∃ s', exec .semaphoreRead s = .next s' ∧ sameMem s s' ∧
      tabGet s'.host.semaphores n = some (1 - s.host.lastTie) ∧ s'.host.lastTie = 1 - s.host.lastTie ∧ s'.host.readData = if s.host.lastTie = 1 then 1 else 2 ^ 64) ∧
    (∀ h, p = 2 → tabGet s.host.semaphores n = some h → ∃ s', exec .semaphoreRead s = .next s' ∧ sameMem s s' ∧ s'.host.semaphores = s.host.semaphores ∧
      s'.host.readData = (if h = 0 then 1 else 0) + 2 ^ 64 * (if h = 1 then 1 else 0)) ∧
    (s.host.bring.ready = true → tabGet s.host.semaphores n = some p → ∃ s', exec .semaphoreFree s = .next s' ∧ sameMem s s' ∧ tabGet s'.host.semaphores n = none) ∧
    (tabGet s.host.semaphores n ≠ some p → exec .semaphoreFree s = .next s) ∧
    (∃ s', exec .hostLinkDown s = .next s' ∧ sameMem s s' ∧ ∀ x, x ∈ s'.host.semaphores ↔ x ∈ s.host.semaphores ∧ x.2 ≠ n)

/-- HOST_INBOUND_ACCESS (R443, R449): a write to HBM stores its bytes and no others, and repairs the noted sectors that it covers; a read returns the bytes where no noted sector is among them. After a fatal error, or outside HBM, nothing happens. -/
def Claims.Inbound : Prop :=
  ∀ (s : State), let pa := s.argN 1
    let n := s.argN 2
    (s.host.fatal = false → pa + n ≤ 0x8000000000 → s.argN 0 = 1 → ∃ s', exec .hostInboundAccess s = .next s' ∧ sameMemBut s s' pa n ∧ memBytes s'.mem pa n = natLe n (s.argN 3) ∧
      ∀ k, pa ≤ 64 * k → 64 * k + 64 ≤ pa + n → k ∉ s'.dev.bad) ∧
    (s.host.fatal = false → pa + n ≤ 0x8000000000 → s.argN 0 ≠ 1 → (∀ k, k < n → (pa + k) / 64 ∉ s.dev.bad) → ∃ s', exec .hostInboundAccess s = .next s' ∧ sameMem s s' ∧
      s'.host.readData = leNat (memBytes s.mem pa n)) ∧
    (s.host.fatal = true ∨ 0x8000000000 < pa + n → exec .hostInboundAccess s = .next s)

/-- The bring-up registers of 64 bits (Table 27-3). -/
def Claims.bringUp (off : Nat) : Prop := off = 0x1000 ∨ off = 0x1008 ∨ off = 0x1010 ∨ off = 0x1018 ∨ off = 0x1028 ∨ (0x1800 ≤ off ∧ off < 0x2800 ∧ off % 8 = 0)

/-- REGISTER_WRITE (R386, R448, R450, R452, R454, R456): a bring-up register reads back as it was written before READY, and no other register of the aperture changes; once READY it is locked. A queue's configure registers take their fields before
READY, or while the queue is halted and empty; the shootdown block's operands while it is not busy; a nonce, after a fatal error too; and an island's cap. -/
def Claims.Registers : Prop :=
  ∀ (s : State) (off : Nat), s.argN 0 = off → let v := s.argN 1 % 2 ^ 64
    (Claims.bringUp off → s.host.fatal = false → s.host.bring.ready = false → ∃ s', exec .registerWrite s = .next s' ∧ sameMem s s' ∧ registerRead s' off = v ∧
      ∀ o, o ≠ off → registerRead s' o = registerRead s o) ∧
    (Claims.bringUp off → s.host.bring.ready = true → exec .registerWrite s = .next s) ∧
    (off % 8 ≠ 0 → exec .registerWrite s = .next s) ∧
    (∀ n, n < 32 → s.host.fatal = false → let q := s.queue n
      ((s.host.bring.ready = false ∨ q.halted = true ∧ q.rptr = q.wptr) →
        (off = 0x10000 + 0x40 * n + 0x18 → ∃ s', exec .registerWrite s = .next s' ∧ sameMem s s' ∧ s'.queue n = { q with base := v / 64 * 64 }) ∧
        (off = 0x10000 + 0x40 * n + 0x20 → ∃ s', exec .registerWrite s = .next s' ∧ sameMem s s' ∧ s'.queue n =
          { q with slots := v % 2 ^ 17, node := v / 2 ^ 32 % 2 ^ 10, producer := v / 2 ^ 48 % 4 }) ∧
        (off = 0x10000 + 0x40 * n + 0x28 → ∃ s', exec .registerWrite s = .next s' ∧ sameMem s s' ∧ s'.queue n = { q with peer := v % 2 ^ 12 })) ∧
      (s.host.bring.ready = true → (q.halted = false ∨ q.rptr ≠ q.wptr) → off / 0x40 = 0x10000 / 0x40 + n → exec .registerWrite s = .next s)) ∧
    (s.host.fatal = false → s.host.bring.ready = true → s.dev.shoot.busy = false → let d := s.dev.shoot
      (off = 0x30000 → exec .registerWrite s = .next { s with dev := { s.dev with shoot := { d with ctx := v % 2 ^ 12, all := decide (v / 2 ^ 16 % 2 = 1) } } }) ∧
      (off = 0x30008 → exec .registerWrite s = .next { s with dev := { s.dev with shoot := { d with base := v / 2 ^ 16 % 2 ^ 41 * 2 ^ 16 } } }) ∧
      (off = 0x30010 → exec .registerWrite s = .next { s with dev := { s.dev with shoot := { d with count := v % 2 ^ 32 } } })) ∧
    (∀ k, k < 4 → off = 0x32000 + 8 * k → s.host.bring.ready = true → ∃ s', exec .registerWrite s = .next s' ∧ sameMem s s' ∧ registerRead s' off = v) ∧
    (∀ n, n < 16 → off = 0x40000 + 0x40 * n → s.host.fatal = false → ∃ s', exec .registerWrite s = .next s' ∧ sameMem s s' ∧ s'.island n = { s.island n with cap := v % 2 ^ 16 })

/-- ISLAND_CLOCK_DOWN, ISLAND_CLOCK_UP, CLUSTER_GATE and CLUSTER_UNGATE (R456, R457): above its cap an island's clock falls by a step, not below the lowest; below 95 % of it the clock rises by a step, not above the nominal one. The clusters of an idle core
island lose their power, with their buffers and L1s and nothing else of their cores; those of a busy one do not. -/
def Claims.Power : Prop :=
  ∀ (s : State) (n : Nat), s.argN 0 = n →
    let i := s.island n
    let p := s.argN 1
    let down := if islandCap s n < p ∧ lowestClock n + 100 * (i.below + 1) ≤ nominalClock n then i.below + 1 else i.below
    let up := if 100 * p < 95 * islandCap s n then i.below - 1 else i.below
    (n < 16 → ∃ s', exec .islandClockDown s = .next s' ∧ sameMem s s' ∧ s'.island n = { i with power := p % 2 ^ 16, below := down }) ∧
    (n < 16 → ∃ s', exec .islandClockUp s = .next s' ∧ sameMem s s' ∧ s'.island n = { i with power := p % 2 ^ 16, below := up }) ∧
    (let idle := ∀ k ∈ islandClusters n, ∀ c, c < 8 → coreIdle s (8 * k + c) = true
     (isCoreIsland n = true → idle → ∃ s', exec .clusterGate s = .next s' ∧ sameMem s s' ∧ s'.teams = s.teams ∧
       (∀ k ∈ islandClusters n, (s'.cluster k).gated = true ∧ (s'.cluster k).tlb = [] ∧ (s'.cluster k).filter = (s.cluster k).filter) ∧
       (∀ k, k ∉ islandClusters n → s'.cluster k = s.cluster k) ∧
       ∀ c, (s'.core c).ctrs = (s.core c).ctrs ∧ (s'.core c).acorns = (s.core c).acorns ∧ (s'.core c).dir = (s.core c).dir ∧ (s'.core c).handlers = (s.core c).handlers) ∧
     (isCoreIsland n = false ∨ ¬idle → exec .clusterGate s = .next s)) ∧
    (isCoreIsland n = true → ∃ s', exec .clusterUngate s = .next s' ∧ sameMem s s' ∧ s'.cores = s.cores ∧ (∀ k ∈ islandClusters n, (s'.cluster k).gated = false) ∧
      ∀ k, k ∉ islandClusters n → s'.cluster k = s.cluster k)

/-- Errors, attestation and resets act so. -/
def Obligations.Reliability : Prop := Claims.Scrubbing ∧ Claims.Fatal ∧ Claims.Attestation ∧ Claims.Resets

/-- The host's side acts so. -/
def Obligations.HostSide : Prop := Claims.Start ∧ Claims.Queues ∧ Claims.Semaphores ∧ Claims.Inbound ∧ Claims.Registers ∧ Claims.Power

/-! ## Statements of several parts -/

/-- What reset leaves, and the time base from 0 at each reset. -/
def Obligations.ResetState : Prop := Claims.ResetState ∧ Claims.TimeBase

/-- Arithmetic, logic, shifts, bit fields and division of the A-stream: results, causes and frame. -/
def Obligations.AddressArithmetic : Prop := Claims.AluTwoSource ∧ Claims.AluOneSource ∧ Claims.Division

/-- BR, BRN and LOOP branch as R99 says, and the ends of the A-stream. -/
def Obligations.AddressBranches : Prop := Claims.AddressBranches ∧ Claims.AddressEnd

/-- CALL, CALLI and RET of the A-stream, their causes, windows that nest, and spill headers. -/
def Obligations.CallsAndWindows : Prop := Claims.AddressCalls ∧ Claims.CallCauses ∧ Claims.WindowsNest ∧ Claims.SpillHeader

/-- SRR and SRW: what is read and written, and their causes. -/
def Obligations.SystemRegisters : Prop := Claims.SystemRead ∧ Claims.SystemWrite ∧ Claims.SystemCauses

/-- What taking a trap saves, what CAUSE holds, and where the stream goes on. -/
def Obligations.TrapTaken : Prop := Claims.TrapTaken ∧ Claims.CauseFields

/-- A cause that cannot be taken terminates the team; pending causes are raised with IMP set. -/
def Obligations.TrapTerminates : Prop := Claims.TrapTerminates ∧ Claims.PendingRaised

/-- TRAP raises 0x021, and TRET returns to TRAPPC. -/
def Obligations.TrapReturn : Prop := Claims.TrapInstruction ∧ Claims.TrapReturn

/-- NOP and the hints, and words that are no instruction. -/
def Obligations.HintsAndNop : Prop := Claims.HintsAndNop ∧ Claims.NoInstruction

/-- LDS and STS: the value loaded, the bytes stored, and no others. -/
def Obligations.ScalarAccess : Prop := Claims.LoadScalar ∧ Claims.StoreScalar

/-- LDQ, GATHQ, STQ and SCATQ: entries, bytes stored, and frame. -/
def Obligations.QueueMemory : Prop := Claims.QueueLoads ∧ Claims.QueueStores

/-- QPUSH of the A-stream, and how entries join and leave the queues. -/
def Obligations.QueueEntries : Prop := Claims.QueuePush ∧ Claims.QueueEnds

/-- ATOMQ, AGGADD and AGGADD.ONE: lanes in order, old values, and frame. -/
def Obligations.AtomicLanes : Prop := Claims.AtomicLanes ∧ Claims.AtomicAggregate

/-- The operands of a lane instruction: registers, specials, constants and queues. -/
def Obligations.LaneOperands : Prop := Claims.LaneOperands ∧ Claims.LaneQueueOperand

/-- Integer arithmetic, logic, shifts and bit fields of the E-stream. -/
def Obligations.LaneIntegers : Prop := Claims.LaneIntegers ∧ Claims.LaneBits ∧ Claims.LaneFunnelShift

/-- LI, SEL, CMP and FCMP of the E-stream. -/
def Obligations.LaneCompares : Prop := Claims.LaneSelectLoad ∧ Claims.LaneCompares

/-- Conversions and function seeds of the E-stream. -/
def Obligations.LaneConversions : Prop := Claims.LaneSeeds ∧ Claims.LaneConversions

/-- Votes, shuffles, reductions, scans and ARGM of the E-stream. -/
def Obligations.CrossLanes : Prop := Claims.CrossLanes ∧ Claims.ArgWinner

/-- LDC, LDX, LDX.RING, STX and STX.RING: values, bytes stored, causes and frame. -/
def Obligations.LaneMemory : Prop := Claims.LaneLoads ∧ Claims.LaneStores ∧ Claims.RingStore

/-- MERGE.ARM and MERGE, and the end of lanes. -/
def Obligations.MergingAndEnd : Prop := Claims.Merging ∧ Claims.LanesEnd

/-- Lattice commands join the queue once checked; their causes. -/
def Obligations.LatticeCommands : Prop := Claims.LatticeCommands ∧ Claims.LatticeCauses

/-- AMALLOC, AMFREE, MWAIT and AMRD. -/
def Obligations.AccumulatorTiles : Prop := Claims.AccumulatorTiles ∧ Claims.ReadAccumulator

/-- STASH.MAP, UNMAP and CLEAN, and the L2 way masks. -/
def Obligations.StashMaps : Prop := Claims.StashMaps ∧ Claims.WayMasks

/-- FENCE and PUBLISH. -/
def Obligations.FencesAndPublication : Prop := Claims.Fences ∧ Claims.Publication

/-- CPY, CPYM and CPYR, and what they meet instead. -/
def Obligations.Copies : Prop := Claims.Copies ∧ Claims.CopyCauses

/-- CPSEAL, CPWAIT and STRM. -/
def Obligations.BatchesAndStreams : Prop := Claims.Batches ∧ Claims.StreamRecords

/-- The engines of task rings, and the deliveries of solicits and censuses. -/
def Obligations.TaskAndSolicitEngines : Prop := Claims.TaskEngines ∧ Claims.SolicitSteps
end

