-- ==== Sys2Proof/Laws/Bits.lean ====
section
/-!
SUPPORT. Laws/Bits.lean: fields of words written segment by segment.
-/
namespace Sys2Proof

/-- A field above a segment is a field of what stands above it. -/
theorem extract_high {n m : Nat} (x : BitVec n) (y : BitVec m) (s l : Nat) (h : m ≤ s) :
    (x ++ y).extractLsb' s l = x.extractLsb' (s - m) l := by
  ext i hi
  simp only [BitVec.getElem_extractLsb', BitVec.getLsbD_append]
  rw [if_neg (by omega)]
  congr 1; omega

/-- A field within the lowest segment is a field of it. -/
theorem extract_low {n m : Nat} (x : BitVec n) (y : BitVec m) (s l : Nat) (h : s + l ≤ m) :
    (x ++ y).extractLsb' s l = y.extractLsb' s l := by
  ext i hi
  simp only [BitVec.getElem_extractLsb', BitVec.getLsbD_append]
  rw [if_pos (by omega)]

end Sys2Proof
end

