-- ==== Sys2Proof/Laws/Tab.lean ====
section
/-!
SUPPORT. Laws/Tab.lean: reading and writing the association lists of State, and their canonical form.
-/
namespace Sys2Proof.Machine

/-- A value written for a key is read back. -/
@[simp] theorem tabGet_tabSet_same {α : Type} (t : Tab α) (n : Nat) (x : α) : tabGet (tabSet t n x) n = some x := by
  induction t with
  | nil => simp [tabSet, tabGet]
  | cons p t ih =>
    obtain ⟨k, v⟩ := p
    by_cases hk : k = n
    · simp [tabSet, tabGet, hk]
    · by_cases hn : n < k
      · simp [tabSet, tabGet, hk, hn]
      · simp [tabSet, tabGet, hk, hn, ih]

/-- A write for one key leaves every other key alone. -/
theorem tabGet_tabSet_other {α : Type} (t : Tab α) {n m : Nat} (x : α) (h : m ≠ n) : tabGet (tabSet t n x) m = tabGet t m := by
  induction t with
  | nil => simp [tabSet, tabGet, Ne.symm h]
  | cons p t ih =>
    obtain ⟨k, v⟩ := p
    by_cases hk : k = n
    · subst hk
      simp [tabSet, tabGet, Ne.symm h]
    · by_cases hn : n < k
      · simp [tabSet, tabGet, hk, hn, Ne.symm h]
      · simp [tabSet, tabGet, hk, hn, ih]

/-- The last of two writes for a key stands. -/
@[simp] theorem tabSet_tabSet {α : Type} (t : Tab α) (n : Nat) (x y : α) : tabSet (tabSet t n x) n y = tabSet t n y := by
  induction t with
  | nil => simp [tabSet]
  | cons p t ih =>
    obtain ⟨k, v⟩ := p
    by_cases hk : k = n
    · simp [tabSet, hk]
    · by_cases hn : n < k
      · simp [tabSet, hk, hn]
      · simp [tabSet, hk, hn, ih]

/-- Changing a key just written changes what was written. -/
@[simp] theorem tabMod_tabSet_same {α : Type} (t : Tab α) (n : Nat) (x : α) (f : α → α) :
    tabMod (tabSet t n x) n f = tabSet t n (f x) := by
  simp [tabMod]

/-- A change of one key leaves every other key alone. -/
theorem tabGet_tabMod_other {α : Type} (t : Tab α) {n m : Nat} (f : α → α) (h : m ≠ n) :
    tabGet (tabMod t n f) m = tabGet t m := by
  unfold tabMod
  split
  · exact tabGet_tabSet_other t _ h
  · rfl

/-- A changed key reads as the change of what it read. -/
@[simp] theorem tabGet_tabMod_same {α : Type} (t : Tab α) (n : Nat) (f : α → α) :
    tabGet (tabMod t n f) n = (tabGet t n).map f := by
  unfold tabMod
  split <;> simp_all

/-- A deleted key is not listed. -/
@[simp] theorem tabGet_tabDel_same {α : Type} (t : Tab α) (n : Nat) : tabGet (tabDel t n) n = none := by
  induction t with
  | nil => rfl
  | cons p t ih => obtain ⟨k, v⟩ := p; by_cases hk : k = n <;> simp [tabDel, tabGet, hk, ih]

/-- A deletion leaves every other key alone. -/
theorem tabGet_tabDel_other {α : Type} (t : Tab α) {n m : Nat} (h : m ≠ n) : tabGet (tabDel t n) m = tabGet t m := by
  induction t with
  | nil => rfl
  | cons p t ih =>
    obtain ⟨k, v⟩ := p
    by_cases hk : k = n
    · subst hk; simp [tabDel, tabGet, Ne.symm h, ih]
    · simp [tabDel, tabGet, hk, ih]

/-- A value set in a table with a default is read back. -/
@[simp] theorem tabGetD_tabSetD_same {α : Type} [DecidableEq α] (d : α) (t : Tab α) (n : Nat) (x : α) :
    tabGetD d (tabSetD d t n x) n = x := by
  unfold tabSetD tabGetD
  split <;> simp [*]

/-- A value set in a table with a default leaves every other key alone. -/
theorem tabGetD_tabSetD_other {α : Type} [DecidableEq α] (d : α) (t : Tab α) {n m : Nat} (x : α) (h : m ≠ n) :
    tabGetD d (tabSetD d t n x) m = tabGetD d t m := by
  unfold tabSetD tabGetD
  split
  · rw [tabGet_tabDel_other t h]
  · rw [tabGet_tabSet_other t x h]

/-! ## The canonical form -/

/-- The tail of a sorted table is sorted. -/
theorem tabSorted_tail {α : Type} {p : Nat × α} {t : Tab α} (h : tabSorted (p :: t) = true) : tabSorted t = true := by
  cases t with
  | nil => rfl
  | cons q t => obtain ⟨a, x⟩ := p; obtain ⟨b, y⟩ := q; simp_all [tabSorted]

/-- The head of a sorted table lies below the head of its tail. -/
theorem tabSorted_head {α : Type} {p : Nat × α} {t : Tab α} (h : tabSorted (p :: t) = true) : ∀ q ∈ t.head?, p.1 < q.1 := by
  cases t with
  | nil => simp
  | cons q t => obtain ⟨a, x⟩ := p; obtain ⟨b, y⟩ := q; simp_all [tabSorted]

/-- A pair before a sorted table whose head lies above it. -/
theorem tabSorted_cons {α : Type} {p : Nat × α} {t : Tab α} (hp : ∀ q ∈ t.head?, p.1 < q.1) (ht : tabSorted t = true) :
    tabSorted (p :: t) = true := by
  cases t with
  | nil => rfl
  | cons q t => obtain ⟨a, x⟩ := p; obtain ⟨b, y⟩ := q; simp_all [tabSorted]

/-- The head of a table after a write is the key written or the old head. -/
theorem tabSet_head {α : Type} (t : Tab α) (n : Nat) (x : α) :
    ∀ q ∈ (tabSet t n x).head?, q.1 = n ∨ ∃ r ∈ t.head?, q.1 = r.1 := by
  cases t with
  | nil => simp [tabSet]
  | cons p t =>
    obtain ⟨k, v⟩ := p
    unfold tabSet
    split
    · simp
    · split <;> simp

/-- A write keeps a table sorted. -/
theorem tabSorted_tabSet {α : Type} (t : Tab α) (n : Nat) (x : α) (h : tabSorted t = true) : tabSorted (tabSet t n x) = true := by
  induction t with
  | nil => rfl
  | cons p t ih =>
    obtain ⟨k, v⟩ := p
    have ht := tabSorted_tail h
    have hh := tabSorted_head h
    by_cases hk : k = n
    · subst hk
      simpa [tabSet] using tabSorted_cons (p := (k, x)) (by simpa using hh) ht
    · by_cases hn : n < k
      · simpa [tabSet, hk, hn] using tabSorted_cons (p := (n, x)) (t := (k, v) :: t) (by simpa using hn) h
      · simp only [tabSet, if_neg hk, if_neg hn]
        refine tabSorted_cons (fun q hq => ?_) (ih ht)
        obtain hq | ⟨r, hr, hq⟩ := tabSet_head t n x q hq
        · simp only [hq]; omega
        · rw [hq]; exact hh r hr

/-- A deletion lists nothing new. -/
theorem mem_tabDel {α : Type} (t : Tab α) (n : Nat) {p : Nat × α} (h : p ∈ tabDel t n) : p ∈ t := by
  induction t with
  | nil => simp [tabDel] at h
  | cons q t ih =>
    obtain ⟨k, v⟩ := q
    unfold tabDel at h
    split at h
    · exact List.mem_cons_of_mem _ (ih h)
    · rcases List.mem_cons.1 h with h | h
      · simp [h]
      · exact List.mem_cons_of_mem _ (ih h)

/-- Every key of the tail of a sorted table lies above its head's. -/
theorem tabSorted_all {α : Type} (t : Tab α) : ∀ {p : Nat × α}, tabSorted (p :: t) = true → ∀ q ∈ t, p.1 < q.1 := by
  induction t with
  | nil => simp
  | cons r t ih =>
    intro p h q hq
    have hr := tabSorted_head h r (by simp)
    rcases List.mem_cons.1 hq with rfl | hq
    · exact hr
    · exact Nat.lt_trans hr (ih (tabSorted_tail h) q hq)

/-- A deletion keeps a table sorted. -/
theorem tabSorted_tabDel {α : Type} (t : Tab α) (n : Nat) (h : tabSorted t = true) : tabSorted (tabDel t n) = true := by
  induction t with
  | nil => rfl
  | cons p t ih =>
    obtain ⟨k, v⟩ := p
    have ht := tabSorted_tail h
    unfold tabDel
    split
    · exact ih ht
    · refine tabSorted_cons (fun q hq => ?_) (ih ht)
      exact tabSorted_all t h q (mem_tabDel t n (List.mem_of_mem_head? hq))

/-- Setting a value keeps a table sorted. -/
theorem tabSorted_tabSetD {α : Type} [DecidableEq α] (d : α) (t : Tab α) (n : Nat) (x : α) (h : tabSorted t = true) :
    tabSorted (tabSetD d t n x) = true := by
  unfold tabSetD
  split
  · exact tabSorted_tabDel t n h
  · exact tabSorted_tabSet t n x h

/-- A listed pair of a table after a write is the one written or one of the old. -/
theorem mem_tabSet {α : Type} (t : Tab α) (n : Nat) (x : α) {p : Nat × α} (h : p ∈ tabSet t n x) : p = (n, x) ∨ p ∈ t := by
  induction t with
  | nil => simpa [tabSet] using h
  | cons q t ih =>
    obtain ⟨k, v⟩ := q
    unfold tabSet at h
    split at h
    · rcases List.mem_cons.1 h with h | h <;> simp [h]
    · split at h
      · rcases List.mem_cons.1 h with h | h
        · exact .inl h
        · exact .inr h
      · rcases List.mem_cons.1 h with h | h
        · exact .inr (by simp [h])
        · exact (ih h).imp id fun h => List.mem_cons_of_mem _ h

/-! ## Memory -/

/-- Writing a byte keeps memory canonical. -/
theorem memPut_wf (m : List Host.Cell) (a : Nat) (b : Byte) (h : Memory.wf m = true) : Memory.wf (memPut m a b) = true := by
  simp only [Memory.wf, Bool.and_eq_true, List.all_eq_true] at h ⊢
  refine ⟨tabSorted_tabSetD 0 m a b h.1, fun c hc => ?_⟩
  unfold memPut tabSetD at hc
  split at hc
  · exact h.2 c (mem_tabDel m a hc)
  · rcases mem_tabSet m a b hc with rfl | hc
    · simpa using ‹¬ b = 0›
    · exact h.2 c hc

/-- Writing bytes keeps memory canonical. -/
theorem memWrite_wf (bs : List Byte) : ∀ (m : List Host.Cell) (a : Nat), Memory.wf m = true → Memory.wf (memWrite m a bs) = true := by
  induction bs with
  | nil => exact fun m a h => h
  | cons b bs ih => exact fun m a h => ih _ _ (memPut_wf m a b h)

/-- A written byte is read back. -/
@[simp] theorem memGet_memPut_same (m : List Host.Cell) (a : Nat) (b : Byte) : memGet (memPut m a b) a = b :=
  tabGetD_tabSetD_same 0 m a b

/-- A write of a byte leaves every other byte alone. -/
theorem memGet_memPut_other (m : List Host.Cell) {a c : Nat} (b : Byte) (h : c ≠ a) : memGet (memPut m a b) c = memGet m c :=
  tabGetD_tabSetD_other 0 m b h

/-- A write of bytes leaves the bytes below and above it alone. -/
theorem memGet_memWrite_outside (bs : List Byte) : ∀ (m : List Host.Cell) (a c : Nat),
    (c < a ∨ a + bs.length ≤ c) → memGet (memWrite m a bs) c = memGet m c := by
  induction bs with
  | nil => exact fun _ _ _ _ => rfl
  | cons b bs ih =>
    intro m a c hc
    simp only [List.length_cons] at hc
    rw [memWrite, ih _ _ _ (by omega), memGet_memPut_other m b (by omega)]

/-- A write of bytes is read back. -/
theorem memGet_memWrite_inside (bs : List Byte) : ∀ (m : List Host.Cell) (a k : Nat),
    (hk : k < bs.length) → memGet (memWrite m a bs) (a + k) = bs[k] := by
  induction bs with
  | nil => exact fun _ _ k hk => absurd hk (Nat.not_lt_zero k)
  | cons b bs ih =>
    intro m a k hk
    cases k with
    | zero =>
      rw [memWrite, memGet_memWrite_outside bs _ _ _ (by omega)]
      simp
    | succ k =>
      have := ih (memPut m a b) (a + 1) k (by simpa using hk)
      simpa [memWrite, Nat.add_assoc, Nat.add_comm 1 k] using this

/-- The bytes just written are those read. -/
theorem memBytes_memWrite (bs : List Byte) (m : List Host.Cell) (a : Nat) : memBytes (memWrite m a bs) a bs.length = bs := by
  have key : ∀ (n k : Nat), k + n = bs.length → memBytes (memWrite m a bs) (a + k) n = bs.drop k := by
    intro n
    induction n with
    | zero => intro k hk; simp [memBytes]; omega
    | succ n ih =>
      intro k hk
      have hlt : k < bs.length := by omega
      rw [memBytes, memGet_memWrite_inside bs m a k hlt, Nat.add_assoc, ih (k + 1) (by omega), List.drop_eq_getElem_cons hlt]
  simpa using key bs.length 0 (by simp)

end Sys2Proof.Machine
end

