-- ==== Sys2Proof/Laws/State.lean ====
section
/-!
SUPPORT. Laws/State.lean: what each named update of State and Team leaves in each of its parts.
-/
namespace Sys2Proof.Machine

/-! ## The parts of a state after the replacement of a team, a core or a cluster -/

@[simp] theorem State.setTeam_mem (s : State) (w : Nat) (t : Team) : (s.setTeam w t).mem = s.mem := rfl
@[simp] theorem State.setTeam_tick (s : State) (w : Nat) (t : Team) : (s.setTeam w t).tick = s.tick := rfl
@[simp] theorem State.setTeam_cur (s : State) (w : Nat) (t : Team) : (s.setTeam w t).cur = s.cur := rfl
@[simp] theorem State.setTeam_arg (s : State) (w : Nat) (t : Team) : (s.setTeam w t).arg = s.arg := rfl
@[simp] theorem State.setTeam_agenda (s : State) (w : Nat) (t : Team) : (s.setTeam w t).agenda = s.agenda := rfl
@[simp] theorem State.setTeam_cores (s : State) (w : Nat) (t : Team) : (s.setTeam w t).cores = s.cores := rfl
@[simp] theorem State.setTeam_clusters (s : State) (w : Nat) (t : Team) : (s.setTeam w t).clusters = s.clusters := rfl
@[simp] theorem State.setTeam_dev (s : State) (w : Nat) (t : Team) : (s.setTeam w t).dev = s.dev := rfl
@[simp] theorem State.setTeam_eng (s : State) (w : Nat) (t : Team) : (s.setTeam w t).eng = s.eng := rfl
@[simp] theorem State.setTeam_fab (s : State) (w : Nat) (t : Team) : (s.setTeam w t).fab = s.fab := rfl
@[simp] theorem State.setTeam_fw (s : State) (w : Nat) (t : Team) : (s.setTeam w t).fw = s.fw := rfl
@[simp] theorem State.setTeam_host (s : State) (w : Nat) (t : Team) : (s.setTeam w t).host = s.host := rfl
@[simp] theorem State.modTeam_mem (s : State) (w : Nat) (g : Team → Team) : (s.modTeam w g).mem = s.mem := rfl
@[simp] theorem State.modTeam_tick (s : State) (w : Nat) (g : Team → Team) : (s.modTeam w g).tick = s.tick := rfl
@[simp] theorem State.modTeam_cur (s : State) (w : Nat) (g : Team → Team) : (s.modTeam w g).cur = s.cur := rfl
@[simp] theorem State.modTeam_arg (s : State) (w : Nat) (g : Team → Team) : (s.modTeam w g).arg = s.arg := rfl
@[simp] theorem State.modTeam_agenda (s : State) (w : Nat) (g : Team → Team) : (s.modTeam w g).agenda = s.agenda := rfl
@[simp] theorem State.modTeam_cores (s : State) (w : Nat) (g : Team → Team) : (s.modTeam w g).cores = s.cores := rfl
@[simp] theorem State.modTeam_clusters (s : State) (w : Nat) (g : Team → Team) : (s.modTeam w g).clusters = s.clusters := rfl
@[simp] theorem State.modTeam_dev (s : State) (w : Nat) (g : Team → Team) : (s.modTeam w g).dev = s.dev := rfl
@[simp] theorem State.modTeam_eng (s : State) (w : Nat) (g : Team → Team) : (s.modTeam w g).eng = s.eng := rfl
@[simp] theorem State.modTeam_fab (s : State) (w : Nat) (g : Team → Team) : (s.modTeam w g).fab = s.fab := rfl
@[simp] theorem State.modTeam_fw (s : State) (w : Nat) (g : Team → Team) : (s.modTeam w g).fw = s.fw := rfl
@[simp] theorem State.modTeam_host (s : State) (w : Nat) (g : Team → Team) : (s.modTeam w g).host = s.host := rfl
@[simp] theorem State.setCore_mem (s : State) (c : Nat) (k : Core) : (s.setCore c k).mem = s.mem := rfl
@[simp] theorem State.setCore_tick (s : State) (c : Nat) (k : Core) : (s.setCore c k).tick = s.tick := rfl
@[simp] theorem State.setCore_cur (s : State) (c : Nat) (k : Core) : (s.setCore c k).cur = s.cur := rfl
@[simp] theorem State.setCore_arg (s : State) (c : Nat) (k : Core) : (s.setCore c k).arg = s.arg := rfl
@[simp] theorem State.setCore_agenda (s : State) (c : Nat) (k : Core) : (s.setCore c k).agenda = s.agenda := rfl
@[simp] theorem State.setCore_teams (s : State) (c : Nat) (k : Core) : (s.setCore c k).teams = s.teams := rfl
@[simp] theorem State.setCore_clusters (s : State) (c : Nat) (k : Core) : (s.setCore c k).clusters = s.clusters := rfl
@[simp] theorem State.setCore_dev (s : State) (c : Nat) (k : Core) : (s.setCore c k).dev = s.dev := rfl
@[simp] theorem State.setCore_eng (s : State) (c : Nat) (k : Core) : (s.setCore c k).eng = s.eng := rfl
@[simp] theorem State.setCore_fab (s : State) (c : Nat) (k : Core) : (s.setCore c k).fab = s.fab := rfl
@[simp] theorem State.setCore_fw (s : State) (c : Nat) (k : Core) : (s.setCore c k).fw = s.fw := rfl
@[simp] theorem State.setCore_host (s : State) (c : Nat) (k : Core) : (s.setCore c k).host = s.host := rfl
@[simp] theorem State.setCluster_mem (s : State) (c : Nat) (k : Cluster) : (s.setCluster c k).mem = s.mem := rfl
@[simp] theorem State.setCluster_tick (s : State) (c : Nat) (k : Cluster) : (s.setCluster c k).tick = s.tick := rfl
@[simp] theorem State.setCluster_cur (s : State) (c : Nat) (k : Cluster) : (s.setCluster c k).cur = s.cur := rfl
@[simp] theorem State.setCluster_arg (s : State) (c : Nat) (k : Cluster) : (s.setCluster c k).arg = s.arg := rfl
@[simp] theorem State.setCluster_agenda (s : State) (c : Nat) (k : Cluster) : (s.setCluster c k).agenda = s.agenda := rfl
@[simp] theorem State.setCluster_teams (s : State) (c : Nat) (k : Cluster) : (s.setCluster c k).teams = s.teams := rfl
@[simp] theorem State.setCluster_cores (s : State) (c : Nat) (k : Cluster) : (s.setCluster c k).cores = s.cores := rfl
@[simp] theorem State.setCluster_dev (s : State) (c : Nat) (k : Cluster) : (s.setCluster c k).dev = s.dev := rfl
@[simp] theorem State.setCluster_eng (s : State) (c : Nat) (k : Cluster) : (s.setCluster c k).eng = s.eng := rfl
@[simp] theorem State.setCluster_fab (s : State) (c : Nat) (k : Cluster) : (s.setCluster c k).fab = s.fab := rfl
@[simp] theorem State.setCluster_fw (s : State) (c : Nat) (k : Cluster) : (s.setCluster c k).fw = s.fw := rfl
@[simp] theorem State.setCluster_host (s : State) (c : Nat) (k : Cluster) : (s.setCluster c k).host = s.host := rfl

/-- A team put into a slot is found there. -/
@[simp] theorem State.setTeam_team?_same (s : State) (w : Nat) (t : Team) : (s.setTeam w t).team? w = some t :=
  tabGet_tabSet_same _ _ _

/-- The other slots keep their teams. -/
theorem State.setTeam_team?_other (s : State) {w v : Nat} (t : Team) (h : v ≠ w) : (s.setTeam w t).team? v = s.team? v :=
  tabGet_tabSet_other _ _ h

/-- The last team put into a slot stands. -/
@[simp] theorem State.setTeam_setTeam (s : State) (w : Nat) (t u : Team) : (s.setTeam w t).setTeam w u = s.setTeam w u := by
  simp [State.setTeam]

/-- Changing a team just put into its slot. -/
@[simp] theorem State.modTeam_setTeam (s : State) (w : Nat) (t : Team) (g : Team → Team) :
    (s.setTeam w t).modTeam w g = s.setTeam w (g t) := by
  simp [State.setTeam, State.modTeam]

/-- A changed team is found changed. -/
@[simp] theorem State.modTeam_team?_same (s : State) (w : Nat) (g : Team → Team) :
    (s.modTeam w g).team? w = (s.team? w).map g := by
  simp [State.modTeam, State.team?]

/-- The other slots keep their teams. -/
theorem State.modTeam_team?_other (s : State) {w v : Nat} (g : Team → Team) (h : v ≠ w) : (s.modTeam w g).team? v = s.team? v :=
  tabGet_tabMod_other _ _ h

@[simp] theorem State.setCore_core_same (s : State) (c : Nat) (k : Core) : (s.setCore c k).core c = k :=
  tabGetD_tabSetD_same _ _ _ _

theorem State.setCore_core_other (s : State) {c d : Nat} (k : Core) (h : d ≠ c) : (s.setCore c k).core d = s.core d :=
  tabGetD_tabSetD_other _ _ _ h

@[simp] theorem State.setTeam_core (s : State) (w : Nat) (t : Team) (c : Nat) : (s.setTeam w t).core c = s.core c := rfl
@[simp] theorem State.modTeam_core (s : State) (w : Nat) (g : Team → Team) (c : Nat) : (s.modTeam w g).core c = s.core c := rfl
@[simp] theorem State.setTeam_cluster (s : State) (w : Nat) (t : Team) (c : Nat) : (s.setTeam w t).cluster c = s.cluster c := rfl
@[simp] theorem State.setCore_team? (s : State) (c : Nat) (k : Core) (w : Nat) : (s.setCore c k).team? w = s.team? w := rfl
@[simp] theorem State.setTeam_region (s : State) (w : Nat) (t : Team) (n : Nat) : (s.setTeam w t).region n = s.region n := rfl

/-! ## The parts of a team after the change of a stream -/

@[simp] theorem Team.modA_info (t : Team) (g : AStream → AStream) : (t.modA g).info = t.info := rfl
@[simp] theorem Team.modA_frags (t : Team) (g : AStream → AStream) : (t.modA g).frags = t.frags := rfl
@[simp] theorem Team.modA_parked (t : Team) (g : AStream → AStream) : (t.modA g).parked = t.parked := rfl
@[simp] theorem Team.modA_parkSeq (t : Team) (g : AStream → AStream) : (t.modA g).parkSeq = t.parkSeq := rfl
@[simp] theorem Team.modA_arm (t : Team) (g : AStream → AStream) : (t.modA g).arm = t.arm := rfl
@[simp] theorem Team.modA_k (t : Team) (g : AStream → AStream) : (t.modA g).k = t.k := rfl
@[simp] theorem Team.modA_v (t : Team) (g : AStream → AStream) : (t.modA g).v = t.v := rfl
@[simp] theorem Team.modA_f (t : Team) (g : AStream → AStream) : (t.modA g).f = t.f := rfl
@[simp] theorem Team.modA_vtop (t : Team) (g : AStream → AStream) : (t.modA g).vtop = t.vtop := rfl
@[simp] theorem Team.modA_q (t : Team) (g : AStream → AStream) : (t.modA g).q = t.q := rfl
@[simp] theorem Team.modA_gather (t : Team) (g : AStream → AStream) : (t.modA g).gather = t.gather := rfl
@[simp] theorem Team.modA_fstat (t : Team) (g : AStream → AStream) : (t.modA g).fstat = t.fstat := rfl
@[simp] theorem Team.modA_rngSeed (t : Team) (g : AStream → AStream) : (t.modA g).rngSeed = t.rngSeed := rfl
@[simp] theorem Team.modA_rng (t : Team) (g : AStream → AStream) : (t.modA g).rng = t.rng := rfl
@[simp] theorem Team.modA_trap (t : Team) (g : AStream → AStream) : (t.modA g).trap = t.trap := rfl
@[simp] theorem Team.modA_pend (t : Team) (g : AStream → AStream) : (t.modA g).pend = t.pend := rfl
@[simp] theorem Team.modA_terminated (t : Team) (g : AStream → AStream) : (t.modA g).terminated = t.terminated := rfl
@[simp] theorem Team.modA_lat (t : Team) (g : AStream → AStream) : (t.modA g).lat = t.lat := rfl
@[simp] theorem Team.modA_latSeq (t : Team) (g : AStream → AStream) : (t.modA g).latSeq = t.latSeq := rfl
@[simp] theorem Team.modA_planes (t : Team) (g : AStream → AStream) : (t.modA g).planes = t.planes := rfl
@[simp] theorem Team.modA_scratch (t : Team) (g : AStream → AStream) : (t.modA g).scratch = t.scratch := rfl
@[simp] theorem Team.modA_rings (t : Team) (g : AStream → AStream) : (t.modA g).rings = t.rings := rfl
@[simp] theorem Team.modA_ringMem (t : Team) (g : AStream → AStream) : (t.modA g).ringMem = t.ringMem := rfl
@[simp] theorem Team.modA_stash (t : Team) (g : AStream → AStream) : (t.modA g).stash = t.stash := rfl
@[simp] theorem Team.modA_acq (t : Team) (g : AStream → AStream) : (t.modA g).acq = t.acq := rfl
@[simp] theorem Team.modA_declined (t : Team) (g : AStream → AStream) : (t.modA g).declined = t.declined := rfl
@[simp] theorem Team.modA_acks (t : Team) (g : AStream → AStream) : (t.modA g).acks = t.acks := rfl
@[simp] theorem Team.modA_batch (t : Team) (g : AStream → AStream) : (t.modA g).batch = t.batch := rfl
@[simp] theorem Team.modA_stale (t : Team) (g : AStream → AStream) : (t.modA g).stale = t.stale := rfl
@[simp] theorem Team.modA_task (t : Team) (g : AStream → AStream) : (t.modA g).task = t.task := rfl
@[simp] theorem Team.modA_solicits (t : Team) (g : AStream → AStream) : (t.modA g).solicits = t.solicits := rfl
@[simp] theorem Team.modA_moves (t : Team) (g : AStream → AStream) : (t.modA g).moves = t.moves := rfl
@[simp] theorem Team.modA_moveReply (t : Team) (g : AStream → AStream) : (t.modA g).moveReply = t.moveReply := rfl
@[simp] theorem Team.modA_lend (t : Team) (g : AStream → AStream) : (t.modA g).lend = t.lend := rfl
@[simp] theorem Team.modA_stolen (t : Team) (g : AStream → AStream) : (t.modA g).stolen = t.stolen := rfl
@[simp] theorem Team.modA_cancelled (t : Team) (g : AStream → AStream) : (t.modA g).cancelled = t.cancelled := rfl
@[simp] theorem Team.modA_fenced (t : Team) (g : AStream → AStream) : (t.modA g).fenced = t.fenced := rfl
@[simp] theorem Team.modA_seen (t : Team) (g : AStream → AStream) : (t.modA g).seen = t.seen := rfl
@[simp] theorem Team.modA_resident (t : Team) (g : AStream → AStream) : (t.modA g).resident = t.resident := rfl
@[simp] theorem Team.modA_lastIssue (t : Team) (g : AStream → AStream) : (t.modA g).lastIssue = t.lastIssue := rfl
@[simp] theorem Team.modA_stalled (t : Team) (g : AStream → AStream) : (t.modA g).stalled = t.stalled := rfl
@[simp] theorem Team.modFrag_info (t : Team) (n : Nat) (g : Frag → Frag) : (t.modFrag n g).info = t.info := rfl
@[simp] theorem Team.modFrag_a (t : Team) (n : Nat) (g : Frag → Frag) : (t.modFrag n g).a = t.a := rfl
@[simp] theorem Team.modFrag_parked (t : Team) (n : Nat) (g : Frag → Frag) : (t.modFrag n g).parked = t.parked := rfl
@[simp] theorem Team.modFrag_parkSeq (t : Team) (n : Nat) (g : Frag → Frag) : (t.modFrag n g).parkSeq = t.parkSeq := rfl
@[simp] theorem Team.modFrag_arm (t : Team) (n : Nat) (g : Frag → Frag) : (t.modFrag n g).arm = t.arm := rfl
@[simp] theorem Team.modFrag_k (t : Team) (n : Nat) (g : Frag → Frag) : (t.modFrag n g).k = t.k := rfl
@[simp] theorem Team.modFrag_v (t : Team) (n : Nat) (g : Frag → Frag) : (t.modFrag n g).v = t.v := rfl
@[simp] theorem Team.modFrag_f (t : Team) (n : Nat) (g : Frag → Frag) : (t.modFrag n g).f = t.f := rfl
@[simp] theorem Team.modFrag_vtop (t : Team) (n : Nat) (g : Frag → Frag) : (t.modFrag n g).vtop = t.vtop := rfl
@[simp] theorem Team.modFrag_q (t : Team) (n : Nat) (g : Frag → Frag) : (t.modFrag n g).q = t.q := rfl
@[simp] theorem Team.modFrag_gather (t : Team) (n : Nat) (g : Frag → Frag) : (t.modFrag n g).gather = t.gather := rfl
@[simp] theorem Team.modFrag_fstat (t : Team) (n : Nat) (g : Frag → Frag) : (t.modFrag n g).fstat = t.fstat := rfl
@[simp] theorem Team.modFrag_rngSeed (t : Team) (n : Nat) (g : Frag → Frag) : (t.modFrag n g).rngSeed = t.rngSeed := rfl
@[simp] theorem Team.modFrag_rng (t : Team) (n : Nat) (g : Frag → Frag) : (t.modFrag n g).rng = t.rng := rfl
@[simp] theorem Team.modFrag_trap (t : Team) (n : Nat) (g : Frag → Frag) : (t.modFrag n g).trap = t.trap := rfl
@[simp] theorem Team.modFrag_pend (t : Team) (n : Nat) (g : Frag → Frag) : (t.modFrag n g).pend = t.pend := rfl
@[simp] theorem Team.modFrag_terminated (t : Team) (n : Nat) (g : Frag → Frag) : (t.modFrag n g).terminated = t.terminated := rfl
@[simp] theorem Team.modFrag_lat (t : Team) (n : Nat) (g : Frag → Frag) : (t.modFrag n g).lat = t.lat := rfl
@[simp] theorem Team.modFrag_latSeq (t : Team) (n : Nat) (g : Frag → Frag) : (t.modFrag n g).latSeq = t.latSeq := rfl
@[simp] theorem Team.modFrag_planes (t : Team) (n : Nat) (g : Frag → Frag) : (t.modFrag n g).planes = t.planes := rfl
@[simp] theorem Team.modFrag_scratch (t : Team) (n : Nat) (g : Frag → Frag) : (t.modFrag n g).scratch = t.scratch := rfl
@[simp] theorem Team.modFrag_rings (t : Team) (n : Nat) (g : Frag → Frag) : (t.modFrag n g).rings = t.rings := rfl
@[simp] theorem Team.modFrag_ringMem (t : Team) (n : Nat) (g : Frag → Frag) : (t.modFrag n g).ringMem = t.ringMem := rfl
@[simp] theorem Team.modFrag_stash (t : Team) (n : Nat) (g : Frag → Frag) : (t.modFrag n g).stash = t.stash := rfl
@[simp] theorem Team.modFrag_acq (t : Team) (n : Nat) (g : Frag → Frag) : (t.modFrag n g).acq = t.acq := rfl
@[simp] theorem Team.modFrag_declined (t : Team) (n : Nat) (g : Frag → Frag) : (t.modFrag n g).declined = t.declined := rfl
@[simp] theorem Team.modFrag_acks (t : Team) (n : Nat) (g : Frag → Frag) : (t.modFrag n g).acks = t.acks := rfl
@[simp] theorem Team.modFrag_batch (t : Team) (n : Nat) (g : Frag → Frag) : (t.modFrag n g).batch = t.batch := rfl
@[simp] theorem Team.modFrag_stale (t : Team) (n : Nat) (g : Frag → Frag) : (t.modFrag n g).stale = t.stale := rfl
@[simp] theorem Team.modFrag_task (t : Team) (n : Nat) (g : Frag → Frag) : (t.modFrag n g).task = t.task := rfl
@[simp] theorem Team.modFrag_solicits (t : Team) (n : Nat) (g : Frag → Frag) : (t.modFrag n g).solicits = t.solicits := rfl
@[simp] theorem Team.modFrag_moves (t : Team) (n : Nat) (g : Frag → Frag) : (t.modFrag n g).moves = t.moves := rfl
@[simp] theorem Team.modFrag_moveReply (t : Team) (n : Nat) (g : Frag → Frag) : (t.modFrag n g).moveReply = t.moveReply := rfl
@[simp] theorem Team.modFrag_lend (t : Team) (n : Nat) (g : Frag → Frag) : (t.modFrag n g).lend = t.lend := rfl
@[simp] theorem Team.modFrag_stolen (t : Team) (n : Nat) (g : Frag → Frag) : (t.modFrag n g).stolen = t.stolen := rfl
@[simp] theorem Team.modFrag_cancelled (t : Team) (n : Nat) (g : Frag → Frag) : (t.modFrag n g).cancelled = t.cancelled := rfl
@[simp] theorem Team.modFrag_fenced (t : Team) (n : Nat) (g : Frag → Frag) : (t.modFrag n g).fenced = t.fenced := rfl
@[simp] theorem Team.modFrag_seen (t : Team) (n : Nat) (g : Frag → Frag) : (t.modFrag n g).seen = t.seen := rfl
@[simp] theorem Team.modFrag_resident (t : Team) (n : Nat) (g : Frag → Frag) : (t.modFrag n g).resident = t.resident := rfl
@[simp] theorem Team.modFrag_lastIssue (t : Team) (n : Nat) (g : Frag → Frag) : (t.modFrag n g).lastIssue = t.lastIssue := rfl
@[simp] theorem Team.modFrag_stalled (t : Team) (n : Nat) (g : Frag → Frag) : (t.modFrag n g).stalled = t.stalled := rfl
@[simp] theorem Team.modA_a (t : Team) (g : AStream → AStream) : (t.modA g).a = g t.a := rfl
@[simp] theorem Team.modFrag_frags (t : Team) (n : Nat) (g : Frag → Frag) : (t.modFrag n g).frags = tabMod t.frags n g := rfl
@[simp] theorem Team.advance_info (t : Team) (x : StreamId) : (t.advance x).info = t.info := by cases x <;> rfl
@[simp] theorem Team.advance_parked (t : Team) (x : StreamId) : (t.advance x).parked = t.parked := by cases x <;> rfl
@[simp] theorem Team.advance_parkSeq (t : Team) (x : StreamId) : (t.advance x).parkSeq = t.parkSeq := by cases x <;> rfl
@[simp] theorem Team.advance_arm (t : Team) (x : StreamId) : (t.advance x).arm = t.arm := by cases x <;> rfl
@[simp] theorem Team.advance_k (t : Team) (x : StreamId) : (t.advance x).k = t.k := by cases x <;> rfl
@[simp] theorem Team.advance_v (t : Team) (x : StreamId) : (t.advance x).v = t.v := by cases x <;> rfl
@[simp] theorem Team.advance_f (t : Team) (x : StreamId) : (t.advance x).f = t.f := by cases x <;> rfl
@[simp] theorem Team.advance_vtop (t : Team) (x : StreamId) : (t.advance x).vtop = t.vtop := by cases x <;> rfl
@[simp] theorem Team.advance_q (t : Team) (x : StreamId) : (t.advance x).q = t.q := by cases x <;> rfl
@[simp] theorem Team.advance_gather (t : Team) (x : StreamId) : (t.advance x).gather = t.gather := by cases x <;> rfl
@[simp] theorem Team.advance_fstat (t : Team) (x : StreamId) : (t.advance x).fstat = t.fstat := by cases x <;> rfl
@[simp] theorem Team.advance_rngSeed (t : Team) (x : StreamId) : (t.advance x).rngSeed = t.rngSeed := by cases x <;> rfl
@[simp] theorem Team.advance_rng (t : Team) (x : StreamId) : (t.advance x).rng = t.rng := by cases x <;> rfl
@[simp] theorem Team.advance_trap (t : Team) (x : StreamId) : (t.advance x).trap = t.trap := by cases x <;> rfl
@[simp] theorem Team.advance_pend (t : Team) (x : StreamId) : (t.advance x).pend = t.pend := by cases x <;> rfl
@[simp] theorem Team.advance_terminated (t : Team) (x : StreamId) : (t.advance x).terminated = t.terminated := by cases x <;> rfl
@[simp] theorem Team.advance_lat (t : Team) (x : StreamId) : (t.advance x).lat = t.lat := by cases x <;> rfl
@[simp] theorem Team.advance_latSeq (t : Team) (x : StreamId) : (t.advance x).latSeq = t.latSeq := by cases x <;> rfl
@[simp] theorem Team.advance_planes (t : Team) (x : StreamId) : (t.advance x).planes = t.planes := by cases x <;> rfl
@[simp] theorem Team.advance_scratch (t : Team) (x : StreamId) : (t.advance x).scratch = t.scratch := by cases x <;> rfl
@[simp] theorem Team.advance_rings (t : Team) (x : StreamId) : (t.advance x).rings = t.rings := by cases x <;> rfl
@[simp] theorem Team.advance_ringMem (t : Team) (x : StreamId) : (t.advance x).ringMem = t.ringMem := by cases x <;> rfl
@[simp] theorem Team.advance_stash (t : Team) (x : StreamId) : (t.advance x).stash = t.stash := by cases x <;> rfl
@[simp] theorem Team.advance_acq (t : Team) (x : StreamId) : (t.advance x).acq = t.acq := by cases x <;> rfl
@[simp] theorem Team.advance_declined (t : Team) (x : StreamId) : (t.advance x).declined = t.declined := by cases x <;> rfl
@[simp] theorem Team.advance_acks (t : Team) (x : StreamId) : (t.advance x).acks = t.acks := by cases x <;> rfl
@[simp] theorem Team.advance_batch (t : Team) (x : StreamId) : (t.advance x).batch = t.batch := by cases x <;> rfl
@[simp] theorem Team.advance_stale (t : Team) (x : StreamId) : (t.advance x).stale = t.stale := by cases x <;> rfl
@[simp] theorem Team.advance_task (t : Team) (x : StreamId) : (t.advance x).task = t.task := by cases x <;> rfl
@[simp] theorem Team.advance_solicits (t : Team) (x : StreamId) : (t.advance x).solicits = t.solicits := by cases x <;> rfl
@[simp] theorem Team.advance_moves (t : Team) (x : StreamId) : (t.advance x).moves = t.moves := by cases x <;> rfl
@[simp] theorem Team.advance_moveReply (t : Team) (x : StreamId) : (t.advance x).moveReply = t.moveReply := by cases x <;> rfl
@[simp] theorem Team.advance_lend (t : Team) (x : StreamId) : (t.advance x).lend = t.lend := by cases x <;> rfl
@[simp] theorem Team.advance_stolen (t : Team) (x : StreamId) : (t.advance x).stolen = t.stolen := by cases x <;> rfl
@[simp] theorem Team.advance_cancelled (t : Team) (x : StreamId) : (t.advance x).cancelled = t.cancelled := by cases x <;> rfl
@[simp] theorem Team.advance_fenced (t : Team) (x : StreamId) : (t.advance x).fenced = t.fenced := by cases x <;> rfl
@[simp] theorem Team.advance_seen (t : Team) (x : StreamId) : (t.advance x).seen = t.seen := by cases x <;> rfl
@[simp] theorem Team.advance_resident (t : Team) (x : StreamId) : (t.advance x).resident = t.resident := by cases x <;> rfl
@[simp] theorem Team.advance_lastIssue (t : Team) (x : StreamId) : (t.advance x).lastIssue = t.lastIssue := by cases x <;> rfl
@[simp] theorem Team.advance_stalled (t : Team) (x : StreamId) : (t.advance x).stalled = t.stalled := by cases x <;> rfl
@[simp] theorem Team.issued_info (t : Team) (x : StreamId) : (t.issued x).info = t.info := by cases x <;> rfl
@[simp] theorem Team.issued_a (t : Team) (x : StreamId) : (t.issued x).a = t.a := by cases x <;> rfl
@[simp] theorem Team.issued_parked (t : Team) (x : StreamId) : (t.issued x).parked = t.parked := by cases x <;> rfl
@[simp] theorem Team.issued_parkSeq (t : Team) (x : StreamId) : (t.issued x).parkSeq = t.parkSeq := by cases x <;> rfl
@[simp] theorem Team.issued_arm (t : Team) (x : StreamId) : (t.issued x).arm = t.arm := by cases x <;> rfl
@[simp] theorem Team.issued_k (t : Team) (x : StreamId) : (t.issued x).k = t.k := by cases x <;> rfl
@[simp] theorem Team.issued_v (t : Team) (x : StreamId) : (t.issued x).v = t.v := by cases x <;> rfl
@[simp] theorem Team.issued_f (t : Team) (x : StreamId) : (t.issued x).f = t.f := by cases x <;> rfl
@[simp] theorem Team.issued_vtop (t : Team) (x : StreamId) : (t.issued x).vtop = t.vtop := by cases x <;> rfl
@[simp] theorem Team.issued_q (t : Team) (x : StreamId) : (t.issued x).q = t.q := by cases x <;> rfl
@[simp] theorem Team.issued_gather (t : Team) (x : StreamId) : (t.issued x).gather = t.gather := by cases x <;> rfl
@[simp] theorem Team.issued_fstat (t : Team) (x : StreamId) : (t.issued x).fstat = t.fstat := by cases x <;> rfl
@[simp] theorem Team.issued_rngSeed (t : Team) (x : StreamId) : (t.issued x).rngSeed = t.rngSeed := by cases x <;> rfl
@[simp] theorem Team.issued_rng (t : Team) (x : StreamId) : (t.issued x).rng = t.rng := by cases x <;> rfl
@[simp] theorem Team.issued_trap (t : Team) (x : StreamId) : (t.issued x).trap = t.trap := by cases x <;> rfl
@[simp] theorem Team.issued_pend (t : Team) (x : StreamId) : (t.issued x).pend = t.pend := by cases x <;> rfl
@[simp] theorem Team.issued_terminated (t : Team) (x : StreamId) : (t.issued x).terminated = t.terminated := by cases x <;> rfl
@[simp] theorem Team.issued_lat (t : Team) (x : StreamId) : (t.issued x).lat = t.lat := by cases x <;> rfl
@[simp] theorem Team.issued_latSeq (t : Team) (x : StreamId) : (t.issued x).latSeq = t.latSeq := by cases x <;> rfl
@[simp] theorem Team.issued_planes (t : Team) (x : StreamId) : (t.issued x).planes = t.planes := by cases x <;> rfl
@[simp] theorem Team.issued_scratch (t : Team) (x : StreamId) : (t.issued x).scratch = t.scratch := by cases x <;> rfl
@[simp] theorem Team.issued_rings (t : Team) (x : StreamId) : (t.issued x).rings = t.rings := by cases x <;> rfl
@[simp] theorem Team.issued_ringMem (t : Team) (x : StreamId) : (t.issued x).ringMem = t.ringMem := by cases x <;> rfl
@[simp] theorem Team.issued_stash (t : Team) (x : StreamId) : (t.issued x).stash = t.stash := by cases x <;> rfl
@[simp] theorem Team.issued_acq (t : Team) (x : StreamId) : (t.issued x).acq = t.acq := by cases x <;> rfl
@[simp] theorem Team.issued_acks (t : Team) (x : StreamId) : (t.issued x).acks = t.acks := by cases x <;> rfl
@[simp] theorem Team.issued_batch (t : Team) (x : StreamId) : (t.issued x).batch = t.batch := by cases x <;> rfl
@[simp] theorem Team.issued_stale (t : Team) (x : StreamId) : (t.issued x).stale = t.stale := by cases x <;> rfl
@[simp] theorem Team.issued_task (t : Team) (x : StreamId) : (t.issued x).task = t.task := by cases x <;> rfl
@[simp] theorem Team.issued_solicits (t : Team) (x : StreamId) : (t.issued x).solicits = t.solicits := by cases x <;> rfl
@[simp] theorem Team.issued_moves (t : Team) (x : StreamId) : (t.issued x).moves = t.moves := by cases x <;> rfl
@[simp] theorem Team.issued_moveReply (t : Team) (x : StreamId) : (t.issued x).moveReply = t.moveReply := by cases x <;> rfl
@[simp] theorem Team.issued_lend (t : Team) (x : StreamId) : (t.issued x).lend = t.lend := by cases x <;> rfl
@[simp] theorem Team.issued_stolen (t : Team) (x : StreamId) : (t.issued x).stolen = t.stolen := by cases x <;> rfl
@[simp] theorem Team.issued_cancelled (t : Team) (x : StreamId) : (t.issued x).cancelled = t.cancelled := by cases x <;> rfl
@[simp] theorem Team.issued_fenced (t : Team) (x : StreamId) : (t.issued x).fenced = t.fenced := by cases x <;> rfl
@[simp] theorem Team.issued_seen (t : Team) (x : StreamId) : (t.issued x).seen = t.seen := by cases x <;> rfl
@[simp] theorem Team.issued_resident (t : Team) (x : StreamId) : (t.issued x).resident = t.resident := by cases x <;> rfl
@[simp] theorem Team.issued_lastIssue (t : Team) (x : StreamId) : (t.issued x).lastIssue = t.lastIssue := by cases x <;> rfl
@[simp] theorem Team.issued_stalled (t : Team) (x : StreamId) : (t.issued x).stalled = t.stalled := by cases x <;> rfl

end Sys2Proof.Machine
end

