-- ==== Sys2Proof/Laws/Issue.lean ====
section
/-!
SUPPORT. Laws/Issue.lean: what the issue of an instruction can do: it raises a pending cause, a cause of its word, or has its effect,
which completes, traps or waits.
-/
namespace Sys2Proof.Machine

/-- With nothing pending for any instruction, nothing is pending for a particular one. -/
theorem raisePending_quiet {t : Team} (h : pendingAt t (fun _ => true) = none) (may : PendCause → Bool) :
    raisePending t may = .ok () := by
  unfold raisePending pendingAt at *
  split at h
  · simp [*]
  · rename_i ht
    cases hp : t.pend with
    | nil => simp
    | cons p ps => simp [hp] at h

/-- An instruction whose effect completes with the state `s'`. -/
theorem issue_next {x : Instr} {s s' : State} {i : Issue} {t : Team} (may : Issue → Team → PendCause → Bool)
    {body : Issue → Team → State → Act State} (h : Issuing x s i t)
    (hb : body i (atIssue i t) (s.setTeam i.wid (atIssue i t)) = .ok s') : issue x may s body = .next (doneAs s' i) := by
  have hq := raisePending_quiet h.quiet (fun p => (p.kind == .taskLimit && !i.estr) || may i t p)
  have hl := h.legal
  unfold issueChain at hl
  simp only [issue, h.turn]
  cases hs : i.stream <;> simp only [hs] at hl hb ⊢ <;>
    (simp only [hq, hl, atIssue, hs] at hb ⊢; simp [bind, Except.bind, hb, settle, doneAs, Team.issued, hs])

/-- An instruction whose effect completes and leaves its team as `u`. -/
theorem issue_team {x : Instr} {s : State} {i : Issue} {t u : Team} (may : Issue → Team → PendCause → Bool)
    {body : Issue → Team → State → Act State} (h : Issuing x s i t)
    (hb : body i (atIssue i t) (s.setTeam i.wid (atIssue i t)) = .ok (s.setTeam i.wid u)) :
    issue x may s body = .next (doneWith s i u) := by
  rw [issue_next may h hb]
  simp [doneAs, doneWith]

/-- An instruction whose effect on its own team completes. -/
theorem issue_onTeam {x : Instr} {s : State} {i : Issue} {t u : Team} (may : Issue → Team → PendCause → Bool)
    {f : Issue → Team → Act Team} (h : Issuing x s i t) (hf : f i (atIssue i t) = .ok u) :
    issue x may s (onTeam f) = .next (doneWith s i u) := by
  rw [issue_next may h (s' := s.setTeam i.wid u) (by simp [onTeam, hf, bind, Except.bind])]
  simp [doneAs, doneWith]

/-- An instruction whose effect raises a precise cause: it is taken in the issuing stream, and nothing else has happened. -/
theorem issue_trap {x : Instr} {s : State} {i : Issue} {t : Team} (may : Issue → Team → PendCause → Bool)
    {body : Issue → Team → State → Act State} {c : Nat} {v : Option TrapValue} (h : Issuing x s i t)
    (hb : body i (atIssue i t) (s.setTeam i.wid (atIssue i t)) = .error (.trap c v false)) :
    issue x may s body =
      .next (settle s i t { value := valueOfA i t (coreWord s i.core) x } (.error (.trap c v false))) := by
  have hq := raisePending_quiet h.quiet (fun p => (p.kind == .taskLimit && !i.estr) || may i t p)
  have hl := h.legal
  unfold issueChain at hl
  simp only [issue, h.turn]
  cases hs : i.stream <;> simp only [hs] at hl hb ⊢ <;>
    (simp only [hq, hl, atIssue, hs] at hb ⊢; simp [bind, Except.bind, hb])

/-- An instruction whose effect waits: the wait is noted, and nothing else has happened. -/
theorem issue_wait {x : Instr} {s : State} {i : Issue} {t : Team} (may : Issue → Team → PendCause → Bool)
    {body : Issue → Team → State → Act State} {w : Wait} {n : List PageNeed} (h : Issuing x s i t)
    (hb : body i (atIssue i t) (s.setTeam i.wid (atIssue i t)) = .error (.wait w n)) :
    issue x may s body = .next (noteWait s i w n) := by
  have hq := raisePending_quiet h.quiet (fun p => (p.kind == .taskLimit && !i.estr) || may i t p)
  have hl := h.legal
  unfold issueChain at hl
  simp only [issue, h.turn]
  cases hs : i.stream <;> simp only [hs] at hl hb ⊢ <;>
    (simp only [hq, hl, atIssue, hs] at hb ⊢; simp [bind, Except.bind, hb, settle])

/-- Whatever an instruction does, a current stream that can issue gets an answer: a next state. -/
theorem issue_answers {x : Instr} {s : State} {i : Issue} {t : Team} (may : Issue → Team → PendCause → Bool)
    (body : Issue → Team → State → Act State) (h : issueOf s = some (i, t)) : ∃ s', issue x may s body = .next s' := by
  simp only [issue, h]
  exact ⟨_, rfl⟩

end Sys2Proof.Machine
end

