-- ==== Sys2Proof/Laws/PerInstr.lean ====
section
/-!
SUPPORT. Laws/PerInstr.lean: what holds of every instruction as syntax, one lemma per constructor: the top seven bits of its word are its
major (R61, Table 4-7).
-/
namespace Sys2Proof.Laws.Major

/-- An instruction that has a word has its major in bits 31 to 25 (Table 4-1). -/
def Statement (i : Instr) : Prop := i.hasWord = true → (encode i).extractLsb' 25 7 = BitVec.ofNat 7 (majorOf i)

/-- A row that has no word: nothing is claimed of it. -/
theorem none_of {i : Instr} (h : i.hasWord = false) : Statement i := fun x => absurd (h.symm.trans x) (by decide)

theorem notAnInstruction (cause : Nat) (word : BitVec 32) : Statement (.notAnInstruction cause word) := none_of rfl
theorem addA (d : BitVec 6) (a : BitVec 7) (b : BitVec 7) (t : BitVec 3) : Statement (.addA d a b t) := by
  intro _
  show BitVec.extractLsb' 25 7 (0#8 ++ d ++ a ++ b ++ 0#1 ++ t : BitVec (8 + 6 + 7 + 7 + 1 + 3)) = _
  simp (disch := omega) only [extract_high]; rfl
theorem subA (d : BitVec 6) (a : BitVec 7) (b : BitVec 7) (t : BitVec 3) : Statement (.subA d a b t) := by
  intro _
  show BitVec.extractLsb' 25 7 (0#8 ++ d ++ a ++ b ++ 1#1 ++ t : BitVec (8 + 6 + 7 + 7 + 1 + 3)) = _
  simp (disch := omega) only [extract_high]; rfl
theorem addImmA (d : BitVec 6) (a : BitVec 7) (i : BitVec 11) : Statement (.addImmA d a i) := by
  intro _
  show BitVec.extractLsb' 25 7 (2#8 ++ d ++ a ++ i : BitVec (8 + 6 + 7 + 11)) = _
  simp (disch := omega) only [extract_high]; rfl
theorem mulA (d : BitVec 6) (a : BitVec 7) (b : BitVec 7) (t : BitVec 3) : Statement (.mulA d a b t) := by
  intro _
  show BitVec.extractLsb' 25 7 (4#8 ++ d ++ a ++ b ++ 0#1 ++ t : BitVec (8 + 6 + 7 + 7 + 1 + 3)) = _
  simp (disch := omega) only [extract_high]; rfl
theorem mulhA (d : BitVec 6) (a : BitVec 7) (b : BitVec 7) (t : BitVec 3) : Statement (.mulhA d a b t) := by
  intro _
  show BitVec.extractLsb' 25 7 (4#8 ++ d ++ a ++ b ++ 1#1 ++ t : BitVec (8 + 6 + 7 + 7 + 1 + 3)) = _
  simp (disch := omega) only [extract_high]; rfl
theorem divs (d : BitVec 6) (a : BitVec 7) (b : BitVec 7) (t : BitVec 3) : Statement (.divs d a b t) := by
  intro _
  show BitVec.extractLsb' 25 7 (6#8 ++ d ++ a ++ b ++ 0#1 ++ t : BitVec (8 + 6 + 7 + 7 + 1 + 3)) = _
  simp (disch := omega) only [extract_high]; rfl
theorem divz (d : BitVec 6) (a : BitVec 7) (b : BitVec 7) (t : BitVec 3) : Statement (.divz d a b t) := by
  intro _
  show BitVec.extractLsb' 25 7 (6#8 ++ d ++ a ++ b ++ 1#1 ++ t : BitVec (8 + 6 + 7 + 7 + 1 + 3)) = _
  simp (disch := omega) only [extract_high]; rfl
theorem andA (d : BitVec 6) (a : BitVec 7) (b : BitVec 7) : Statement (.andA d a b) := by
  intro _
  show BitVec.extractLsb' 25 7 (8#8 ++ d ++ a ++ b ++ 0#4 : BitVec (8 + 6 + 7 + 7 + 4)) = _
  simp (disch := omega) only [extract_high]; rfl
theorem orA (d : BitVec 6) (a : BitVec 7) (b : BitVec 7) : Statement (.orA d a b) := by
  intro _
  show BitVec.extractLsb' 25 7 (8#8 ++ d ++ a ++ b ++ 1#4 : BitVec (8 + 6 + 7 + 7 + 4)) = _
  simp (disch := omega) only [extract_high]; rfl
theorem xorA (d : BitVec 6) (a : BitVec 7) (b : BitVec 7) : Statement (.xorA d a b) := by
  intro _
  show BitVec.extractLsb' 25 7 (8#8 ++ d ++ a ++ b ++ 2#4 : BitVec (8 + 6 + 7 + 7 + 4)) = _
  simp (disch := omega) only [extract_high]; rfl
theorem andnA (d : BitVec 6) (a : BitVec 7) (b : BitVec 7) : Statement (.andnA d a b) := by
  intro _
  show BitVec.extractLsb' 25 7 (8#8 ++ d ++ a ++ b ++ 3#4 : BitVec (8 + 6 + 7 + 7 + 4)) = _
  simp (disch := omega) only [extract_high]; rfl
theorem andImm (d : BitVec 6) (a : BitVec 7) (i : BitVec 9) : Statement (.andImm d a i) := by
  intro _
  show BitVec.extractLsb' 25 7 (0xa#8 ++ d ++ a ++ 0#2 ++ i : BitVec (8 + 6 + 7 + 2 + 9)) = _
  simp (disch := omega) only [extract_high]; rfl
theorem orImm (d : BitVec 6) (a : BitVec 7) (i : BitVec 9) : Statement (.orImm d a i) := by
  intro _
  show BitVec.extractLsb' 25 7 (0xa#8 ++ d ++ a ++ 1#2 ++ i : BitVec (8 + 6 + 7 + 2 + 9)) = _
  simp (disch := omega) only [extract_high]; rfl
theorem xorImm (d : BitVec 6) (a : BitVec 7) (i : BitVec 9) : Statement (.xorImm d a i) := by
  intro _
  show BitVec.extractLsb' 25 7 (0xa#8 ++ d ++ a ++ 2#2 ++ i : BitVec (8 + 6 + 7 + 2 + 9)) = _
  simp (disch := omega) only [extract_high]; rfl
theorem shlA (d : BitVec 6) (a : BitVec 7) (b : BitVec 7) (w : BitVec 2) : Statement (.shlA d a b w) := by
  intro _
  show BitVec.extractLsb' 25 7 (0xc#8 ++ d ++ a ++ b ++ 0#2 ++ w : BitVec (8 + 6 + 7 + 7 + 2 + 2)) = _
  simp (disch := omega) only [extract_high]; rfl
theorem shrA (d : BitVec 6) (a : BitVec 7) (b : BitVec 7) (w : BitVec 2) : Statement (.shrA d a b w) := by
  intro _
  show BitVec.extractLsb' 25 7 (0xc#8 ++ d ++ a ++ b ++ 1#2 ++ w : BitVec (8 + 6 + 7 + 7 + 2 + 2)) = _
  simp (disch := omega) only [extract_high]; rfl
theorem sarA (d : BitVec 6) (a : BitVec 7) (b : BitVec 7) (w : BitVec 2) : Statement (.sarA d a b w) := by
  intro _
  show BitVec.extractLsb' 25 7 (0xc#8 ++ d ++ a ++ b ++ 2#2 ++ w : BitVec (8 + 6 + 7 + 7 + 2 + 2)) = _
  simp (disch := omega) only [extract_high]; rfl
theorem rotA (d : BitVec 6) (a : BitVec 7) (b : BitVec 7) (w : BitVec 2) : Statement (.rotA d a b w) := by
  intro _
  show BitVec.extractLsb' 25 7 (0xc#8 ++ d ++ a ++ b ++ 3#2 ++ w : BitVec (8 + 6 + 7 + 7 + 2 + 2)) = _
  simp (disch := omega) only [extract_high]; rfl
theorem shlImmA (d : BitVec 6) (a : BitVec 7) (w : BitVec 2) (m : BitVec 7) : Statement (.shlImmA d a w m) := by
  intro _
  show BitVec.extractLsb' 25 7 (0xe#8 ++ d ++ a ++ 0#2 ++ w ++ m : BitVec (8 + 6 + 7 + 2 + 2 + 7)) = _
  simp (disch := omega) only [extract_high]; rfl
theorem shrImmA (d : BitVec 6) (a : BitVec 7) (w : BitVec 2) (m : BitVec 7) : Statement (.shrImmA d a w m) := by
  intro _
  show BitVec.extractLsb' 25 7 (0xe#8 ++ d ++ a ++ 1#2 ++ w ++ m : BitVec (8 + 6 + 7 + 2 + 2 + 7)) = _
  simp (disch := omega) only [extract_high]; rfl
theorem sarImmA (d : BitVec 6) (a : BitVec 7) (w : BitVec 2) (m : BitVec 7) : Statement (.sarImmA d a w m) := by
  intro _
  show BitVec.extractLsb' 25 7 (0xe#8 ++ d ++ a ++ 2#2 ++ w ++ m : BitVec (8 + 6 + 7 + 2 + 2 + 7)) = _
  simp (disch := omega) only [extract_high]; rfl
theorem rotImmA (d : BitVec 6) (a : BitVec 7) (w : BitVec 2) (m : BitVec 7) : Statement (.rotImmA d a w m) := by
  intro _
  show BitVec.extractLsb' 25 7 (0xe#8 ++ d ++ a ++ 3#2 ++ w ++ m : BitVec (8 + 6 + 7 + 2 + 2 + 7)) = _
  simp (disch := omega) only [extract_high]; rfl
theorem bfxSA (d : BitVec 6) (a : BitVec 7) (w : BitVec 4) (o : BitVec 6) : Statement (.bfxSA d a w o) := by
  intro _
  show BitVec.extractLsb' 25 7 (0x10#8 ++ d ++ a ++ 1#1 ++ w ++ o : BitVec (8 + 6 + 7 + 1 + 4 + 6)) = _
  simp (disch := omega) only [extract_high]; rfl
theorem bfxZA (d : BitVec 6) (a : BitVec 7) (w : BitVec 4) (o : BitVec 6) : Statement (.bfxZA d a w o) := by
  intro _
  show BitVec.extractLsb' 25 7 (0x10#8 ++ d ++ a ++ 0#1 ++ w ++ o : BitVec (8 + 6 + 7 + 1 + 4 + 6)) = _
  simp (disch := omega) only [extract_high]; rfl
theorem bfiA (d : BitVec 6) (a : BitVec 7) (w : BitVec 5) (o : BitVec 6) : Statement (.bfiA d a w o) := by
  intro _
  show BitVec.extractLsb' 25 7 (0x12#8 ++ d ++ a ++ w ++ o : BitVec (8 + 6 + 7 + 5 + 6)) = _
  simp (disch := omega) only [extract_high]; rfl
theorem fshlA (d : BitVec 6) (a : BitVec 7) (b : BitVec 7) (s : BitVec 1) : Statement (.fshlA d a b s) := by
  intro _
  show BitVec.extractLsb' 25 7 (0x14#8 ++ d ++ a ++ b ++ 0#2 ++ s ++ 0#1 : BitVec (8 + 6 + 7 + 7 + 2 + 1 + 1)) = _
  simp (disch := omega) only [extract_high]; rfl
theorem fshrA (d : BitVec 6) (a : BitVec 7) (b : BitVec 7) (s : BitVec 1) : Statement (.fshrA d a b s) := by
  intro _
  show BitVec.extractLsb' 25 7 (0x14#8 ++ d ++ a ++ b ++ 0#2 ++ s ++ 1#1 : BitVec (8 + 6 + 7 + 7 + 2 + 1 + 1)) = _
  simp (disch := omega) only [extract_high]; rfl
theorem clzA (d : BitVec 6) (a : BitVec 7) (w : BitVec 2) : Statement (.clzA d a w) := by
  intro _
  show BitVec.extractLsb' 25 7 (0x16#8 ++ d ++ a ++ 0#9 ++ w : BitVec (8 + 6 + 7 + 9 + 2)) = _
  simp (disch := omega) only [extract_high]; rfl
theorem popcA (d : BitVec 6) (a : BitVec 7) (w : BitVec 2) : Statement (.popcA d a w) := by
  intro _
  show BitVec.extractLsb' 25 7 (0x16#8 ++ d ++ a ++ 2#9 ++ w : BitVec (8 + 6 + 7 + 9 + 2)) = _
  simp (disch := omega) only [extract_high]; rfl
theorem minA (d : BitVec 6) (a : BitVec 7) (b : BitVec 7) (t : BitVec 3) : Statement (.minA d a b t) := by
  intro _
  show BitVec.extractLsb' 25 7 (0x18#8 ++ d ++ a ++ b ++ 0#1 ++ t : BitVec (8 + 6 + 7 + 7 + 1 + 3)) = _
  simp (disch := omega) only [extract_high]; rfl
theorem maxA (d : BitVec 6) (a : BitVec 7) (b : BitVec 7) (t : BitVec 3) : Statement (.maxA d a b t) := by
  intro _
  show BitVec.extractLsb' 25 7 (0x18#8 ++ d ++ a ++ b ++ 1#1 ++ t : BitVec (8 + 6 + 7 + 7 + 1 + 3)) = _
  simp (disch := omega) only [extract_high]; rfl
theorem cmpA (p : BitVec 3) (a : BitVec 7) (b : BitVec 7) (c : BitVec 4) : Statement (.cmpA p a b c) := by
  intro _
  show BitVec.extractLsb' 25 7 (0xd0#11 ++ p ++ a ++ b ++ c : BitVec (11 + 3 + 7 + 7 + 4)) = _
  simp (disch := omega) only [extract_high]; rfl
theorem selA (d : BitVec 6) (a : BitVec 7) (b : BitVec 7) (p : BitVec 3) : Statement (.selA d a b p) := by
  intro _
  show BitVec.extractLsb' 25 7 (0x1c#8 ++ d ++ a ++ b ++ 0#1 ++ p : BitVec (8 + 6 + 7 + 7 + 1 + 3)) = _
  simp (disch := omega) only [extract_high]; rfl
theorem liA (d : BitVec 6) (i : BitVec 11) : Statement (.liA d i) := by
  intro _
  show BitVec.extractLsb' 25 7 (0x1e#8 ++ d ++ 0#7 ++ i : BitVec (8 + 6 + 7 + 11)) = _
  simp (disch := omega) only [extract_high]; rfl
theorem liHiA (d : BitVec 6) (i : BitVec 11) : Statement (.liHiA d i) := by
  intro _
  show BitVec.extractLsb' 25 7 (0x1e#8 ++ d ++ 1#7 ++ i : BitVec (8 + 6 + 7 + 11)) = _
  simp (disch := omega) only [extract_high]; rfl
theorem brA (c : BitVec 3) (o : BitVec 22) : Statement (.brA c o) := by
  intro _
  show BitVec.extractLsb' 25 7 (0x10#7 ++ c ++ o : BitVec (7 + 3 + 22)) = _
  simp (disch := omega) only [extract_high]; rfl
theorem brnA (c : BitVec 3) (o : BitVec 22) : Statement (.brnA c o) := by
  intro _
  show BitVec.extractLsb' 25 7 (0x11#7 ++ c ++ o : BitVec (7 + 3 + 22)) = _
  simp (disch := omega) only [extract_high]; rfl
theorem loop (c : BitVec 3) (o : BitVec 22) : Statement (.loop c o) := by
  intro _
  show BitVec.extractLsb' 25 7 (0x12#7 ++ c ++ o : BitVec (7 + 3 + 22)) = _
  simp (disch := omega) only [extract_high]; rfl
theorem callA (c : BitVec 3) (o : BitVec 22) : Statement (.callA c o) := by
  intro _
  show BitVec.extractLsb' 25 7 (0x13#7 ++ c ++ o : BitVec (7 + 3 + 22)) = _
  simp (disch := omega) only [extract_high]; rfl
theorem calliA (a : BitVec 7) : Statement (.calliA a) := by
  intro _
  show BitVec.extractLsb' 25 7 (0xa00#14 ++ a ++ 0#11 : BitVec (14 + 7 + 11)) = _
  simp (disch := omega) only [extract_high]; rfl
theorem retA : Statement .retA := by intro _; rfl
theorem txl (t : BitVec 4) (a : BitVec 7) : Statement (.txl t a) := by
  intro _
  show BitVec.extractLsb' 25 7 (0xb0#10 ++ t ++ a ++ 0#11 : BitVec (10 + 4 + 7 + 11)) = _
  simp (disch := omega) only [extract_high]; rfl
theorem pgreq (p : BitVec 3) (a : BitVec 7) : Statement (.pgreq p a) := by
  intro _
  show BitVec.extractLsb' 25 7 (0x170#11 ++ p ++ a ++ 0#11 : BitVec (11 + 3 + 7 + 11)) = _
  simp (disch := omega) only [extract_high]; rfl
theorem txclr (t : BitVec 4) : Statement (.txclr t) := by
  intro _
  show BitVec.extractLsb' 25 7 (0xc0#10 ++ t ++ 0#18 : BitVec (10 + 4 + 18)) = _
  simp (disch := omega) only [extract_high]; rfl
theorem txclrAll : Statement .txclrAll := by intro _; rfl
theorem brE (c : BitVec 3) (o : BitVec 22) : Statement (.brE c o) := by
  intro _
  show BitVec.extractLsb' 25 7 (0x19#7 ++ c ++ o : BitVec (7 + 3 + 22)) = _
  simp (disch := omega) only [extract_high]; rfl
theorem brnE (c : BitVec 3) (o : BitVec 22) : Statement (.brnE c o) := by
  intro _
  show BitVec.extractLsb' 25 7 (0x1a#7 ++ c ++ o : BitVec (7 + 3 + 22)) = _
  simp (disch := omega) only [extract_high]; rfl
theorem callE (c : BitVec 3) (o : BitVec 22) : Statement (.callE c o) := by
  intro _
  show BitVec.extractLsb' 25 7 (0x1b#7 ++ c ++ o : BitVec (7 + 3 + 22)) = _
  simp (disch := omega) only [extract_high]; rfl
theorem calliE (a : BitVec 7) : Statement (.calliE a) := by
  intro _
  show BitVec.extractLsb' 25 7 (0xe00#14 ++ a ++ 0#11 : BitVec (14 + 7 + 11)) = _
  simp (disch := omega) only [extract_high]; rfl
theorem retE : Statement .retE := by intro _; rfl
theorem merge (t : BitVec 10) : Statement (.merge t) := by
  intro _
  show BitVec.extractLsb' 25 7 (0xf0000#22 ++ t : BitVec (22 + 10)) = _
  simp (disch := omega) only [extract_high]; rfl
theorem mergeArm (t : BitVec 10) : Statement (.mergeArm t) := by
  intro _
  show BitVec.extractLsb' 25 7 (0xf0001#22 ++ t : BitVec (22 + 10)) = _
  simp (disch := omega) only [extract_high]; rfl
theorem lds (d : BitVec 6) (t : BitVec 4) (x : BitVec 7) (s : BitVec 2) (f : BitVec 6) : Statement (.lds d t x s f) := by
  intro _
  show BitVec.extractLsb' 25 7 (0x20#7 ++ d ++ t ++ x ++ s ++ f : BitVec (7 + 6 + 4 + 7 + 2 + 6)) = _
  simp (disch := omega) only [extract_high]; rfl
theorem sts (d : BitVec 6) (t : BitVec 4) (x : BitVec 7) (s : BitVec 2) (f : BitVec 6) : Statement (.sts d t x s f) := by
  intro _
  show BitVec.extractLsb' 25 7 (0x21#7 ++ d ++ t ++ x ++ s ++ f : BitVec (7 + 6 + 4 + 7 + 2 + 6)) = _
  simp (disch := omega) only [extract_high]; rfl
theorem ldq (d : BitVec 6) (t : BitVec 4) (x : BitVec 7) (s : BitVec 2) (f : BitVec 6) : Statement (.ldq d t x s f) := by
  intro _
  show BitVec.extractLsb' 25 7 (0x22#7 ++ d ++ t ++ x ++ s ++ f : BitVec (7 + 6 + 4 + 7 + 2 + 6)) = _
  simp (disch := omega) only [extract_high]; rfl
theorem stq (t : BitVec 4) (x : BitVec 7) (s : BitVec 2) (f : BitVec 6) : Statement (.stq t x s f) := by
  intro _
  show BitVec.extractLsb' 25 7 (0x8c7#13 ++ t ++ x ++ s ++ f : BitVec (13 + 4 + 7 + 2 + 6)) = _
  simp (disch := omega) only [extract_high]; rfl
theorem gathq (d : BitVec 6) (t : BitVec 4) (x : BitVec 7) (s : BitVec 2) (f : BitVec 6) : Statement (.gathq d t x s f) := by
  intro _
  show BitVec.extractLsb' 25 7 (0x24#7 ++ d ++ t ++ x ++ s ++ f : BitVec (7 + 6 + 4 + 7 + 2 + 6)) = _
  simp (disch := omega) only [extract_high]; rfl
theorem scatq (t : BitVec 4) (x : BitVec 7) (s : BitVec 2) (f : BitVec 6) : Statement (.scatq t x s f) := by
  intro _
  show BitVec.extractLsb' 25 7 (0x947#13 ++ t ++ x ++ s ++ f : BitVec (13 + 4 + 7 + 2 + 6)) = _
  simp (disch := omega) only [extract_high]; rfl
theorem atom (d : BitVec 6) (t : BitVec 4) (x : BitVec 7) (s : BitVec 2) (f : BitVec 4) : Statement (.atom d t x s f) := by
  intro _
  show BitVec.extractLsb' 25 7 (0x26#7 ++ d ++ t ++ x ++ s ++ 0#2 ++ f : BitVec (7 + 6 + 4 + 7 + 2 + 2 + 4)) = _
  simp (disch := omega) only [extract_high]; rfl
theorem atomq (d : BitVec 6) (t : BitVec 4) (x : BitVec 7) (s : BitVec 2) (f : BitVec 4) : Statement (.atomq d t x s f) := by
  intro _
  show BitVec.extractLsb' 25 7 (0x27#7 ++ d ++ t ++ x ++ s ++ 0#2 ++ f : BitVec (7 + 6 + 4 + 7 + 2 + 2 + 4)) = _
  simp (disch := omega) only [extract_high]; rfl
theorem aggadd (d : BitVec 6) (t : BitVec 4) (x : BitVec 7) (s : BitVec 2) : Statement (.aggadd d t x s) := by
  intro _
  show BitVec.extractLsb' 25 7 (0x28#7 ++ d ++ t ++ x ++ s ++ 0#6 : BitVec (7 + 6 + 4 + 7 + 2 + 6)) = _
  simp (disch := omega) only [extract_high]; rfl
theorem aggaddOne (d : BitVec 6) (t : BitVec 4) (x : BitVec 7) (s : BitVec 2) : Statement (.aggaddOne d t x s) := by
  intro _
  show BitVec.extractLsb' 25 7 (0x28#7 ++ d ++ t ++ x ++ s ++ 1#6 : BitVec (7 + 6 + 4 + 7 + 2 + 6)) = _
  simp (disch := omega) only [extract_high]; rfl
theorem cpy (d : BitVec 6) (t : BitVec 4) (x : BitVec 7) (s : BitVec 2) (f : BitVec 6) : Statement (.cpy d t x s f) := by
  intro _
  show BitVec.extractLsb' 25 7 (0x29#7 ++ d ++ t ++ x ++ s ++ f : BitVec (7 + 6 + 4 + 7 + 2 + 6)) = _
  simp (disch := omega) only [extract_high]; rfl
theorem cpym (d : BitVec 6) (t : BitVec 4) (x : BitVec 7) (s : BitVec 2) (f : BitVec 6) : Statement (.cpym d t x s f) := by
  intro _
  show BitVec.extractLsb' 25 7 (0x2a#7 ++ d ++ t ++ x ++ s ++ f : BitVec (7 + 6 + 4 + 7 + 2 + 6)) = _
  simp (disch := omega) only [extract_high]; rfl
theorem cpyr (d : BitVec 6) (t : BitVec 4) (x : BitVec 7) (s : BitVec 2) (f : BitVec 4) : Statement (.cpyr d t x s f) := by
  intro _
  show BitVec.extractLsb' 25 7 (0x2b#7 ++ d ++ t ++ x ++ s ++ 0#2 ++ f : BitVec (7 + 6 + 4 + 7 + 2 + 2 + 4)) = _
  simp (disch := omega) only [extract_high]; rfl
theorem qpushA (d : BitVec 6) (a : BitVec 7) (b : BitVec 7) : Statement (.qpushA d a b) := by
  intro _
  show BitVec.extractLsb' 25 7 (0x58#8 ++ d ++ a ++ b ++ 0#4 : BitVec (8 + 6 + 7 + 7 + 4)) = _
  simp (disch := omega) only [extract_high]; rfl
theorem ldc (n : BitVec 1) (d : BitVec 6) (a : BitVec 7) (b : BitVec 7) (s : BitVec 1) (l : BitVec 2) : Statement (.ldc n d a b s l) := by
  intro _
  show BitVec.extractLsb' 25 7 (0x2d#7 ++ n ++ d ++ a ++ b ++ 0#1 ++ s ++ l : BitVec (7 + 1 + 6 + 7 + 7 + 1 + 1 + 2)) = _
  simp (disch := omega) only [extract_high]; rfl
theorem ldx (n : BitVec 1) (d : BitVec 6) (a : BitVec 7) (b : BitVec 7) (s : BitVec 1) (l : BitVec 2) : Statement (.ldx n d a b s l) := by
  intro _
  show BitVec.extractLsb' 25 7 (0x2e#7 ++ n ++ d ++ a ++ b ++ 0#1 ++ s ++ l : BitVec (7 + 1 + 6 + 7 + 7 + 1 + 1 + 2)) = _
  simp (disch := omega) only [extract_high]; rfl
theorem ldxRing (n : BitVec 1) (d : BitVec 6) (a : BitVec 7) (b : BitVec 7) (s : BitVec 1) (l : BitVec 2) : Statement (.ldxRing n d a b s l) := by
  intro _
  show BitVec.extractLsb' 25 7 (0x2e#7 ++ n ++ d ++ a ++ b ++ 1#1 ++ s ++ l : BitVec (7 + 1 + 6 + 7 + 7 + 1 + 1 + 2)) = _
  simp (disch := omega) only [extract_high]; rfl
theorem stx (d : BitVec 6) (a : BitVec 7) (b : BitVec 7) (l : BitVec 2) : Statement (.stx d a b l) := by
  intro _
  show BitVec.extractLsb' 25 7 (0x5e#8 ++ d ++ a ++ b ++ 0#2 ++ l : BitVec (8 + 6 + 7 + 7 + 2 + 2)) = _
  simp (disch := omega) only [extract_high]; rfl
theorem stxRing (d : BitVec 6) (a : BitVec 7) (b : BitVec 7) (l : BitVec 2) : Statement (.stxRing d a b l) := by
  intro _
  show BitVec.extractLsb' 25 7 (0x5e#8 ++ d ++ a ++ b ++ 2#2 ++ l : BitVec (8 + 6 + 7 + 7 + 2 + 2)) = _
  simp (disch := omega) only [extract_high]; rfl
theorem addE (n : BitVec 1) (d : BitVec 6) (a : BitVec 7) (b : BitVec 7) (s : BitVec 1) (w : BitVec 2) : Statement (.addE n d a b s w) := by
  intro _
  show BitVec.extractLsb' 25 7 (0x30#7 ++ n ++ d ++ a ++ b ++ 0#1 ++ s ++ w : BitVec (7 + 1 + 6 + 7 + 7 + 1 + 1 + 2)) = _
  simp (disch := omega) only [extract_high]; rfl
theorem subE (n : BitVec 1) (d : BitVec 6) (a : BitVec 7) (b : BitVec 7) (s : BitVec 1) (w : BitVec 2) : Statement (.subE n d a b s w) := by
  intro _
  show BitVec.extractLsb' 25 7 (0x30#7 ++ n ++ d ++ a ++ b ++ 1#1 ++ s ++ w : BitVec (7 + 1 + 6 + 7 + 7 + 1 + 1 + 2)) = _
  simp (disch := omega) only [extract_high]; rfl
theorem addImmE (n : BitVec 1) (d : BitVec 6) (a : BitVec 7) (i : BitVec 11) : Statement (.addImmE n d a i) := by
  intro _
  show BitVec.extractLsb' 25 7 (0x31#7 ++ n ++ d ++ a ++ i : BitVec (7 + 1 + 6 + 7 + 11)) = _
  simp (disch := omega) only [extract_high]; rfl
theorem mulE (n : BitVec 1) (d : BitVec 6) (a : BitVec 7) (b : BitVec 7) (s : BitVec 1) (w : BitVec 2) : Statement (.mulE n d a b s w) := by
  intro _
  show BitVec.extractLsb' 25 7 (0x32#7 ++ n ++ d ++ a ++ b ++ 0#1 ++ s ++ w : BitVec (7 + 1 + 6 + 7 + 7 + 1 + 1 + 2)) = _
  simp (disch := omega) only [extract_high]; rfl
theorem mulhE (n : BitVec 1) (d : BitVec 6) (a : BitVec 7) (b : BitVec 7) (s : BitVec 1) (w : BitVec 2) : Statement (.mulhE n d a b s w) := by
  intro _
  show BitVec.extractLsb' 25 7 (0x32#7 ++ n ++ d ++ a ++ b ++ 1#1 ++ s ++ w : BitVec (7 + 1 + 6 + 7 + 7 + 1 + 1 + 2)) = _
  simp (disch := omega) only [extract_high]; rfl
theorem mad (n : BitVec 1) (d : BitVec 6) (a : BitVec 7) (b : BitVec 7) (s : BitVec 1) (w : BitVec 2) : Statement (.mad n d a b s w) := by
  intro _
  show BitVec.extractLsb' 25 7 (0x33#7 ++ n ++ d ++ a ++ b ++ 0#1 ++ s ++ w : BitVec (7 + 1 + 6 + 7 + 7 + 1 + 1 + 2)) = _
  simp (disch := omega) only [extract_high]; rfl
theorem minE (n : BitVec 1) (d : BitVec 6) (a : BitVec 7) (b : BitVec 7) (s : BitVec 1) (w : BitVec 2) : Statement (.minE n d a b s w) := by
  intro _
  show BitVec.extractLsb' 25 7 (0x34#7 ++ n ++ d ++ a ++ b ++ 0#1 ++ s ++ w : BitVec (7 + 1 + 6 + 7 + 7 + 1 + 1 + 2)) = _
  simp (disch := omega) only [extract_high]; rfl
theorem maxE (n : BitVec 1) (d : BitVec 6) (a : BitVec 7) (b : BitVec 7) (s : BitVec 1) (w : BitVec 2) : Statement (.maxE n d a b s w) := by
  intro _
  show BitVec.extractLsb' 25 7 (0x34#7 ++ n ++ d ++ a ++ b ++ 1#1 ++ s ++ w : BitVec (7 + 1 + 6 + 7 + 7 + 1 + 1 + 2)) = _
  simp (disch := omega) only [extract_high]; rfl
theorem andE (n : BitVec 1) (d : BitVec 6) (a : BitVec 7) (b : BitVec 7) : Statement (.andE n d a b) := by
  intro _
  show BitVec.extractLsb' 25 7 (0x35#7 ++ n ++ d ++ a ++ b ++ 0#4 : BitVec (7 + 1 + 6 + 7 + 7 + 4)) = _
  simp (disch := omega) only [extract_high]; rfl
theorem orE (n : BitVec 1) (d : BitVec 6) (a : BitVec 7) (b : BitVec 7) : Statement (.orE n d a b) := by
  intro _
  show BitVec.extractLsb' 25 7 (0x35#7 ++ n ++ d ++ a ++ b ++ 1#4 : BitVec (7 + 1 + 6 + 7 + 7 + 4)) = _
  simp (disch := omega) only [extract_high]; rfl
theorem xorE (n : BitVec 1) (d : BitVec 6) (a : BitVec 7) (b : BitVec 7) : Statement (.xorE n d a b) := by
  intro _
  show BitVec.extractLsb' 25 7 (0x35#7 ++ n ++ d ++ a ++ b ++ 2#4 : BitVec (7 + 1 + 6 + 7 + 7 + 4)) = _
  simp (disch := omega) only [extract_high]; rfl
theorem andnE (n : BitVec 1) (d : BitVec 6) (a : BitVec 7) (b : BitVec 7) : Statement (.andnE n d a b) := by
  intro _
  show BitVec.extractLsb' 25 7 (0x35#7 ++ n ++ d ++ a ++ b ++ 3#4 : BitVec (7 + 1 + 6 + 7 + 7 + 4)) = _
  simp (disch := omega) only [extract_high]; rfl
theorem shlE (n : BitVec 1) (d : BitVec 6) (a : BitVec 7) (b : BitVec 7) (w : BitVec 2) : Statement (.shlE n d a b w) := by
  intro _
  show BitVec.extractLsb' 25 7 (0x36#7 ++ n ++ d ++ a ++ b ++ 0#2 ++ w : BitVec (7 + 1 + 6 + 7 + 7 + 2 + 2)) = _
  simp (disch := omega) only [extract_high]; rfl
theorem shrE (n : BitVec 1) (d : BitVec 6) (a : BitVec 7) (b : BitVec 7) (w : BitVec 2) : Statement (.shrE n d a b w) := by
  intro _
  show BitVec.extractLsb' 25 7 (0x36#7 ++ n ++ d ++ a ++ b ++ 1#2 ++ w : BitVec (7 + 1 + 6 + 7 + 7 + 2 + 2)) = _
  simp (disch := omega) only [extract_high]; rfl
theorem sarE (n : BitVec 1) (d : BitVec 6) (a : BitVec 7) (b : BitVec 7) (w : BitVec 2) : Statement (.sarE n d a b w) := by
  intro _
  show BitVec.extractLsb' 25 7 (0x36#7 ++ n ++ d ++ a ++ b ++ 2#2 ++ w : BitVec (7 + 1 + 6 + 7 + 7 + 2 + 2)) = _
  simp (disch := omega) only [extract_high]; rfl
theorem rotE (n : BitVec 1) (d : BitVec 6) (a : BitVec 7) (b : BitVec 7) (w : BitVec 2) : Statement (.rotE n d a b w) := by
  intro _
  show BitVec.extractLsb' 25 7 (0x36#7 ++ n ++ d ++ a ++ b ++ 3#2 ++ w : BitVec (7 + 1 + 6 + 7 + 7 + 2 + 2)) = _
  simp (disch := omega) only [extract_high]; rfl
theorem shlImmE (n : BitVec 1) (d : BitVec 6) (a : BitVec 7) (w : BitVec 2) (m : BitVec 7) : Statement (.shlImmE n d a w m) := by
  intro _
  show BitVec.extractLsb' 25 7 (0x37#7 ++ n ++ d ++ a ++ 0#2 ++ w ++ m : BitVec (7 + 1 + 6 + 7 + 2 + 2 + 7)) = _
  simp (disch := omega) only [extract_high]; rfl
theorem shrImmE (n : BitVec 1) (d : BitVec 6) (a : BitVec 7) (w : BitVec 2) (m : BitVec 7) : Statement (.shrImmE n d a w m) := by
  intro _
  show BitVec.extractLsb' 25 7 (0x37#7 ++ n ++ d ++ a ++ 1#2 ++ w ++ m : BitVec (7 + 1 + 6 + 7 + 2 + 2 + 7)) = _
  simp (disch := omega) only [extract_high]; rfl
theorem sarImmE (n : BitVec 1) (d : BitVec 6) (a : BitVec 7) (w : BitVec 2) (m : BitVec 7) : Statement (.sarImmE n d a w m) := by
  intro _
  show BitVec.extractLsb' 25 7 (0x37#7 ++ n ++ d ++ a ++ 2#2 ++ w ++ m : BitVec (7 + 1 + 6 + 7 + 2 + 2 + 7)) = _
  simp (disch := omega) only [extract_high]; rfl
theorem rotImmE (n : BitVec 1) (d : BitVec 6) (a : BitVec 7) (w : BitVec 2) (m : BitVec 7) : Statement (.rotImmE n d a w m) := by
  intro _
  show BitVec.extractLsb' 25 7 (0x37#7 ++ n ++ d ++ a ++ 3#2 ++ w ++ m : BitVec (7 + 1 + 6 + 7 + 2 + 2 + 7)) = _
  simp (disch := omega) only [extract_high]; rfl
theorem bfxSE (n : BitVec 1) (d : BitVec 6) (a : BitVec 7) (w : BitVec 4) (o : BitVec 6) : Statement (.bfxSE n d a w o) := by
  intro _
  show BitVec.extractLsb' 25 7 (0x38#7 ++ n ++ d ++ a ++ 1#1 ++ w ++ o : BitVec (7 + 1 + 6 + 7 + 1 + 4 + 6)) = _
  simp (disch := omega) only [extract_high]; rfl
theorem bfxZE (n : BitVec 1) (d : BitVec 6) (a : BitVec 7) (w : BitVec 4) (o : BitVec 6) : Statement (.bfxZE n d a w o) := by
  intro _
  show BitVec.extractLsb' 25 7 (0x38#7 ++ n ++ d ++ a ++ 0#1 ++ w ++ o : BitVec (7 + 1 + 6 + 7 + 1 + 4 + 6)) = _
  simp (disch := omega) only [extract_high]; rfl
theorem bfiE (n : BitVec 1) (d : BitVec 6) (a : BitVec 7) (w : BitVec 5) (o : BitVec 6) : Statement (.bfiE n d a w o) := by
  intro _
  show BitVec.extractLsb' 25 7 (0x39#7 ++ n ++ d ++ a ++ w ++ o : BitVec (7 + 1 + 6 + 7 + 5 + 6)) = _
  simp (disch := omega) only [extract_high]; rfl
theorem fshlE (n : BitVec 1) (d : BitVec 6) (a : BitVec 7) (b : BitVec 7) (s : BitVec 1) : Statement (.fshlE n d a b s) := by
  intro _
  show BitVec.extractLsb' 25 7 (0x3a#7 ++ n ++ d ++ a ++ b ++ 0#2 ++ s ++ 0#1 : BitVec (7 + 1 + 6 + 7 + 7 + 2 + 1 + 1)) = _
  simp (disch := omega) only [extract_high]; rfl
theorem fshrE (n : BitVec 1) (d : BitVec 6) (a : BitVec 7) (b : BitVec 7) (s : BitVec 1) : Statement (.fshrE n d a b s) := by
  intro _
  show BitVec.extractLsb' 25 7 (0x3a#7 ++ n ++ d ++ a ++ b ++ 0#2 ++ s ++ 1#1 : BitVec (7 + 1 + 6 + 7 + 7 + 2 + 1 + 1)) = _
  simp (disch := omega) only [extract_high]; rfl
theorem clzE (n : BitVec 1) (d : BitVec 6) (a : BitVec 7) (w : BitVec 2) : Statement (.clzE n d a w) := by
  intro _
  show BitVec.extractLsb' 25 7 (0x3b#7 ++ n ++ d ++ a ++ 0#9 ++ w : BitVec (7 + 1 + 6 + 7 + 9 + 2)) = _
  simp (disch := omega) only [extract_high]; rfl
theorem popcE (n : BitVec 1) (d : BitVec 6) (a : BitVec 7) (w : BitVec 2) : Statement (.popcE n d a w) := by
  intro _
  show BitVec.extractLsb' 25 7 (0x3b#7 ++ n ++ d ++ a ++ 2#9 ++ w : BitVec (7 + 1 + 6 + 7 + 9 + 2)) = _
  simp (disch := omega) only [extract_high]; rfl
theorem cmpE (f : BitVec 3) (a : BitVec 7) (b : BitVec 7) (c : BitVec 4) : Statement (.cmpE f a b c) := by
  intro _
  show BitVec.extractLsb' 25 7 (0x3c0#11 ++ f ++ a ++ b ++ c : BitVec (11 + 3 + 7 + 7 + 4)) = _
  simp (disch := omega) only [extract_high]; rfl
theorem selE (n : BitVec 1) (d : BitVec 6) (a : BitVec 7) (b : BitVec 7) (f : BitVec 3) : Statement (.selE n d a b f) := by
  intro _
  show BitVec.extractLsb' 25 7 (0x3d#7 ++ n ++ d ++ a ++ b ++ 0#1 ++ f : BitVec (7 + 1 + 6 + 7 + 7 + 1 + 3)) = _
  simp (disch := omega) only [extract_high]; rfl
theorem liE (n : BitVec 1) (d : BitVec 6) (i : BitVec 11) : Statement (.liE n d i) := by
  intro _
  show BitVec.extractLsb' 25 7 (0x3e#7 ++ n ++ d ++ 0#7 ++ i : BitVec (7 + 1 + 6 + 7 + 11)) = _
  simp (disch := omega) only [extract_high]; rfl
theorem liFromK (n : BitVec 1) (d : BitVec 6) (k : BitVec 4) : Statement (.liFromK n d k) := by
  intro _
  show BitVec.extractLsb' 25 7 (0x3e#7 ++ n ++ d ++ 0x80#14 ++ k : BitVec (7 + 1 + 6 + 14 + 4)) = _
  simp (disch := omega) only [extract_high]; rfl
theorem liHiFromK (n : BitVec 1) (d : BitVec 6) (k : BitVec 4) : Statement (.liHiFromK n d k) := by
  intro _
  show BitVec.extractLsb' 25 7 (0x3e#7 ++ n ++ d ++ 0x81#14 ++ k : BitVec (7 + 1 + 6 + 14 + 4)) = _
  simp (disch := omega) only [extract_high]; rfl
theorem liKQ6 (k : BitVec 4) (p : BitVec 1) : Statement (.liKQ6 k p) := by
  intro _
  show BitVec.extractLsb' 25 7 (0x1f0#10 ++ k ++ 0x800#17 ++ p : BitVec (10 + 4 + 17 + 1)) = _
  simp (disch := omega) only [extract_high]; rfl
theorem liKImm (k : BitVec 4) (i : BitVec 11) : Statement (.liKImm k i) := by
  intro _
  show BitVec.extractLsb' 25 7 (0x1f0#10 ++ k ++ 3#7 ++ i : BitVec (10 + 4 + 7 + 11)) = _
  simp (disch := omega) only [extract_high]; rfl
theorem qpushE (d : BitVec 6) (a : BitVec 7) (f : BitVec 3) : Statement (.qpushE d a f) := by
  intro _
  show BitVec.extractLsb' 25 7 (0x7e#8 ++ d ++ a ++ 0#8 ++ f : BitVec (8 + 6 + 7 + 8 + 3)) = _
  simp (disch := omega) only [extract_high]; rfl
theorem fadd (n : BitVec 1) (d : BitVec 6) (a : BitVec 7) (b : BitVec 7) (r : BitVec 3) : Statement (.fadd n d a b r) := by
  intro _
  show BitVec.extractLsb' 25 7 (0x40#7 ++ n ++ d ++ a ++ b ++ 0#1 ++ r : BitVec (7 + 1 + 6 + 7 + 7 + 1 + 3)) = _
  simp (disch := omega) only [extract_high]; rfl
theorem fsub (n : BitVec 1) (d : BitVec 6) (a : BitVec 7) (b : BitVec 7) (r : BitVec 3) : Statement (.fsub n d a b r) := by
  intro _
  show BitVec.extractLsb' 25 7 (0x40#7 ++ n ++ d ++ a ++ b ++ 1#1 ++ r : BitVec (7 + 1 + 6 + 7 + 7 + 1 + 3)) = _
  simp (disch := omega) only [extract_high]; rfl
theorem fmul (n : BitVec 1) (d : BitVec 6) (a : BitVec 7) (b : BitVec 7) (r : BitVec 3) : Statement (.fmul n d a b r) := by
  intro _
  show BitVec.extractLsb' 25 7 (0x41#7 ++ n ++ d ++ a ++ b ++ 0#1 ++ r : BitVec (7 + 1 + 6 + 7 + 7 + 1 + 3)) = _
  simp (disch := omega) only [extract_high]; rfl
theorem ffma (n : BitVec 1) (d : BitVec 6) (a : BitVec 7) (b : BitVec 7) (r : BitVec 3) : Statement (.ffma n d a b r) := by
  intro _
  show BitVec.extractLsb' 25 7 (0x42#7 ++ n ++ d ++ a ++ b ++ 0#1 ++ r : BitVec (7 + 1 + 6 + 7 + 7 + 1 + 3)) = _
  simp (disch := omega) only [extract_high]; rfl
theorem ffms (n : BitVec 1) (d : BitVec 6) (a : BitVec 7) (b : BitVec 7) (r : BitVec 3) : Statement (.ffms n d a b r) := by
  intro _
  show BitVec.extractLsb' 25 7 (0x42#7 ++ n ++ d ++ a ++ b ++ 1#1 ++ r : BitVec (7 + 1 + 6 + 7 + 7 + 1 + 3)) = _
  simp (disch := omega) only [extract_high]; rfl
theorem fmin (n : BitVec 1) (d : BitVec 6) (a : BitVec 7) (b : BitVec 7) (u : BitVec 1) : Statement (.fmin n d a b u) := by
  intro _
  show BitVec.extractLsb' 25 7 (0x43#7 ++ n ++ d ++ a ++ b ++ 0#2 ++ u ++ 0#1 : BitVec (7 + 1 + 6 + 7 + 7 + 2 + 1 + 1)) = _
  simp (disch := omega) only [extract_high]; rfl
theorem fmax (n : BitVec 1) (d : BitVec 6) (a : BitVec 7) (b : BitVec 7) (u : BitVec 1) : Statement (.fmax n d a b u) := by
  intro _
  show BitVec.extractLsb' 25 7 (0x43#7 ++ n ++ d ++ a ++ b ++ 0#2 ++ u ++ 1#1 : BitVec (7 + 1 + 6 + 7 + 7 + 2 + 1 + 1)) = _
  simp (disch := omega) only [extract_high]; rfl
theorem fcmp (f : BitVec 3) (a : BitVec 7) (b : BitVec 7) (c : BitVec 3) : Statement (.fcmp f a b c) := by
  intro _
  show BitVec.extractLsb' 25 7 (0x440#11 ++ f ++ a ++ b ++ 0#1 ++ c : BitVec (11 + 3 + 7 + 7 + 1 + 3)) = _
  simp (disch := omega) only [extract_high]; rfl
theorem fsgn (n : BitVec 1) (d : BitVec 6) (a : BitVec 7) (b : BitVec 7) (w : BitVec 2) (o : BitVec 2) : Statement (.fsgn n d a b w o) := by
  intro _
  show BitVec.extractLsb' 25 7 (0x45#7 ++ n ++ d ++ a ++ b ++ w ++ o : BitVec (7 + 1 + 6 + 7 + 7 + 2 + 2)) = _
  simp (disch := omega) only [extract_high]; rfl
theorem hadd (n : BitVec 1) (d : BitVec 6) (a : BitVec 7) (b : BitVec 7) (t : BitVec 1) : Statement (.hadd n d a b t) := by
  intro _
  show BitVec.extractLsb' 25 7 (0x46#7 ++ n ++ d ++ a ++ b ++ t ++ 0#3 : BitVec (7 + 1 + 6 + 7 + 7 + 1 + 3)) = _
  simp (disch := omega) only [extract_high]; rfl
theorem hsub (n : BitVec 1) (d : BitVec 6) (a : BitVec 7) (b : BitVec 7) (t : BitVec 1) : Statement (.hsub n d a b t) := by
  intro _
  show BitVec.extractLsb' 25 7 (0x46#7 ++ n ++ d ++ a ++ b ++ t ++ 1#3 : BitVec (7 + 1 + 6 + 7 + 7 + 1 + 3)) = _
  simp (disch := omega) only [extract_high]; rfl
theorem hmul (n : BitVec 1) (d : BitVec 6) (a : BitVec 7) (b : BitVec 7) (t : BitVec 1) : Statement (.hmul n d a b t) := by
  intro _
  show BitVec.extractLsb' 25 7 (0x46#7 ++ n ++ d ++ a ++ b ++ t ++ 2#3 : BitVec (7 + 1 + 6 + 7 + 7 + 1 + 3)) = _
  simp (disch := omega) only [extract_high]; rfl
theorem hmin (n : BitVec 1) (d : BitVec 6) (a : BitVec 7) (b : BitVec 7) (t : BitVec 1) : Statement (.hmin n d a b t) := by
  intro _
  show BitVec.extractLsb' 25 7 (0x46#7 ++ n ++ d ++ a ++ b ++ t ++ 3#3 : BitVec (7 + 1 + 6 + 7 + 7 + 1 + 3)) = _
  simp (disch := omega) only [extract_high]; rfl
theorem hmax (n : BitVec 1) (d : BitVec 6) (a : BitVec 7) (b : BitVec 7) (t : BitVec 1) : Statement (.hmax n d a b t) := by
  intro _
  show BitVec.extractLsb' 25 7 (0x46#7 ++ n ++ d ++ a ++ b ++ t ++ 4#3 : BitVec (7 + 1 + 6 + 7 + 7 + 1 + 3)) = _
  simp (disch := omega) only [extract_high]; rfl
theorem hfma (n : BitVec 1) (d : BitVec 6) (a : BitVec 7) (b : BitVec 7) (t : BitVec 1) : Statement (.hfma n d a b t) := by
  intro _
  show BitVec.extractLsb' 25 7 (0x47#7 ++ n ++ d ++ a ++ b ++ t ++ 0#3 : BitVec (7 + 1 + 6 + 7 + 7 + 1 + 3)) = _
  simp (disch := omega) only [extract_high]; rfl
theorem hfms (n : BitVec 1) (d : BitVec 6) (a : BitVec 7) (b : BitVec 7) (t : BitVec 1) : Statement (.hfms n d a b t) := by
  intro _
  show BitVec.extractLsb' 25 7 (0x47#7 ++ n ++ d ++ a ++ b ++ t ++ 1#3 : BitVec (7 + 1 + 6 + 7 + 7 + 1 + 3)) = _
  simp (disch := omega) only [extract_high]; rfl
theorem hcmp (n : BitVec 1) (d : BitVec 6) (a : BitVec 7) (b : BitVec 7) (t : BitVec 1) (c : BitVec 3) : Statement (.hcmp n d a b t c) := by
  intro _
  show BitVec.extractLsb' 25 7 (0x48#7 ++ n ++ d ++ a ++ b ++ t ++ c : BitVec (7 + 1 + 6 + 7 + 7 + 1 + 3)) = _
  simp (disch := omega) only [extract_high]; rfl
theorem f8add (n : BitVec 1) (d : BitVec 6) (a : BitVec 7) (b : BitVec 7) (t : BitVec 1) : Statement (.f8add n d a b t) := by
  intro _
  show BitVec.extractLsb' 25 7 (0x49#7 ++ n ++ d ++ a ++ b ++ t ++ 0#3 : BitVec (7 + 1 + 6 + 7 + 7 + 1 + 3)) = _
  simp (disch := omega) only [extract_high]; rfl
theorem f8sub (n : BitVec 1) (d : BitVec 6) (a : BitVec 7) (b : BitVec 7) (t : BitVec 1) : Statement (.f8sub n d a b t) := by
  intro _
  show BitVec.extractLsb' 25 7 (0x49#7 ++ n ++ d ++ a ++ b ++ t ++ 1#3 : BitVec (7 + 1 + 6 + 7 + 7 + 1 + 3)) = _
  simp (disch := omega) only [extract_high]; rfl
theorem f8mul (n : BitVec 1) (d : BitVec 6) (a : BitVec 7) (b : BitVec 7) (t : BitVec 1) : Statement (.f8mul n d a b t) := by
  intro _
  show BitVec.extractLsb' 25 7 (0x49#7 ++ n ++ d ++ a ++ b ++ t ++ 2#3 : BitVec (7 + 1 + 6 + 7 + 7 + 1 + 3)) = _
  simp (disch := omega) only [extract_high]; rfl
theorem f8min (n : BitVec 1) (d : BitVec 6) (a : BitVec 7) (b : BitVec 7) (t : BitVec 1) : Statement (.f8min n d a b t) := by
  intro _
  show BitVec.extractLsb' 25 7 (0x49#7 ++ n ++ d ++ a ++ b ++ t ++ 3#3 : BitVec (7 + 1 + 6 + 7 + 7 + 1 + 3)) = _
  simp (disch := omega) only [extract_high]; rfl
theorem f8max (n : BitVec 1) (d : BitVec 6) (a : BitVec 7) (b : BitVec 7) (t : BitVec 1) : Statement (.f8max n d a b t) := by
  intro _
  show BitVec.extractLsb' 25 7 (0x49#7 ++ n ++ d ++ a ++ b ++ t ++ 4#3 : BitVec (7 + 1 + 6 + 7 + 7 + 1 + 3)) = _
  simp (disch := omega) only [extract_high]; rfl
theorem f8fma (n : BitVec 1) (d : BitVec 6) (a : BitVec 7) (b : BitVec 7) (t : BitVec 1) : Statement (.f8fma n d a b t) := by
  intro _
  show BitVec.extractLsb' 25 7 (0x4a#7 ++ n ++ d ++ a ++ b ++ t ++ 0#3 : BitVec (7 + 1 + 6 + 7 + 7 + 1 + 3)) = _
  simp (disch := omega) only [extract_high]; rfl
theorem f8fms (n : BitVec 1) (d : BitVec 6) (a : BitVec 7) (b : BitVec 7) (t : BitVec 1) : Statement (.f8fms n d a b t) := by
  intro _
  show BitVec.extractLsb' 25 7 (0x4a#7 ++ n ++ d ++ a ++ b ++ t ++ 1#3 : BitVec (7 + 1 + 6 + 7 + 7 + 1 + 3)) = _
  simp (disch := omega) only [extract_high]; rfl
theorem f8cmp (n : BitVec 1) (d : BitVec 6) (a : BitVec 7) (b : BitVec 7) (t : BitVec 1) (c : BitVec 3) : Statement (.f8cmp n d a b t c) := by
  intro _
  show BitVec.extractLsb' 25 7 (0x4b#7 ++ n ++ d ++ a ++ b ++ t ++ c : BitVec (7 + 1 + 6 + 7 + 7 + 1 + 3)) = _
  simp (disch := omega) only [extract_high]; rfl
theorem cvt (n : BitVec 1) (d : BitVec 6) (a : BitVec 7) (b : BitVec 7) (f : BitVec 4) : Statement (.cvt n d a b f) := by
  intro _
  show BitVec.extractLsb' 25 7 (0x50#7 ++ n ++ d ++ a ++ b ++ f : BitVec (7 + 1 + 6 + 7 + 7 + 4)) = _
  simp (disch := omega) only [extract_high]; rfl
theorem cvtf (n : BitVec 1) (d : BitVec 6) (a : BitVec 7) (b : BitVec 7) (f : BitVec 4) : Statement (.cvtf n d a b f) := by
  intro _
  show BitVec.extractLsb' 25 7 (0x51#7 ++ n ++ d ++ a ++ b ++ f : BitVec (7 + 1 + 6 + 7 + 7 + 4)) = _
  simp (disch := omega) only [extract_high]; rfl
theorem cvtd (n : BitVec 1) (d : BitVec 6) (a : BitVec 7) (b : BitVec 7) (r : BitVec 2) : Statement (.cvtd n d a b r) := by
  intro _
  show BitVec.extractLsb' 25 7 (0x52#7 ++ n ++ d ++ a ++ b ++ 0#2 ++ r : BitVec (7 + 1 + 6 + 7 + 7 + 2 + 2)) = _
  simp (disch := omega) only [extract_high]; rfl
theorem cvtmx (n : BitVec 1) (d : BitVec 6) (a : BitVec 7) (b : BitVec 7) (q : BitVec 1) (e : BitVec 3) : Statement (.cvtmx n d a b q e) := by
  intro _
  show BitVec.extractLsb' 25 7 (0x53#7 ++ n ++ d ++ a ++ b ++ q ++ e : BitVec (7 + 1 + 6 + 7 + 7 + 1 + 3)) = _
  simp (disch := omega) only [extract_high]; rfl
theorem rcps (n : BitVec 1) (d : BitVec 6) (a : BitVec 7) : Statement (.rcps n d a) := by
  intro _
  show BitVec.extractLsb' 25 7 (0x54#7 ++ n ++ d ++ a ++ 0#11 : BitVec (7 + 1 + 6 + 7 + 11)) = _
  simp (disch := omega) only [extract_high]; rfl
theorem rsqs (n : BitVec 1) (d : BitVec 6) (a : BitVec 7) : Statement (.rsqs n d a) := by
  intro _
  show BitVec.extractLsb' 25 7 (0x54#7 ++ n ++ d ++ a ++ 1#11 : BitVec (7 + 1 + 6 + 7 + 11)) = _
  simp (disch := omega) only [extract_high]; rfl
theorem exps (n : BitVec 1) (d : BitVec 6) (a : BitVec 7) : Statement (.exps n d a) := by
  intro _
  show BitVec.extractLsb' 25 7 (0x54#7 ++ n ++ d ++ a ++ 2#11 : BitVec (7 + 1 + 6 + 7 + 11)) = _
  simp (disch := omega) only [extract_high]; rfl
theorem logs (n : BitVec 1) (d : BitVec 6) (a : BitVec 7) : Statement (.logs n d a) := by
  intro _
  show BitVec.extractLsb' 25 7 (0x54#7 ++ n ++ d ++ a ++ 3#11 : BitVec (7 + 1 + 6 + 7 + 11)) = _
  simp (disch := omega) only [extract_high]; rfl
theorem sins (n : BitVec 1) (d : BitVec 6) (a : BitVec 7) : Statement (.sins n d a) := by
  intro _
  show BitVec.extractLsb' 25 7 (0x54#7 ++ n ++ d ++ a ++ 4#11 : BitVec (7 + 1 + 6 + 7 + 11)) = _
  simp (disch := omega) only [extract_high]; rfl
theorem coss (n : BitVec 1) (d : BitVec 6) (a : BitVec 7) : Statement (.coss n d a) := by
  intro _
  show BitVec.extractLsb' 25 7 (0x54#7 ++ n ++ d ++ a ++ 5#11 : BitVec (7 + 1 + 6 + 7 + 11)) = _
  simp (disch := omega) only [extract_high]; rfl
theorem vote (n : BitVec 1) (d : BitVec 6) (a : BitVec 7) (o : BitVec 3) : Statement (.vote n d a o) := by
  intro _
  show BitVec.extractLsb' 25 7 (0x58#7 ++ n ++ d ++ a ++ 0#8 ++ o : BitVec (7 + 1 + 6 + 7 + 8 + 3)) = _
  simp (disch := omega) only [extract_high]; rfl
theorem shfl (n : BitVec 1) (d : BitVec 6) (a : BitVec 7) (b : BitVec 7) (o : BitVec 2) : Statement (.shfl n d a b o) := by
  intro _
  show BitVec.extractLsb' 25 7 (0x59#7 ++ n ++ d ++ a ++ b ++ 0#2 ++ o : BitVec (7 + 1 + 6 + 7 + 7 + 2 + 2)) = _
  simp (disch := omega) only [extract_high]; rfl
theorem reds (n : BitVec 1) (d : BitVec 6) (a : BitVec 7) (o : BitVec 4) : Statement (.reds n d a o) := by
  intro _
  show BitVec.extractLsb' 25 7 (0x5a#7 ++ n ++ d ++ a ++ 0#7 ++ o : BitVec (7 + 1 + 6 + 7 + 7 + 4)) = _
  simp (disch := omega) only [extract_high]; rfl
theorem scan (n : BitVec 1) (d : BitVec 6) (a : BitVec 7) (x : BitVec 1) (o : BitVec 2) : Statement (.scan n d a x o) := by
  intro _
  show BitVec.extractLsb' 25 7 (0x5b#7 ++ n ++ d ++ a ++ 0#8 ++ x ++ o : BitVec (7 + 1 + 6 + 7 + 8 + 1 + 2)) = _
  simp (disch := omega) only [extract_high]; rfl
theorem argm (n : BitVec 1) (d : BitVec 6) (a : BitVec 7) (t : BitVec 2) (m : BitVec 1) : Statement (.argm n d a t m) := by
  intro _
  show BitVec.extractLsb' 25 7 (0x5c#7 ++ n ++ d ++ a ++ 0#8 ++ t ++ m : BitVec (7 + 1 + 6 + 7 + 8 + 2 + 1)) = _
  simp (disch := omega) only [extract_high]; rfl
theorem votet (n : BitVec 1) (d : BitVec 6) (a : BitVec 7) (b : BitVec 7) (o : BitVec 3) : Statement (.votet n d a b o) := by
  intro _
  show BitVec.extractLsb' 25 7 (0x5d#7 ++ n ++ d ++ a ++ b ++ 0#1 ++ o : BitVec (7 + 1 + 6 + 7 + 7 + 1 + 3)) = _
  simp (disch := omega) only [extract_high]; rfl
theorem shflt (n : BitVec 1) (d : BitVec 6) (a : BitVec 7) (b : BitVec 7) (o : BitVec 2) : Statement (.shflt n d a b o) := by
  intro _
  show BitVec.extractLsb' 25 7 (0x5e#7 ++ n ++ d ++ a ++ b ++ 0#2 ++ o : BitVec (7 + 1 + 6 + 7 + 7 + 2 + 2)) = _
  simp (disch := omega) only [extract_high]; rfl
theorem redt (n : BitVec 1) (d : BitVec 6) (a : BitVec 7) (o : BitVec 4) : Statement (.redt n d a o) := by
  intro _
  show BitVec.extractLsb' 25 7 (0x5f#7 ++ n ++ d ++ a ++ 0#7 ++ o : BitVec (7 + 1 + 6 + 7 + 7 + 4)) = _
  simp (disch := omega) only [extract_high]; rfl
theorem mls (a : BitVec 7) (m : BitVec 4) : Statement (.mls a m) := by
  intro _
  show BitVec.extractLsb' 25 7 (0x3000#14 ++ a ++ 0#7 ++ m : BitVec (14 + 7 + 7 + 4)) = _
  simp (disch := omega) only [extract_high]; rfl
theorem mflip : Statement .mflip := by intro _; rfl
theorem mstream (a : BitVec 7) (b : BitVec 7) (m : BitVec 4) : Statement (.mstream a b m) := by
  intro _
  show BitVec.extractLsb' 25 7 (0x3100#14 ++ a ++ b ++ m : BitVec (14 + 7 + 7 + 4)) = _
  simp (disch := omega) only [extract_high]; rfl
theorem mtile (d : BitVec 6) (a : BitVec 7) (b : BitVec 7) (m : BitVec 3) : Statement (.mtile d a b m) := by
  intro _
  show BitVec.extractLsb' 25 7 (0xc6#8 ++ d ++ a ++ b ++ 0#1 ++ m : BitVec (8 + 6 + 7 + 7 + 1 + 3)) = _
  simp (disch := omega) only [extract_high]; rfl
theorem amalloc (d : BitVec 6) : Statement (.amalloc d) := by
  intro _
  show BitVec.extractLsb' 25 7 (0xc8#8 ++ d ++ 0#18 : BitVec (8 + 6 + 18)) = _
  simp (disch := omega) only [extract_high]; rfl
theorem amfree (a : BitVec 7) : Statement (.amfree a) := by
  intro _
  show BitVec.extractLsb' 25 7 (0x3200#14 ++ a ++ 1#11 : BitVec (14 + 7 + 11)) = _
  simp (disch := omega) only [extract_high]; rfl
theorem amrd (n : BitVec 1) (d : BitVec 6) (a : BitVec 7) (b : BitVec 7) (r : BitVec 2) : Statement (.amrd n d a b r) := by
  intro _
  show BitVec.extractLsb' 25 7 (0x65#7 ++ n ++ d ++ a ++ b ++ 0#2 ++ r : BitVec (7 + 1 + 6 + 7 + 7 + 2 + 2)) = _
  simp (disch := omega) only [extract_high]; rfl
theorem amclr (a : BitVec 7) : Statement (.amclr a) := by
  intro _
  show BitVec.extractLsb' 25 7 (0x3300#14 ++ a ++ 0#11 : BitVec (14 + 7 + 11)) = _
  simp (disch := omega) only [extract_high]; rfl
theorem amld (a : BitVec 7) (b : BitVec 7) : Statement (.amld a b) := by
  intro _
  show BitVec.extractLsb' 25 7 (0x3300#14 ++ a ++ b ++ 1#4 : BitVec (14 + 7 + 7 + 4)) = _
  simp (disch := omega) only [extract_high]; rfl
theorem amst (a : BitVec 7) (b : BitVec 7) : Statement (.amst a b) := by
  intro _
  show BitVec.extractLsb' 25 7 (0x3300#14 ++ a ++ b ++ 2#4 : BitVec (14 + 7 + 7 + 4)) = _
  simp (disch := omega) only [extract_high]; rfl
theorem mwait (a : BitVec 7) : Statement (.mwait a) := by
  intro _
  show BitVec.extractLsb' 25 7 (0x3380#14 ++ a ++ 0#11 : BitVec (14 + 7 + 11)) = _
  simp (disch := omega) only [extract_high]; rfl
theorem cpseal (d : BitVec 6) : Statement (.cpseal d) := by
  intro _
  show BitVec.extractLsb' 25 7 (0xd0#8 ++ d ++ 0#18 : BitVec (8 + 6 + 18)) = _
  simp (disch := omega) only [extract_high]; rfl
theorem cpwait (d : BitVec 6) (i : BitVec 11) : Statement (.cpwait d i) := by
  intro _
  show BitVec.extractLsb' 25 7 (0xd2#8 ++ d ++ 0#7 ++ i : BitVec (8 + 6 + 7 + 11)) = _
  simp (disch := omega) only [extract_high]; rfl
theorem strm (a : BitVec 7) : Statement (.strm a) := by
  intro _
  show BitVec.extractLsb' 25 7 (0x3500#14 ++ a ++ 0#11 : BitVec (14 + 7 + 11)) = _
  simp (disch := omega) only [extract_high]; rfl
theorem ringClaim (d : BitVec 6) (a : BitVec 7) : Statement (.ringClaim d a) := by
  intro _
  show BitVec.extractLsb' 25 7 (0xd6#8 ++ d ++ a ++ 0#11 : BitVec (8 + 6 + 7 + 11)) = _
  simp (disch := omega) only [extract_high]; rfl
theorem ringSig (a : BitVec 7) (b : BitVec 7) : Statement (.ringSig a b) := by
  intro _
  show BitVec.extractLsb' 25 7 (0x3580#14 ++ a ++ b ++ 1#4 : BitVec (14 + 7 + 7 + 4)) = _
  simp (disch := omega) only [extract_high]; rfl
theorem ringWait (d : BitVec 6) (a : BitVec 7) (b : BitVec 7) : Statement (.ringWait d a b) := by
  intro _
  show BitVec.extractLsb' 25 7 (0xd6#8 ++ d ++ a ++ b ++ 2#4 : BitVec (8 + 6 + 7 + 7 + 4)) = _
  simp (disch := omega) only [extract_high]; rfl
theorem ringFree (a : BitVec 7) (b : BitVec 7) : Statement (.ringFree a b) := by
  intro _
  show BitVec.extractLsb' 25 7 (0x3580#14 ++ a ++ b ++ 3#4 : BitVec (14 + 7 + 7 + 4)) = _
  simp (disch := omega) only [extract_high]; rfl
theorem ringStat (d : BitVec 6) (a : BitVec 7) : Statement (.ringStat d a) := by
  intro _
  show BitVec.extractLsb' 25 7 (0xd6#8 ++ d ++ a ++ 4#11 : BitVec (8 + 6 + 7 + 11)) = _
  simp (disch := omega) only [extract_high]; rfl
theorem stashMap (d : BitVec 6) (a : BitVec 7) (b : BitVec 7) : Statement (.stashMap d a b) := by
  intro _
  show BitVec.extractLsb' 25 7 (0xd8#8 ++ d ++ a ++ b ++ 0#4 : BitVec (8 + 6 + 7 + 7 + 4)) = _
  simp (disch := omega) only [extract_high]; rfl
theorem stashUnmap (a : BitVec 7) : Statement (.stashUnmap a) := by
  intro _
  show BitVec.extractLsb' 25 7 (0x3600#14 ++ a ++ 1#11 : BitVec (14 + 7 + 11)) = _
  simp (disch := omega) only [extract_high]; rfl
theorem stashClean (a : BitVec 7) : Statement (.stashClean a) := by
  intro _
  show BitVec.extractLsb' 25 7 (0x3600#14 ++ a ++ 2#11 : BitVec (14 + 7 + 11)) = _
  simp (disch := omega) only [extract_high]; rfl
theorem publish (d : BitVec 6) (a : BitVec 7) : Statement (.publish d a) := by
  intro _
  show BitVec.extractLsb' 25 7 (0xda#8 ++ d ++ a ++ 0#11 : BitVec (8 + 6 + 7 + 11)) = _
  simp (disch := omega) only [extract_high]; rfl
theorem l2ctlOcc (d : BitVec 6) (a : BitVec 7) : Statement (.l2ctlOcc d a) := by
  intro _
  show BitVec.extractLsb' 25 7 (0xdc#8 ++ d ++ a ++ 0#11 : BitVec (8 + 6 + 7 + 11)) = _
  simp (disch := omega) only [extract_high]; rfl
theorem l2ctlMask (d : BitVec 6) : Statement (.l2ctlMask d) := by
  intro _
  show BitVec.extractLsb' 25 7 (0xdc#8 ++ d ++ 1#18 : BitVec (8 + 6 + 18)) = _
  simp (disch := omega) only [extract_high]; rfl
theorem l2ctlSetmask (d : BitVec 6) (a : BitVec 7) : Statement (.l2ctlSetmask d a) := by
  intro _
  show BitVec.extractLsb' 25 7 (0xdc#8 ++ d ++ a ++ 2#11 : BitVec (8 + 6 + 7 + 11)) = _
  simp (disch := omega) only [extract_high]; rfl
theorem coll (d : BitVec 6) (a : BitVec 7) (b : BitVec 7) (k : BitVec 4) : Statement (.coll d a b k) := by
  intro _
  show BitVec.extractLsb' 25 7 (0xe0#8 ++ d ++ a ++ b ++ k : BitVec (8 + 6 + 7 + 7 + 4)) = _
  simp (disch := omega) only [extract_high]; rfl
theorem solicit (d : BitVec 6) (a : BitVec 7) (b : BitVec 7) (o : BitVec 2) : Statement (.solicit d a b o) := by
  intro _
  show BitVec.extractLsb' 25 7 (0xe2#8 ++ d ++ a ++ b ++ 0#2 ++ o : BitVec (8 + 6 + 7 + 7 + 2 + 2)) = _
  simp (disch := omega) only [extract_high]; rfl
theorem solicitIns (d : BitVec 6) (a : BitVec 7) (b : BitVec 7) : Statement (.solicitIns d a b) := by
  intro _
  show BitVec.extractLsb' 25 7 (0xe2#8 ++ d ++ a ++ b ++ 4#4 : BitVec (8 + 6 + 7 + 7 + 4)) = _
  simp (disch := omega) only [extract_high]; rfl
theorem solicitDel (a : BitVec 7) : Statement (.solicitDel a) := by
  intro _
  show BitVec.extractLsb' 25 7 (0x3880#14 ++ a ++ 5#11 : BitVec (14 + 7 + 11)) = _
  simp (disch := omega) only [extract_high]; rfl
theorem solicitMove (d : BitVec 6) (a : BitVec 7) (b : BitVec 7) : Statement (.solicitMove d a b) := by
  intro _
  show BitVec.extractLsb' 25 7 (0xe2#8 ++ d ++ a ++ b ++ 6#4 : BitVec (8 + 6 + 7 + 7 + 4)) = _
  simp (disch := omega) only [extract_high]; rfl
theorem solicitCommit (d : BitVec 6) (a : BitVec 7) (b : BitVec 7) : Statement (.solicitCommit d a b) := by
  intro _
  show BitVec.extractLsb' 25 7 (0xe2#8 ++ d ++ a ++ b ++ 7#4 : BitVec (8 + 6 + 7 + 7 + 4)) = _
  simp (disch := omega) only [extract_high]; rfl
theorem solicitReg (a : BitVec 7) (b : BitVec 7) : Statement (.solicitReg a b) := by
  intro _
  show BitVec.extractLsb' 25 7 (0x3880#14 ++ a ++ b ++ 8#4 : BitVec (14 + 7 + 7 + 4)) = _
  simp (disch := omega) only [extract_high]; rfl
theorem respond (a : BitVec 7) : Statement (.respond a) := by
  intro _
  show BitVec.extractLsb' 25 7 (0x3900#14 ++ a ++ 0#11 : BitVec (14 + 7 + 11)) = _
  simp (disch := omega) only [extract_high]; rfl
theorem censusWait (d : BitVec 6) (a : BitVec 7) : Statement (.censusWait d a) := by
  intro _
  show BitVec.extractLsb' 25 7 (0xe6#8 ++ d ++ a ++ 0#11 : BitVec (8 + 6 + 7 + 11)) = _
  simp (disch := omega) only [extract_high]; rfl
theorem censusPoll (d : BitVec 6) (a : BitVec 7) : Statement (.censusPoll d a) := by
  intro _
  show BitVec.extractLsb' 25 7 (0xe6#8 ++ d ++ a ++ 1#11 : BitVec (8 + 6 + 7 + 11)) = _
  simp (disch := omega) only [extract_high]; rfl
theorem trgpost (d : BitVec 6) (a : BitVec 7) : Statement (.trgpost d a) := by
  intro _
  show BitVec.extractLsb' 25 7 (0xe8#8 ++ d ++ a ++ 0#11 : BitVec (8 + 6 + 7 + 11)) = _
  simp (disch := omega) only [extract_high]; rfl
theorem trgcancel (d : BitVec 6) (a : BitVec 7) : Statement (.trgcancel d a) := by
  intro _
  show BitVec.extractLsb' 25 7 (0xe8#8 ++ d ++ a ++ 1#11 : BitVec (8 + 6 + 7 + 11)) = _
  simp (disch := omega) only [extract_high]; rfl
theorem ctradd (a : BitVec 7) (b : BitVec 7) : Statement (.ctradd a b) := by
  intro _
  show BitVec.extractLsb' 25 7 (0x3a80#14 ++ a ++ b ++ 0#4 : BitVec (14 + 7 + 7 + 4)) = _
  simp (disch := omega) only [extract_high]; rfl
theorem ctrwait (d : BitVec 6) (a : BitVec 7) (b : BitVec 7) : Statement (.ctrwait d a b) := by
  intro _
  show BitVec.extractLsb' 25 7 (0xea#8 ++ d ++ a ++ b ++ 1#4 : BitVec (8 + 6 + 7 + 7 + 4)) = _
  simp (disch := omega) only [extract_high]; rfl
theorem ctrwaitPoll (d : BitVec 6) (a : BitVec 7) : Statement (.ctrwaitPoll d a) := by
  intro _
  show BitVec.extractLsb' 25 7 (0xea#8 ++ d ++ a ++ 2#11 : BitVec (8 + 6 + 7 + 11)) = _
  simp (disch := omega) only [extract_high]; rfl
theorem ctrset (a : BitVec 7) (b : BitVec 7) : Statement (.ctrset a b) := by
  intro _
  show BitVec.extractLsb' 25 7 (0x3a80#14 ++ a ++ b ++ 3#4 : BitVec (14 + 7 + 7 + 4)) = _
  simp (disch := omega) only [extract_high]; rfl
theorem ctrseal (d : BitVec 6) (a : BitVec 7) : Statement (.ctrseal d a) := by
  intro _
  show BitVec.extractLsb' 25 7 (0xea#8 ++ d ++ a ++ 4#11 : BitVec (8 + 6 + 7 + 11)) = _
  simp (disch := omega) only [extract_high]; rfl
theorem taskadd (d : BitVec 6) (a : BitVec 7) : Statement (.taskadd d a) := by
  intro _
  show BitVec.extractLsb' 25 7 (0xec#8 ++ d ++ a ++ 0#11 : BitVec (8 + 6 + 7 + 11)) = _
  simp (disch := omega) only [extract_high]; rfl
theorem taskget (d : BitVec 6) : Statement (.taskget d) := by
  intro _
  show BitVec.extractLsb' 25 7 (0xec#8 ++ d ++ 0x30001#18 : BitVec (8 + 6 + 18)) = _
  simp (disch := omega) only [extract_high]; rfl
theorem taskgetPoll (d : BitVec 6) : Statement (.taskgetPoll d) := by
  intro _
  show BitVec.extractLsb' 25 7 (0xec#8 ++ d ++ 0x30801#18 : BitVec (8 + 6 + 18)) = _
  simp (disch := omega) only [extract_high]; rfl
theorem taskend : Statement .taskend := by intro _; rfl
theorem tasksteal (d : BitVec 6) (a : BitVec 7) : Statement (.tasksteal d a) := by
  intro _
  show BitVec.extractLsb' 25 7 (0xec#8 ++ d ++ a ++ 3#11 : BitVec (8 + 6 + 7 + 11)) = _
  simp (disch := omega) only [extract_high]; rfl
theorem barj (a : BitVec 7) (b : BitVec 7) : Statement (.barj a b) := by
  intro _
  show BitVec.extractLsb' 25 7 (0x3b80#14 ++ a ++ b ++ 0#4 : BitVec (14 + 7 + 7 + 4)) = _
  simp (disch := omega) only [extract_high]; rfl
theorem bar (a : BitVec 7) : Statement (.bar a) := by
  intro _
  show BitVec.extractLsb' 25 7 (0x3b80#14 ++ a ++ 1#11 : BitVec (14 + 7 + 11)) = _
  simp (disch := omega) only [extract_high]; rfl
theorem endS : Statement .endS := by intro _; rfl
theorem srr (d : BitVec 6) (b : BitVec 7) : Statement (.srr d b) := by
  intro _
  show BitVec.extractLsb' 25 7 (0xf2#8 ++ d ++ 0#7 ++ b ++ 0#4 : BitVec (8 + 6 + 7 + 7 + 4)) = _
  simp (disch := omega) only [extract_high]; rfl
theorem srw (d : BitVec 6) (b : BitVec 7) : Statement (.srw d b) := by
  intro _
  show BitVec.extractLsb' 25 7 (0xf2#8 ++ d ++ 0#7 ++ b ++ 1#4 : BitVec (8 + 6 + 7 + 7 + 4)) = _
  simp (disch := omega) only [extract_high]; rfl
theorem fence (s : BitVec 3) : Statement (.fence s) := by
  intro _
  show BitVec.extractLsb' 25 7 (0x1e800000#29 ++ s : BitVec (29 + 3)) = _
  simp (disch := omega) only [extract_high]; rfl
theorem trap (a : BitVec 7) : Statement (.trap a) := by
  intro _
  show BitVec.extractLsb' 25 7 (0x3d80#14 ++ a ++ 0#11 : BitVec (14 + 7 + 11)) = _
  simp (disch := omega) only [extract_high]; rfl
theorem tret : Statement .tret := by intro _; rfl
theorem nop : Statement .nop := by intro _; rfl
theorem imm (p : BitVec 22) : Statement (.imm p) := by
  intro _
  show BitVec.extractLsb' 25 7 (0x3f0#10 ++ p : BitVec (10 + 22)) = _
  simp (disch := omega) only [extract_high]; rfl
theorem mod (c : BitVec 2) (o : BitVec 2) (s : BitVec 3) (n : BitVec 1) (r : BitVec 3) : Statement (.mod c o s n r) := by
  intro _
  show BitVec.extractLsb' 25 7 (0x1f8800#21 ++ c ++ o ++ s ++ n ++ r : BitVec (21 + 2 + 2 + 3 + 1 + 3)) = _
  simp (disch := omega) only [extract_high]; rfl
theorem ext (g : BitVec 7) (e : BitVec 7) : Statement (.ext g e) := by
  intro _
  show BitVec.extractLsb' 25 7 (0x3f200#18 ++ g ++ e : BitVec (18 + 7 + 7)) = _
  simp (disch := omega) only [extract_high]; rfl
theorem sched (h : BitVec 1) (y : BitVec 1) : Statement (.sched h y) := by
  intro _
  show BitVec.extractLsb' 25 7 (0x3f300000#30 ++ h ++ y : BitVec (30 + 1 + 1)) = _
  simp (disch := omega) only [extract_high]; rfl
theorem chain (l : BitVec 3) : Statement (.chain l) := by
  intro _
  show BitVec.extractLsb' 25 7 (0x1fa00000#29 ++ l : BitVec (29 + 3)) = _
  simp (disch := omega) only [extract_high]; rfl
theorem chainAbandon : Statement .chainAbandon := none_of rfl
theorem gatherEnginePush : Statement .gatherEnginePush := none_of rfl
theorem collReply : Statement .collReply := none_of rfl
theorem collFlitHome : Statement .collFlitHome := none_of rfl
theorem rootFlit : Statement .rootFlit := none_of rfl
theorem unitAbandon : Statement .unitAbandon := none_of rfl
theorem solicitDelivery : Statement .solicitDelivery := none_of rfl
theorem commitDelivery : Statement .commitDelivery := none_of rfl
theorem coreAnswer : Statement .coreAnswer := none_of rfl
theorem latticeCommandExecute : Statement .latticeCommandExecute := none_of rfl
theorem sequencerDecision : Statement .sequencerDecision := none_of rfl
theorem kStep : Statement .kStep := none_of rfl
theorem kStepSumsLanded : Statement .kStepSumsLanded := none_of rfl
theorem operandFetch : Statement .operandFetch := none_of rfl
theorem stagingFetch : Statement .stagingFetch := none_of rfl
theorem amDeadlock : Statement .amDeadlock := none_of rfl
theorem regionWatchdog : Statement .regionWatchdog := none_of rfl
theorem teamAdmission : Statement .teamAdmission := none_of rfl
theorem teamRetirement : Statement .teamRetirement := none_of rfl
theorem teamSave : Statement .teamSave := none_of rfl
theorem teamResume : Statement .teamResume := none_of rfl
theorem missFill : Statement .missFill := none_of rfl
theorem tableWalk : Statement .tableWalk := none_of rfl
theorem copySegment : Statement .copySegment := none_of rfl
theorem copySectorArrival : Statement .copySectorArrival := none_of rfl
theorem streamFill : Statement .streamFill := none_of rfl
theorem streamDrain : Statement .streamDrain := none_of rfl
theorem pushItem : Statement .pushItem := none_of rfl
theorem calendarRelease : Statement .calendarRelease := none_of rfl
theorem leafPop : Statement .leafPop := none_of rfl
theorem fullLeafWatchdog : Statement .fullLeafWatchdog := none_of rfl
theorem regionLoad : Statement .regionLoad := none_of rfl
theorem regionFree : Statement .regionFree := none_of rfl
theorem scriptPkt : Statement .scriptPkt := none_of rfl
theorem partPkt : Statement .partPkt := none_of rfl
theorem pageansPkt : Statement .pageansPkt := none_of rfl
theorem waitPkt : Statement .waitPkt := none_of rfl
theorem signalPkt : Statement .signalPkt := none_of rfl
theorem indirectPkt : Statement .indirectPkt := none_of rfl
theorem launchPkt : Statement .launchPkt := none_of rfl
theorem launchiPkt : Statement .launchiPkt := none_of rfl
theorem tiletaskPkt : Statement .tiletaskPkt := none_of rfl
theorem copyPkt : Statement .copyPkt := none_of rfl
theorem streamPkt : Statement .streamPkt := none_of rfl
theorem fabricPut : Statement .fabricPut := none_of rfl
theorem fabricGet : Statement .fabricGet := none_of rfl
theorem fabricCtradd : Statement .fabricCtradd := none_of rfl
theorem fabricPause : Statement .fabricPause := none_of rfl
theorem fabricResume : Statement .fabricResume := none_of rfl
theorem hostxferPkt : Statement .hostxferPkt := none_of rfl
theorem nopPacket : Statement .nopPacket := none_of rfl
theorem packetCompletion : Statement .packetCompletion := none_of rfl
theorem coalescerMessage : Statement .coalescerMessage := none_of rfl
theorem teamResidencyLimit : Statement .teamResidencyLimit := none_of rfl
theorem taskRefill : Statement .taskRefill := none_of rfl
theorem taskHeadWatchdog : Statement .taskHeadWatchdog := none_of rfl
theorem taskCycleLimit : Statement .taskCycleLimit := none_of rfl
theorem taskLend : Statement .taskLend := none_of rfl
theorem taskCommit : Statement .taskCommit := none_of rfl
theorem leaseExpiry : Statement .leaseExpiry := none_of rfl
theorem propose : Statement .propose := none_of rfl
theorem pause : Statement .pause := none_of rfl
theorem cancel : Statement .cancel := none_of rfl
theorem gangResume : Statement .gangResume := none_of rfl
theorem gangPauseTimeout : Statement .gangPauseTimeout := none_of rfl
theorem sdgo : Statement .sdgo := none_of rfl
theorem shootdownComplete : Statement .shootdownComplete := none_of rfl
theorem l2ModeWrite : Statement .l2ModeWrite := none_of rfl
theorem l2ModeSwitchDone : Statement .l2ModeSwitchDone := none_of rfl
theorem acornOperation : Statement .acornOperation := none_of rfl
theorem acornLocalCompletion : Statement .acornLocalCompletion := none_of rfl
theorem flitReceive : Statement .flitReceive := none_of rfl
theorem linkAck : Statement .linkAck := none_of rfl
theorem linkReplay : Statement .linkReplay := none_of rfl
theorem linkDown : Statement .linkDown := none_of rfl
theorem remoteCompletion : Statement .remoteCompletion := none_of rfl
theorem scrub : Statement .scrub := none_of rfl
theorem fatalError : Statement .fatalError := none_of rfl
theorem attestGo : Statement .attestGo := none_of rfl
theorem huskvalidClear : Statement .huskvalidClear := none_of rfl
theorem coldReset : Statement .coldReset := none_of rfl
theorem warm : Statement .warm := none_of rfl
theorem start : Statement .start := none_of rfl
theorem doorbell : Statement .doorbell := none_of rfl
theorem restart : Statement .restart := none_of rfl
theorem semaphoreRead : Statement .semaphoreRead := none_of rfl
theorem semaphoreFree : Statement .semaphoreFree := none_of rfl
theorem hostLinkDown : Statement .hostLinkDown := none_of rfl
theorem hostInboundAccess : Statement .hostInboundAccess := none_of rfl
theorem registerWrite : Statement .registerWrite := none_of rfl
theorem islandClockDown : Statement .islandClockDown := none_of rfl
theorem islandClockUp : Statement .islandClockUp := none_of rfl
theorem clusterGate : Statement .clusterGate := none_of rfl
theorem clusterUngate : Statement .clusterUngate := none_of rfl
theorem opcodeNotInTable : Statement .opcodeNotInTable := none_of rfl
theorem latticeCommandCompletion : Statement .latticeCommandCompletion := none_of rfl
theorem moveRequest : Statement .moveRequest := none_of rfl
theorem proposeAnswer : Statement .proposeAnswer := none_of rfl
theorem quiescenceReport : Statement .quiescenceReport := none_of rfl
theorem resumeAcknowledgement : Statement .resumeAcknowledgement := none_of rfl

end Sys2Proof.Laws.Major
end

