-- ==== Sys2Proof/Tests/Slice0.lean ====
section
/-!
SUPPORT. Tests/Slice0.lean: tests. Words and results are those of the spec's worked encodings and examples, or follow by hand from the rule
that each test cites.
-/
namespace Sys2Proof.Tests
open Sys2Proof Sys2Proof.Machine

set_option Elab.async false

/-! ## Well-formedness: for each check a term that it refuses -/

theorem test_wf_refuses_codes :
    (Instr.cmpA 1 0 0 10).wf = false ∧ (Instr.cmpE 1 0 0 10).wf = false ∧ (Instr.atom 0 0 0 2 11).wf = false ∧ (Instr.atomq 0 0 76 2 11).wf = false ∧
    (Instr.cpyr 0 0 0 2 12).wf = false ∧ (Instr.vote 0 1 1 5).wf = false ∧ (Instr.votet 0 1 1 0 5).wf = false ∧ (Instr.reds 0 1 1 11).wf = false ∧
    (Instr.redt 0 1 1 11).wf = false ∧ (Instr.cvtmx 0 1 1 0 0 5).wf = false ∧ (Instr.mls 1 7).wf = false ∧ (Instr.mstream 1 1 12).wf = false ∧
    (Instr.mtile 1 1 1 7).wf = false ∧ (Instr.fence 6).wf = false ∧ (Instr.chain 7).wf = false := by decide +kernel

theorem test_wf_refuses_widths :
    (Instr.ldc 0 1 1 1 0 3).wf = false ∧ (Instr.ldx 0 1 1 1 0 3).wf = false ∧ (Instr.ldxRing 0 1 1 1 0 3).wf = false ∧ (Instr.stx 1 1 1 3).wf = false ∧
    (Instr.stxRing 1 1 1 3).wf = false ∧ (Instr.mulhE 0 1 1 1 0 3).wf = false ∧ (Instr.minE 0 1 1 1 0 3).wf = false ∧ (Instr.maxE 0 1 1 1 0 3).wf = false ∧
    (Instr.shlE 0 1 1 1 3).wf = false ∧ (Instr.shrE 0 1 1 1 3).wf = false ∧ (Instr.sarE 0 1 1 1 3).wf = false ∧ (Instr.rotE 0 1 1 1 3).wf = false ∧
    (Instr.clzE 0 1 1 3).wf = false ∧ (Instr.popcE 0 1 1 3).wf = false ∧ (Instr.fsgn 0 1 1 1 3 0).wf = false ∧ (Instr.cvt 0 1 1 1 7).wf = false ∧
    (Instr.cvtd 0 1 1 1 3).wf = false ∧ (Instr.argm 0 1 1 3 0).wf = false ∧ (Instr.amrd 0 1 1 1 3).wf = false := by decide +kernel

theorem test_wf_refuses_unused_fields :
    (Instr.addA 0 0 0 0).wf = false ∧ (Instr.qpushA 6 1 1).wf = false ∧ (Instr.fsgn 0 1 1 1 0 3).wf = false ∧ (Instr.cvtmx 0 1 1 1 0 0).wf = false ∧
    (Instr.votet 0 1 1 1 0).wf = false := by decide +kernel

/-! ## Words of the spec's tables and examples, family by family -/

/-- DIVS.i64 s5, s6, s7; ADD s0, s0, 4; BFX.S s6, s2, 12, 10 (R94, the example after R439). -/
theorem test_words_address_arithmetic :
    decodeWord 0x06143077 = .ok (.divs 5 6 7 7) ∧ decodeWord 0x02000004 = .ok (.addImmA 0 0 4) ∧ decodeWord 0x1018164C = .ok (.bfxSA 6 2 9 12) := by decide +kernel

/-- BR p1 (Worked encodings); PGREQ p2, s7 (program pattern search). -/
theorem test_words_address_control :
    decodeWord 0x207FFFE0 = .ok (.brA 1 0x3FFFE0) ∧ decodeWord 0x2E083800 = .ok (.pgreq 2 7) := by decide +kernel

/-- LDS, GATHQ.n8 q0, [t0 + q4], SCATQ.n32 q7, [t2 + q5]. -/
theorem test_words_address_memory :
    decodeWord 0x402105C2 = .ok (.lds 4 2 5 3 2) ∧ decodeWord 0x48004C00 = .ok (.gathq 0 0 76 0 0) ∧ decodeWord 0x4A394D80 = .ok (.scatq 2 77 2 0) := by decide +kernel

/-- ATOM.ADD.n64, ATOM.CAS.n64, ATOMQ.ADD.n32, AGGADD.ONE.n32 (Worked encodings of the memory chapter). -/
theorem test_words_atomics :
    decodeWord 0x4C1882C0 = .ok (.atom 3 1 2 3 0) ∧ decodeWord 0x4C3001C9 = .ok (.atom 6 0 1 3 9) ∧ decodeWord 0x4E024C80 = .ok (.atomq 0 4 76 2 0) ∧
    decodeWord 0x5009CC81 = .ok (.aggaddOne 1 3 76 2) := by decide +kernel

/-- LDC.n32 v5, v2, 4; STX.RING.n32 v7, v2, 0; LDC.n8 v13, v4, v8. -/
theorem test_words_lane_memory :
    decodeWord 0x5A141642 = .ok (.ldc 0 5 2 100 0 2) ∧ decodeWord 0x5E1C160A = .ok (.stxRing 7 2 96 2) ∧ decodeWord 0x5A342080 = .ok (.ldc 0 13 4 8 0 0) := by decide +kernel

/-- ADD.SAT.i32 v7, v7, b2; ADD.n32 v4, q0, 0; MAD.n32 v4, v2, 6; QPUSH q5, v12, f3. -/
theorem test_words_lane_integers :
    decodeWord 0x601C3C27 = .ok (.addE 0 7 7 66 1 3) ∧ decodeWord 0x60124602 = .ok (.addE 0 4 72 96 0 2) ∧ decodeWord 0x66101662 = .ok (.mad 0 4 2 102 0 2) ∧
    decodeWord 0x7E146003 = .ok (.qpushE 5 12 3) := by decide +kernel

/-- FFMA v3, v1, v2; FADD.RTZ v5, v4, q0; FCMP.LT f2, v1, 0. -/
theorem test_words_floats :
    decodeWord 0x840C0820 = .ok (.ffma 0 3 1 2 0) ∧ decodeWord 0x80142481 = .ok (.fadd 0 5 4 72 1) ∧ decodeWord 0x88080E02 = .ok (.fcmp 2 1 96 2) := by decide +kernel

/-- REDS.MIN.n32 v5, v5; COLL v5, v1, v2, k3. -/
theorem test_words_cross_lane :
    decodeWord 0xB4142809 = .ok (.reds 0 5 5 9) ∧ decodeWord 0xE0140823 = .ok (.coll 5 1 2 3) := by decide +kernel

/-- MERGE 7, MERGE.ARM 7, END, BARJ 3, s4, BAR 3, and RET and CALLI v4 of the E-stream. -/
theorem test_words_lane_control :
    decodeWord 0x3C000007 = .ok (.merge 7) ∧ decodeWord 0x3C000407 = .ok (.mergeArm 7) ∧ decodeWord 0xF0000000 = .ok .endS ∧
    decodeWord 0xEE031840 = .ok (.barj 99 4) ∧ decodeWord 0xEE031801 = .ok (.bar 99) ∧ decodeWord 0x3A000000 = .ok .retE ∧
    decodeWord 0x38002000 = .ok (.calliE 4) := by decide +kernel

/-- MSTREAM.FP8 s5, s6; MTILE.MXFP8 s3, s1, s2; AMALLOC s7; AMFREE s7; AMCLR s7; AMST s7, s9; AMRD.BF16 v8, v2, v3; MWAIT 0. -/
theorem test_words_lattice :
    decodeWord 0xC4002862 = .ok (.mstream 5 6 2) ∧ decodeWord 0xC60C0823 = .ok (.mtile 3 1 2 3) ∧ decodeWord 0xC81C0000 = .ok (.amalloc 7) ∧
    decodeWord 0xC8003801 = .ok (.amfree 7) ∧ decodeWord 0xCC003800 = .ok (.amclr 7) ∧ decodeWord 0xCC003892 = .ok (.amst 7 9) ∧
    decodeWord 0xCA201031 = .ok (.amrd 0 8 2 3 1) ∧ decodeWord 0xCE030000 = .ok (.mwait 96) := by decide +kernel

/-- CPY.n64 s4, [t2 + s6 + 64]; CPYM.n64 s8, [t0 + s3]; CPYR.FADD.f32 s4, [t2 + s6]; CPSEAL s3; CPWAIT s5, 0; STRM s4. -/
theorem test_words_copies :
    decodeWord 0x522106C8 = .ok (.cpy 4 2 6 3 8) ∧ decodeWord 0x544003C0 = .ok (.cpym 8 0 3 3 0) ∧ decodeWord 0x56210680 = .ok (.cpyr 4 2 6 2 0) ∧
    decodeWord 0xD00C0000 = .ok (.cpseal 3) ∧ decodeWord 0xD2140000 = .ok (.cpwait 5 0) ∧ decodeWord 0xD4002000 = .ok (.strm 4) := by decide +kernel

/-- RESPOND s3; CENSUS.WAIT s6, s1; the EXT hint of SOLICIT.SUM; TASKADD, TASKGET, TASKEND, TASKSTEAL; the counters and acorns (Tables 18-2 and 20-4). -/
theorem test_words_tasks_and_triggers :
    decodeWord 0xE4001800 = .ok (.respond 3) ∧ decodeWord 0xE6180800 = .ok (.censusWait 6 1) ∧ decodeWord 0xEC130000 = .ok (.taskadd 4 96) ∧
    decodeWord 0xEC230001 = .ok (.taskget 8) ∧ decodeWord 0xEC230801 = .ok (.taskgetPoll 8) ∧ decodeWord 0xEC000002 = .ok .taskend ∧
    decodeWord 0xEC201803 = .ok (.tasksteal 8 3) ∧ decodeWord 0xE8041000 = .ok (.trgpost 1 2) ∧ decodeWord 0xE8041001 = .ok (.trgcancel 1 2) ∧
    decodeWord 0xEA001030 = .ok (.ctradd 2 3) ∧ decodeWord 0xEA101031 = .ok (.ctrwait 4 2 3) ∧ decodeWord 0xEA101002 = .ok (.ctrwaitPoll 4 2) ∧
    decodeWord 0xEA001033 = .ok (.ctrset 2 3) ∧ decodeWord 0xEA041004 = .ok (.ctrseal 1 2) := by decide +kernel

/-- SRR and SRW, TRAP, TRET, NOP, FENCE.DEVICE, and the hints of the borderline words (the table after R79). -/
theorem test_words_system :
    decodeWord 0xF20C06D0 = .ok (.srr 3 109) ∧ decodeWord 0xF20C06D1 = .ok (.srw 3 109) ∧ decodeWord 0xF6002000 = .ok (.trap 4) ∧
    decodeWord 0xF6033800 = .ok (.trap 103) ∧ decodeWord 0xF6000001 = .ok .tret ∧ decodeWord 0xF8000000 = .ok .nop ∧ decodeWord 0xF4000004 = .ok (.fence 4) ∧
    decodeWord 0xFC000100 = .ok (.imm 0x100) ∧ decodeWord 0xFC4001C0 = .ok (.mod 0 3 4 0 0) ∧ decodeWord 0xFD000000 = .ok (.chain 0) := by decide +kernel

/-- A bit that an entry fixes at 0, a code it does not define, and majors that no instruction has (Table 4-8). -/
theorem test_words_refused :
    decodeWord 0xF8000010 = .reject 0x005 ∧ decodeWord 0xF8000001 = .reject 0x004 ∧ decodeWord 0xFE000000 = .reject 0x002 ∧ decodeWord 0x3E000000 = .reject 0x003 ∧
    decodeWord 0xFFFFFFFF = .reject 0x002 := by decide +kernel

/-! ## Single steps on a small state -/

/-- The state with a word placed for the next step, and the team of it changed. -/
def placed (w : Nat) (f : Team → Team) : State := (State.reset.withFetchWord 32 w).modTeam 0 f

/-- The team after the step. -/
def after (w : Nat) (f : Team → Team) : Option Team :=
  match step (placed w f) with
  | .next s => s.team? 0
  | _ => none

/-- Scalar register n of the placed team stands in physical register 31 − n. -/
def setS (n v : Nat) (t : Team) : Team := { t with a := { t.a with s := tabSetD 0 t.a.s (31 - n) (BitVec.ofNat 64 v) } }

/-- A scalar register after the step. -/
def sAfter (w : Nat) (f : Team → Team) (n : Nat) : Option DWord := (after w f).map fun t => tabGetD 0 t.a.s (31 - n)

/-- Lane register n of the placed team stands in physical register 31 − n. -/
def setV (l n v : Nat) (t : Team) : Team := { t with v := tabSetD 0 t.v (l * 1024 + 31 - n) (BitVec.ofNat 32 v) }

/-- A lane's register after the step. -/
def vAfter (w : Nat) (f : Team → Team) (l n : Nat) : Option Word := (after w f).map fun t => tabGetD 0 t.v (l * 1024 + 31 - n)

/-- The first result after R90: MULH.n64 s1, s2, s3 of 2^63 and 6 gives 3. -/
theorem test_mulh_n64 : sAfter ((2 <<< 25) + (1 <<< 18) + (2 <<< 11) + (3 <<< 4) + 11) (setS 2 (2 ^ 63) ∘ setS 3 6) 1 = some 3 := by decide +kernel

/-- The third: DIVS.i8 of 0x80 by 0xFF gives 0xFFFF_FFFF_FFFF_FF80. -/
theorem test_divs_i8_wraps : sAfter ((3 <<< 25) + (1 <<< 18) + (2 <<< 11) + (3 <<< 4) + 4) (setS 2 0x80 ∘ setS 3 0xFF) 1 = some 0xFFFFFFFFFFFFFF80 := by decide +kernel

/-- R86: ADD.i32 s1, s1, s1 of 0x4000_0000 wraps and is sign-extended; the source is the destination. -/
theorem test_add_i32_wraps : sAfter ((1 <<< 18) + (1 <<< 11) + (1 <<< 4) + 6) (setS 1 0x40000000) 1 = some 0xFFFFFFFF80000000 := by decide +kernel

/-- The example after R94: BFX.S s6, s2, 12, 10 of 0x30_5000. -/
theorem test_bfx_s : sAfter 0x1018164C (setS 2 0x305000) 6 = some 0xFFFFFFFFFFFFFF05 := by decide +kernel

/-- The example after R95: FSHR.Z s1, s2, s3 with d = 0xF000_0000_0000_0000, a = 0x0ABC, b = 0x103C gives 0xABCF. -/
theorem test_fshr_z : sAfter ((10 <<< 25) + (1 <<< 18) + (2 <<< 11) + (3 <<< 4) + 1) (setS 1 0xF000000000000000 ∘ setS 2 0xABC ∘ setS 3 0x103C) 1 = some 0xABCF := by
  decide +kernel

/-- R93: SAR.i8 by 9 gives 8 copies of the sign bit, sign-extended; SHL.n8 by 9 gives 0. -/
theorem test_shifts_past_width : sAfter ((6 <<< 25) + (1 <<< 18) + (2 <<< 11) + (105 <<< 4) + 8) (setS 2 0x80) 1 = some 0xFFFFFFFFFFFFFFFF ∧
    sAfter ((6 <<< 25) + (1 <<< 18) + (2 <<< 11) + (105 <<< 4) + 0) (setS 2 0x80) 1 = some 0 := by decide +kernel

/-- R99: LOOP p0 back by one word with s0 = 2 lowers s0 and branches; with s0 = 1 it does not. -/
theorem test_loop : (after 0x243FFFFF (setS 0 2)).map (fun t => t.a.pc) = some 0x10000 ∧ (after 0x243FFFFF (setS 0 1)).map (fun t => t.a.pc) = some 0x10008 ∧
    sAfter 0x243FFFFF (setS 0 2) 0 = some 1 := by decide +kernel

/-- R96: CMP.LT.i64 p1, s2, s3 of −1 and 0 sets p1; CMP.LT.n64 clears it. -/
theorem test_cmp_signs :
    (after ((13 <<< 25) + (1 <<< 18) + (2 <<< 11) + (3 <<< 4) + 2) (setS 2 (2 ^ 64 - 1))).map (fun t => t.a.p.getLsbD 1) = some true ∧
    (after ((13 <<< 25) + (1 <<< 18) + (2 <<< 11) + (3 <<< 4) + 4) (setS 2 (2 ^ 64 - 1))).map (fun t => t.a.p.getLsbD 1) = some false := by decide +kernel

/-- The example after R439: DIVS.i64 s5, s6, s7 by 0 takes the trap: CAUSE 0x1_0040, TRAPVAL 9, TRAPPC the instruction, the pc at the handler, and the handler's frame. -/
theorem test_trap_entry :
    let t := after 0x06143077 fun t => setS 6 9 { t with trap := { t.trap with tvec := 0x301 }, info := { t.info with
      kernel := { t.info.kernel with calls := [{ off := 0x300, fs := 4, fv := 0, estr := false }] } } }
    t.map (fun t => (t.trap.cause, t.trap.value, t.trap.pc)) = some (0x10040, 9, 0x10004) ∧ t.map (fun t => t.a.pc) = some 0x10300 ∧
    t.map (fun t => t.a.win.frames.head?.map (·.size)) = some (some 4) := by decide +kernel

/-- R102: TXL of an address on an unmapped page raises 0x081, and with no handler the team is terminated (R434). -/
theorem test_txl_unmapped : (after 0x2C081000 (setS 2 0x50000)).map (fun t => t.terminated) = some true := by decide +kernel

/-- R120: ADD.SAT.i32 v7, v7, v2 in lane 3: 0x7FFF_FFFF + 1 saturates; lane 4, without data, gives 0. -/
theorem test_add_sat : vAfter ((0x30 <<< 25) + (7 <<< 18) + (7 <<< 11) + (2 <<< 4) + 7) (setV 3 7 0x7FFFFFFF ∘ setV 3 2 1) 3 7 = some 0x7FFFFFFF ∧
    vAfter ((0x30 <<< 25) + (7 <<< 18) + (7 <<< 11) + (2 <<< 4) + 7) (setV 3 7 0x7FFFFFFF ∘ setV 3 2 1) 4 7 = some 0 := by decide +kernel

/-- R37: FADD v5, v4, v3 of 1.0 and 2.0 gives 3.0 in lane 31. -/
theorem test_fadd : vAfter ((0x40 <<< 25) + (5 <<< 18) + (4 <<< 11) + (3 <<< 4)) (setV 31 4 0x3F800000 ∘ setV 31 3 0x40000000) 31 5 = some 0x40400000 := by decide +kernel

/-- R124: CLZ.n8 of 0x10 is 3. -/
theorem test_clz_n8 : vAfter ((0x3B <<< 25) + (5 <<< 18) + (4 <<< 11)) (setV 0 4 0x10) 0 5 = some 3 := by decide +kernel

/-- R435: SRR s3, FSTAT reads the flags; SRW s3, FSTAT writes them. -/
theorem test_fstat : sAfter 0xF20C06D0 (fun t => { t with fstat := 1 }) 3 = some 1 ∧ (after 0xF20C06D1 (setS 3 1)).map (fun t => t.fstat) = some 1 := by decide +kernel

/-- R99: BR f0 back by one word moves the whole fragment. -/
theorem test_br_e : (after 0x323FFFFF id).map (fun t => t.frags.map fun f => f.2.pc) = some [0x10000] := by decide +kernel

/-- R204: END of the E-stream in its last fragment leaves no lane alive. -/
theorem test_end_e : (after 0xF0000000 fun t => { t with a := { t.a with ended := true } }).map (fun t => t.terminated) = some false := by decide +kernel

/-- R78: the word 0 raises 0x001 and takes no effect. -/
theorem test_word_zero : (after 0 id).map (fun t => t.terminated) = some true := by decide +kernel

end Sys2Proof.Tests
end

/-! ## The end of a lane instruction -/

namespace Sys2Proof.Machine

/-! ### Writing a v register in the lanes of a result -/

/-- A register has a key of its own in each lane. -/
theorem vKey_ne (p : Nat) {l m : Nat} (h : l ≠ m) : vKey l p ≠ vKey m p := by
  unfold vKey
  omega

theorem writeV_cons (t : Team) (p : Nat) (x : Nat × Word) (xs : Tab Word) :
    writeV t p (x :: xs) = writeV { t with v := tabSetD 0 t.v (vKey x.1 p) x.2 } p xs := rfl

/-- A result leaves every v register alone that is not the named one of one of its lanes. -/
theorem writeV_other (p k : Nat) (vals : Tab Word) : ∀ t : Team, (∀ x ∈ vals, k ≠ vKey x.1 p) →
    tabGetD 0 (writeV t p vals).v k = tabGetD 0 t.v k := by
  induction vals with
  | nil => exact fun _ _ => rfl
  | cons x xs ih =>
    intro t h
    obtain ⟨hx, hxs⟩ := List.forall_mem_cons.1 h
    rw [writeV_cons, ih _ hxs]
    exact tabGetD_tabSetD_other 0 t.v x.2 hx

/-- A result with one value for each of its lanes is read back in each. -/
theorem writeV_lane (p : Nat) (val : Nat → Word) (lanes : List Nat) : ∀ t : Team, lanes.Nodup → ∀ l ∈ lanes,
    tabGetD 0 (writeV t p (lanes.map fun l => (l, val l))).v (vKey l p) = val l := by
  induction lanes with
  | nil => simp
  | cons m ms ih =>
    intro t hn l hl
    obtain ⟨hm, hms⟩ := List.nodup_cons.1 hn
    rw [List.map_cons, writeV_cons]
    rcases List.mem_cons.1 hl with rfl | hl
    · have other : ∀ x ∈ ms.map fun l => (l, val l), vKey l p ≠ vKey x.1 p := by
        simp only [List.forall_mem_map]
        exact fun k hk => vKey_ne p fun e => hm (e ▸ hk)
      rw [writeV_other p _ _ _ other, tabGetD_tabSetD_same]
    · exact ih _ hms l hl

/-! ### The latches of a chain -/

/-- The latch of the pipe takes the result. -/
theorem Chain.latch_same (c : Chain) (pipe : Nat) (vals : Tab Word) : tabGet (c.latch pipe vals).latches pipe = some vals :=
  tabGet_tabSet_same _ _ _

/-- An ALU result moves b0 to b1 (R52). -/
theorem Chain.latch_moves_b0 {c : Chain} {old : Tab Word} (vals : Tab Word) (h : tabGet c.latches 0 = some old) :
    tabGet (c.latch 0 vals).latches 1 = some old := by
  simp [Chain.latch, h, tabGet_tabSet_other]

/-- The other latches stay, but for b1 at an ALU result. -/
theorem Chain.latch_other (c : Chain) {pipe k : Nat} (vals : Tab Word) (hk : k ≠ pipe) (h1 : pipe = 0 → k ≠ 1) :
    tabGet (c.latch pipe vals).latches k = tabGet c.latches k := by
  unfold Chain.latch
  rw [tabGet_tabSet_other _ _ hk]
  split
  · exact tabGet_tabSet_other _ _ (h1 rfl)
  · rfl

/-- A fragment after a lane instruction with a v result: in a chain, the latch of the pipe holds it (R52). -/
def Frag.latched (f : Frag) (pipe : Nat) (vals : Tab Word) : Frag := { f with chain := f.chain.map fun c => c.latch pipe vals }

/-- A fragment in no chain has no latch to write. -/
theorem Frag.latched_of_no_chain {f : Frag} {pipe : Nat} {vals : Tab Word} (h : f.chain = none) : f.latched pipe vals = f := by
  cases f
  simp_all [Frag.latched]

/-! ### What the end of a lane instruction leaves in a team -/

/-- The pops of a lane instruction change queues alone. -/
theorem popFields_eq (f : Frag) (fs : List (BitVec 7)) : ∀ t : Team, ∃ q, popFields t f fs = { t with q := q } := by
  induction fs with
  | nil => exact fun t => ⟨t.q, rfl⟩
  | cons x xs ih =>
    intro t
    simp only [popFields, List.foldl_cons]
    split
    · exact ih { t with q := _ }
    · exact ih t

/-- The flag registers after a lane instruction with a v result: f7 takes the residency bits where a queue was read (R118). -/
def residFlags (t : Team) (o : ELanes) : Tab Mask := match o.resid with | some m => (writeF t 7 o.frag.mask m).f | none => t.f

/-- Without a queue operand the flag registers stay. -/
theorem residFlags_none (t : Team) {o : ELanes} (h : o.resid = none) : residFlags t o = t.f := by
  simp [residFlags, h]

/-- With a queue operand f7 takes the residency bits in the lanes of the fragment. -/
theorem residFlags_f7 (t : Team) {o : ELanes} {m : Mask} (h : o.resid = some m) :
    tabGetD 0 (residFlags t o) 7 = (tabGetD 0 t.f 7 &&& ~~~o.frag.mask) ||| (m &&& o.frag.mask) := by
  simp [residFlags, h, writeF]

/-- No flag register but f7 changes. -/
theorem residFlags_other (t : Team) (o : ELanes) {k : Nat} (hk : k ≠ 7) : tabGetD 0 (residFlags t o) k = tabGetD 0 t.f k := by
  unfold residFlags
  split
  · simp [writeF, tabGetD_tabSetD_other _ _ _ hk]
  · rfl

/-- The delivery of a v result: it changes the queues, the flag registers, FSTAT, the random states, the v registers and the latches of
its fragment. -/
theorem deliverV_eq (i : Issue) (t : Team) (o : ELanes) (n : BitVec 1) (p pipe : Nat) (r : EResult) : ∃ q,
    deliverV i t o n p pipe r = { t with
      q := q, f := residFlags t o, fstat := t.fstat ||| r.flags,
      rng := r.rng.foldl (fun g x => tabSet g x.1 x.2) t.rng,
      v := if n = 1 then t.v else (writeV t p r.vals).v,
      frags := tabMod t.frags i.frag fun f => f.latched pipe r.vals } := by
  obtain ⟨q, hq⟩ := popFields_eq o.frag o.fields t
  refine ⟨q, ?_⟩
  unfold deliverV eFinish residFlags
  rw [hq]
  by_cases hn : n = 1
  · simp only [if_pos hn]
    cases o.resid <;> rfl
  · simp only [if_neg hn]
    cases o.resid <;> rfl

section Delivered
variable (i : Issue) (t : Team) (o : ELanes) (n : BitVec 1) (p pipe : Nat) (r : EResult)

@[simp] theorem deliverV_v : (deliverV i t o n p pipe r).v = if n = 1 then t.v else (writeV t p r.vals).v := by
  obtain ⟨q, h⟩ := deliverV_eq i t o n p pipe r
  rw [h]

@[simp] theorem deliverV_f : (deliverV i t o n p pipe r).f = residFlags t o := by
  obtain ⟨q, h⟩ := deliverV_eq i t o n p pipe r
  rw [h]

@[simp] theorem deliverV_fstat : (deliverV i t o n p pipe r).fstat = t.fstat ||| r.flags := by
  obtain ⟨q, h⟩ := deliverV_eq i t o n p pipe r
  rw [h]

@[simp] theorem deliverV_frags : (deliverV i t o n p pipe r).frags = tabMod t.frags i.frag fun f => f.latched pipe r.vals := by
  obtain ⟨q, h⟩ := deliverV_eq i t o n p pipe r
  rw [h]

/-- Without new random states, a delivery changes nothing but v registers, queues, flag registers, fragments and FSTAT. -/
theorem deliverV_rest (h : r.rng = []) :
    { deliverV i t o n p pipe r with v := [], q := [], f := [], frags := [], fstat := 0 } =
      { t with v := [], q := [], f := [], frags := [], fstat := 0 } := by
  obtain ⟨q, hq⟩ := deliverV_eq i t o n p pipe r
  rw [hq, h]
  rfl

end Delivered

/-- Settles O28, part by part of the team that the delivery leaves. -/
theorem laneDelivery : Obligations.LaneDelivery := by
  intro i u o n p pipe val fl _ hfrag hlanes w
  have hv : n = 0 → w.v = (writeV u p (o.lanes.map fun l => (l, val l))).v := fun hn => by simp [w, hn]
  have hf : w.f = residFlags u o := deliverV_f ..
  have hfrags : tabGet w.frags i.frag = some (o.frag.latched pipe (o.lanes.map fun l => (l, val l))) := by simp [w, hfrag]
  refine ⟨fun hn => ⟨fun l hl => ?_, fun k hk => ?_⟩, fun hn => ?_, deliverV_fstat .., fun hr => ?_, fun m hr => ?_, fun k hk => ?_,
    fun hc => ?_, fun c hc => ⟨c.latch pipe _, ?_, c.latch_same _ _, ?_, fun k hk h1 => c.latch_other _ hk h1⟩, fun k hk => ?_,
    deliverV_rest _ _ _ _ _ _ _ rfl⟩
  · rw [hv hn]
    exact writeV_lane p val o.lanes u hlanes l hl
  · rw [hv hn]
    exact writeV_other p k _ u (List.forall_mem_map.2 hk)
  · simp [w, hn]
  · rw [hf, residFlags_none u hr]
  · rw [hf, residFlags_f7 u hr]
  · rw [hf, residFlags_other u o hk]
  · rw [hfrags, Frag.latched_of_no_chain hc]
  · simp [hfrags, Frag.latched, hc]
  · rintro rfl x hx
    exact Chain.latch_moves_b0 _ hx
  · simp [w, tabGet_tabMod_other _ _ hk]

end Sys2Proof.Machine

/-! ## Conversions and function seeds -/

namespace Sys2Proof.Machine

/-! ### The issue of a lane instruction with a v result -/

/-- Where its operands are there and its destination is in reach, a lane instruction goes on with them. -/
theorem laneBody_eq {i : Issue} {u : Team} {core : Nat} {fs : ESources} {third : Option (BitVec 6)} {n : BitVec 1} {d : BitVec 6}
    {o : ELanes} {p : Nat} (k : ELanes → Nat → Act State) (ho : eOperands i u core fs third = .ok o) (hp : destV u o n d = .ok p) :
    (do let o ← eOperands i u core fs third
        let p ← destV u o n d
        k o p) = k o p := by
  simp [ho, hp, bind, Except.bind]

section VOp
variable {x : Instr} {s : State} {i : Issue} {t : Team} {o : ELanes} {n : BitVec 1} {d : BitVec 6} {fs : ESources} {third : Bool}
  {pipe p : Nat} {f : Issue → Team → ELanes → Act EResult}

/-- A lane instruction with a v result completes when its lanes have results. -/
theorem vOp_delivers {r : EResult} (h : Issuing x s i t)
    (ho : eOperands i (atIssue i t) (coreWord s i.core) fs (if third then some d else none) = .ok o)
    (hp : destV (atIssue i t) o n d = .ok p) (hr : f i (atIssue i t) o = .ok r) :
    vOp x n d fs third pipe f s = .next (doneWith s i (deliverV i (atIssue i t) o n p pipe r)) :=
  issue_team plain h ((laneBody_eq _ ho hp).trans (by simp [hr, bind, Except.bind]))

/-- A lane instruction with a v result whose lanes raise a cause traps. -/
theorem vOp_raises {c : Nat} {v : TrapValue} (h : Issuing x s i t)
    (ho : eOperands i (atIssue i t) (coreWord s i.core) fs (if third then some d else none) = .ok o)
    (hp : destV (atIssue i t) o n d = .ok p) (hr : f i (atIssue i t) o = raiseWith c v) :
    vOp x n d fs third pipe f s = .next (settle s i t {} (raiseWith c v)) :=
  issue_trap (v := some v) plain h ((laneBody_eq _ ho hp).trans (by simp [hr, bind, Except.bind, raiseWith]))

end VOp

/-! ### The results of the lanes -/

/-- The values of the lanes, each on its own, and their joined flags. -/
theorem eachLane_eq (o : ELanes) (f : Nat → Word × FpFlags) :
    eachLane o f = { vals := o.lanes.map fun l => (l, (f l).1), flags := Claims.joined o fun l => (f l).2 } := by
  simp [eachLane, Claims.joined, List.foldl_map, Function.comp_def]

/-- The values of the lanes, their joined flags and, in stochastic mode, their next random states. -/
theorem eachLaneRng_eq (t : Team) (o : ELanes) (rm : Nat) (f : Nat → DWord → (Word × FpFlags) × DWord) :
    eachLaneRng t o rm f = {
      vals := o.lanes.map fun l => (l, (f l (Claims.random t l)).1.1)
      flags := Claims.joined o fun l => (f l (Claims.random t l)).1.2
      rng := if rm = 4 then o.lanes.map fun l => (l, (f l (Claims.random t l)).2) else [] } := by
  have hrandom : rngState t = Claims.random t := rfl
  simp [eachLaneRng, Claims.joined, List.foldl_map, Function.comp_def, hrandom]

/-- A cause that no lane meets is not raised. -/
theorem laneCause_ok {o : ELanes} (cause : Nat) {bad : Nat → Bool} (h : ∀ l ∈ o.lanes, bad l = false) : laneCause o cause bad = .ok () := by
  have hnone : o.lanes.find? bad = none := List.find?_eq_none.2 fun l hl => by simp [h l hl]
  simp [laneCause, hnone]

/-- The lowest lane that meets a cause raises it. -/
theorem laneCause_raises {o : ELanes} (cause : Nat) {bad : Nat → Bool} {l : Nat} (h : o.lanes.find? bad = some l) :
    laneCause o cause bad = raiseWith cause { lane := some l, value := o.arg 1 l ++ o.arg 0 l } := by
  simp [laneCause, h]

/-! ### CVT, CVTF, CVTD and CVTMX -/

/-- The four conversions. -/
theorem conversion_cases {x : Instr} {r : Claims.Conversion} (h : Claims.conversion x = some r) :
    (∃ n d a b f, x = .cvt n d a b f) ∨ (∃ n d a b f, x = .cvtf n d a b f) ∨ (∃ n d a b m, x = .cvtd n d a b m) ∨
      ∃ n d a b q e, x = .cvtmx n d a b q e := by
  unfold Claims.conversion at h
  split at h
  · exact .inl ⟨_, _, _, _, _, rfl⟩
  · exact .inr (.inl ⟨_, _, _, _, _, rfl⟩)
  · exact .inr (.inr (.inl ⟨_, _, _, _, _, rfl⟩))
  · exact .inr (.inr (.inr ⟨_, _, _, _, _, _, rfl⟩))
  · cases h

/-! `exec` at each of the four. -/

theorem exec_cvt (n : BitVec 1) (d : BitVec 6) (a b : BitVec 7) (f : BitVec 4) : exec (.cvt n d a b f) = execCvt n d a b f := rfl
theorem exec_cvtf (n : BitVec 1) (d : BitVec 6) (a b : BitVec 7) (f : BitVec 4) : exec (.cvtf n d a b f) = execCvtf n d a b f := rfl
theorem exec_cvtd (n : BitVec 1) (d : BitVec 6) (a b : BitVec 7) (r : BitVec 2) : exec (.cvtd n d a b r) = execCvtd n d a b r := rfl
theorem exec_cvtmx (n : BitVec 1) (d : BitVec 6) (a b : BitVec 7) (q : BitVec 1) (e : BitVec 3) :
    exec (.cvtmx n d a b q e) = execCvtmx n d a b q e := rfl

/-- Where every active lane describes an element, CVTD raises neither cause. -/
theorem cvtd_causes_ok {n : BitVec 1} {d : BitVec 6} {a b : BitVec 7} {m : BitVec 2} {o : ELanes} (h : Claims.described (.cvtd n d a b m) o) :
    laneCause o 0x049 (fun l => (cvtdElem (o.arg 0 l) (o.arg 1 l)).isNone) = .ok () ∧
      laneCause o 0x048 (fun l => cvtdElem (o.arg 0 l) (o.arg 1 l) == some (.ternary, 2)) = .ok () := by
  refine ⟨laneCause_ok _ fun l hl => ?_, laneCause_ok _ fun l hl => ?_⟩
  · obtain ⟨k, e, he, _⟩ := h l hl
    simp [he]
  · obtain ⟨k, e, he, hk⟩ := h l hl
    simp_all

/-- A conversion whose operands raise no cause completes. -/
theorem conversion_delivers {x : Instr} {r : Claims.Conversion} {s : State} {i : Issue} {t : Team} {o : ELanes} {p : Nat}
    (hx : Claims.conversion x = some r) (h : Issuing x s i t)
    (ho : eOperands i (atIssue i t) (coreWord s i.core) (r.fields i.hint) none = .ok o) (hp : destV (atIssue i t) o r.n r.d = .ok p)
    (hd : Claims.described x o) :
    exec x s = .next (doneWith s i (deliverV i (atIssue i t) o r.n p 2 (eachLaneRng (atIssue i t) o (roundOf i.hint).1 (r.value i.hint o)))) := by
  rcases conversion_cases hx with ⟨n, d, a, b, f, rfl⟩ | ⟨n, d, a, b, f, rfl⟩ | ⟨n, d, a, b, m, rfl⟩ | ⟨n, d, a, b, q, e, rfl⟩ <;>
    cases hx
  case inl =>
    rw [exec_cvt]
    exact vOp_delivers (third := false) h ho hp rfl
  case inr.inl =>
    rw [exec_cvtf]
    exact issue_team plain h ((laneBody_eq _ ho hp).trans (congrArg Except.ok (State.setTeam_setTeam ..)))
  case inr.inr.inl =>
    obtain ⟨h49, h48⟩ := cvtd_causes_ok hd
    rw [exec_cvtd]
    exact vOp_delivers (third := false) h ho hp (by simp only [h49, h48]; rfl)
  case inr.inr.inr =>
    rw [exec_cvtmx]
    refine vOp_delivers (third := false) h ho hp (congrArg (fun g => Except.ok (eachLaneRng (atIssue i t) o (roundOf i.hint).1 g)) ?_)
    funext l
    by_cases hq : q = 0
    · simp only [if_pos hq]
    · simp only [if_neg hq]

/-- CVTD raises 0x049 at the lowest active lane whose format is reserved. -/
theorem cvtd_reserved {n : BitVec 1} {d : BitVec 6} {a b : BitVec 7} {m : BitVec 2} {s : State} {i : Issue} {t : Team} {o : ELanes}
    {p l : Nat} (h : Issuing (.cvtd n d a b m) s i t)
    (ho : eOperands i (atIssue i t) (coreWord s i.core) [(a, .int), (b, .int)] none = .ok o) (hp : destV (atIssue i t) o n d = .ok p)
    (hl : o.lanes.find? (fun l => (cvtdElem (o.arg 0 l) (o.arg 1 l)).isNone) = some l) :
    exec (.cvtd n d a b m) s = .next (settle s i t {} (raiseWith 0x049 { lane := some l, value := o.arg 1 l ++ o.arg 0 l })) := by
  rw [exec_cvtd]
  exact vOp_raises (third := false) h ho hp (by simp [laneCause_raises _ hl, bind, Except.bind, raiseWith])

/-- CVT, CVTF, CVTD and CVTMX: what they deliver, and the cause of a reserved format. -/
theorem conversions_complete : Claims.LaneConversions := by
  intro x r s i t o p hx h ho hp
  refine ⟨fun hd => ?_, ?_⟩
  · rw [conversion_delivers hx h ho hp hd, eachLaneRng_eq]
  · rintro n d a b m l rfl hl
    cases hx
    exact cvtd_reserved h ho hp hl

/-! ### The seeds -/

/-- The six seed instructions. -/
theorem seed_cases {x : Instr} {n : BitVec 1} {d : BitVec 6} {a : BitVec 7} (h : Claims.seed x = some (n, d, a)) :
    x = .rcps n d a ∨ x = .rsqs n d a ∨ x = .exps n d a ∨ x = .logs n d a ∨ x = .sins n d a ∨ x = .coss n d a := by
  unfold Claims.seed at h
  split at h <;> cases h <;> simp

/-- The function of Table 6-8 that a seed instruction computes where its operand is no NaN. -/
def seedTable : Instr → Word → Fp → Word × FpFlags
  | .rcps .. => seedRcp
  | .rsqs .. => seedRsq
  | .exps .. => seedExp
  | .logs .. => seedLog
  | .sins .. => seedSin
  | .coss .. => seedCos
  | _ => fun _ _ => (0, 0)

/-- What a seed instruction computes of the word of a lane. -/
def seedLane (f : Word → Fp → Word × FpFlags) (w : Word) : Word × FpFlags :=
  let v := fpDecode .f32 w.toNat
  match v with
  | .nan neg sig => (BitVec.ofNat 32 (fpNan .f32 neg).1, if sig then flagNV else 0)
  | _ => f w v

/-- A seed instruction completes on every operand, each lane's result depending on its own operand alone. -/
theorem seedE_computes {x : Instr} {n : BitVec 1} {d : BitVec 6} {a : BitVec 7} {f : Word → Fp → Word × FpFlags}
    (hx : exec x = seedE x n d a f) : Claims.computes x ⟨n, d, [(a, .f32)], false, 3, fun _ _ v => seedLane f (v 0)⟩ := by
  intro s i t o p h ho hp
  unfold Claims.delivers
  rw [hx, ← eachLane_eq o fun l => seedLane f (o.arg 0 l)]
  exact vOp_delivers h ho hp rfl

/-- A seed instruction computes the function of its table. -/
theorem exec_seed {x : Instr} {n : BitVec 1} {d : BitVec 6} {a : BitVec 7} (h : Claims.seed x = some (n, d, a)) :
    exec x = seedE x n d a (seedTable x) := by
  rcases seed_cases h with rfl | rfl | rfl | rfl | rfl | rfl <;> rfl

/-- The NaN of R17. -/
theorem fpNan_f32 (neg : Bool) : BitVec.ofNat 32 (fpNan .f32 neg).1 = if neg then 0xFFC00000 else 0x7FC00000 := by
  cases neg <;> rfl

/-- The seed of a NaN: the NaN of its sign, with NV for a signalling one. -/
theorem seedValue_nan {x : Instr} {n : BitVec 1} {d : BitVec 6} {a : BitVec 7} (h : Claims.seed x = some (n, d, a)) (neg sig : Bool) :
    Claims.seedValue x (.nan neg sig) = some (if neg then 0xFFC00000 else 0x7FC00000, if sig then flagNV else 0) := by
  rcases seed_cases h with rfl | rfl | rfl | rfl | rfl | rfl <;> rfl

section SeedValues
variable {x : Instr} {n : BitVec 1} {d : BitVec 6} {a : BitVec 7} {w : Word} {r : Word × FpFlags}

/-- The seeds of the infinities. -/
theorem seedTable_inf (h : Claims.seed x = some (n, d, a)) {neg : Bool} (hr : Claims.seedValue x (.inf neg) = some r) :
    seedTable x w (.inf neg) = r := by
  rcases seed_cases h with rfl | rfl | rfl | rfl | rfl | rfl <;> cases neg <;> cases hr <;> rfl

/-- The seeds of the zeros. -/
theorem seedTable_zero (h : Claims.seed x = some (n, d, a)) {neg : Bool} {e : Int} (hr : Claims.seedValue x (.fin neg 0 e) = some r) :
    seedTable x w (.fin neg 0 e) = r := by
  rcases seed_cases h with rfl | rfl | rfl | rfl | rfl | rfl <;> cases hr <;> rfl

/-- No seed is given for the other numbers. -/
theorem seedValue_nonzero (h : Claims.seed x = some (n, d, a)) (neg : Bool) (m : Nat) (e : Int) :
    Claims.seedValue x (.fin neg (m + 1) e) = none := by
  rcases seed_cases h with rfl | rfl | rfl | rfl | rfl | rfl <;> rfl

/-- A seed instruction gives the seeds of the zeros, the infinities and the NaNs. -/
theorem seedLane_value (h : Claims.seed x = some (n, d, a)) (hr : Claims.seedValue x (fpDecode .f32 w.toNat) = some r) :
    seedLane (seedTable x) w = r := by
  unfold seedLane
  generalize fpDecode .f32 w.toNat = v at hr
  cases v with
  | nan neg sig =>
    rw [seedValue_nan h] at hr
    cases hr
    simp only [fpNan_f32]
  | inf neg => exact seedTable_inf h hr
  | fin neg m e =>
    cases m with
    | zero => exact seedTable_zero h hr
    | succ m => simp [seedValue_nonzero h] at hr

end SeedValues

/-- Each seed instruction completes with the function of its table. -/
theorem laneSeeds : Claims.LaneSeeds := fun x _ _ _ h =>
  ⟨seedLane (seedTable x), seedE_computes (exec_seed h), fun _ _ hr => seedLane_value h hr⟩

/-- Settles O33, the seeds and the conversions. -/
theorem laneConversions : Obligations.LaneConversions := ⟨laneSeeds, conversions_complete⟩

end Sys2Proof.Machine

/-! ## The A-stream's entries in the queues -/

namespace Sys2Proof.Machine

/-! ### How entries join and leave the queues -/

/-- A replaced queue is read back. -/
@[simp] theorem Team.setQueue_queue_same (t : Team) (q : Nat) (x : Queue) : (t.setQueue q x).queue q = x :=
  tabGetD_tabSetD_same _ t.q q x

/-- The replacement of a queue leaves every other queue alone. -/
theorem Team.setQueue_queue_other (t : Team) {q k : Nat} (x : Queue) (h : k ≠ q) : (t.setQueue q x).queue k = t.queue k :=
  tabGetD_tabSetD_other _ t.q x h

/-- Where every entry still has a lane to pop it, none retires. -/
theorem retireEntries_pending : ∀ {es : List QEntry}, (∀ e ∈ es, e.pend ≠ 0) → retireEntries es = es
  | [], _ => rfl
  | _ :: _, h => if_neg (h _ (List.mem_cons_self ..))

/-- The queue that an entry of the A-stream joins. -/
theorem pushAtoE_queue (t : Team) (q : Nat) (e : QEntry) : (pushAtoE t q e).queue q =
    { t.queue q with entries := retireEntries ((t.queue q).entries ++ [{ e with pend := t.live }]) } :=
  t.setQueue_queue_same q _

/-- The queue that an entry for the A-stream leaves. -/
theorem dropEtoA_queue (t : Team) (q : Nat) :
    (dropEtoA t q).queue q = { t.queue q with entries := (t.queue q).entries.tail } :=
  t.setQueue_queue_same q _

/-- While a lane lives and no entry is used up, an entry of the A-stream goes behind the others. -/
theorem pushAtoE_entries {t : Team} {q : Nat} (e : QEntry) (hlive : t.live ≠ 0) (hpend : ∀ x ∈ (t.queue q).entries, x.pend ≠ 0) :
    ((pushAtoE t q e).queue q).entries = (t.queue q).entries ++ [{ e with pend := t.live }] := by
  rw [pushAtoE_queue]
  refine retireEntries_pending fun x hx => ?_
  rcases List.mem_append.1 hx with hx | hx
  · exact hpend x hx
  · rwa [List.mem_singleton.1 hx]

/-- Entries join at the tail and leave at the head of one queue; nothing else of the team changes. -/
theorem queueEnds : Claims.QueueEnds := fun t q e =>
  ⟨pushAtoE_entries e, by rw [pushAtoE_queue], by rw [dropEtoA_queue], by rw [dropEtoA_queue],
    fun _ hk => ⟨t.setQueue_queue_other _ hk, t.setQueue_queue_other _ hk⟩, rfl, rfl⟩

/-! ### QPUSH of the A-stream -/

/-- `exec` at QPUSH of the A-stream. -/
theorem exec_qpushA (d : BitVec 6) (a b : BitVec 7) : exec (.qpushA d a b) = execQpushA d a b := rfl

/-- A table filled from a list of keys, each with its own value, reads that value at the keys of the list and is unchanged elsewhere. -/
theorem tabGetD_foldl_tabSetD {α : Type} [DecidableEq α] (d : α) (f : Nat → α) (k : Nat) : ∀ (ls : List Nat) (m : Tab α),
    tabGetD d (ls.foldl (fun m l => tabSetD d m l (f l)) m) k = if k ∈ ls then f k else tabGetD d m k
  | [], m => by simp
  | l :: ls, m => by
    rw [List.foldl_cons, tabGetD_foldl_tabSetD d f k ls]
    by_cases hk : k ∈ ls
    · simp [hk]
    · by_cases hl : k = l
      · subst hl
        simp
      · simp [hk, hl, tabGetD_tabSetD_other]

/-- The value of one lane of QPUSH: the low 32 bits of a + L × b (R114). -/
theorem qpush_lane_value (v w : DWord) (k : Nat) :
    BitVec.ofNat 64 ((v.toNat + k * w.toNat) % 2 ^ 32) = ((v + BitVec.ofNat 64 k * w).setWidth 32).setWidth 64 := by
  have sum : BitVec.ofNat 64 (v.toNat + k * w.toNat) = v + BitVec.ofNat 64 k * w := by
    simp only [BitVec.ofNat_add, BitVec.ofNat_mul, BitVec.ofNat_toNat, BitVec.setWidth_eq]
  rw [← sum]
  apply BitVec.eq_of_toNat_eq
  simp only [BitVec.toNat_ofNat, BitVec.toNat_setWidth]
  omega

/-- A declared queue of the right direction may be named. -/
theorem queueCause_ok {t : Team} {q : Nat} {ok : Bool} (hok : ok = true) (hcap : (t.queue q).cap ≠ 0) : queueCause t q ok = .ok () := by
  simp [queueCause, raiseIf, hok, hcap, bind, Except.bind]

/-- A queue with room is not waited for. -/
theorem awaitRoom_ok {t : Team} {q : Nat} (h : hasRoom t q = true) : awaitRoom t q = .ok () := if_pos h

/-- The entry that QPUSH of the A-stream makes for a queue of the team `t` (R55, R114). -/
def qpushEntry (t : Team) (q : Nat) (v w : DWord) : QEntry :=
  if q = 6 then uniformEntry v false
  else { vals := (maskLanes t.info.lanes t.live).foldl (fun m l =>
    tabSetD 0 m l (BitVec.ofNat 64 ((v.toNat + l * w.toNat) % 2 ^ 32))) [] }

/-- The lanes that live, and no others, have a value in an entry of q0 to q3. -/
theorem qpushEntry_lane {t : Team} {q : Nat} (v w : DWord) (hq : q ≠ 6) (k : Nat) : tabGetD 0 (qpushEntry t q v w).vals k =
    if k < t.info.lanes ∧ t.live.getLsbD k then ((v + BitVec.ofNat 64 k * w).setWidth 32).setWidth 64 else 0 := by
  have hmem : k ∈ maskLanes t.info.lanes t.live ↔ k < t.info.lanes ∧ t.live.getLsbD k := by simp [maskLanes]
  rw [qpushEntry, if_neg hq, tabGetD_foldl_tabSetD, qpush_lane_value]
  exact if_congr hmem rfl rfl

/-- QPUSH of the A-stream into a declared queue with room, for which the gather engine holds nothing, pushes its entry. -/
theorem qpushA_pushes {d : BitVec 6} {a b : BitVec 7} {s : State} {i : Issue} {t : Team} {v w : DWord}
    (h : Issuing (.qpushA d a b) s i t) (ha : i.stream = .a) (hq : (decide (d.toNat < 4) || d.toNat == 6) = true)
    (htakes : Claims.takes t d.toNat) (hgather : ∀ g ∈ t.gather, g.q ≠ d.toNat)
    (hv : sourceA i (atIssue i t) (coreWord s i.core) a = .ok v)
    (hw : d.toNat ≠ 6 → sourceA i (atIssue i t) (coreWord s i.core) b = .ok w) :
    exec (.qpushA d a b) s = .next (doneWith s i (pushAtoE (atIssue i t) d.toNat (qpushEntry (atIssue i t) d.toNat v w))) := by
  obtain ⟨hcap, hroom⟩ := htakes
  have hu : atIssue i t = t.advance .a := congrArg t.advance ha
  have named : queueCause (atIssue i t) d.toNat (decide (d.toNat < 4) || d.toNat == 6) = .ok () :=
    queueCause_ok hq (hu ▸ hcap)
  have room : awaitRoom (atIssue i t) d.toNat = .ok () := awaitRoom_ok (hu ▸ hroom)
  have idle : waitWhile ((atIssue i t).gather.any (·.q = d.toNat)) (.queue d.toNat) = .ok () := if_neg (by simpa [hu] using hgather)
  have core : coreWord (s.setTeam i.wid (atIssue i t)) i.core = coreWord s i.core := rfl
  rw [exec_qpushA]
  refine issue_team plain h ?_
  by_cases h6 : d.toNat = 6
  · simp only [named, room, idle, core, hv, if_pos h6, qpushEntry, State.setTeam_setTeam, bind, Except.bind]
  · simp only [named, room, idle, core, hv, hw h6, if_neg h6, qpushEntry, State.setTeam_setTeam, bind, Except.bind]

/-- QPUSH of the A-stream: a uniform entry in q6, and one with a value for each lane that lives in q0 to q3. -/
theorem queuePush : Claims.QueuePush := by
  intro s i t d a b v w u h ha htakes hgather hv
  refine ⟨?_, fun hd hw => ⟨qpushEntry u d.toNat v w, ?_, ?_⟩⟩
  · rintro rfl
    exact qpushA_pushes (w := 0) h ha rfl htakes hgather hv (absurd rfl)
  · exact qpushA_pushes h ha (by simp [hd]) htakes hgather hv fun _ => hw
  · have h6 : d.toNat ≠ 6 := by omega
    have hlive : u.live = t.live := by simp only [u, atIssue, ha]; rfl
    refine ⟨by simp [qpushEntry, h6], by simp [qpushEntry, h6], fun k => ?_⟩
    rw [qpushEntry_lane v w h6, hlive]
    simp [u, atIssue]

/-- Settles O24, QPUSH and the queues that it pushes into. -/
theorem queueEntries : Obligations.QueueEntries := ⟨queuePush, queueEnds⟩

end Sys2Proof.Machine

/-! ## System registers -/

namespace Sys2Proof.Machine

/-! `exec` at SRR and SRW. -/

theorem exec_srr (d : BitVec 6) (b : BitVec 7) : exec (.srr d b) = execSrr d b := rfl
theorem exec_srw (d : BitVec 6) (b : BitVec 7) : exec (.srw d b) = execSrw d b := rfl

/-! ### The register that a word names -/

/-- The number of the register that field b names. -/
theorem srNumber_eq {b : BitVec 7} {n : Nat} (h : b.toNat = 96 + n) : srNumber b = n := by
  unfold srNumber
  omega

/-- The numbers that Table 3-4 gives a scope are those that it gives a value. -/
theorem srKind_isSome (s : State) (i : Issue) (u : Team) (n : Nat) : (srKind n).isSome = (Claims.systemRegister s i u n).isSome := by
  unfold srKind
  split
  -- A number that Table 3-4 does not list.
  case h_20 => simp [Claims.systemRegister]
  all_goals rfl

/-- A number that is not listed raises 0x012. -/
theorem srCheck_unlisted {n : Nat} (estr : Bool) (h : srKind n = none) : srCheck estr n = raise 0x012 := by
  simp only [srCheck, h]

/-- A listed register may be named by the streams in its scope, and raises 0x017 in the others. -/
theorem srCheck_listed {n : Nat} (estr : Bool) (h : (srKind n).isSome) :
    srCheck estr n = if Claims.inScope estr n then .ok () else raise 0x017 := by
  unfold srKind at h
  split at h
  case h_20 => cases h
  all_goals cases estr <;> rfl

/-- The listed registers that may be written are those that are not read only. -/
theorem srKind_readOnly {n : Nat} (h : (srKind n).isSome) : (srKind n).any (·.2) = !Claims.writable n := by
  unfold srKind at h
  split at h
  case h_20 => cases h
  all_goals rfl

/-! ### The value of a register -/

/-- TEAMID: the team's sequence number above its slot. -/
theorem teamIdWord_eq (t : Team) (wid : Nat) :
    BitVec.ofNat 64 (teamIdWord t wid) = t.info.seq.setWidth 48 ++ BitVec.ofNat 16 (wid % 16) := by
  have hseq : t.info.seq.toNat < 2 ^ 32 := t.info.seq.isLt
  apply BitVec.eq_of_toNat_eq
  rw [BitVec.toNat_append, ← Nat.shiftLeft_add_eq_or_of_lt (BitVec.isLt _), BitVec.toNat_ofNat, BitVec.toNat_setWidth,
    BitVec.toNat_ofNat, teamIdWord]
  omega

/-- A register of the current fragment is read from `Claims.fragOf`, an absent fragment giving 0. -/
theorem fragOf_elim (i : Issue) (u : Team) {g : Frag → Nat} (h : g { mask := 0, pc := 0, win := {}, partn := 0 } = 0) :
    (tabGet u.frags i.frag).elim 0 g = g (Claims.fragOf i u) := by
  unfold Claims.fragOf
  cases tabGet u.frags i.frag with
  | none => exact h.symm
  | some f => rfl

/-- AMCTL: a bit for each tile held, and the quota. -/
theorem amctlWord_eq (s : State) (wid : Nat) (t : Team) :
    amctlWord s wid t = ((heldTiles (s.core (coreOf wid)) wid).map fun k => 2 ^ k).sum + t.info.amq * 2 ^ 16 := by
  rw [amctlWord, List.sum_eq_foldl, List.foldl_map]

/-- A listed register reads as the value that Table 3-4 gives it. -/
theorem srRead_eq {s : State} {i : Issue} {u : Team} {n : Nat} {v : DWord} (h : Claims.systemRegister s i u n = some v) :
    srRead s i u n = v := by
  unfold Claims.systemRegister at h
  split at h
  case h_20 => cases h
  all_goals cases h
  -- TEAMID, PARTN, VWBASE and AMCTL; the others read as they are written in the table.
  case h_1 => exact teamIdWord_eq u i.wid
  case h_4 => exact (congrArg (BitVec.ofNat 64) (fragOf_elim i u rfl)).trans (BitVec.ofNat_toNat ..)
  case h_6 => exact congrArg (BitVec.ofNat 64) (fragOf_elim i u rfl)
  case h_13 => exact congrArg (BitVec.ofNat 64) (amctlWord_eq s i.wid u)
  all_goals rfl

/-- A register is read from the team at hand, not from its slot. -/
theorem srRead_setTeam (s : State) (w : Nat) (t : Team) (i : Issue) (u : Team) (n : Nat) :
    srRead (s.setTeam w t) i u n = srRead s i u n := rfl

/-! ### Writing a register -/

/-- The bits of a word from `k` up are 0 exactly where the word is below 2 ^ `k`. -/
theorem extract_top_eq_zero {k l : Nat} (h : k + l = 64) (v : DWord) : v.extractLsb' k l = 0 ↔ v.toNat < 2 ^ k := by
  have hv : v.toNat / 2 ^ k < 2 ^ l := Nat.div_lt_of_lt_mul (by rw [← pow_add, h]; exact v.isLt)
  rw [← BitVec.toNat_inj, BitVec.extractLsb'_toNat, Nat.shiftRight_eq_div_pow, Nat.mod_eq_of_lt hv]
  exact Nat.div_eq_zero_iff.trans (or_iff_right (by positivity))

/-- A value is refused for a register where it sets a reserved bit or gives a reserved value. -/
theorem srBadValue_eq_false_iff (n : Nat) (v : DWord) : srBadValue n v = false ↔ Claims.permitted n v := by
  unfold srBadValue
  split
  case h_1 =>
    have hzero : v = 0 ↔ v.toNat = 0 := BitVec.toNat_inj.symm
    simp only [Claims.permitted, Bool.or_eq_false_iff, beq_eq_false_iff_ne, ne_eq, hzero, decide_eq_false_iff_not]
    omega
  case h_2 => exact decide_eq_false_iff_not.trans (Nat.not_le.trans (extract_top_eq_zero rfl v).symm)
  case h_3 =>
    have hfield : bitsOf v.toNat 31 28 = (v.extractLsb' 28 4).toNat := (BitVec.extractLsb'_toNat ..).symm
    rw [bne_eq_false_iff_eq, hfield]
    exact BitVec.toNat_inj (x := v.extractLsb' 28 4) (y := 0)
  case h_4 => exact decide_eq_false_iff_not.trans (Nat.not_le.trans (extract_top_eq_zero rfl v).symm)
  case h_5 => simp [Claims.permitted, bit]
  case h_6 => simp [Claims.permitted]

/-- What a write of a system register leaves. -/
theorem srWrite_eq (i : Issue) (u : Team) (n : Nat) (v : DWord) : srWrite i u n v = Claims.systemWritten i u n v := by
  unfold srWrite
  split
  case h_8 => simp [Claims.systemWritten]
  all_goals rfl

/-! ### SRR and SRW -/

/-- A scalar register in reach of the window is read. -/
theorem readS_eq {u : Team} {n p : Nat} (h : u.a.win.reg 256 n = .ok p) : readS u n = .ok (tabGetD 0 u.a.s p) := by
  simp [readS, h, bind, Except.bind]

/-- A scalar register in reach of the window is written. -/
theorem writeS_eq {u : Team} {n p : Nat} (v : DWord) (h : u.a.win.reg 256 n = .ok p) : writeS u n v = .ok (Claims.setS u p v) := by
  simp only [writeS, h, bind, Except.bind]
  rfl

/-- An access waits for no Lattice command unless it is one of FSTAT. -/
theorem awaitFlags_ok {u : Team} {n : Nat} (h : n = 0x0D → latticeBusy u = false) : awaitFlags u n = .ok () := by
  refine if_neg ?_
  simpa using h

/-- The A-stream is not the E-stream. -/
theorem Issue.estr_of_a {i : Issue} (h : i.stream = .a) : i.estr = false := by simp [Issue.estr, h]

/-- A fragment is of the E-stream. -/
theorem Issue.estr_of_e {i : Issue} {k : Nat} (h : i.stream = .e k) : i.estr = true := by simp [Issue.estr, h]

/-- The scalar registers stay where a stream moves on. -/
@[simp] theorem Team.advance_s (t : Team) (x : StreamId) : (t.advance x).a.s = t.a.s := by cases x <;> rfl

/-- SRR reads a listed register that its stream may name. -/
theorem systemRead : Claims.SystemRead := by
  intro s i t d b n v h hb hscope hbusy hv
  have check : srCheck i.estr n = .ok () := by
    rw [srCheck_listed _ (by rw [srKind_isSome s i (atIssue i t), hv]; rfl), if_pos hscope]
  have flags : awaitFlags (atIssue i t) n = .ok () := awaitFlags_ok (by simpa [latticeBusy, atIssue] using hbusy)
  have value : srRead (s.setTeam i.wid (atIssue i t)) i (atIssue i t) n = v := (srRead_setTeam ..).trans (srRead_eq hv)
  rw [exec_srr]
  refine ⟨fun p ha hp => issue_team plain h ?_, fun k he => issue_team plain h ?_⟩
  · rw [Issue.estr_of_a ha] at check
    simp only [srNumber_eq hb, Issue.estr_of_a ha, check, flags, value, hp, writeS_eq _ hp, State.setTeam_setTeam, bind, Except.bind]
    rfl
  · rw [Issue.estr_of_e he] at check
    have hk : (atIssue i t).k = t.k := Team.advance_k ..
    simp only [srNumber_eq hb, Issue.estr_of_e he, check, flags, value, writeK, hk, State.setTeam_setTeam, bind, Except.bind]
    rfl

/-- The operand of SRW: s_d in the A-stream, the k register in the E-stream. -/
def srwOperand (i : Issue) (u : Team) (d : BitVec 6) : Act DWord := if i.estr then .ok (readK u d.toNat) else readS u d.toNat

/-- The end of SRW, once its operand `v` is read: the cause of a value that register `n` does not take, or the write. -/
def srwEnd (i : Issue) (u : Team) (s : State) (n : Nat) (v : DWord) : Act State := do
  raiseIf ((srKind n).any (·.2) || srBadValue n v) 0x012
  awaitFlags u n
  .ok (s.setTeam i.wid (srWrite i u n v))

/-- SRW checks the register, reads its operand and goes on with its value, in either stream. -/
theorem exec_srw_eq (d : BitVec 6) (b : BitVec 7) (s : State) : exec (.srw d b) s = issue (.srw d b) plain s fun i u s => (do
    srCheck i.estr (srNumber b)
    let v ← srwOperand i u d
    srwEnd i u s (srNumber b) v) := by
  rw [exec_srw, execSrw]
  refine congrArg (issue _ plain s) (funext fun i => funext fun u => funext fun s => ?_)
  refine congrArg (bind (srCheck i.estr (srNumber b))) (funext fun _ => ?_)
  cases he : i.estr <;> simp only [srwOperand, he] <;> rfl

section SystemWrite
variable {s : State} {i : Issue} {t : Team} {d : BitVec 6} {b : BitVec 7} {n p k : Nat} {v : DWord}

/-- In the A-stream the operand of SRW is a scalar register in reach. -/
theorem srwOperand_a (ha : i.stream = .a) (hp : (atIssue i t).a.win.reg 256 d.toNat = .ok p) (hv : tabGetD 0 t.a.s p = v) :
    srwOperand i (atIssue i t) d = .ok v := by
  have hs : (atIssue i t).a.s = t.a.s := t.advance_s _
  rw [srwOperand, Issue.estr_of_a ha, if_neg Bool.false_ne_true, readS_eq hp, hs, hv]

/-- In the E-stream the operand of SRW is a k register. -/
theorem srwOperand_e (he : i.stream = .e k) (hv : tabGetD 0 t.k d.toNat = v) : srwOperand i (atIssue i t) d = .ok v := by
  have hk : (atIssue i t).k = t.k := t.advance_k _
  rw [srwOperand, Issue.estr_of_e he, if_pos rfl, readK, hk, hv]

/-- SRW writes a register that its stream may name where the value is allowed. -/
theorem srw_writes (h : Issuing (.srw d b) s i t) (hb : b.toNat = 96 + n) (check : srCheck i.estr n = .ok ())
    (operand : srwOperand i (atIssue i t) d = .ok v) (allowed : ((srKind n).any (·.2) || srBadValue n v) = false)
    (flags : awaitFlags (atIssue i t) n = .ok ()) :
    exec (.srw d b) s = .next (doneWith s i (Claims.systemWritten i (atIssue i t) n v)) := by
  rw [exec_srw_eq, ← srWrite_eq]
  refine issue_team plain h ?_
  simp only [srNumber_eq hb, check, operand, srwEnd, allowed, flags, raiseIf, State.setTeam_setTeam, bind, Except.bind]
  rfl

/-- SRW raises 0x012 at a register that its stream may name where the value is not allowed. -/
theorem srw_refuses (h : Issuing (.srw d b) s i t) (hb : b.toNat = 96 + n) (check : srCheck i.estr n = .ok ())
    (operand : srwOperand i (atIssue i t) d = .ok v) (refused : ((srKind n).any (·.2) || srBadValue n v) = true) :
    exec (.srw d b) s = .next (settle s i t {} (raise 0x012)) := by
  rw [exec_srw_eq, issue_trap (c := 0x012) (v := none) plain h]
  · rfl
  · simp only [srNumber_eq hb, check, operand, srwEnd, refused, raiseIf, raise, bind, Except.bind]
    rfl

/-- SRR or SRW at a number that may not be named raises the cause of it. -/
theorem system_raises {x : Instr} {c : Nat} (hx : x = .srr d b ∨ x = .srw d b) (h : Issuing x s i t) (hb : b.toNat = 96 + n)
    (check : srCheck i.estr n = raise c) : exec x s = .next (settle s i t {} (raise c)) := by
  rcases hx with rfl | rfl
  · rw [exec_srr, execSrr, issue_trap (c := c) (v := none) plain h]
    · rfl
    · simp only [srNumber_eq hb, check, raise, bind, Except.bind]
  · rw [exec_srw_eq, issue_trap (c := c) (v := none) plain h]
    · rfl
    · simp only [srNumber_eq hb, check, raise, bind, Except.bind]

end SystemWrite

/-- A register that may be written is listed. -/
theorem srKind_isSome_of_writable {n : Nat} (h : Claims.writable n) : (srKind n).isSome := by
  have : ∀ n ∈ [0x03, 0x0D, 0x0E, 0x10, 0x11, 0x12, 0x13], (srKind n).isSome := by decide
  exact this n (List.contains_iff_mem.1 h)

/-- A listed register takes a value where it may be written and the value is permitted. -/
theorem srw_allowed_iff {n : Nat} (v : DWord) (h : (srKind n).isSome) :
    ((srKind n).any (·.2) || srBadValue n v) = false ↔ Claims.writable n ∧ Claims.permitted n v := by
  rw [Bool.or_eq_false_iff, srBadValue_eq_false_iff, srKind_readOnly h, Bool.not_eq_false']

/-- SRW writes a permitted value of a register that may be written and that its stream may name. -/
theorem systemWrite : Claims.SystemWrite := by
  intro s i t d b n v h hb hscope hwritable hpermitted hbusy
  have listed : (srKind n).isSome := srKind_isSome_of_writable hwritable
  have check : srCheck i.estr n = .ok () := by rw [srCheck_listed _ listed, if_pos hscope]
  have allowed := (srw_allowed_iff v listed).2 ⟨hwritable, hpermitted⟩
  have flags : awaitFlags (atIssue i t) n = .ok () := awaitFlags_ok (by simpa [latticeBusy, atIssue] using hbusy)
  exact ⟨fun p ha hp hv => srw_writes h hb check (srwOperand_a ha hp hv) allowed flags,
    fun k he hv => srw_writes h hb check (srwOperand_e he hv) allowed flags⟩

/-- The causes of SRR and SRW. -/
theorem systemCauses : Claims.SystemCauses := by
  intro s i t d b n hb trap listed
  have hlisted : (srKind n).isSome = listed := srKind_isSome s i t n
  refine ⟨fun x hx h => ⟨fun hn => ?_, fun hl hscope => ?_⟩, fun v h hl hscope hbad => ?_⟩
  · exact system_raises hx h hb (srCheck_unlisted _ (by simpa [hn] using hlisted))
  · exact system_raises hx h hb (by rw [srCheck_listed _ (hlisted.trans hl), hscope, if_neg Bool.false_ne_true])
  · have check : srCheck i.estr n = .ok () := by rw [srCheck_listed _ (hlisted.trans hl), if_pos hscope]
    have refused := (Bool.not_eq_false _).mp fun ok => hbad ((srw_allowed_iff v (hlisted.trans hl)).1 ok)
    exact ⟨fun p ha hp hv => srw_refuses h hb check (srwOperand_a ha hp hv) refused,
      fun k he hv => srw_refuses h hb check (srwOperand_e he hv) refused⟩

/-- Settles O16, from the reads, the writes and the causes. -/
theorem systemRegisters : Obligations.SystemRegisters := ⟨systemRead, systemWrite, systemCauses⟩

end Sys2Proof.Machine

/-! ## Calls and windows of the A-stream -/

namespace Sys2Proof.Machine

/-! ### The slide of the scalar window -/

/-- Every frame is kept where they all fit in the room. -/
theorem framesKept_all (room : Nat) : ∀ (fs : List Frame) (used : Nat), used + (fs.map (·.size)).sum ≤ room →
    framesKept room used fs = fs.length
  | [], _, _ => rfl
  | f :: fs, used, h => by
    simp only [List.map_cons, List.sum_cons] at h
    rw [framesKept, if_pos (by omega), framesKept_all room fs _ (by omega), List.length_cons, Nat.add_comm]

/-- Numbering a list keeps its length. -/
theorem enum_length {α : Type} : ∀ (i : Nat) (xs : List α), (enum i xs).length = xs.length
  | _, [] => rfl
  | i, _ :: xs => congrArg (· + 1) (enum_length (i + 1) xs)

/-- A call that fits spills no frame. -/
theorem spillPlan_of_fits {w : Window} {phys c : Nat} (h : Claims.fits w phys c) : spillPlan w phys c = ([], w.frames) := by
  unfold Claims.fits at h
  have kept : framesKept (phys - c) 0 w.frames = w.frames.length := framesKept_all _ _ _ (by omega)
  have all : w.frames.length ≤ max 1 (framesKept (phys - c) 0 w.frames) := by omega
  simp only [spillPlan, List.take_of_length_le all, List.drop_of_length_le ((enum_length 0 w.frames).trans_le all)]
  rfl

/-- The probe of a range of no bytes meets no cause and no absent page. -/
theorem probeRanges_empty (s : State) (i : Issue) (t : Team) (a : Nat) (write : Bool) : probeRanges s i t [(a, 0)] write = .ok () := rfl

/-- A write of no bytes changes nothing. -/
@[simp] theorem writeVirt_nil (s : State) (acc : Accessor) (core ctx va : Nat) (cls : BitVec 2) (k : TagWrite) (shadow : Bool) :
    writeVirt s acc core ctx va [] cls k shadow = s := rfl

/-- A slide to a new frame that fits changes the window alone. -/
theorem slideA_of_fits (s : State) (i : Issue) {t : Team} {c : Nat} (link : DWord) (trap : Bool) (h : Claims.fits t.a.win 256 c) :
    slideA s i t c link trap = .ok (s, t.modA fun a => { a with win := Claims.pushed t.a.win 256 c link trap }) := by
  have probe := probeRanges_empty s i t t.a.sspill.toNat true
  simp [slideA, spillPlan_of_fits h, raiseIf, probe, bind, Except.bind, Claims.pushed, Team.modA]

/-- A slide leaves the team's launch as it was. -/
theorem slideA_info {s r : State} {i : Issue} {t v : Team} {c : Nat} {link : DWord} {trap : Bool}
    (h : slideA s i t c link trap = .ok (r, v)) : v.info = t.info := by
  simp only [slideA, bind, Except.bind] at h
  split at h
  · cases h
  · split at h
    · cases h
    · cases h
      rfl

/-- A slide back to a frame whose caller is resident, or that has none, changes the window alone. -/
theorem slideBackA_of_resident (s : State) (i : Issue) {t : Team} (h : t.a.win.frames.tail.length = 1 → t.a.win.depth ≤ 1) :
    slideBackA s i t = .ok (t.modA fun a => { a with win :=
      { base := (t.a.win.base + 256 - t.a.win.size % 256) % 256, depth := t.a.win.depth - 1, frames := t.a.win.frames.tail } }) := by
  have resident : ¬ (t.a.win.frames.tail.length = 1 ∧ 1 < t.a.win.depth) := fun ⟨h1, h2⟩ => absurd (h h1) (by omega)
  simp only [slideBackA, if_neg resident]

/-- A slide to a new frame that fits, and back, gives the window back. -/
theorem windowsNest : Claims.WindowsNest := by
  intro s i t c link trap _ hfits hbase _ hcaller
  refine ⟨_, slideA_of_fits s i link trap hfits, rfl, ?_⟩
  rw [slideBackA_of_resident]
  · have base : ((t.a.win.base + c) % 256 + 256 - c % 256) % 256 = t.a.win.base := by omega
    simp [Team.modA, Claims.pushed, Window.size, base]
  · intro h
    change t.a.win.frames.length = 1 at h
    change t.a.win.depth + 1 ≤ 1
    omega

/-! ### The header of a spill record -/

/-- The fields of a spill record's header: two sizes, the trap-frame bit, and the word offset of the link. -/
theorem header_fields {size caller top : Nat} (b : Bool) (hsize : size < 128) (hcaller : caller < 128) (htop : top < 2 ^ 48) :
    let h := size + caller * 2 ^ 8 + (b.toNat * 2 ^ 15 + top * 2 ^ 16)
    bitsOf h 6 0 = size ∧ bitsOf h 14 8 = caller ∧ bitsOf h 15 15 = b.toNat ∧ bitsOf h 63 16 = top := by
  have hb : b.toNat < 2 := b.toNat_lt
  simp only [bitsOf, Nat.shiftRight_eq_div_pow]
  omega

/-- The word offset of a link from CODE. -/
theorem link_offset {code k : Nat} (hk : k < 2 ^ 48) (hcode : code + 4 * k < 2 ^ 57) :
    ((BitVec.ofNat 64 (code + 4 * k)).toNat - code) / 4 % 2 ^ 48 = k := by
  rw [BitVec.toNat_ofNat]
  omega

/-- The header of a spill record gives the frame back. -/
theorem spillHeader : Claims.SpillHeader := by
  rintro code k ⟨size, caller, link, trap⟩ hsize hcaller hk hcode hlink
  cases trap with
  | true =>
    obtain ⟨h0, h8, h15, -⟩ := header_fields (top := 0) true hsize hcaller (by decide)
    have header : frameHeader code ⟨size, caller, link, true⟩ = size + caller * 2 ^ 8 + (true.toNat * 2 ^ 15 + 0 * 2 ^ 16) := rfl
    rw [header, frameOfHeader, h0, h8, h15]
    cases hlink
    rfl
  | false =>
    obtain ⟨h0, h8, h15, h16⟩ := header_fields (top := k) false hsize hcaller hk
    have link_eq : link = BitVec.ofNat 64 (code + 4 * k) := hlink
    subst link_eq
    have header : frameHeader code ⟨size, caller, BitVec.ofNat 64 (code + 4 * k), false⟩ =
        size + caller * 2 ^ 8 + (false.toNat * 2 ^ 15 + k * 2 ^ 16) := by
      simp only [frameHeader, link_offset hk hcode, Bool.toNat_false, zero_mul, zero_add]
      rfl
    rw [header, frameOfHeader, h0, h8, h15, h16]
    rfl

/-! ### Calls -/

/-! `exec` at CALL, CALLI and RET. -/

theorem exec_callA (c : BitVec 3) (o : BitVec 22) : exec (.callA c o) = execCallA c o := rfl
theorem exec_calliA (a : BitVec 7) : exec (.calliA a) = execCalliA a := rfl
theorem exec_retA : exec .retA = execRetA := rfl

/-- A predicate reads as the statements say. -/
theorem readP_eq_holds (t : Team) (c : BitVec 3) : readP t c.toNat = Claims.holds t c := by
  have hzero : c.toNat = 0 ↔ c = 0 := BitVec.toNat_inj (y := 0#3)
  by_cases hc : c = 0
  · simp [readP, Claims.holds, hc]
  · rw [readP, Claims.holds, if_neg (mt hzero.1 hc), beq_false_of_ne hc]
    rfl

/-- A branch of four times a signed offset. -/
theorem jumpTarget_eq (pc : DWord) (o : BitVec 22) : jumpTarget pc o = pc + 4 * o.signExtend 64 := by
  rw [jumpTarget, BitVec.mul_comm]

/-- A call to an offset that the table does not list raises 0x019. -/
theorem callA_unlisted {s : State} {i : Issue} {u : Team} {off : Nat} (h : callTarget u false off = none) : callA s i u off = raise 0x019 := by
  simp only [callA, h]

section Call
variable {s r : State} {i : Issue} {u v : Team} {e : CallEntry} {off : Nat}

/-- A call may go to a word within 2 ^ 32 bytes of CODE. -/
theorem call_offset_ok (hword : off % 4 = 0) (hoff : off < 2 ^ 32) : raiseIf (off % 4 ≠ 0 || decide (2 ^ 32 ≤ off)) 0x019 = .ok () :=
  if_neg (by simpa [hword] using hoff)

/-- A call to a listed entry at the greatest depth raises 0x01A. -/
theorem callA_too_deep (h : callTarget u false off = some e) (hword : off % 4 = 0) (hoff : off < 2 ^ 32) (hdepth : u.a.win.depth = 65535) :
    callA s i u off = raise 0x01A := by
  have deep : raiseIf (u.a.win.depth = 65535) 0x01A = raise 0x01A := if_pos (decide_eq_true hdepth)
  simp only [callA, h, call_offset_ok hword hoff, deep, raise, bind, Except.bind]

/-- A call to a listed entry slides the window and goes on at the entry. -/
theorem callA_slides (h : callTarget u false off = some e) (hword : off % 4 = 0) (hoff : off < 2 ^ 32) (hdepth : u.a.win.depth < 65535)
    (hslide : slideA s i u e.fs (i.pc + 4) false = .ok (r, v)) :
    callA s i u off = .ok (r.setTeam i.wid (Claims.goto v (BitVec.ofNat 64 (u.info.kernel.code + off)))) := by
  have shallow : raiseIf (u.a.win.depth = 65535) 0x01A = .ok () := if_neg (by simpa using hdepth.ne)
  simp only [callA, h, call_offset_ok hword hoff, shallow, hslide, bind, Except.bind, slideA_info hslide]
  rfl

end Call

/-! ### CALL and CALLI -/

section CallInstructions
variable {s r : State} {i : Issue} {t v : Team} {e : CallEntry} {c : BitVec 3} {o : BitVec 22} {a : BitVec 7} {off : Nat}

/-- The call table of the team, as an instruction finds it. -/
theorem callTarget_atIssue (i : Issue) (t : Team) (off : Nat) : callTarget (atIssue i t) false off = callTarget t false off := by
  rw [callTarget, atIssue, Team.advance_info]
  rfl

/-- The window of the A-stream stays where a stream moves on. -/
@[simp] theorem Team.advance_win (t : Team) (x : StreamId) : (t.advance x).a.win = t.a.win := by cases x <;> rfl

/-- The predicates of the A-stream stay where a stream moves on. -/
@[simp] theorem Team.advance_p (t : Team) (x : StreamId) : (t.advance x).a.p = t.a.p := by cases x <;> rfl

/-- A predicate reads at the instruction as it stood before. -/
theorem readP_atIssue (i : Issue) (t : Team) (c : BitVec 3) : readP (atIssue i t) c.toNat = Claims.holds t c := by
  rw [readP_eq_holds, Claims.holds, atIssue, Team.advance_p, Claims.holds]

/-- The state after an instruction that leaves the team `u` in its slot. -/
theorem doneAs_setTeam (s : State) (i : Issue) (u : Team) : doneAs (s.setTeam i.wid u) i = doneWith s i u := by
  rw [doneAs, State.modTeam_setTeam, doneWith]

/-- The team's code stays where a stream moves on. -/
theorem atIssue_code (i : Issue) (t : Team) : (atIssue i t).info.kernel.code = t.info.kernel.code := by rw [atIssue, Team.advance_info]

/-- CORE does not depend on the teams. -/
@[simp] theorem coreWord_setTeam (s : State) (w : Nat) (t : Team) (core : Nat) : coreWord (s.setTeam w t) core = coreWord s core := rfl

/-- The instruction calls to an offset from CODE: a CALL whose predicate holds, or a CALLI (R100). -/
inductive CallsTo (s : State) (i : Issue) (t : Team) : Instr → Nat → Prop where
  | call {c : BitVec 3} {o : BitVec 22} (h : Claims.holds t c) :
      CallsTo s i t (.callA c o) (i.pc + 4 * o.signExtend 64 - BitVec.ofNat 64 t.info.kernel.code).toNat
  | calli {a : BitVec 7} {off : DWord} (h : sourceA i (atIssue i t) (coreWord s i.core) a = .ok off) : CallsTo s i t (.calliA a) off.toNat

/-- An instruction that calls completes as its call does. -/
theorem CallsTo.completes {x : Instr} {w : State} (hx : CallsTo s i t x off) (h : Issuing x s i t)
    (hcall : callA (s.setTeam i.wid (atIssue i t)) i (atIssue i t) off = .ok w) : exec x s = .next (doneAs w i) := by
  cases hx with
  | call hc =>
    rw [exec_callA]
    refine issue_next plain h ?_
    rw [readP_atIssue, if_pos hc, jumpTarget_eq, atIssue_code, hcall]
  | calli ha =>
    rw [exec_calliA]
    refine issue_next plain h ?_
    simp only [coreWord_setTeam, ha, hcall, bind, Except.bind]

/-- An instruction that calls raises the cause that its call raises. -/
theorem CallsTo.raises {x : Instr} {c : Nat} (hx : CallsTo s i t x off) (h : Issuing x s i t)
    (hcall : callA (s.setTeam i.wid (atIssue i t)) i (atIssue i t) off = raise c) :
    exec x s = .next (settle s i t { value := valueOfA i t (coreWord s i.core) x } (raise c)) := by
  cases hx with
  | call hc =>
    rw [exec_callA]
    refine issue_trap plain h ?_
    rw [readP_atIssue, if_pos hc, jumpTarget_eq, atIssue_code, hcall, raise]
  | calli ha =>
    rw [exec_calliA]
    refine issue_trap plain h ?_
    simp only [coreWord_setTeam, ha, hcall, raise, bind, Except.bind]

variable {x : Instr}

/-- A call to a listed entry: the window slides, and the stream goes on at the entry. -/
theorem CallsTo.slides (hx : CallsTo s i t x off) (h : Issuing x s i t) (he : callTarget t false off = some e) (hword : off % 4 = 0)
    (hoff : off < 2 ^ 32) (hdepth : t.a.win.depth < 65535)
    (hslide : slideA (s.setTeam i.wid (atIssue i t)) i (atIssue i t) e.fs (i.pc + 4) false = .ok (r, v)) :
    exec x s = .next (doneAs (r.setTeam i.wid (Claims.goto v (BitVec.ofNat 64 (t.info.kernel.code + off)))) i) := by
  refine hx.completes h ?_
  rw [callA_slides (callTarget_atIssue i t off ▸ he) hword hoff (by simpa [atIssue] using hdepth) hslide, atIssue_code]

/-- A call to a listed entry whose frame fits changes the window and the program counter alone. -/
theorem CallsTo.slides_of_fits (hx : CallsTo s i t x off) (h : Issuing x s i t) (he : callTarget t false off = some e) (hword : off % 4 = 0)
    (hoff : off < 2 ^ 32) (hdepth : t.a.win.depth < 65535) (hfits : Claims.fits t.a.win 256 e.fs) :
    exec x s = .next (doneWith s i { atIssue i t with a := { (atIssue i t).a with
      pc := BitVec.ofNat 64 (t.info.kernel.code + off), win := Claims.pushed t.a.win 256 e.fs (i.pc + 4) false } }) := by
  have hwin : (atIssue i t).a.win = t.a.win := t.advance_win _
  rw [hx.slides h he hword hoff hdepth (slideA_of_fits _ i (i.pc + 4) false (hwin ▸ hfits)), hwin]
  rw [State.setTeam_setTeam, doneAs_setTeam]
  rfl

/-- A call to an offset that the table does not list raises 0x019. -/
theorem CallsTo.unlisted (hx : CallsTo s i t x off) (h : Issuing x s i t) (he : callTarget t false off = none) :
    exec x s = .next (settle s i t { value := valueOfA i t (coreWord s i.core) x } (raise 0x019)) :=
  hx.raises h (callA_unlisted (callTarget_atIssue i t off ▸ he))

/-- A call to a listed entry at the greatest depth raises 0x01A. -/
theorem CallsTo.too_deep (hx : CallsTo s i t x off) (h : Issuing x s i t) (he : callTarget t false off = some e) (hword : off % 4 = 0)
    (hoff : off < 2 ^ 32) (hdepth : t.a.win.depth = 65535) :
    exec x s = .next (settle s i t { value := valueOfA i t (coreWord s i.core) x } (raise 0x01A)) :=
  hx.raises h (callA_too_deep (callTarget_atIssue i t off ▸ he) hword hoff (by simpa [atIssue] using hdepth))

/-- CALL whose predicate does not hold does nothing. -/
theorem callA_skipped (h : Issuing (.callA c o) s i t) (hc : Claims.holds t c = false) :
    exec (.callA c o) s = .next (doneWith s i (atIssue i t)) := by
  rw [exec_callA]
  refine issue_team plain h ?_
  rw [readP_atIssue, hc, if_neg Bool.false_ne_true]

end CallInstructions

/-! ### RET -/

section Return
variable {s : State} {i : Issue} {t v : Team} {f : Frame} {fs : List Frame}

/-- The stream is in a trap frame where the newest frame is one. -/
theorem inTrapFrame_atIssue (i : Issue) (hf : t.a.win.frames = f :: fs) : inTrapFrame (atIssue i t) .a = f.trap := by
  simp [inTrapFrame, atIssue, hf]

/-- RET from a frame that is no trap frame slides the window back and goes on at the frame's link. -/
theorem retA_slides_back (h : Issuing .retA s i t) (hdepth : t.a.win.depth ≠ 0) (hf : t.a.win.frames = f :: fs) (htrap : f.trap = false)
    (hback : slideBackA (s.setTeam i.wid (atIssue i t)) i (atIssue i t) = .ok v) :
    exec .retA s = .next (doneWith s i (Claims.goto v f.link)) := by
  have hwin : (atIssue i t).a.win = t.a.win := t.advance_win _
  rw [exec_retA]
  refine issue_team _ h ?_
  simp only [hwin, if_neg hdepth, inTrapFrame_atIssue i hf, htrap, raiseIf, hback, hf, State.setTeam_setTeam, bind, Except.bind]
  rfl

/-- RET from a trap frame raises 0x022. -/
theorem retA_trap_frame (h : Issuing .retA s i t) (hdepth : t.a.win.depth ≠ 0) (hf : t.a.win.frames = f :: fs) (htrap : f.trap = true) :
    exec .retA s = .next (settle s i t { value := valueOfA i t (coreWord s i.core) .retA } (raise 0x022)) := by
  have hwin : (atIssue i t).a.win = t.a.win := t.advance_win _
  rw [exec_retA]
  refine issue_trap _ h ?_
  simp only [hwin, if_neg hdepth, inTrapFrame_atIssue i hf, htrap, raiseIf, raise, bind, Except.bind]
  rfl

/-- RET to a frame whose caller is resident, or that has none, changes the window and the program counter alone. -/
theorem retA_of_resident {g : Frame} (h : Issuing .retA s i t) (hdepth : t.a.win.depth ≠ 0) (hf : t.a.win.frames = f :: g :: fs)
    (htrap : f.trap = false) (hresident : fs ≠ [] ∨ t.a.win.depth = 1) :
    exec .retA s = .next (doneWith s i { atIssue i t with a := { (atIssue i t).a with
      pc := f.link, win := { base := (t.a.win.base + 256 - f.size % 256) % 256, depth := t.a.win.depth - 1, frames := g :: fs } } }) := by
  have hwin : (atIssue i t).a.win = t.a.win := t.advance_win _
  have size : t.a.win.size = f.size := by simp [Window.size, hf]
  have resident : (atIssue i t).a.win.frames.tail.length = 1 → (atIssue i t).a.win.depth ≤ 1 := by
    rw [hwin, hf]
    intro h1
    have alone : fs = [] := List.length_eq_zero_iff.1 (Nat.succ.inj h1)
    exact (hresident.resolve_left (absurd alone)).le
  rw [retA_slides_back h hdepth hf htrap (slideBackA_of_resident _ i resident), hwin, size, hf]
  rfl

end Return

/-! ### The statements of calls -/

/-- CALL, CALLI and RET of the A-stream. -/
theorem addressCalls : Claims.AddressCalls := by
  intro s i t _ u code
  refine ⟨fun c o h hc => callA_skipped h hc, ?_, ?_, ?_, ?_, ?_, ?_⟩
  · rintro c o e _ h hc rfl he hword hoff hdepth hfits
    exact (CallsTo.call hc).slides_of_fits h he hword hoff hdepth hfits
  · intro a e off h ha he hword hoff hdepth hfits
    exact (CallsTo.calli ha).slides_of_fits h he hword hoff hdepth hfits
  · rintro c o e _ r v h hc rfl he hword hoff hdepth hslide
    exact (CallsTo.call hc).slides h he hword hoff hdepth hslide
  · intro a e off r v h ha he hword hoff hdepth hslide
    exact (CallsTo.calli ha).slides h he hword hoff hdepth hslide
  · exact fun f fs v h hdepth hf htrap hback => retA_slides_back h hdepth hf htrap hback
  · exact fun f g fs h hdepth hf htrap hresident => retA_of_resident h hdepth hf htrap hresident

/-- The causes of CALL, CALLI and RET. -/
theorem callCauses : Claims.CallCauses := fun _ _ _ _ =>
  ⟨fun _ _ h ha he => (CallsTo.calli ha).unlisted h he, fun _ _ h hc he => (CallsTo.call hc).unlisted h he,
    fun _ _ _ h ha he hword hoff hdepth => (CallsTo.calli ha).too_deep h he hword hoff hdepth,
    fun _ _ h hdepth hf htrap => retA_trap_frame h hdepth hf htrap⟩

/-- Settles O14: calls and returns, their causes, nesting and spill headers. -/
theorem callsAndWindows : Obligations.CallsAndWindows := ⟨addressCalls, callCauses, windowsNest, spillHeader⟩

end Sys2Proof.Machine

/-! ## Arithmetic of the address stream -/

namespace Sys2Proof.Machine

/-! ### Operations of a type (R86, R90) -/

/-- A word as an integer, signed or not. -/
def intOf (signed : Bool) {w : Nat} (x : BitVec w) : Int := if signed then x.toInt else x.toNat

/-- A word is the word of its integer. -/
@[simp] theorem ofInt_intOf (signed : Bool) {w : Nat} (x : BitVec w) : BitVec.ofInt w (intOf signed x) = x := by
  cases signed <;> simp [intOf]

/-- The operand width of a type. -/
theorem typeWidth_eq (ty : BitVec 3) : typeWidth ty = 8 * 2 ^ (ty.toNat % 4) := by
  rw [typeWidth, Nat.shiftLeft_eq, BitVec.extractLsb'_toNat, Nat.shiftRight_zero]

/-- Bit 2 of a type code tells whether the type is signed. -/
theorem bit_two_eq_signedType (ty : BitVec 3) : bit ty 2 = Claims.signedType ty := by
  revert ty
  decide

/-- An operand of a type is the integer of its low bits. -/
theorem typeInt_eq (ty : BitVec 3) (u : DWord) : typeInt ty u = intOf (Claims.signedType ty) (u.setWidth (typeWidth ty)) := by
  simp only [typeInt, bit_two_eq_signedType, intOf, BitVec.toInt_eq_toNat_bmod, BitVec.toNat_setWidth, Int.natCast_mod,
    Int.emod_bmod]

/-- A result of a type is extended as the type says. -/
theorem typeExt_eq (ty : BitVec 3) (z : Int) : typeExt ty z =
    let r := BitVec.ofInt (typeWidth ty) z
    if ty.toNat < 4 then r.setWidth 64 else r.signExtend 64 := by
  rw [typeExt, bit_two_eq_signedType, Claims.signedType]
  by_cases hty : ty.toNat < 4
  · have unsigned : ¬ 4 ≤ ty.toNat := by omega
    simp only [hty, unsigned, decide_false, if_true, Bool.false_eq_true, if_false]
    apply BitVec.eq_of_toNat_eq
    have nonneg : 0 ≤ z % ((2 ^ typeWidth ty : Nat) : Int) := Int.emod_nonneg _ (by positivity)
    rw [BitVec.toNat_setWidth, BitVec.toNat_ofInt, BitVec.toNat_ofInt, Int.toNat_emod nonneg (by positivity), Int.toNat_natCast]
  · have signed : 4 ≤ ty.toNat := by omega
    simp only [hty, signed, decide_true, if_true, if_false, BitVec.signExtend, BitVec.toInt_ofInt]

/-- An operation on integers that agrees with one on words agrees with its typed form. -/
theorem typed_eq {ty : BitVec 3} {f : Int → Int → Int} {op : Claims.WidthOp} (u v : DWord)
    (h : ∀ x y : BitVec (typeWidth ty), BitVec.ofInt _ (f (intOf (Claims.signedType ty) x) (intOf (Claims.signedType ty) y)) = op _ x y) :
    typeExt ty (f (typeInt ty u) (typeInt ty v)) = Claims.typed ty op u v := by
  rw [typeExt_eq, typeInt_eq, typeInt_eq, h, Claims.typed, ← typeWidth_eq]

/-- A difference of words is that of their integers. -/
theorem ofInt_sub_intOf (signed : Bool) {w : Nat} (x y : BitVec w) : BitVec.ofInt w (intOf signed x - intOf signed y) = x - y := by
  rw [Int.sub_eq_add_neg, BitVec.ofInt_add, BitVec.ofInt_neg, ofInt_intOf, ofInt_intOf, BitVec.sub_eq_add_neg]

/-- The upper half of a word of twice the width. -/
theorem extract_upper_ofInt (w : Nat) (z : Int) : (BitVec.ofInt (2 * w) z).extractLsb' w w = BitVec.ofInt w (z / (2 ^ w : Nat)) := by
  have nonneg : ∀ k : Nat, 0 ≤ z % ((2 ^ k : Nat) : Int) := fun k => Int.emod_nonneg _ (by positivity)
  have split : z % (2 ^ (2 * w) : Nat) = z + (2 ^ w : Nat) * -((2 ^ w : Nat) * (z / (2 ^ (2 * w) : Nat))) := by
    rw [Int.emod_def, two_mul, pow_add]
    push_cast
    ring
  have high : z % (2 ^ (2 * w) : Nat) / (2 ^ w : Nat) % (2 ^ w : Nat) = z / (2 ^ w : Nat) % (2 ^ w : Nat) := by
    rw [split, Int.add_mul_ediv_left _ _ (by positivity), ← mul_neg, Int.add_mul_emod_self_left]
  apply BitVec.eq_of_toNat_eq
  rw [BitVec.extractLsb'_toNat, BitVec.toNat_ofInt, BitVec.toNat_ofInt, Nat.shiftRight_eq_div_pow, ← high,
    ← Int.toNat_natCast (_ % _), Int.natCast_mod, Int.natCast_div, Int.toNat_of_nonneg (nonneg _)]

/-- The upper half of a product. -/
theorem ofInt_upperProduct (signed : Bool) {w : Nat} (x y : BitVec w) :
    BitVec.ofInt w (intOf signed x * intOf signed y / (2 ^ w : Nat)) = Claims.upperProduct signed w x y := by
  rw [← extract_upper_ofInt, BitVec.ofInt_mul]
  cases signed
  · simp only [intOf, Claims.upperProduct, Bool.false_eq_true, if_false, BitVec.ofInt_natCast, BitVec.ofNat_toNat]
  · rfl

/-- The smaller of two words is that of their integers. -/
theorem ofInt_min (signed : Bool) {w : Nat} (x y : BitVec w) :
    BitVec.ofInt w (min (intOf signed x) (intOf signed y)) = Claims.pick signed false w x y := by
  have less : (if signed then x.slt y else x.ult y) = decide (intOf signed x < intOf signed y) := by
    cases signed <;> simp [intOf, BitVec.slt, BitVec.ult]
  rw [Claims.pick, less]
  by_cases h : intOf signed x < intOf signed y
  · simp [h, min_eq_left h.le]
  · simp [h, min_eq_right (not_lt.1 h)]

/-- The larger of two words is that of their integers. -/
theorem ofInt_max (signed : Bool) {w : Nat} (x y : BitVec w) :
    BitVec.ofInt w (max (intOf signed x) (intOf signed y)) = Claims.pick signed true w x y := by
  have less : (if signed then x.slt y else x.ult y) = decide (intOf signed x < intOf signed y) := by
    cases signed <;> simp [intOf, BitVec.slt, BitVec.ult]
  rw [Claims.pick, less]
  by_cases h : intOf signed x < intOf signed y
  · simp [h, max_eq_right h.le]
  · simp [h, max_eq_left (not_lt.1 h)]

/-- The truncated quotient of two words is that of their integers. -/
theorem ofInt_quotient (signed : Bool) {w : Nat} (x y : BitVec w) :
    BitVec.ofInt w ((intOf signed x).tdiv (intOf signed y)) = Claims.quotient signed w x y := by
  cases signed
  · simp only [intOf, Claims.quotient, Bool.false_eq_true, if_false, ← Int.ofNat_tdiv, BitVec.ofInt_natCast]
    rw [BitVec.udiv_eq, BitVec.udiv_def]
  · apply BitVec.eq_of_toInt_eq
    simp [intOf, Claims.quotient, BitVec.toInt_sdiv]

/-- A divisor is 0 where its low bits are. -/
theorem typeInt_eq_zero_iff (ty : BitVec 3) (v : DWord) : typeInt ty v = 0 ↔ v.setWidth (8 * 2 ^ (ty.toNat % 4)) = 0 := by
  rw [typeInt_eq, ← typeWidth_eq]
  cases Claims.signedType ty
  · rw [← BitVec.toNat_inj]
    exact Int.natCast_eq_zero
  · rw [← BitVec.toInt_inj, BitVec.ofNat_eq_ofNat, BitVec.toInt_zero]
    rfl

/-! ### Shifts (R93) -/

/-- The result of a shift is extended with its sign at SAR alone. -/
theorem shiftExt_eq (op : ShiftOp) (w : Nat) (r : BitVec w) : shiftExt op w r.toNat = if op = .sar then r.signExtend 64 else r.setWidth 64 := by
  cases op
  case sar => simp [shiftExt, BitVec.signExtend, BitVec.toInt_eq_toNat_bmod]
  all_goals simp [shiftExt]

/-- The width of a shift. -/
theorem shift_width (w : BitVec 2) : 8 <<< w.toNat = 8 * 2 ^ w.toNat := Nat.shiftLeft_eq ..

/-- A shift of the low bits of a word, as the model makes it. -/
def shifted (op : ShiftOp) (w : BitVec 2) (u : DWord) (n : Nat) : DWord :=
  shiftExt op (8 <<< w.toNat) (shiftW op (8 <<< w.toNat) u.toNat n)

/-- A shift of numbers that agrees with one of words. -/
theorem shifted_eq {op : ShiftOp} {u : DWord} {n : Nat} {g : (w : Nat) → BitVec w → Nat → BitVec w} (w : BitVec 2)
    (h : ∀ k, shiftW op k u.toNat n = (g k (u.setWidth k) n).toNat) : shifted op w u n = Claims.shift w (decide (op = .sar)) g u n := by
  rw [shifted, h, shiftExt_eq, shift_width]
  by_cases hop : op = .sar <;> simp [hop, Claims.shift]

/-- SHL is a shift of words, and 0 from the width on. -/
theorem shifted_shl (w : BitVec 2) (u : DWord) (n : Nat) :
    shifted .shl w u n = Claims.shift w false (fun w x n => if w ≤ n then 0 else x <<< n) u n := by
  refine shifted_eq w fun k => ?_
  by_cases hk : k ≤ n <;> simp [shiftW, hk, Nat.shiftLeft_eq]

/-- SHR is a shift of words, and 0 from the width on. -/
theorem shifted_shr (w : BitVec 2) (u : DWord) (n : Nat) :
    shifted .shr w u n = Claims.shift w false (fun w x n => if w ≤ n then 0 else x >>> n) u n := by
  refine shifted_eq w fun k => ?_
  by_cases hk : k ≤ n <;> simp [shiftW, hk, Nat.shiftRight_eq_div_pow]

/-- SAR is an arithmetic shift of words. -/
theorem shifted_sar (w : BitVec 2) (u : DWord) (n : Nat) :
    shifted .sar w u n = Claims.shift w true (fun w x n => x.sshiftRight (min n w)) u n := by
  refine shifted_eq w fun k => ?_
  rw [BitVec.sshiftRight, BitVec.toNat_ofInt, Int.shiftRight_eq_div_pow, BitVec.toInt_eq_toNat_bmod, BitVec.toNat_setWidth]
  rfl

/-- ROT is a rotation of words: the parts that the numbers add do not overlap. -/
theorem shifted_rot (w : BitVec 2) (u : DWord) (n : Nat) :
    shifted .rot w u n = Claims.shift w false (fun _ x n => x.rotateRight n) u n := by
  refine shifted_eq w fun k => ?_
  have hx : u.toNat % 2 ^ k < 2 ^ (n % k) * 2 ^ (k - n % k) := by
    rw [← pow_add]
    exact (Nat.mod_lt _ (by positivity)).trans_le (Nat.pow_le_pow_right (by decide) (by omega))
  have low : (u.toNat % 2 ^ k) >>> (n % k) < 2 ^ (k - n % k) := by
    rw [Nat.shiftRight_eq_div_pow]
    exact Nat.div_lt_of_lt_mul hx
  have small : (u.toNat % 2 ^ k) >>> (n % k) < 2 ^ k := low.trans_le (Nat.pow_le_pow_right (by decide) (by omega))
  rw [BitVec.toNat_rotateRight, BitVec.toNat_setWidth, ← Nat.mod_eq_of_lt small, ← Nat.or_mod_two_pow, Nat.or_comm,
    ← Nat.shiftLeft_add_eq_or_of_lt low, Nat.add_comm]
  simp only [shiftW, Nat.shiftLeft_eq, Nat.shiftRight_eq_div_pow]

/-! ### Bit fields (R94) -/

/-- A field of a word, extended. -/
theorem extractField_eq (signed : Bool) (o w : Nat) (u : DWord) : extractField signed o w u =
    if signed then ((u >>> o).setWidth w).signExtend 64 else ((u >>> o).setWidth w).setWidth 64 := by
  have field : u.toNat / 2 ^ o % 2 ^ w = ((u >>> o).setWidth w).toNat := by
    rw [BitVec.toNat_setWidth, BitVec.toNat_ushiftRight, Nat.shiftRight_eq_div_pow]
  rw [extractField, field]
  cases signed
  · exact BitVec.ofNat_toNat ..
  · exact congrArg (BitVec.ofInt 64) (BitVec.toInt_eq_toNat_bmod _).symm

/-- The mask of a field of at most 64 bits. -/
theorem fieldMask_eq {o w : Nat} (h : w ≤ 64) : BitVec.ofNat 64 ((2 ^ w - 1) * 2 ^ o) = Claims.fieldMask 64 o w := by
  have ones : BitVec.ofNat 64 (2 ^ w - 1) = BitVec.allOnes 64 >>> (64 - w) := by
    apply BitVec.eq_of_getLsbD_eq
    intro k hk
    simp only [BitVec.getLsbD_ofNat, Nat.testBit_two_pow_sub_one, BitVec.getLsbD_ushiftRight, BitVec.getLsbD_allOnes, hk]
    simp only [decide_true, Bool.true_and, decide_eq_decide]
    omega
  rw [Claims.fieldMask, ← ones]
  apply BitVec.eq_of_toNat_eq
  rw [BitVec.toNat_shiftLeft, BitVec.toNat_ofNat, BitVec.toNat_ofNat, Nat.shiftLeft_eq, Nat.mod_mul_mod]

/-- A field of BFI has at most 64 bits (Table 5-5). -/
theorem bfi_width_le (v : BitVec 33) : (fieldOf true v).2.1 ≤ 64 := (v.extractLsb' 6 6).isLt

/-! ### Counting bits (R93) -/

/-- CLZ counts the places above the highest bit that is set. -/
theorem leadingZeros_eq (w : Nat) (u : DWord) : leadingZeros w (u.toNat % 2 ^ w) = (List.range w).findIdx fun k => u.getLsbD (w - 1 - k) := by
  have bits : ∀ k < w, u.getLsbD (w - 1 - k) = (u.toNat % 2 ^ w).testBit (w - 1 - k) := fun k hk => by
    rw [Nat.testBit_mod_two_pow, decide_eq_true (by omega), Bool.true_and]
    rfl
  rw [leadingZeros]
  split
  case isTrue hzero =>
    refine (List.length_range.symm.trans (List.findIdx_eq_length.2 fun k hk => ?_).symm)
    rw [bits k (List.mem_range.1 hk), hzero, Nat.zero_testBit]
  case isFalse hne =>
    have top : (u.toNat % 2 ^ w).log2 < w := (Nat.log2_lt hne).2 (Nat.mod_lt _ (by positivity))
    have place : w - 1 - (w - 1 - (u.toNat % 2 ^ w).log2) = (u.toNat % 2 ^ w).log2 := by omega
    refine ((List.findIdx_eq (by simp only [List.length_range]; omega)).2 ⟨?_, fun j hj => ?_⟩).symm
    · rw [List.getElem_range, bits _ (by omega), place, Nat.testBit_log2 hne]
    · rw [List.getElem_range, bits _ (by omega)]
      exact Nat.testBit_lt_two_pow (Nat.lt_log2_self.trans_le (Nat.pow_le_pow_right (by decide) (by omega)))

/-- POPC counts the bits that are set. -/
theorem oneBits_eq (w : Nat) (u : DWord) : oneBits w (u.toNat % 2 ^ w) = (List.range w).countP fun k => u.getLsbD k := by
  rw [oneBits, List.countP_eq_length_filter]
  refine congrArg List.length (List.filter_congr fun k hk => ?_)
  rw [Nat.testBit_mod_two_pow, decide_eq_true (List.mem_range.1 hk), Bool.true_and]
  rfl

/-! ### Instructions with a scalar destination -/

section Destination
variable {x : Instr} {s : State} {i : Issue} {t : Team} {d : BitVec 6} {a b : BitVec 7} {u v r : DWord} {p : Nat}

/-- The sources of an instruction whose destination is in reach. -/
theorem operandsAB_eq {t : Team} {core : Nat} (ha : sourceA i t core a = .ok u) (hb : sourceA i t core b = .ok v)
    (hp : t.a.win.reg 256 d.toNat = .ok p) : operandsAB i t core d a b = .ok (u, v) := by
  simp only [operandsAB, ha, hb, hp, bind, Except.bind]

/-- An instruction s_d := f(a, b) completes where f has a value. -/
theorem binA_next {f : DWord → DWord → Act DWord} (h : Issuing x s i t) (ha : sourceA i (atIssue i t) (coreWord s i.core) a = .ok u)
    (hb : sourceA i (atIssue i t) (coreWord s i.core) b = .ok v) (hp : (atIssue i t).a.win.reg 256 d.toNat = .ok p) (hf : f u v = .ok r) :
    binA x d a b f s = .next (doneWith s i (Claims.setS (atIssue i t) p r)) := by
  refine issue_team plain h ?_
  simp only [coreWord_setTeam, operandsAB_eq ha hb hp, hf, writeS_eq r hp, State.setTeam_setTeam, bind, Except.bind]

/-- An instruction s_d := f(a, b) raises the cause that f raises. -/
theorem binA_raises {f : DWord → DWord → Act DWord} {c : Nat} (h : Issuing x s i t)
    (ha : sourceA i (atIssue i t) (coreWord s i.core) a = .ok u) (hb : sourceA i (atIssue i t) (coreWord s i.core) b = .ok v)
    (hp : (atIssue i t).a.win.reg 256 d.toNat = .ok p) (hf : f u v = raise c) :
    binA x d a b f s = .next (settle s i t { value := valueOfA i t (coreWord s i.core) x } (raise c)) := by
  refine issue_trap plain h ?_
  simp only [coreWord_setTeam, operandsAB_eq ha hb hp, hf, raise, bind, Except.bind]

/-- An instruction s_d := f(a) completes where f has a value. -/
theorem unA_next {f : Issue → DWord → DWord → Act DWord} {old : DWord} (h : Issuing x s i t)
    (ha : sourceA i (atIssue i t) (coreWord s i.core) a = .ok u) (hp : (atIssue i t).a.win.reg 256 d.toNat = .ok p)
    (hold : tabGetD 0 t.a.s p = old) (hf : f i u old = .ok r) :
    unA x d a f s = .next (doneWith s i (Claims.setS (atIssue i t) p r)) := by
  have hs : (atIssue i t).a.s = t.a.s := t.advance_s _
  refine issue_team plain h ?_
  simp only [coreWord_setTeam, ha, readS_eq hp, hs, hold, hf, writeS_eq r hp, State.setTeam_setTeam, bind, Except.bind]

end Destination

/-! ### The instructions of the statements -/

/-- A typed instruction computes the typed form of an operation that agrees with its integers'. -/
theorem typedA_eq {x : Instr} {d : BitVec 6} {a b : BitVec 7} {ty : BitVec 3} {f : Int → Int → Int} {op : Claims.WidthOp} (s : State)
    (h : ∀ y z : BitVec (typeWidth ty), BitVec.ofInt _ (f (intOf (Claims.signedType ty) y) (intOf (Claims.signedType ty) z)) = op _ y z) :
    typedA x d a b ty f s = binA x d a b (fun u v => .ok (Claims.typed ty op u v)) s := by
  simp only [typedA, typed_eq _ _ h]

/-- A shift by a register computes the shift of words that agrees with its numbers'. -/
theorem shiftA_eq {op : ShiftOp} {w : BitVec 2} {f : DWord → Nat → DWord} (x : Instr) (d : BitVec 6) (a b : BitVec 7)
    (h : ∀ u n, shifted op w u n = f u n) : shiftA x op d a b w = binA x d a b fun u v => .ok (f u v.toNat) := by
  simp only [← h]
  rfl

/-- A shift by an immediate computes the shift of words that agrees with its numbers'. -/
theorem shiftImmA_eq {op : ShiftOp} {w : BitVec 2} {f : DWord → Nat → DWord} (x : Instr) (d : BitVec 6) (a m : BitVec 7)
    (h : ∀ u n, shifted op w u n = f u n) : shiftImmA x op d a w m = unA x d a fun _ u _ => .ok (f u m.toNat) := by
  simp only [← h]
  rfl

/-! `exec` at the typed instructions, the shifts, the bit fields and the bit counts. -/

section Arms
variable (d : BitVec 6) (a b m : BitVec 7) (ty : BitVec 3) (w : BitVec 2) (s : State)

theorem exec_addA : exec (.addA d a b ty) s = typedA (.addA d a b ty) d a b ty (fun x y => x + y) s := rfl
theorem exec_subA : exec (.subA d a b ty) s = typedA (.subA d a b ty) d a b ty (fun x y => x - y) s := rfl
theorem exec_mulA : exec (.mulA d a b ty) s = typedA (.mulA d a b ty) d a b ty (fun x y => x * y) s := rfl
theorem exec_mulhA : exec (.mulhA d a b ty) s = typedA (.mulhA d a b ty) d a b ty (fun x y => x * y / (2 ^ typeWidth ty : Nat)) s := rfl
theorem exec_minA : exec (.minA d a b ty) s = typedA (.minA d a b ty) d a b ty (fun x y => min x y) s := rfl
theorem exec_maxA : exec (.maxA d a b ty) s = typedA (.maxA d a b ty) d a b ty (fun x y => max x y) s := rfl
theorem exec_shlA : exec (.shlA d a b w) s = shiftA (.shlA d a b w) .shl d a b w s := rfl
theorem exec_shrA : exec (.shrA d a b w) s = shiftA (.shrA d a b w) .shr d a b w s := rfl
theorem exec_sarA : exec (.sarA d a b w) s = shiftA (.sarA d a b w) .sar d a b w s := rfl
theorem exec_rotA : exec (.rotA d a b w) s = shiftA (.rotA d a b w) .rot d a b w s := rfl
theorem exec_shlImmA : exec (.shlImmA d a w m) s = shiftImmA (.shlImmA d a w m) .shl d a w m s := rfl
theorem exec_shrImmA : exec (.shrImmA d a w m) s = shiftImmA (.shrImmA d a w m) .shr d a w m s := rfl
theorem exec_sarImmA : exec (.sarImmA d a w m) s = shiftImmA (.sarImmA d a w m) .sar d a w m s := rfl
theorem exec_rotImmA : exec (.rotImmA d a w m) s = shiftImmA (.rotImmA d a w m) .rot d a w m s := rfl
theorem exec_bfxSA (n : BitVec 4) (o : BitVec 6) : exec (.bfxSA d a n o) s = execBfxSA d a n o s := rfl
theorem exec_bfxZA (n : BitVec 4) (o : BitVec 6) : exec (.bfxZA d a n o) s = execBfxZA d a n o s := rfl
theorem exec_bfiA (n : BitVec 5) (o : BitVec 6) : exec (.bfiA d a n o) s = execBfiA d a n o s := rfl
theorem exec_clzA : exec (.clzA d a w) s = execClzA d a w s := rfl
theorem exec_popcA : exec (.popcA d a w) s = execPopcA d a w s := rfl

end Arms

/-- `exec` at an instruction with two sources computes its value. -/
theorem exec_twoSource {x : Instr} {r : Claims.TwoSource} (s : State) (hr : Claims.twoSource x = some r) :
    exec x s = binA x r.d r.a r.b (fun u v => .ok (r.value u v)) s := by
  unfold Claims.twoSource at hr
  split at hr
  case h_15 => cases hr
  all_goals cases hr
  case h_1 => rw [exec_addA, typedA_eq (op := fun _ y z => y + z) s fun y z => by rw [BitVec.ofInt_add, ofInt_intOf, ofInt_intOf]]
  case h_2 => rw [exec_subA, typedA_eq (op := fun _ y z => y - z) s (ofInt_sub_intOf _)]
  case h_3 => rw [exec_mulA, typedA_eq (op := fun _ y z => y * z) s fun y z => by rw [BitVec.ofInt_mul, ofInt_intOf, ofInt_intOf]]
  case h_4 => rw [exec_mulhA, typedA_eq s (ofInt_upperProduct _)]
  case h_5 => rw [exec_minA, typedA_eq s (ofInt_min _)]
  case h_6 => rw [exec_maxA, typedA_eq s (ofInt_max _)]
  case h_11 w => rw [exec_shlA, shiftA_eq _ _ _ _ (shifted_shl w)]
  case h_12 w => rw [exec_shrA, shiftA_eq _ _ _ _ (shifted_shr w)]
  case h_13 w => rw [exec_sarA, shiftA_eq _ _ _ _ (shifted_sar w)]
  case h_14 w => rw [exec_rotA, shiftA_eq _ _ _ _ (shifted_rot w)]
  -- AND, OR, XOR and ANDN.
  all_goals rfl

/-- The instructions with two sources. -/
theorem aluTwoSource : Claims.AluTwoSource := by
  intro x s i t r u v p hr h _ ha hb hp
  rw [exec_twoSource s hr]
  exact binA_next h ha hb hp rfl

/-- `exec` at an instruction with one source computes its value. -/
theorem exec_oneSource {x : Instr} {r : Claims.OneSource} (s : State) (hr : Claims.oneSource x = some r) :
    exec x s = unA x r.d r.a (fun i u old => .ok (r.value i.hint u old)) s := by
  unfold Claims.oneSource at hr
  split at hr
  case h_14 => cases hr
  all_goals cases hr
  case h_5 w m => rw [exec_shlImmA, shiftImmA_eq _ _ _ _ (shifted_shl w)]
  case h_6 w m => rw [exec_shrImmA, shiftImmA_eq _ _ _ _ (shifted_shr w)]
  case h_7 w m => rw [exec_sarImmA, shiftImmA_eq _ _ _ _ (shifted_sar w)]
  case h_8 w m => rw [exec_rotImmA, shiftImmA_eq _ _ _ _ (shifted_rot w)]
  case h_9 => simp only [exec_bfxSA, execBfxSA, extractField_eq, if_true]
  case h_10 => simp only [exec_bfxZA, execBfxZA, extractField_eq, Bool.false_eq_true, if_false]
  case h_11 w o => simp only [exec_bfiA, execBfiA, insertField, fieldMask_eq (bfi_width_le _)]
  case h_12 w => simp only [exec_clzA, execClzA, leadingZeros_eq, shift_width]
  case h_13 w => simp only [exec_popcA, execPopcA, oneBits_eq, shift_width]
  -- ADD, AND, OR and XOR with an immediate.
  all_goals rfl

/-- The instructions with one source. -/
theorem aluOneSource : Claims.AluOneSource := by
  intro x s i t r u old p hr h _ ha hp hold
  rw [exec_oneSource s hr]
  exact unA_next h ha hp hold rfl

/-! ### Division (R90) -/

theorem exec_divs (d : BitVec 6) (a b : BitVec 7) (ty : BitVec 3) (s : State) : exec (.divs d a b ty) s = execDivs d a b ty s := rfl
theorem exec_divz (d : BitVec 6) (a b : BitVec 7) (ty : BitVec 3) (s : State) : exec (.divz d a b ty) s = execDivz d a b ty s := rfl

section Division
variable {s : State} {i : Issue} {t : Team} {d : BitVec 6} {a b : BitVec 7} {ty : BitVec 3} {u v : DWord} {p : Nat}

/-- The quotient of a type. -/
theorem typed_quotient (ty : BitVec 3) (u v : DWord) :
    typeExt ty ((typeInt ty u).tdiv (typeInt ty v)) = Claims.typed ty (Claims.quotient (Claims.signedType ty)) u v :=
  typed_eq u v (ofInt_quotient _)

/-- DIVZ writes its value, and sets DZ where the divisor is 0. -/
theorem divz_completes (h : Issuing (.divz d a b ty) s i t) (ha : sourceA i (atIssue i t) (coreWord s i.core) a = .ok u)
    (hb : sourceA i (atIssue i t) (coreWord s i.core) b = .ok v) (hp : (atIssue i t).a.win.reg 256 d.toNat = .ok p) :
    exec (.divz d a b ty) s = .next (doneWith s i
      (if typeInt ty v = 0 then orFlags (Claims.setS (atIssue i t) p 0) flagDZ
        else Claims.setS (atIssue i t) p (Claims.typed ty (Claims.quotient (Claims.signedType ty)) u v))) := by
  rw [exec_divz, ← typed_quotient]
  refine issue_team plain h ?_
  by_cases hv : typeInt ty v = 0
  · simp only [coreWord_setTeam, operandsAB_eq ha hb hp, hv, decide_true, if_true, writeS_eq _ hp, State.setTeam_setTeam, bind, Except.bind]
  · simp only [coreWord_setTeam, operandsAB_eq ha hb hp, hv, decide_false, Bool.false_eq_true, if_false, writeS_eq _ hp,
      State.setTeam_setTeam, bind, Except.bind]

end Division

/-- DIVS and DIVZ. -/
theorem division : Claims.Division := by
  intro s i t d a b ty u v p _ ha hb hp q zero
  have hzero : typeInt ty v = 0 ↔ zero := typeInt_eq_zero_iff ty v
  refine ⟨fun h hv => ?_, fun h hv => ?_, fun h hv => ?_, fun h hv => ?_⟩
  · rw [exec_divs]
    exact binA_next h ha hb hp ((if_neg (mt hzero.1 hv)).trans (congrArg _ (typed_quotient ty u v)))
  · rw [divz_completes h ha hb hp, if_neg (mt hzero.1 hv)]
  · rw [exec_divs]
    exact binA_raises h ha hb hp (if_pos (hzero.2 hv))
  · rw [divz_completes h ha hb hp, if_pos (hzero.2 hv)]
    have hf : (atIssue i t).fstat = t.fstat := t.advance_fstat _
    rw [← hf]
    rfl

/-- Settles O10: each instruction is an operation of words that agrees with the one on integers that the model makes. -/
theorem addressArithmetic : Obligations.AddressArithmetic := ⟨aluTwoSource, aluOneSource, division⟩

end Sys2Proof.Machine

/-! ## Funnel shifts, compares, selects, immediates and branches of the address stream -/

namespace Sys2Proof.Machine

/-! ### Funnel shifts (R95) -/

theorem exec_fshlA (d : BitVec 6) (a b : BitVec 7) (sg : BitVec 1) (s : State) : exec (.fshlA d a b sg) s = execFshlA d a b sg s := rfl
theorem exec_fshrA (d : BitVec 6) (a b : BitVec 7) (sg : BitVec 1) (s : State) : exec (.fshrA d a b sg) s = execFshrA d a b sg s := rfl

/-- The low bits of a word, extended. -/
theorem extractField_low (sg : BitVec 1) (w : Nat) (y : DWord) : extractField (sg == 1) 0 w y =
    if sg = 1 then (y.setWidth w).signExtend 64 else (y.setWidth w).setWidth 64 := by
  rw [extractField_eq, BitVec.ushiftRight_zero]
  exact if_congr beq_iff_eq rfl rfl

/-- The low bits of a word do not depend on its higher bits. -/
theorem setWidth_ofNat_mod {w : Nat} (h : w ≤ 64) (n : Nat) : (BitVec.ofNat 64 (n % 2 ^ w)).setWidth w = (BitVec.ofNat 64 n).setWidth w := by
  apply BitVec.eq_of_toNat_eq
  have dvd : 2 ^ w ∣ 2 ^ 64 := Nat.pow_dvd_pow 2 h
  simp only [BitVec.toNat_setWidth, BitVec.toNat_ofNat, Nat.mod_mod_of_dvd _ dvd, Nat.mod_mod]

/-- The upper half of a pair shifted left. -/
theorem funnel_left (old u : DWord) (o : Nat) :
    BitVec.ofNat 64 ((old.toNat * 2 ^ 64 + u.toNat) * 2 ^ o / 2 ^ 64 % 2 ^ 64) = ((old ++ u) <<< o).extractLsb' 64 64 := by
  apply BitVec.eq_of_toNat_eq
  rw [BitVec.extractLsb'_toNat, BitVec.toNat_shiftLeft, BitVec.toNat_append, ← Nat.shiftLeft_add_eq_or_of_lt u.isLt, BitVec.toNat_ofNat,
    Nat.shiftLeft_eq, Nat.shiftLeft_eq, Nat.shiftRight_eq_div_pow]
  generalize (old.toNat * 2 ^ 64 + u.toNat) * 2 ^ o = n
  omega

/-- The lower half of a pair shifted right. -/
theorem funnel_right (old u : DWord) (o : Nat) :
    BitVec.ofNat 64 ((u.toNat * 2 ^ 64 + old.toNat) / 2 ^ o) = ((u ++ old) >>> o).setWidth 64 := by
  apply BitVec.eq_of_toNat_eq
  rw [BitVec.toNat_setWidth, BitVec.toNat_ushiftRight, BitVec.toNat_append, ← Nat.shiftLeft_add_eq_or_of_lt old.isLt, BitVec.toNat_ofNat,
    Nat.shiftLeft_eq, Nat.shiftRight_eq_div_pow]

section Funnel
variable {x : Instr} {s : State} {i : Issue} {t : Team} {d : BitVec 6} {a b : BitVec 7} {sg : BitVec 1} {u v old : DWord} {p : Nat}
  {y : Nat → Nat → Nat → Nat}

/-- The offset of a funnel shift (R95). -/
theorem funnel_offset (v : DWord) : v.toNat % 128 = (v.extractLsb' 0 7).toNat := by
  rw [BitVec.extractLsb'_toNat, Nat.shiftRight_zero]

/-- The width of a funnel shift (R95). -/
theorem funnel_width (v : DWord) : v.toNat / 256 % 128 = (v.extractLsb' 8 7).toNat := by
  rw [BitVec.extractLsb'_toNat, Nat.shiftRight_eq_div_pow]

/-- A funnel shift of a width in range gives the low bits of the shifted pair. -/
theorem funnelA_next (h : Issuing x s i t) (ha : sourceA i (atIssue i t) (coreWord s i.core) a = .ok u)
    (hb : sourceA i (atIssue i t) (coreWord s i.core) b = .ok v) (hp : (atIssue i t).a.win.reg 256 d.toNat = .ok p)
    (hold : tabGetD 0 t.a.s p = old) {w : Nat} (hw : (v.extractLsb' 8 7).toNat = w) (h1 : 1 ≤ w) (h64 : w ≤ 64) {z : DWord}
    (hy : BitVec.ofNat 64 (y old.toNat u.toNat (v.extractLsb' 0 7).toNat) = z) :
    funnelA x d a b sg y s = .next (doneWith s i (Claims.setS (atIssue i t) p
      (if sg = 1 then (z.setWidth w).signExtend 64 else (z.setWidth w).setWidth 64))) := by
  have hs : (atIssue i t).a.s = t.a.s := t.advance_s _
  have inRange : ¬ (w = 0 ∨ 64 < w) := by omega
  refine issue_team plain h ?_
  simp only [coreWord_setTeam, operandsAB_eq ha hb hp, readS_eq hp, hs, hold, funnel_offset, funnel_width, hw, if_neg inRange,
    extractField_low, setWidth_ofNat_mod h64, hy, writeS_eq _ hp, State.setTeam_setTeam, bind, Except.bind]

/-- A funnel shift of another width raises 0x041. -/
theorem funnelA_raises (h : Issuing x s i t) (ha : sourceA i (atIssue i t) (coreWord s i.core) a = .ok u)
    (hb : sourceA i (atIssue i t) (coreWord s i.core) b = .ok v) (hp : (atIssue i t).a.win.reg 256 d.toNat = .ok p)
    (hw : (v.extractLsb' 8 7).toNat = 0 ∨ 64 < (v.extractLsb' 8 7).toNat) :
    funnelA x d a b sg y s = .next (settle s i t { value := valueOfA i t (coreWord s i.core) x } (raise 0x041)) := by
  refine issue_trap plain h ?_
  simp only [coreWord_setTeam, operandsAB_eq ha hb hp, readS_eq hp, funnel_width, if_pos hw, raise, bind, Except.bind]

end Funnel

/-- Settles O11, the shifted pair of each direction and the widths that raise 0x041. -/
theorem funnelShift : Obligations.FunnelShift := by
  intro s i t d a b sg u v old p _ ha hb hp hold o w cut left right
  simp only [exec_fshlA, exec_fshrA]
  exact ⟨fun h1 h64 h => funnelA_next h ha hb hp hold rfl h1 h64 (funnel_left old u o),
    fun h1 h64 h => funnelA_next h ha hb hp hold rfl h1 h64 (funnel_right old u o),
    fun hw h => funnelA_raises h ha hb hp hw, fun hw h => funnelA_raises h ha hb hp hw⟩

/-! ### Compares, selects and immediates (R96 to R98) -/

theorem exec_cmpA (p : BitVec 3) (a b : BitVec 7) (c : BitVec 4) (s : State) : exec (.cmpA p a b c) s = execCmpA p a b c s := rfl
theorem exec_selA (d : BitVec 6) (a b : BitVec 7) (p : BitVec 3) (s : State) : exec (.selA d a b p) s = execSelA d a b p s := rfl
theorem exec_liA (d : BitVec 6) (m : BitVec 11) (s : State) : exec (.liA d m) s = execLiA d m s := rfl
theorem exec_liHiA (d : BitVec 6) (m : BitVec 11) (s : State) : exec (.liHiA d m) s = execLiHiA d m s := rfl

/-- The conditions of Table 5-6. -/
theorem compareHolds_eq {w : Nat} (c : BitVec 4) (x y : BitVec w) : compareHolds c x y = Claims.condition c x y := by
  unfold compareHolds
  split <;> simp only [Claims.condition, *, BitVec.slt_eq_decide, BitVec.ult_eq_decide, ← decide_not, Int.not_lt, Nat.not_lt]

/-- A predicate is written as the statements say. -/
theorem writeP_eq_setP (t : Team) (p : BitVec 3) (v : Bool) : writeP t p.toNat v = Claims.setP t p v := by
  have hzero : p.toNat = 0 ↔ p = 0 := BitVec.toNat_inj (y := 0#3)
  have mask : BitVec.ofNat 8 (1 <<< p.toNat) = 1#8 <<< p.toNat := by revert p; decide
  by_cases hp : p = 0
  · simp [writeP, Claims.setP, hp]
  · rw [writeP, Claims.setP, if_neg (mt hzero.1 hp), if_neg hp, mask]
    have set : ∀ x m : BitVec 8, x ||| m = (x &&& ~~~m) ||| m := fun x m => by
      ext k hk
      simp only [BitVec.getElem_or, BitVec.getElem_and, BitVec.getElem_not]
      cases m[k] <;> simp
    cases v
    · simp [Team.modA]
    · simp [Team.modA, ← set]

/-- Settles O12: the condition, the choice and the immediate that each of the four instructions writes. -/
theorem compareSelectLoad : Obligations.CompareSelectLoad := by
  intro s i t _
  have hs : (atIssue i t).a.s = t.a.s := t.advance_s _
  refine ⟨fun p a b c u v _ h ha hb => ?_, fun d a b p u v r h ha hb hr => ?_, fun d m r h hr => ?_, fun d m r h hr => ?_⟩
  · rw [exec_cmpA]
    refine issue_team plain h ?_
    simp only [coreWord_setTeam, ha, hb, writeP_eq_setP, compareHolds_eq, State.setTeam_setTeam, bind, Except.bind]
  · rw [exec_selA]
    refine issue_team plain h ?_
    have reads : readP (atIssue i t) p.toNat = true ↔ p = 0 ∨ t.a.p.getLsbD p.toNat = true := by
      simp [readP_atIssue, Claims.holds]
    simp only [coreWord_setTeam, operandsAB_eq ha hb hr, reads, writeS_eq _ hr, State.setTeam_setTeam, bind, Except.bind]
  · rw [exec_liA]
    exact issue_onTeam plain h (writeS_eq _ hr)
  · rw [exec_liHiA]
    refine issue_onTeam plain h ?_
    simp only [readS_eq hr, hs, writeS_eq _ hr, bind, Except.bind]
    rfl

/-! ### Branches and the end of the stream (R99, R204) -/

theorem exec_brA (c : BitVec 3) (o : BitVec 22) (s : State) : exec (.brA c o) s = execBrA c o s := rfl
theorem exec_brnA (c : BitVec 3) (o : BitVec 22) (s : State) : exec (.brnA c o) s = execBrnA c o s := rfl
theorem exec_loop (c : BitVec 3) (o : BitVec 22) (s : State) : exec (.loop c o) s = execLoop c o s := rfl
theorem exec_endS (s : State) : exec .endS s = execEndS s := rfl

/-- BR, BRN and LOOP. -/
theorem addressBranches_complete : Claims.AddressBranches := by
  intro s i t c o _ u target
  have jump : ∀ v : Team, v.setPc .a (jumpTarget i.pc o) = Claims.goto v target := fun v => by
    rw [jumpTarget_eq]
    rfl
  have hs : u.a.s = t.a.s := t.advance_s _
  refine ⟨fun h => ?_, fun h => ?_, fun h hc => ?_, fun p h hc hp => ?_⟩
  · rw [exec_brA]
    exact issue_onTeam plain h (by rw [readP_atIssue, jump])
  · rw [exec_brnA]
    exact issue_onTeam plain h (by rw [readP_atIssue, jump])
  · rw [exec_loop]
    refine issue_onTeam plain h ?_
    rw [readP_atIssue, hc, if_neg Bool.false_ne_true]
  · rw [exec_loop]
    refine issue_onTeam plain h ?_
    have hp : (atIssue i t).a.win.reg 256 0 = .ok p := hp
    have hs : (atIssue i t).a.s = t.a.s := hs
    rw [readP_atIssue, if_pos hc]
    simp only [readS_eq hp, writeS_eq _ hp, hs, jump, ite_not, bind, Except.bind]
    rfl

section AddressEnd
variable {s : State} {i : Issue} {u : Team}

/-- Without a task and without a Lattice command under way, the A-stream ends. -/
theorem endA_ends (s : State) (i : Issue) (htask : u.task = none) (hbusy : latticeBusy u = false) :
    endA s i u = .ok (s.setTeam i.wid { u with a := { u.a with ended := true } }) := by
  have free : raiseIf u.task.isSome 0x116 = .ok () := if_neg (by simp [htask])
  have idle : waitWhile (latticeBusy u) (.lattice 0) = .ok () := if_neg (by simp [hbusy])
  simp only [endA, free, idle, bind, Except.bind]
  rfl

/-- A held task is cause 0x116. -/
theorem endA_holding (s : State) (i : Issue) (htask : u.task.isSome) : endA s i u = raise 0x116 := by
  simp only [endA, htask, raiseIf, raise, bind, Except.bind]
  rfl

/-- The end waits for the team's Lattice commands. -/
theorem endA_waits (s : State) (i : Issue) (htask : u.task = none) (hbusy : latticeBusy u) : endA s i u = waitOn (.lattice 0) := by
  simp only [endA, htask, hbusy, raiseIf, waitWhile, bind, Except.bind]
  rfl

end AddressEnd

/-- END of the A-stream, and RET at depth 0, do what `endA` does. -/
theorem exec_ends {x : Instr} {s : State} {i : Issue} {t : Team} (ha : i.stream = .a) (hx : x = .endS ∨ (x = .retA ∧ t.a.win.depth = 0))
    (h : Issuing x s i t) : ∃ may body, exec x s = issue x may s body ∧
      body i (atIssue i t) (s.setTeam i.wid (atIssue i t)) = endA (s.setTeam i.wid (atIssue i t)) i (atIssue i t) := by
  rcases hx with rfl | ⟨rfl, hdepth⟩
  · rw [exec_endS]
    refine ⟨_, _, rfl, ?_⟩
    exact if_neg (by rw [Issue.estr_of_a ha]; exact Bool.false_ne_true)
  · rw [exec_retA]
    refine ⟨_, _, rfl, ?_⟩
    exact if_pos ((congrArg Window.depth (t.advance_win _)).trans hdepth)

/-- END of the A-stream, and RET at depth 0. -/
theorem addressEnd : Claims.AddressEnd := by
  intro x s i t ha hx h
  obtain ⟨may, body, hexec, hbody⟩ := exec_ends ha hx h
  have htask : (atIssue i t).task = t.task := t.advance_task _
  have hbusy : latticeBusy (atIssue i t) = latticeBusy t := by simp [latticeBusy, atIssue]
  rw [hexec]
  refine ⟨fun hnone hidle => ?_, fun hsome => ?_, fun hnone hlat => ?_⟩
  · refine issue_team may h ?_
    rw [hbody, endA_ends _ i (htask.trans hnone) (hbusy.trans hidle), State.setTeam_setTeam]
  · exact issue_trap may h (hbody.trans (endA_holding _ i (by rwa [htask])))
  · exact issue_wait may h (hbody.trans (endA_waits _ i (htask.trans hnone) (hbusy.trans hlat)))

/-- Settles O13: the branches, and the end of the stream. -/
theorem addressBranches : Obligations.AddressBranches := ⟨addressBranches_complete, addressEnd⟩

/-! ### Translation registers and page requests (R102 to R104) -/

theorem exec_txl (tn : BitVec 4) (a : BitVec 7) (s : State) : exec (.txl tn a) s = execTxl tn a s := rfl
theorem exec_txclr (tn : BitVec 4) (s : State) : exec (.txclr tn) s = execTxclr tn s := rfl
theorem exec_txclrAll (s : State) : exec .txclrAll s = execTxclrAll s := rfl
theorem exec_pgreq (p : BitVec 3) (a : BitVec 7) (s : State) : exec (.pgreq p a) s = execPgreq p a s := rfl

/-- The cause of an address that no page or object maps. -/
def unmappedCause : Xlated → Option Nat
  | .unmapped => some 0x081
  | .malformed => some 0x088
  | .unbacked => some 0x089
  | _ => none

section Translation
variable {s : State} {i : Issue} {t : Team} {tn : BitVec 4} {a : BitVec 7} {p : BitVec 3} {va : DWord} {l : Leaf} {pa c : Nat}

/-- TXL of an address of 2 ^ 57 or above raises 0x084. -/
theorem txl_far (h : Issuing (.txl tn a) s i t) (ha : sourceA i (atIssue i t) (coreWord s i.core) a = .ok va) (hva : 2 ^ 57 ≤ va.toNat) :
    exec (.txl tn a) s = .next (settle s i t {} (raiseWith 0x084 { value := va })) := by
  rw [exec_txl]
  refine issue_trap plain h ?_
  simp only [coreWord_setTeam, ha, if_pos hva, BitVec.ofNat_toNat, BitVec.setWidth_eq, raiseWith, bind, Except.bind]

/-- TXL of an address that nothing maps raises the cause of it. -/
theorem txl_unmapped (h : Issuing (.txl tn a) s i t) (ha : sourceA i (atIssue i t) (coreWord s i.core) a = .ok va)
    (hva : va.toNat < 2 ^ 57) (hx : unmappedCause (xlate (s.setTeam i.wid (atIssue i t)) i.core t.info.ctx va.toNat) = some c) :
    exec (.txl tn a) s = .next (settle s i t {} (raiseWith c { value := va })) := by
  have hinfo : (atIssue i t).info = t.info := t.advance_info _
  rw [exec_txl]
  refine issue_trap plain h ?_
  simp only [coreWord_setTeam, ha, if_neg (Nat.not_le.2 hva), BitVec.ofNat_toNat, BitVec.setWidth_eq, raiseWith, hinfo, bind, Except.bind]
  generalize xlate _ _ _ _ = x at hx ⊢
  cases x <;> cases hx <;> rfl

/-- TXL of an address on a resident page, or in a double-backed object. -/
theorem txl_resident (h : Issuing (.txl tn a) s i t) (ha : sourceA i (atIssue i t) (coreWord s i.core) a = .ok va)
    (hva : va.toNat < 2 ^ 57) (hx : xlate (s.setTeam i.wid (atIssue i t)) i.core t.info.ctx va.toNat = .hit l pa) :
    exec (.txl tn a) s = .next (doneAs ((xlateFill (s.setTeam i.wid (atIssue i t)) i.core t.info.ctx va.toNat).setTeam i.wid
      (writeT (atIssue i t) tn.toNat (Claims.run va.toNat l (some pa)))) i) := by
  have hinfo : (atIssue i t).info = t.info := t.advance_info _
  rw [exec_txl]
  refine issue_next plain h ?_
  simp only [coreWord_setTeam, ha, if_neg (Nat.not_le.2 hva), hx, hinfo, bind, Except.bind]
  rfl

/-- TXL of an address on a page that is not resident. -/
theorem txl_absent (h : Issuing (.txl tn a) s i t) (ha : sourceA i (atIssue i t) (coreWord s i.core) a = .ok va)
    (hva : va.toNat < 2 ^ 57) (hx : xlate (s.setTeam i.wid (atIssue i t)) i.core t.info.ctx va.toNat = .absent l) :
    exec (.txl tn a) s = .next (doneWith s i (writeT (atIssue i t) tn.toNat (Claims.run va.toNat l none))) := by
  have hinfo : (atIssue i t).info = t.info := t.advance_info _
  rw [exec_txl]
  refine issue_team plain h ?_
  simp only [coreWord_setTeam, ha, if_neg (Nat.not_le.2 hva), hx, hinfo, State.setTeam_setTeam, bind, Except.bind]
  rfl

/-- PGREQ of an address that nothing maps raises the cause of it. -/
theorem pgreq_unmapped (h : Issuing (.pgreq p a) s i t) (ha : sourceA i (atIssue i t) (coreWord s i.core) a = .ok va)
    (hva : va.toNat < 2 ^ 57) (hx : unmappedCause (xlate (s.setTeam i.wid (atIssue i t)) i.core t.info.ctx va.toNat) = some c) :
    exec (.pgreq p a) s = .next (settle s i t {} (raiseWith c { value := va })) := by
  have hinfo : (atIssue i t).info = t.info := t.advance_info _
  rw [exec_pgreq]
  refine issue_trap plain h ?_
  simp only [coreWord_setTeam, ha, if_neg (Nat.not_le.2 hva), BitVec.ofNat_toNat, BitVec.setWidth_eq, raiseWith, hinfo, bind, Except.bind]
  generalize xlate _ _ _ _ = x at hx ⊢
  cases x <;> cases hx <;> rfl

/-- PGREQ of an address on a resident page answers 1. -/
theorem pgreq_resident (h : Issuing (.pgreq p a) s i t) (ha : sourceA i (atIssue i t) (coreWord s i.core) a = .ok va)
    (hva : va.toNat < 2 ^ 57) (hx : xlate (s.setTeam i.wid (atIssue i t)) i.core t.info.ctx va.toNat = .hit l pa) :
    exec (.pgreq p a) s = .next (doneAs ((xlateFill (s.setTeam i.wid (atIssue i t)) i.core t.info.ctx va.toNat).setTeam i.wid
      (Claims.setP (atIssue i t) p true)) i) := by
  have hinfo : (atIssue i t).info = t.info := t.advance_info _
  rw [exec_pgreq]
  refine issue_next plain h ?_
  simp only [coreWord_setTeam, ha, if_neg (Nat.not_le.2 hva), hx, hinfo, writeP_eq_setP, bind, Except.bind]

/-- PGREQ of an address on a page whose request was declined answers 0. -/
theorem pgreq_declined (h : Issuing (.pgreq p a) s i t) (ha : sourceA i (atIssue i t) (coreWord s i.core) a = .ok va)
    (hva : va.toNat < 2 ^ 57) (hx : xlate (s.setTeam i.wid (atIssue i t)) i.core t.info.ctx va.toNat = .absent l)
    (hd : (atIssue i t).wasDeclined i.stream l.vbase = true) :
    exec (.pgreq p a) s = .next (doneWith s i (Claims.setP (atIssue i t) p false)) := by
  have hinfo : (atIssue i t).info = t.info := t.advance_info _
  rw [exec_pgreq]
  refine issue_team plain h ?_
  simp only [coreWord_setTeam, ha, if_neg (Nat.not_le.2 hva), hx, hinfo, if_pos hd, writeP_eq_setP, State.setTeam_setTeam, bind, Except.bind]

/-- PGREQ of an address on another absent page requests the page and waits. -/
theorem pgreq_waits (h : Issuing (.pgreq p a) s i t) (ha : sourceA i (atIssue i t) (coreWord s i.core) a = .ok va)
    (hva : va.toNat < 2 ^ 57) (hx : xlate (s.setTeam i.wid (atIssue i t)) i.core t.info.ctx va.toNat = .absent l)
    (hd : ¬ (atIssue i t).wasDeclined i.stream l.vbase = true) :
    exec (.pgreq p a) s = .next (noteWait s i (.page l.vbase) [⟨l.vbase, l.size, 1⟩]) := by
  have hinfo : (atIssue i t).info = t.info := t.advance_info _
  rw [exec_pgreq]
  refine issue_wait plain h ?_
  simp only [coreWord_setTeam, ha, if_neg (Nat.not_le.2 hva), hx, hinfo, if_neg hd, bind, Except.bind]

/-- A declined page is known at the instruction. -/
theorem wasDeclined_atIssue (i : Issue) (t : Team) (x : StreamId) (page : Nat) :
    (atIssue i t).wasDeclined x page = t.declined.contains (x, page) := by
  rw [Team.wasDeclined, atIssue, Team.advance_declined]

end Translation

/-- Settles O15: TXL, TXCLR and PGREQ by what the address translates to. -/
theorem translation : Obligations.Translation := by
  intro s i t ha u at_ trap s1
  have unmapped : ∀ {x : Xlated} {y : Xlated} {c : Nat}, x = y → unmappedCause y = some c → unmappedCause x = some c :=
    fun hx hc => (congrArg unmappedCause hx).trans hc
  refine ⟨fun tn a va h hva => ⟨txl_far h hva, fun hnear => ⟨fun l pa => txl_resident h hva hnear, fun l => txl_absent h hva hnear,
      fun hx => txl_unmapped h hva hnear (unmapped hx rfl), fun hx => txl_unmapped h hva hnear (unmapped hx rfl),
      fun hx => txl_unmapped h hva hnear (unmapped hx rfl)⟩⟩,
    fun tn h => issue_onTeam plain h rfl, fun h => issue_onTeam plain h rfl,
    fun p a va h hva hnear => ⟨fun l pa => pgreq_resident h hva hnear, fun l hx hd => ?_, fun l hx hd => ?_,
      fun hx => pgreq_unmapped h hva hnear (unmapped hx rfl)⟩⟩
  · exact pgreq_declined h hva hnear hx (by rwa [wasDeclined_atIssue, ha])
  · exact pgreq_waits h hva hnear hx (by rwa [wasDeclined_atIssue, ha])

end Sys2Proof.Machine

/-! ## What scalar accesses of the address stream meet -/

namespace Sys2Proof.Machine

theorem exec_lds (d : BitVec 6) (tn : BitVec 4) (x : BitVec 7) (sz : BitVec 2) (off : BitVec 6) (s : State) :
    exec (.lds d tn x sz off) s = execLds d tn x sz off s := rfl
theorem exec_sts (d : BitVec 6) (tn : BitVec 4) (x : BitVec 7) (sz : BitVec 2) (off : BitVec 6) (s : State) :
    exec (.sts d tn x sz off) s = execSts d tn x sz off s := rfl

/-! ### The address of a uniform operand (R64) -/

/-- The access size of a size code. -/
theorem szBytes_eq (sz : BitVec 2) : szBytes sz = Claims.bytes sz := Nat.one_shiftLeft _

/-- The address of a Format M operand. -/
theorem formAddr_eq (r : TReg) (idx : DWord) (off : Int) (size : Nat) : formAddr r idx.toNat off size = Claims.address r idx off size := by
  have sum : BitVec.ofNat 64 (r.vbase.toNat + idx.toNat) = r.vbase.setWidth 64 + idx := by
    rw [BitVec.ofNat_add, BitVec.ofNat_toNat, BitVec.ofNat_toNat, BitVec.setWidth_eq]
  rw [formAddr, Claims.address, BitVec.ofInt_add, BitVec.ofInt_natCast, sum]

/-- The address that LDS or STS forms. -/
theorem uniformAddr_eq {i : Issue} {u : Team} {core : Nat} {x : BitVec 7} {idx : DWord} (tn : BitVec 4) (sz : BitVec 2) (off : BitVec 6)
    (hx : sourceA i u core x = .ok idx) :
    uniformAddr i u core tn x sz off = .ok (Claims.address (readT u tn.toNat) idx (offsetUnits i.hint off) (Claims.bytes sz)) := by
  simp only [uniformAddr, hx, formAddr_eq, szBytes_eq, bind, Except.bind]

/-! ### The checks of one access (R107, R256) -/

/-- Of no causes none stands highest. -/
theorem highest_nil (order : List Nat) : highest order [] = none := List.find?_eq_none.2 fun _ _ => Bool.false_ne_true

/-- The only cause of a list stands highest in every order that has it. -/
theorem highest_singleton {order : List Nat} {c : Nat} (h : c ∈ order) : highest order [c] = some c := by
  unfold highest
  cases hf : order.find? fun k => [c].contains k with
  | none => exact absurd (List.find?_eq_none.1 hf c h) (by simp)
  | some k => simpa using List.find?_some hf

/-! A translation and the checks of an access do not look at the teams. -/

section TeamsUnread
variable (s : State) (w : Nat) (t : Team)
theorem ctxRoot_setTeam (c : Nat) : ctxRoot (s.setTeam w t) c = ctxRoot s c := rfl
theorem ctxDouble_setTeam (c : Nat) : ctxDouble (s.setTeam w t) c = ctxDouble s c := rfl
theorem doubles_setTeam (c : Nat) : doubles (s.setTeam w t) c = doubles s c := by
  unfold doubles
  rw [ctxDouble_setTeam, ctxRoot_setTeam, State.setTeam_mem]
theorem doubleOf_setTeam (c va : Nat) : doubleOf (s.setTeam w t) c va = doubleOf s c va := by
  simp only [doubleOf, doubles_setTeam]
theorem tlbLook_setTeam (core ctx va : Nat) : tlbLook (s.setTeam w t) core ctx va = tlbLook s core ctx va := rfl
theorem shotDown_setTeam (ctx va : Nat) : shotDown (s.setTeam w t) ctx va = shotDown s ctx va := by
  unfold shotDown
  rw [State.setTeam_dev]
theorem walkCtx_setTeam (ctx va : Nat) : walkCtx (s.setTeam w t) ctx va = walkCtx s ctx va := by
  unfold walkCtx
  rw [ctxRoot_setTeam, State.setTeam_mem]
theorem xlate_setTeam (core ctx va : Nat) (sh : Bool) : xlate (s.setTeam w t) core ctx va sh = xlate s core ctx va sh := by
  unfold xlate
  rw [doubleOf_setTeam, tlbLook_setTeam, shotDown_setTeam, walkCtx_setTeam]
theorem targetCause_setTeam (k : AccessKind) (size pa : Nat) : targetCause (s.setTeam w t) k size pa = targetCause s k size pa := by
  unfold targetCause
  rw [State.setTeam_dev]
theorem checkAccess_setTeam (core ctx : Nat) (r : TReg) (lane : Option Nat) (va size : Nat) (k : AccessKind) :
    checkAccess (s.setTeam w t) core ctx r lane va size k = checkAccess s core ctx r lane va size k := by
  have htc : targetCause (s.setTeam w t) k size = targetCause s k size := funext (targetCause_setTeam s w t k size)
  unfold checkAccess
  rw [xlate_setTeam, htc]

end TeamsUnread

/-- An access that passes its checks keeps its lane and its address. -/
theorem checkAccess_located {s : State} {core ctx va size : Nat} {r : TReg} {lane : Option Nat} {k : AccessKind} {l : Located}
    (h : checkAccess s core ctx r lane va size k = .at_ l) : l.lane = lane ∧ l.va = va := by
  unfold checkAccess at h
  generalize runAddr r va size = ra at h
  generalize xlate s core ctx va = x at h
  generalize targetCause s k size = tc at h
  have found : ∀ {attr : PageAttr} {pa : Nat}, (if k.writes && !attr.w then Checked.cause 0x082
      else match tc pa with
        | some c => .cause c
        | none => .at_ { lane := lane, va := va, pa := pa, attr := attr }) = .at_ l → l.lane = lane ∧ l.va = va := by
    intro attr pa h
    split at h
    · cases h
    · split at h <;> cases h
      exact ⟨rfl, rfl⟩
  split at h
  · cases h
  split at h
  · cases h
  split at h
  · cases h
  cases ra with
  | some pa => exact found h
  | none =>
    cases x with
    | hit m pa => exact found h
    | absent m =>
      dsimp only at h
      split at h <;> cases h
    | unmapped | malformed | unbacked | held => cases h

section Checks
variable {s : State} {core ctx va size : Nat} {r : TReg} {declined : Nat → Bool} {k : AccessKind}

/-- One access with a cause raises it, with its address. -/
theorem checkAll_cause {c : Nat} (h : checkAccess s core ctx r none va size k = .cause c) (hc : memCauseOrder.contains c) :
    checkAll s core ctx r declined [(none, va)] size k = raiseWith c { value := BitVec.ofNat 64 va } := by
  simp [checkAll, h, Checked.refuse, highest_singleton (List.contains_iff_mem.1 hc)]

/-- One access to an absent page, whose request was not declined, needs the page. -/
theorem checkAll_need {q : PageNeed} (h : checkAccess s core ctx r none va size k = .need q) (hd : declined q.page = false) :
    checkAll s core ctx r declined [(none, va)] size k = .ok ([q], []) := by
  simp [checkAll, h, Checked.refuse, hd, highest_nil]

/-- One access that passes its checks is located. -/
theorem checkAll_located {l : Located} (h : checkAccess s core ctx r none va size k = .at_ l) :
    checkAll s core ctx r declined [(none, va)] size k = .ok ([], [l]) := by
  simp [checkAll, h, Checked.refuse, highest_nil]

/-- What a race leaves in the trap value: the address, and the tag with a bit for the second test (Table 25-3). -/
def raceValue (l : Located) (tag : RaceTag) (second : Bool) : TrapValue :=
  { lane := l.lane, value := BitVec.ofNat 64 l.va, detail := (if second then 1#8 else 0#8) ++ tag.mask ++ tag.gen ++ tag.wid }

/-- One access with a race raises the cause of races. -/
theorem checkRaces_raises {wid : Nat} {t : Team} {l : Located} {second : Bool} (writes : Bool)
    (h : raceTest s wid t.acq (s.region t.info.node).racechk l.attr.nc l.pa size = some second) :
    checkRaces s wid t [l] size writes = raiseWith (if writes then 0x0A1 else 0x0A0) (raceValue l (tagAt s l.pa) second) := by
  simp [checkRaces, h, raceValue]

/-- Without a located access there is no race. -/
theorem checkRaces_nil (s : State) (wid : Nat) (t : Team) (size : Nat) (writes : Bool) : checkRaces s wid t [] size writes = .ok () := rfl

/-- A page whose request was not declined is waited for. -/
theorem awaitPages_waits {t : Team} {x : StreamId} {q : PageNeed} (hd : t.wasDeclined x q.page = false) :
    awaitPages t x [] [q] = .error (.wait (.page q.page) [q]) := by
  simp [awaitPages, hd]

/-- The fields of a race's detail. -/
theorem raceValue_detail (l : Located) (tag : RaceTag) (second : Bool) :
    (raceValue l tag second).detail.getLsbD 24 = second ∧ (raceValue l tag second).detail.extractLsb' 0 24 = tag.mask ++ tag.gen ++ tag.wid := by
  constructor
  · simp only [raceValue, BitVec.getLsbD_append]
    cases second <;> rfl
  · apply BitVec.eq_of_getLsbD_eq
    intro n hn
    simp only [raceValue, BitVec.getLsbD_extractLsb', BitVec.getLsbD_append, Nat.zero_add, hn, decide_true, Bool.true_and]
    split
    · rfl
    · split
      · rfl
      · rw [if_pos (by omega)]

/-- What stops LDS or STS before it accesses: a failed check, a race, or an absent page. -/
inductive AccessStops (s : State) (i : Issue) (u : Team) (r : TReg) (va size : Nat) (k : AccessKind) (writes : Bool) : Stop → Prop where
  | check {e : Stop} (h : checkAll s i.core u.info.ctx r (u.wasDeclined i.stream) [(none, va)] size k = .error e) :
      AccessStops s i u r va size k writes e
  | race {e : Stop} {needs : List PageNeed} {ls : List Located}
      (h : checkAll s i.core u.info.ctx r (u.wasDeclined i.stream) [(none, va)] size k = .ok (needs, ls))
      (hr : checkRaces s i.wid u ls size writes = .error e) : AccessStops s i u r va size k writes e
  | page {e : Stop} {needs : List PageNeed} {ls : List Located}
      (h : checkAll s i.core u.info.ctx r (u.wasDeclined i.stream) [(none, va)] size k = .ok (needs, ls))
      (hr : checkRaces s i.wid u ls size writes = .ok ()) (hp : awaitPages u i.stream [] needs = .error e) :
      AccessStops s i u r va size k writes e

end Checks

/-! ### LDS and STS -/

section ScalarAccess
variable {s : State} {i : Issue} {t : Team} {d : BitVec 6} {tn : BitVec 4} {x : BitVec 7} {sz : BitVec 2} {off : BitVec 6} {idx : DWord} {p : Nat}
  {e : Stop}

/-- LDS stops as its access does. -/
theorem lds_stops (hx : sourceA i (atIssue i t) (coreWord s i.core) x = .ok idx) (hp : (atIssue i t).a.win.reg 256 d.toNat = .ok p)
    (hstop : AccessStops (s.setTeam i.wid (atIssue i t)) i (atIssue i t) (readT (atIssue i t) tn.toNat)
      (Claims.address (readT (atIssue i t) tn.toNat) idx (offsetUnits i.hint off) (Claims.bytes sz)) (Claims.bytes sz) .read false e) :
    ∃ body, exec (.lds d tn x sz off) s = issue (.lds d tn x sz off) plain s body ∧
      body i (atIssue i t) (s.setTeam i.wid (atIssue i t)) = .error e := by
  rw [exec_lds]
  refine ⟨_, rfl, ?_⟩
  simp only [coreWord_setTeam, uniformAddr_eq tn sz off hx, hp, szBytes_eq, bind, Except.bind]
  cases hstop with
  | check h => simp only [h]
  | race h hr => simp only [h, hr]
  | page h hr hp => simp only [h, hr, hp]

/-- STS stops as its access does. -/
theorem sts_stops (hx : sourceA i (atIssue i t) (coreWord s i.core) x = .ok idx) (hp : (atIssue i t).a.win.reg 256 d.toNat = .ok p)
    (hstop : AccessStops (s.setTeam i.wid (atIssue i t)) i (atIssue i t) (readT (atIssue i t) tn.toNat)
      (Claims.address (readT (atIssue i t) tn.toNat) idx (offsetUnits i.hint off) (Claims.bytes sz)) (Claims.bytes sz) .write true e) :
    ∃ body, exec (.sts d tn x sz off) s = issue (.sts d tn x sz off) plain s body ∧
      body i (atIssue i t) (s.setTeam i.wid (atIssue i t)) = .error e := by
  rw [exec_sts]
  refine ⟨_, rfl, ?_⟩
  simp only [coreWord_setTeam, uniformAddr_eq tn sz off hx, readS_eq hp, szBytes_eq, bind, Except.bind]
  cases hstop with
  | check h => simp only [h]
  | race h hr => simp only [h, hr]
  | page h hr hp => simp only [h, hr, hp]

end ScalarAccess

/-- Settles O22: LDS and STS stop where their access does, at a failed check, a race or an absent page. -/
theorem scalarAccessCauses : Obligations.ScalarAccessCauses := by
  intro s i t d tn x sz off idx p store y r n va c h _ hx hp
  have hr : readT (atIssue i t) tn.toNat = r := by cases hs : i.stream <;> simp [r, readT, atIssue, hs, Team.advance]
  have hinfo : (atIssue i t).info = t.info := t.advance_info _
  have hacq : (atIssue i t).acq = t.acq := t.advance_acq _
  have hd : ∀ page, (atIssue i t).wasDeclined i.stream page = t.wasDeclined i.stream page := wasDeclined_atIssue i t _
  have stops : ∀ {e : Stop}, AccessStops (s.setTeam i.wid (atIssue i t)) i (atIssue i t) r va n (if store then .write else .read) store e →
      ∃ body, exec y s = issue y plain s body ∧ body i (atIssue i t) (s.setTeam i.wid (atIssue i t)) = .error e := by
    intro e hstop
    cases store
    · exact lds_stops hx hp (by rw [hr]; exact hstop)
    · exact sts_stops hx hp (by rw [hr]; exact hstop)
  have hc : checkAccess (s.setTeam i.wid (atIssue i t)) i.core (atIssue i t).info.ctx r none va n (if store then .write else .read) = c := by
    rw [checkAccess_setTeam, hinfo]
  have value : valueOfA i t (coreWord s i.core) y = 0 := by cases store <;> rfl
  refine ⟨fun k hk hmem => ?_, fun q hq hdecl => ?_, fun l second hl hrace => ?_⟩
  · obtain ⟨body, hexec, hbody⟩ := stops (.check (checkAll_cause (hc.trans hk) hmem))
    rw [hexec, issue_trap plain h hbody]
    rfl
  · obtain ⟨body, hexec, hbody⟩ := stops (.page (checkAll_need (hc.trans hq) ((hd _).trans hdecl)) (checkRaces_nil ..)
      (awaitPages_waits ((hd _).trans hdecl)))
    rw [hexec, issue_wait plain h hbody]
  · obtain ⟨lane, addr⟩ := checkAccess_located hl
    obtain ⟨bit, tag⟩ := raceValue_detail l (tagAt s l.pa) second
    have hrace' : raceTest (s.setTeam i.wid (atIssue i t)) i.wid (atIssue i t).acq
        ((s.setTeam i.wid (atIssue i t)).region (atIssue i t).info.node).racechk l.attr.nc l.pa n = some second := by
      rw [hacq, hinfo]
      exact hrace
    obtain ⟨body, hexec, hbody⟩ := stops (.race (checkAll_located (hc.trans hl)) (checkRaces_raises store hrace'))
    refine ⟨raceValue l (tagAt s l.pa) second, congrArg (BitVec.ofNat 64) addr, lane, bit, tag, ?_⟩
    rw [hexec, issue_trap plain h hbody]
    rfl

end Sys2Proof.Machine

/-! ## Merging lanes, and the end of lanes -/

namespace Sys2Proof.Machine

theorem exec_mergeArm (n : BitVec 10) (s : State) : exec (.mergeArm n) s = execMergeArm n s := rfl
theorem exec_merge (n : BitVec 10) (s : State) : exec (.merge n) s = execMerge n s := rfl
theorem exec_retE (s : State) : exec .retE s = execRetE s := rfl

/-! ### MERGE.ARM and MERGE (R200 to R203) -/

section Merging
variable {s : State} {i : Issue} {t : Team} {f : Frag} {n : BitVec 10} {e : BitVec 16} {es : List (BitVec 10 × BitVec 16)}

/-- MERGE.ARM of a fragment with room on its stack. -/
theorem mergeArm_pushes (h : Issuing (.mergeArm n) s i t) (hf : tabGet (atIssue i t).frags i.frag = some f) (hroom : f.tokens.length < 8) :
    exec (.mergeArm n) s = .next (doneWith s i { atIssue i t with
      arm := (atIssue i t).arm + 1,
      frags := tabMod (atIssue i t).frags i.frag fun f => { f with tokens := (n, (atIssue i t).arm) :: f.tokens } }) := by
  have room : raiseIf (decide (8 ≤ f.tokens.length)) 0x01F = .ok () := if_neg (by simpa using hroom)
  rw [exec_mergeArm]
  refine issue_team plain h ?_
  generalize atIssue i t = u at hf ⊢
  simp only [hf, room, State.setTeam_setTeam, bind, Except.bind]
  rfl

/-- MERGE.ARM of a fragment with eight tokens raises 0x01F. -/
theorem mergeArm_raises (h : Issuing (.mergeArm n) s i t) (hf : tabGet (atIssue i t).frags i.frag = some f) (hfull : 8 ≤ f.tokens.length) :
    exec (.mergeArm n) s = .next (settle s i t {} (raise 0x01F)) := by
  have full : raiseIf (decide (8 ≤ f.tokens.length)) 0x01F = raise 0x01F := if_pos (by simpa using hfull)
  rw [exec_mergeArm, execMergeArm, issue_trap (c := 0x01F) (v := none) plain h]
  · rfl
  · simp only [hf, full, raise, bind, Except.bind]

/-- MERGE of a tag that is not on top of the stack raises 0x01F. -/
theorem merge_raises (h : Issuing (.merge n) s i t) (hf : tabGet (atIssue i t).frags i.frag = some f)
    (htop : f.tokens.head?.any (·.1 = n) = false) : exec (.merge n) s = .next (settle s i t {} (raise 0x01F)) := by
  rw [exec_merge, execMerge, issue_trap (c := 0x01F) (v := none) plain h]
  · rfl
  · cases hes : f.tokens with
    | nil => simp only [hf, hes, raise]
    | cons x xs =>
      have other : raiseIf (x.1 ≠ n) 0x01F = raise 0x01F := if_pos (by simpa [hes] using htop)
      simp only [hf, hes, other, raise, bind, Except.bind]

/-- Another fragment or set carries an entry and has not arrived at the MERGE. -/
def mergeMissing (u : Team) (k : Nat) (e : BitVec 10 × BitVec 16) : Bool :=
  ((tabDel u.frags k).any fun p => p.2.carries e) || u.parked.any fun p => p.frag.carries e && !p.waitsFor e

/-- The set as which a fragment waits at a MERGE (R203). -/
def mergeWaiting (i : Issue) (u : Team) (f : Frag) (n : BitVec 10) : Parked :=
  { seq := u.parkSeq, frag := { Claims.path f f.mask i.pc with wait := some (.merge n.toNat) }, held := some i.frag }

/-- MERGE waits while another set with the entry has not arrived. -/
theorem merge_waits (h : Issuing (.merge n) s i t) (hf : tabGet (atIssue i t).frags i.frag = some f) (htok : f.tokens = (n, e) :: es)
    (hmiss : mergeMissing (atIssue i t) i.frag (n, e) = true) :
    exec (.merge n) s = .next (doneWith s i (unpark (s.setTeam i.wid (atIssue i t)) i.wid { atIssue i t with
      frags := tabDel (atIssue i t).frags i.frag, parkSeq := (atIssue i t).parkSeq + 1,
      parked := (atIssue i t).parked ++ [mergeWaiting i (atIssue i t) f n] })) := by
  have top : raiseIf ((n, e).1 ≠ n) 0x01F = .ok () := if_neg (by simp)
  rw [exec_merge]
  refine issue_team plain h ?_
  generalize atIssue i t = u at hf hmiss ⊢
  unfold mergeMissing at hmiss
  cases f
  subst htok
  simp only [hf, top, if_pos hmiss, State.setTeam_setTeam, bind, Except.bind]
  rfl

/-- The sets that merge: the fragment, and those that wait. -/
def mergeSets (i : Issue) (u : Team) (f : Frag) (e : BitVec 10 × BitVec 16) : List Frag :=
  { f with pc := i.pc } :: (u.parked.filter fun p => p.waitsFor e).map (·.frag)

/-- The number of the merged fragment (R201). -/
def mergedNumber (i : Issue) (u : Team) (e : BitVec 10 × BitVec 16) : Nat :=
  mergeNumber { u with frags := tabDel u.frags i.frag } (i.frag :: (u.parked.filter fun p => p.waitsFor e).filterMap (·.held)) i.frag

/-- MERGE of the last arrival merges the sets that wait. -/
theorem merge_merges (h : Issuing (.merge n) s i t) (hf : tabGet (atIssue i t).frags i.frag = some f) (htok : f.tokens = (n, e) :: es)
    (hmiss : mergeMissing (atIssue i t) i.frag (n, e) = false) (hcause : mergeCause (mergeSets i (atIssue i t) f (n, e)) = none) :
    exec (.merge n) s = .next (doneWith s i { atIssue i t with
      frags := tabSet (tabDel (atIssue i t).frags i.frag) (mergedNumber i (atIssue i t) (n, e))
        (mergedFrag s.tick (mergeSets i (atIssue i t) f (n, e)) { f with pc := i.pc } (i.pc + 4)),
      parked := (atIssue i t).parked.filter fun p => !p.waitsFor (n, e) }) := by
  have top : raiseIf ((n, e).1 ≠ n) 0x01F = .ok () := if_neg (by simp)
  rw [exec_merge]
  refine issue_team plain h ?_
  generalize atIssue i t = u at hf hmiss hcause ⊢
  unfold mergeMissing at hmiss
  unfold mergeSets at hcause
  cases f
  subst htok
  simp only [hf, top, hmiss, Bool.false_eq_true, if_false, hcause, State.setTeam_setTeam, bind, Except.bind]
  rfl

/-- The number of a merged fragment is free. -/
theorem mergedNumber_free (i : Issue) (u : Team) (e : BitVec 10 × BitVec 16) :
    tabGet (tabDel u.frags i.frag) (mergedNumber i u e) = none := by
  unfold mergedNumber mergeNumber
  cases hfind : (List.range 32).find? _ with
  | none => exact tabGet_tabDel_same ..
  | some k =>
    have hk := List.find?_some hfind
    simp only [Bool.and_eq_true, Option.isNone_iff_eq_none] at hk
    exact hk.2

/-- A lane is in the union of masks where it is in one of them. -/
theorem getLsbD_union (l : Nat) : ∀ (fs : List Frag) (m : Mask),
    (fs.foldl (fun m g => m ||| g.mask) m).getLsbD l = (m.getLsbD l || fs.any fun g => g.mask.getLsbD l)
  | [], m => by simp
  | g :: gs, m => by rw [List.foldl_cons, getLsbD_union l gs, BitVec.getLsbD_or, List.any_cons, Bool.or_assoc]

/-- Another set is missing where the statements say so. -/
theorem mergeMissing_iff (u : Team) (k : Nat) (e : BitVec 10 × BitVec 16) : mergeMissing u k e = true ↔
    (∃ p ∈ tabDel u.frags k, e ∈ p.2.tokens) ∨ ∃ p ∈ u.parked, e ∈ p.frag.tokens ∧ p.waitsFor e = false := by
  simp [mergeMissing, Frag.carries]

end Merging

/-- MERGE.ARM and MERGE. -/
theorem merging : Claims.Merging := by
  intro s i t f n hf u gone
  have hparked : t.parked = u.parked := (t.advance_parked _).symm
  have hseq : t.parkSeq = u.parkSeq := (t.advance_parkSeq _).symm
  have harm : t.arm = u.arm := (t.advance_arm _).symm
  rw [hparked, hseq, harm]
  refine ⟨fun h => ⟨mergeArm_pushes h hf, mergeArm_raises h hf⟩, fun h => ⟨merge_raises h hf, fun e es htok => ?_⟩⟩
  have missing := mergeMissing_iff u i.frag (n, e)
  refine ⟨fun hm => merge_waits h hf htok (missing.2 hm), fun hm hcause => ?_⟩
  refine ⟨_, _, merge_merges h hf htok (Bool.eq_false_iff.2 (mt missing.1 hm)) hcause, rfl, ?_, mergedNumber_free .., fun l => ?_⟩
  · exact congrArg List.tail htok
  · refine (getLsbD_union l ..).trans ?_
    rw [BitVec.ofNat_eq_ofNat, BitVec.getLsbD_zero, Bool.false_or, mergeSets, List.any_cons, List.any_map]
    rfl

/-! ### The entries of a table after a deletion or a change -/

/-- A value read from a table is listed. -/
theorem mem_of_tabGet {α : Type} {n : Nat} {x : α} : ∀ {t : Tab α}, tabGet t n = some x → (n, x) ∈ t
  | (k, y) :: t, h => by
    unfold tabGet at h
    split at h
    case isTrue hk =>
      rw [← hk, ← Option.some.inj h]
      exact List.mem_cons_self ..
    case isFalse => exact List.mem_cons_of_mem _ (mem_of_tabGet h)

/-- A deleted key is not listed. -/
theorem key_ne_of_mem_tabDel {α : Type} {n : Nat} {p : Nat × α} : ∀ {t : Tab α}, p ∈ tabDel t n → p.1 ≠ n
  | (k, y) :: t, h => by
    unfold tabDel at h
    split at h
    case isTrue => exact key_ne_of_mem_tabDel h
    case isFalse hk =>
      rcases List.mem_cons.1 h with rfl | h
      · exact hk
      · exact key_ne_of_mem_tabDel h

/-- An entry of a changed table comes from one with its key, as it was or changed. -/
theorem mem_tabMod {α : Type} {t : Tab α} {n : Nat} {g : α → α} {p : Nat × α} (h : p ∈ tabMod t n g) :
    ∃ q ∈ t, q.1 = p.1 ∧ (p.2 = q.2 ∨ p.2 = g q.2) := by
  unfold tabMod at h
  split at h
  case h_1 x hx =>
    rcases mem_tabSet _ _ _ h with rfl | h
    · exact ⟨(n, x), mem_of_tabGet hx, rfl, .inr rfl⟩
    · exact ⟨p, h, rfl, .inl rfl⟩
  case h_2 => exact ⟨p, h, rfl, .inl rfl⟩

/-- A change that keeps the masks of fragments keeps those of a table. -/
theorem mem_tabMod_mask {t : Tab Frag} {n : Nat} {g : Frag → Frag} {p : Nat × Frag} (h : p ∈ tabMod t n g) (hg : ∀ f, (g f).mask = f.mask) :
    ∃ q ∈ t, q.1 = p.1 ∧ q.2.mask = p.2.mask := by
  obtain ⟨q, hq, hkey, hx | hx⟩ := mem_tabMod h
  · exact ⟨q, hq, hkey, by rw [hx]⟩
  · exact ⟨q, hq, hkey, by rw [hx, hg]⟩

/-! ### Lanes that are gone from a team (R204) -/

/-- A team has none of the lanes `m`: they live in no fragment and no parked set, and no entry of the queues toward the E-stream waits
for them. -/
structure Team.Without (t : Team) (m : Mask) : Prop where
  frags : ∀ p ∈ t.frags, p.2.mask &&& m = 0
  parked : ∀ p ∈ t.parked, p.frag.mask &&& m = 0
  queues : ∀ q, q < 4 ∨ q = 6 → ∀ e ∈ (t.queue q).entries, e.pend &&& m = 0

/-- The union of masks that have no lane of `m` has none. -/
theorem union_and_eq_zero {α : Type} {m : Mask} (g : α → Mask) : ∀ (xs : List α) (a : Mask), a &&& m = 0 → (∀ x ∈ xs, g x &&& m = 0) →
    xs.foldl (fun a x => a ||| g x) a &&& m = 0
  | [], _, ha, _ => ha
  | x :: xs, a, ha, h => by
    refine union_and_eq_zero g xs _ ?_ fun y hy => h y (List.mem_cons_of_mem _ hy)
    rw [BitVec.and_comm, BitVec.and_or_distrib_left, BitVec.and_comm m a, BitVec.and_comm m, ha, h x (List.mem_cons_self ..)]
    exact BitVec.or_self

/-- The lanes that are gone do not live. -/
theorem Team.Without.live {t : Team} {m : Mask} (h : t.Without m) : t.live &&& m = 0 :=
  union_and_eq_zero (fun p : Parked => p.frag.mask) _ _
    (union_and_eq_zero (fun p : Nat × Frag => p.2.mask) _ _ BitVec.zero_and h.frags) h.parked

/-- A team whose fragments have the masks of another's, and the same sets and queues, has none of the lanes either. -/
theorem Team.Without.of_masks {t u : Team} {m : Mask} (h : t.Without m) (hfrags : ∀ p ∈ u.frags, ∃ q ∈ t.frags, q.2.mask = p.2.mask)
    (hparked : u.parked = t.parked) (hq : u.q = t.q) : u.Without m where
  frags p hp := by
    obtain ⟨q, hq, hmask⟩ := hfrags p hp
    rw [← hmask]
    exact h.frags q hq
  parked := by rw [hparked]; exact h.parked
  queues := by
    have hqueue : ∀ q, u.queue q = t.queue q := fun q => by rw [Team.queue, hq, Team.queue]
    simpa only [hqueue] using h.queues

/-- A fragment of other lanes joins the team, and parked sets leave it. -/
theorem Team.Without.join {t : Team} {m : Mask} (h : t.Without m) (keep : Parked → Bool) (n : Nat) {g : Frag} (hg : g.mask &&& m = 0) :
    Team.Without { t with frags := tabSet t.frags n g, parked := t.parked.filter keep } m where
  frags p hp := by
    rcases mem_tabSet _ _ _ hp with rfl | hp
    · exact hg
    · exact h.frags p hp
  parked p hp := h.parked p (List.mem_of_mem_filter hp)
  queues := h.queues

/-- The set that unparks first is a parked one. -/
theorem firstParked_mem {t : Team} {p : Parked} (h : firstParked t = some p) : p ∈ t.parked := by
  have lowest : ∀ (l : List Parked) (b : Option Parked), l.foldl (fun b p => match b with
      | none => some p
      | some q => if p.seq < q.seq then some p else some q) b = some p → b = some p ∨ p ∈ l := by
    intro l
    induction l with
    | nil => exact fun _ h => .inl h
    | cons x xs ih =>
      intro b h
      rcases ih _ h with hb | hx
      · cases b with
        | none => exact .inr (Option.some.inj hb ▸ List.mem_cons_self ..)
        | some q =>
          dsimp only at hb
          split at hb
          · exact .inr (Option.some.inj hb ▸ List.mem_cons_self ..)
          · exact .inl hb
      · exact .inr (List.mem_cons_of_mem _ hx)
  exact List.mem_of_mem_filter ((lowest _ none h).resolve_left nofun)

/-- A set that unparks brings none of the lanes back. -/
theorem Team.Without.unpark {t : Team} {m : Mask} (h : t.Without m) (s : State) (w : Nat) : (unpark s w t).Without m := by
  unfold Machine.unpark
  split
  case h_1 p n hp _ => exact h.join _ n (h.parked p (firstParked_mem hp))
  case h_2 => exact h

/-- A merged fragment has only the lanes of the sets that merge. -/
theorem mergedFrag_and_eq_zero {m : Mask} (tick : Nat) {fs : List Frag} (f : Frag) (pc : DWord) (h : ∀ g ∈ fs, g.mask &&& m = 0) :
    (mergedFrag tick fs f pc).mask &&& m = 0 :=
  union_and_eq_zero Frag.mask fs 0 BitVec.zero_and h

/-- A merge that ending lanes complete brings none of them back. -/
theorem Team.Without.mergeAtEnd {t v : Team} {m : Mask} {s : State} {n : Nat} {f : Frag} (h : t.Without m)
    (hv : mergeAtEnd s t n f = some v) : v.Without m := by
  obtain ⟨e, -, hv⟩ := List.exists_of_findSome?_eq_some hv
  dsimp only at hv
  split at hv
  · cases hv
  rename_i last hlast
  have last_gone : last.frag.mask &&& m = 0 := h.parked last (List.mem_of_mem_filter (List.mem_of_getLast? hlast))
  split at hv
  · cases hv
  split at hv
  · cases hv
    refine h.join _ _ (mergedFrag_and_eq_zero _ _ _ fun g hg => ?_)
    rcases List.mem_cons.1 hg with rfl | hg
    · exact last_gone
    · obtain ⟨p, hp, rfl⟩ := List.mem_map.1 hg
      exact h.parked p (List.mem_of_mem_filter (List.mem_of_mem_filter hp))
  · cases hv
    exact h.join _ _ last_gone

/-! ### Lanes that leave the queues -/

/-- A key of a table with changed values reads the change of what it read. -/
theorem tabGet_map {α β : Type} {f : Nat × α → Nat × β} (hf : ∀ p, (f p).1 = p.1) (n : Nat) : ∀ t : Tab α,
    tabGet (t.map f) n = (tabGet t n).map fun x => (f (n, x)).2
  | [] => rfl
  | (k, x) :: t => by
    have key : f (k, x) = (k, (f (k, x)).2) := Prod.ext (hf _) rfl
    rw [List.map_cons, key, tabGet, tabGet]
    by_cases hk : k = n
    · rw [if_pos hk, if_pos hk, ← hk]
      rfl
    · rw [if_neg hk, if_neg hk, tabGet_map hf n t]

/-- The entries that stay are entries that stood. -/
theorem mem_retireEntries {e : QEntry} : ∀ {es : List QEntry}, e ∈ retireEntries es → e ∈ es
  | _ :: _, h => by
    unfold retireEntries at h
    split at h
    · exact List.mem_cons_of_mem _ (mem_retireEntries h)
    · exact h

/-- Lanes that have left the queues are in no entry of them. -/
theorem leaveQueues_entries (t : Team) (m : Mask) {q : Nat} (hq : q < 4 ∨ q = 6) : ∀ e ∈ ((leaveQueues t m).queue q).entries, e.pend &&& m = 0 := by
  intro e he
  have hkey : ∀ p : Nat × Queue, (if p.1 < 4 ∨ p.1 = 6 then
      (p.1, { p.2 with entries := retireEntries (p.2.entries.map fun e => { e with pend := e.pend &&& ~~~m }) }) else p).1 = p.1 := by
    intro p
    split <;> rfl
  rw [Team.queue, tabGetD, leaveQueues, tabGet_map hkey] at he
  cases hx : tabGet t.q q with
  | none => simp [hx] at he
  | some x =>
    rw [hx, Option.map_some, Option.getD_some, if_pos hq] at he
    obtain ⟨y, -, rfl⟩ := List.mem_map.1 (mem_retireEntries he)
    exact (BitVec.and_assoc ..).trans (by rw [BitVec.not_and_self]; exact BitVec.and_zero)

/-! ### Lanes that are gone from the team in a slot -/

/-- The slot `w` has a team without the lanes `m`. -/
def State.LanesGone (s : State) (w : Nat) (m : Mask) : Prop := ∃ v, s.team? w = some v ∧ v.Without m

/-- The lanes are gone where the teams are the same. -/
theorem State.LanesGone.of_teams {s r : State} {w : Nat} {m : Mask} (h : s.LanesGone w m) (hr : r.teams = s.teams) : r.LanesGone w m := by
  simpa only [State.LanesGone, State.team?, hr] using h

/-- The lanes are gone where a change of every team does not bring them back. -/
theorem State.LanesGone.map {s r : State} {w : Nat} {m : Mask} {f : Nat × Team → Nat × Team} (h : s.LanesGone w m)
    (hr : r.teams = s.teams.map f) (hkey : ∀ p, (f p).1 = p.1) (hkeep : ∀ p, p.2.Without m → (f p).2.Without m) : r.LanesGone w m := by
  obtain ⟨v, hv, hgone⟩ := h
  refine ⟨(f (w, v)).2, ?_, hkeep (w, v) hgone⟩
  have hget : tabGet s.teams w = some v := hv
  rw [State.team?, hr, tabGet_map hkey, hget]
  rfl

/-! The Apex die's writes, releases and arrivals bring no lane back. -/

/-- Use of an L2 line leaves the teams alone. -/
theorem l2Touch_teams (s : State) (node : Option Nat) (pa : Nat) (attr : PageAttr) (cls : BitVec 2) : (l2Touch s node pa attr cls).teams = s.teams := by
  unfold l2Touch
  split
  · generalize l2Place _ _ _ _ = x
    rfl
  · rfl

/-- A write of a race tag leaves the teams alone. -/
theorem writeTag_teams (s : State) (pa n : Nat) (k : TagWrite) : (writeTag s pa n k).teams = s.teams := by
  unfold writeTag
  split <;> rfl

/-- A test of the watches leaves the teams alone. -/
theorem testWatches_teams (s : State) (pa n : Nat) : (testWatches s pa n).teams = s.teams := by
  unfold testWatches
  split <;> rfl

/-- The drop of a release leaves the teams alone. -/
theorem dropRelease_teams (s : State) (pa : Nat) : (dropRelease s pa).teams = s.teams := by
  unfold dropRelease
  rfl

/-- A recall of stashed lines brings no lane back. -/
theorem State.LanesGone.recallStash {s : State} {w : Nat} {m : Mask} (h : s.LanesGone w m) (keep : Option Nat) (line : Nat) (write : Bool) :
    (recallStash s keep line write).LanesGone w m := by
  unfold Machine.recallStash
  split
  · exact h
  · refine h.map rfl (fun p => ?_) fun p hp => ?_
    · dsimp only
      split <;> rfl
    · dsimp only
      split
      · exact hp
      · exact hp.of_masks (fun q hq => ⟨q, hq, rfl⟩) rfl rfl

/-- A physical write brings no lane back. -/
theorem State.LanesGone.physWrite {s : State} {w : Nat} {m : Mask} (h : s.LanesGone w m) (acc : Accessor) (pa : Nat) (bs : List Byte)
    (attr : PageAttr) (cls : BitVec 2) (k : TagWrite) : (physWrite s acc pa bs attr cls k).LanesGone w m := by
  have touched : (l2Touch s acc.node pa attr cls).LanesGone w m := h.of_teams (l2Touch_teams ..)
  have recalled := (touched.of_teams (r := invalidateOthers _ acc.core (pa / 128)) rfl).recallStash acc.wid (pa / 128) true
  exact ((recalled.of_teams (dropRelease_teams _ pa)).of_teams (writeTag_teams _ pa bs.length k)).of_teams (testWatches_teams ..)

/-- A new generation of a team brings no lane back. -/
theorem State.LanesGone.advanceGen {s : State} {w : Nat} {m : Mask} (h : s.LanesGone w m) (wid : Nat) : (advanceGen s wid).LanesGone w m := by
  unfold Machine.advanceGen
  dsimp only
  split
  · exact h.map rfl (fun _ => rfl) fun p hp => hp.of_masks (fun q hq => ⟨q, hq, rfl⟩) rfl rfl
  · exact h.of_teams rfl

/-- Freeing the streams of a team at a tag brings no lane back. -/
theorem Team.Without.freeBar {t : Team} {m : Mask} (h : t.Without m) (tag : Nat) (acq : List (Nat × Nat)) :
    Team.Without { t.freeBar tag with acq := acq } m := by
  refine h.of_masks (fun p hp => ?_) rfl rfl
  obtain ⟨q, hq, rfl⟩ := List.mem_map.1 hp
  exact ⟨q, hq, rfl⟩

/-- The release of saved frames brings no lane back. -/
theorem State.LanesGone.frameRelease {w : Nat} {m : Mask} : ∀ (ps : List (Nat × Saved)) {s : State}, s.LanesGone w m →
    (ps.foldl Machine.frameRelease s).LanesGone w m
  | [], _, h => h
  | _ :: ps, _, h => State.LanesGone.frameRelease ps (h.physWrite ..)

/-- The release of a barrier brings no lane back. -/
theorem State.LanesGone.releaseTag {s : State} {w : Nat} {m : Mask} (h : s.LanesGone w m) (tag : Nat) (members : List (Nat × Bool))
    (all : List Arrival) : (releaseTag s tag members all).LanesGone w m := by
  unfold Machine.releaseTag
  refine State.LanesGone.frameRelease _ (h.map rfl (fun p => ?_) fun p hp => ?_)
  · split <;> rfl
  · split
    · exact hp.freeBar ..
    · exact hp

/-- An arrival at a barrier brings no lane back. -/
theorem State.LanesGone.arriveAt {s : State} {w : Nat} {m : Mask} (h : s.LanesGone w m) (tag seq wid : Nat) :
    (arriveAt s tag seq wid).LanesGone w m := by
  have advanced := h.advanceGen wid
  unfold Machine.arriveAt
  dsimp only
  split
  · refine State.LanesGone.releaseTag ?_ ..
    exact advanced.of_teams rfl
  · exact advanced.of_teams rfl

/-- The arrivals that the end of lanes completes bring no lane back. -/
theorem State.LanesGone.checkArrivals {s : State} {w : Nat} {m : Mask} (h : s.LanesGone w m) (wid : Nat) :
    (checkArrivals s wid).LanesGone w m := by
  unfold Machine.checkArrivals
  split
  · exact h
  · rename_i t _
    refine List.foldlRecOn (motive := fun r : State => r.LanesGone w m) _ _ h fun r hr tag _ => ?_
    dsimp only
    split
    · exact hr.arriveAt ..
    · exact hr

/-- The end of an instruction brings no lane of its team back. -/
theorem Team.Without.issued {t : Team} {m : Mask} (h : t.Without m) (x : StreamId) : (t.issued x).Without m := by
  refine h.of_masks (fun p hp => ?_) (t.issued_parked x) (t.issued_q x)
  cases x with
  | a => exact ⟨p, hp, rfl⟩
  | e n =>
    obtain ⟨q, hq, -, hmask⟩ := mem_tabMod_mask hp fun f => by split <;> rfl
    exact ⟨q, hq, hmask⟩

/-- The completion of an instruction brings no lane of its team back. -/
theorem State.LanesGone.doneAs {s : State} {i : Issue} {m : Mask} (h : s.LanesGone i.wid m) : (doneAs s i).LanesGone i.wid m := by
  obtain ⟨v, hv, hgone⟩ := h
  exact ⟨v.issued i.stream, by rw [Machine.doneAs, State.modTeam_team?_same, hv, Option.map_some], hgone.issued _⟩

/-! ### END and RET at depth 0 of the E-stream -/

/-- END, and RET at depth 0, do what `endE` does. -/
theorem exec_ends_lanes {x : Instr} {s : State} {i : Issue} {t : Team} {f : Frag} {n : Nat} (he : i.stream = .e n)
    (hf : tabGet (atIssue i t).frags n = some f) (hx : x = .endS ∨ (x = .retE ∧ f.win.depth = 0)) :
    ∃ may body, exec x s = issue x may s body ∧
      body i (atIssue i t) (s.setTeam i.wid (atIssue i t)) = endE (s.setTeam i.wid (atIssue i t)) i (atIssue i t) := by
  have hfrag : i.frag = n := by rw [Issue.frag, he]
  rcases hx with rfl | ⟨rfl, hdepth⟩
  · rw [exec_endS]
    refine ⟨_, _, rfl, ?_⟩
    exact if_pos (Issue.estr_of_e he)
  · rw [exec_retE]
    refine ⟨_, _, rfl, ?_⟩
    simp only [hfrag, hf, if_pos hdepth]

/-- The lanes of a fragment that ends leave the team. -/
theorem ending_without {u : Team} {f : Frag} {n : Nat} (hfrags : ∀ p ∈ u.frags, p.1 ≠ n → p.2.mask &&& f.mask = 0)
    (hparked : ∀ p ∈ u.parked, p.frag.mask &&& f.mask = 0) : (leaveQueues { u with frags := tabDel u.frags n } f.mask).Without f.mask where
  frags p hp := hfrags p (mem_tabDel _ _ hp) (key_ne_of_mem_tabDel hp)
  parked := hparked
  queues := fun _ hq => leaveQueues_entries _ _ hq

/-- The end of a fragment completes, and its lanes are gone. -/
theorem endE_lanesGone {s : State} {i : Issue} {u : Team} {f : Frag} (hf : tabGet u.frags i.frag = some f)
    (hgone : (leaveQueues { u with frags := tabDel u.frags i.frag } f.mask).Without f.mask) :
    ∃ r, endE s i u = .ok r ∧ r.LanesGone i.wid f.mask := by
  unfold endE
  rw [hf]
  refine ⟨_, rfl, State.LanesGone.checkArrivals ?_ _⟩
  refine ⟨_, State.setTeam_team?_same .., ?_⟩
  cases hm : mergeAtEnd s (leaveQueues { u with frags := tabDel u.frags i.frag } f.mask) i.frag f with
  | none => exact hgone.unpark ..
  | some v => exact hgone.mergeAtEnd hm

/-- END and RET at depth 0 of the E-stream. -/
theorem lanesEnd : Claims.LanesEnd := by
  intro x s i t f n he h hf hx hfrags hparked
  obtain ⟨may, body, hexec, hbody⟩ := exec_ends_lanes (s := s) he hf hx
  have hfrag : i.frag = n := by rw [Issue.frag, he]
  have others : ∀ p ∈ (atIssue i t).frags, p.1 ≠ i.frag → p.2.mask &&& f.mask = 0 := by
    intro p hp hne
    rw [atIssue, he, Team.advance, Team.modFrag_frags] at hp
    obtain ⟨q, hq, hkey, hmask⟩ := mem_tabMod_mask hp fun _ => rfl
    rw [← hmask]
    exact hfrags q hq (by rwa [hkey, ← hfrag])
  have sets : ∀ p ∈ (atIssue i t).parked, p.frag.mask &&& f.mask = 0 := by rwa [atIssue, Team.advance_parked]
  obtain ⟨r, hr, hgone⟩ := endE_lanesGone (s := s.setTeam i.wid (atIssue i t)) (hfrag ▸ hf) (ending_without others sets)
  obtain ⟨v, hv, gone⟩ := hgone.doneAs
  exact ⟨_, v, hexec.trans (issue_next may h (hbody.trans hr)), hv, gone.live, gone.queues⟩

/-- Settles O37: merging, and the end of lanes. -/
theorem mergingAndEnd : Obligations.MergingAndEnd := ⟨merging, lanesEnd⟩

end Sys2Proof.Machine

/-! ## Copies -/

namespace Sys2Proof.Machine

theorem exec_cpy (d : BitVec 6) (tn : BitVec 4) (x : BitVec 7) (sz : BitVec 2) (off : BitVec 6) (s : State) :
    exec (.cpy d tn x sz off) s = execCpy d tn x sz off s := rfl
theorem exec_cpym (d : BitVec 6) (tn : BitVec 4) (x : BitVec 7) (sz : BitVec 2) (off : BitVec 6) (s : State) :
    exec (.cpym d tn x sz off) s = execCpym d tn x sz off s := rfl
theorem exec_cpyr (d : BitVec 6) (tn : BitVec 4) (x : BitVec 7) (sz : BitVec 2) (f : BitVec 4) (s : State) :
    exec (.cpyr d tn x sz f) s = execCpyr d tn x sz f s := rfl

/-! ### The flags word (Table 12-2) -/

/-- A field of a word. -/
theorem bitsOf_toNat {w : Nat} (x : BitVec w) {hi lo n : Nat} (h : hi - lo + 1 = n) : bitsOf x.toNat hi lo = (x.extractLsb' lo n).toNat := by
  rw [bitsOf, h, BitVec.extractLsb'_toNat]

/-- A bit of a word. -/
theorem bitsOf_toNat_bit {w : Nat} (x : BitVec w) (k : Nat) : bitsOf x.toNat k k = 1 ↔ x.getLsbD k = true := by
  rw [bitsOf, Nat.sub_self, BitVec.getLsbD, Nat.testBit_eq_decide_div_mod_eq, decide_eq_true_iff, Nat.shiftRight_eq_div_pow]
  rfl

section Flags
variable (i : Issue) (u : Team) (kind fn size src dst : Nat) (w : DWord) (n : Nat)

/-- A copy of the team, as its flags word gives it. -/
theorem ownCopy_eq : ownCopy i u n (copyOfFlags kind fn size src dst w) = Claims.copyRecord i u kind fn size src dst w n := by
  have cls : BitVec.ofNat 2 (bitsOf w.toNat 37 36) = w.extractLsb' 36 2 := by
    rw [bitsOf_toNat w (n := 2) rfl, BitVec.ofNat_toNat, BitVec.setWidth_eq]
  simp only [ownCopy, copyOfFlags, Claims.copyRecord, Team.seqNo, bitsOf_toNat_bit, cls, bitsOf_toNat w (hi := 31) (lo := 0) (n := 32) rfl,
    bitsOf_toNat w (hi := 33) (lo := 32) (n := 2) rfl, bitsOf_toNat w (hi := 45) (lo := 38) (n := 8) rfl,
    bitsOf_toNat w (hi := 49) (lo := 46) (n := 4) rfl, bitsOf_toNat w (hi := 57) (lo := 50) (n := 8) rfl, Bool.decide_eq_true]

/-- The flags word is refused where the statements say that it does not fit. -/
theorem copyFlagsBad_eq_false_iff : copyFlagsBad (copyOfFlags kind fn size src dst w) w = false ↔ Claims.flagsFit w kind size := by
  have hzero : (w.extractLsb' 58 6).toNat = 0 ↔ w.extractLsb' 58 6 = 0 := BitVec.toNat_inj (y := 0#6)
  simp only [copyFlagsBad, copyOfFlags, Claims.flagsFit, bitsOf_toNat_bit, bitsOf_toNat w (hi := 31) (lo := 0) (n := 32) rfl,
    bitsOf_toNat w (hi := 33) (lo := 32) (n := 2) rfl, bitsOf_toNat w (hi := 63) (lo := 58) (n := 6) rfl, Bool.or_eq_false_iff, Bool.and_eq_false_iff,
    bne_eq_false_iff_eq, beq_eq_false_iff_ne, hzero, ne_eq, Bool.decide_eq_true]
  rw [← Bool.not_eq_true]
  simp only [← imp_iff_not_or, and_assoc]

end Flags

/-! ### The ranges of a copy (R261) -/

section TeamsUnread
variable (s : State) (w : Nat) (t : Team)

theorem probeRange_setTeam (core ctx va n : Nat) (write : Bool) (types : BitVec 8) :
    probeRange (s.setTeam w t) core ctx va n write types = probeRange s core ctx va n write types := by
  unfold probeRange
  simp only [xlate_setTeam]

theorem copyCauses_setTeam (core ctx scratch : Nat) (c : Copy) :
    copyCauses (s.setTeam w t) core ctx scratch c = copyCauses s core ctx scratch c := by
  unfold copyCauses
  rw [doubleOf_setTeam]
  simp only [probeRange_setTeam]

theorem copyCause_setTeam (core ctx scratch : Nat) (c : Copy) :
    copyCause (s.setTeam w t) core ctx scratch c = copyCause s core ctx scratch c := by
  rw [copyCause, copyCauses_setTeam, copyCause]

theorem copyNeeds_setTeam (core ctx : Nat) (c : Copy) : copyNeeds (s.setTeam w t) core ctx c = copyNeeds s core ctx c := by
  simp only [copyNeeds, probeRange_setTeam]

end TeamsUnread

/-- The causes of a copy's ranges are those of another with the same ranges. -/
theorem copyCause_congr (s : State) (core ctx scratch : Nat) {c e : Copy} (hsrc : c.src = e.src) (hdst : c.dst = e.dst) (hlen : c.len = e.len)
    (hsize : c.size = e.size) (hkind : c.dkind = e.dkind) (hscratch : c.srcScratch = e.srcScratch) (hshadow : c.shadow = e.shadow) :
    copyCause s core ctx scratch c = copyCause s core ctx scratch e := by
  unfold copyCause copyCauses
  rw [hsrc, hdst, hlen, hsize, hkind, hscratch, hshadow]

/-- Whose copy it is does not matter to the causes of its ranges. -/
theorem copyCause_ownCopy (s : State) (core ctx scratch : Nat) (i : Issue) (u : Team) (n : Nat) (c : Copy) :
    copyCause s core ctx scratch (ownCopy i u n c) = copyCause s core ctx scratch c :=
  copyCause_congr s core ctx scratch rfl rfl rfl rfl rfl rfl rfl

theorem copyNeeds_ownCopy (s : State) (core ctx : Nat) (i : Issue) (u : Team) (n : Nat) (c : Copy) :
    copyNeeds s core ctx (ownCopy i u n c) = copyNeeds s core ctx c := rfl

/-- The cause of a copy's ranges is one that R261 orders. -/
theorem copyCause_mem {s : State} {core ctx scratch k a : Nat} {c : Copy} (h : copyCause s core ctx scratch c = some (k, a)) : k ∈ copyOrder := by
  obtain ⟨j, hj, hk⟩ := Option.map_eq_some_iff.1 h
  cases hk
  exact List.mem_of_find?_eq_some hj

/-- A cause of the ranges carries the address unless it is 0x10B or 0x113. -/
theorem copyOrder_addressed {k : Nat} (h : k ∈ copyOrder) : (copyOrder.take 9).contains k = true ↔ k ≠ 0x10B ∧ k ≠ 0x113 := by
  have : ∀ k ∈ copyOrder, (copyOrder.take 9).contains k = true ↔ k ≠ 0x10B ∧ k ≠ 0x113 := by decide
  exact this k h

/-! ### The copy table (R261) -/

/-- The free entries of the copy table do not depend on what the instruction did to its team. -/
theorem copyEntries_atIssue (s : State) (i : Issue) (t : Team) :
    copyEntries (s.setTeam i.wid (atIssue i t)) (atIssue i t) = copyEntries s t := by
  rw [copyEntries, Team.seqNo, atIssue, Team.advance_info, copyEntries]
  rfl

/-- The lowest free entry is taken. -/
theorem awaitEntry_lowest {s : State} {t : Team} {n : Nat} (h : Claims.lowestEntry s t n) : (copyEntries s t).head? = some n := by
  obtain ⟨hn, hfree, hbelow⟩ := h
  have used : ∀ k, ((s.eng.copies.filter fun p => p.2.owner = some t.seqNo).map fun p => p.2.entry).contains k = true ↔
      ∃ p ∈ s.eng.copies, p.2.owner = some t.info.seq.toNat ∧ p.2.entry = k := by
    intro k
    simp only [List.contains_iff_mem, List.mem_map, List.mem_filter, Team.seqNo, and_assoc]
    exact exists_congr fun p => and_congr_right fun _ => and_congr_left fun _ => ⟨of_decide_eq_true, decide_eq_true⟩
  rw [copyEntries, List.head?_filter, List.find?_range_eq_some]
  refine ⟨?_, List.mem_range.2 hn, fun k hk => ?_⟩
  · rw [Bool.not_eq_true', Bool.eq_false_iff]
    exact mt (used n).1 hfree
  · rw [Bool.not_not]
    exact (used k).2 (hbelow k hk)

/-- An item that enters a leaf leaves memory alone. -/
theorem enterLeaf_mem (s : State) (id : Nat) (x : LeafItem) : (enterLeaf s id x).mem = s.mem := by
  have compared : ∀ r : State, (comparePush r id x).mem = r.mem := fun r => by
    unfold comparePush
    dsimp only
    split
    · rfl
    · split <;> rfl
  unfold enterLeaf
  dsimp only
  split
  · rfl
  · split
    · exact compared _
    · rfl

/-- Pushing the segments of a copy leaves memory alone. -/
theorem pushSegments_mem (s : State) (leaf id : Nat) (c : Copy) : (pushSegments s leaf id c).mem = s.mem := by
  refine List.foldlRecOn (motive := fun r : State => r.mem = s.mem) _ _ rfl fun r hr k _ => ?_
  exact (enterLeaf_mem ..).trans hr

/-! ### The checks of a copy (R260, R261) -/

section Checks
variable {s : State} {i : Issue} {u : Team} {tn : BitVec 4} {w : DWord} {c : Copy} {k a : Nat}

/-- A flags word out of order is 0x108. -/
theorem checkCopy_flags (h : copyFlagsBad c w = true) : checkCopy s i u tn w c = raise 0x108 := by
  have bad : raiseIf (copyFlagsBad c w) 0x108 = raise 0x108 := if_pos h
  simp only [checkCopy, bad, raise, bind, Except.bind]

/-- A translation register that is not valid is 0x080. -/
theorem checkCopy_register (h : copyFlagsBad c w = false) (hk : c.dkind = 0) (hv : (readT u tn.toNat).valid = false) :
    checkCopy s i u tn w c = raise 0x080 := by
  have good : raiseIf (copyFlagsBad c w) 0x108 = .ok () := if_neg (by simp [h])
  have near : raiseIf (c.dkind != 0 && tn != 0) 0x005 = .ok () := if_neg (by simp [hk])
  have invalid : raiseIf (c.dkind == 0 && !(readT u tn.toNat).valid) 0x080 = raise 0x080 := if_pos (by simp [hk, hv])
  simp only [checkCopy, good, near, invalid, raise, bind, Except.bind]

/-- Where the flags word and the translation register are in order, the ranges are checked. -/
theorem checkCopy_ranges (h : copyFlagsBad c w = false) (hfar : c.dkind ≠ 0 → tn = 0) (hnear : c.dkind = 0 → (readT u tn.toNat).valid = true) :
    checkCopy s i u tn w c = (copyCause s i.core u.info.ctx u.info.scratchBytes c).elim (.ok ()) fun p =>
      if (copyOrder.take 9).contains p.1 then raiseWith p.1 { value := BitVec.ofNat 64 p.2 } else raise p.1 := by
  have good : raiseIf (copyFlagsBad c w) 0x108 = .ok () := if_neg (by simp [h])
  have named : raiseIf (c.dkind != 0 && tn != 0) 0x005 = .ok () := if_neg (by simpa using hfar)
  have valid : raiseIf (c.dkind == 0 && !(readT u tn.toNat).valid) 0x080 = .ok () := if_neg (by simpa using hnear)
  simp only [checkCopy, good, named, valid, bind, Except.bind]
  cases copyCause s i.core u.info.ctx u.info.scratchBytes c <;> rfl

end Checks

/-! ### The follow-on word of CPYM (R263) -/

/-- The plane record after the commands that have not started. -/
theorem planesAfter_eq (u : Team) : planesAfter u = Claims.planes u :=
  congrArg (fun step => (u.lat.filter fun c : LatCmd => !c.started).foldl step u.planes)
    (funext fun p => funext fun c => by cases h : c.op <;> rfl)

/-- An operand word in order is not refused. -/
theorem wordBad_eq_false {u : Team} {w : DWord} {size scales : Nat} (h : Claims.operandWord u w size scales) :
    wordBad u w size scales = false := by
  obtain ⟨h31, h39, h63, hdata, hscale, hsize, hscales⟩ := h
  have r31 : bitsOf w.toNat 31 26 = 0 := (bitsOf_toNat w (n := 6) rfl).trans (by rw [h31]; rfl)
  have r39 : bitsOf w.toNat 39 38 = 0 := (bitsOf_toNat w (n := 2) rfl).trans (by rw [h39]; rfl)
  have r63 : bitsOf w.toNat 63 60 = 0 := (bitsOf_toNat w (n := 4) rfl).trans (by rw [h63]; rfl)
  have data : wordData w = (w.extractLsb' 0 20).toNat := bitsOf_toNat w rfl
  have scale : wordScale w = (w.extractLsb' 40 20).toNat := bitsOf_toNat w rfl
  simp only [wordBad, r31, r39, r63, data, scale, hdata, hscale, decide_eq_false (Nat.not_lt.2 hsize), bne_self_eq_false, Bool.false_or]
  rcases hscales with rfl | hscales
  · rfl
  · rw [decide_eq_false (Nat.not_lt.2 hscales), Bool.and_false]

/-- The plane bytes, row bytes and scales of a mode. -/
theorem modeSizes_eq {m : Nat} (h : m < 7) : Claims.modeSizes m = (planeBytes m, rowBytes m, isMx m) := by
  have : ∀ m < 7, Claims.modeSizes m = (planeBytes m, rowBytes m, isMx m) := by decide
  exact this m h

/-- A mode that R168 gives. -/
theorem modeUndefined_eq_false {m : BitVec 4} (h : m.toNat % 8 ≠ 7 ∧ (m.toNat < 8 ∨ m.toNat % 8 = 2 ∨ m.toNat % 8 = 3)) :
    modeUndefined m = false := by
  revert m
  decide

/-- The low bits of a mode. -/
theorem mode_low (m : BitVec 4) : (m.extractLsb' 0 3).toNat = m.toNat % 8 := BitVec.extractLsb'_toNat ..

section Handle
variable {s : State} {i : Issue} {u : Team} {w h : DWord} {k : Nat}

/-- A handle of a tile is well formed. -/
theorem amHandleBad_eq_false (hk : k < 16) : amHandleBad (BitVec.ofNat 64 (0x1000 + k)) = false := by
  rw [amHandleBad, BitVec.toNat_ofNat, bitsOf, bne_eq_false_iff_eq, Nat.shiftRight_eq_div_pow]
  omega

/-- The tile that a team holds is found by its handle. -/
theorem heldTile_eq (hold : Claims.holdsTile s i h k) : heldTile s i h = .ok k := by
  obtain ⟨hk, rfl, howner⟩ := hold
  have good : raiseIf (amHandleBad (BitVec.ofNat 64 (0x1000 + k))) 0x100 = .ok () := if_neg (by rw [amHandleBad_eq_false hk]; exact Bool.false_ne_true)
  have mine : raiseIf (((s.core i.core).tile (k)).owner != some i.wid) 0x103 = .ok () := if_neg (by simp [howner])
  have tile : (BitVec.ofNat 64 (0x1000 + k)).toNat % 16 = k := by
    rw [BitVec.toNat_ofNat]
    omega
  simp only [heldTile, good, tile, mine, bind, Except.bind]

/-- MLS passes its checks. -/
theorem checkMls_eq {m : BitVec 4} (hm : m.toNat % 8 ≠ 7)
    (hw : Claims.operandWord u w (Claims.modeSizes (m.toNat % 8)).1 (if (Claims.modeSizes (m.toNat % 8)).2.2 then 256 else 0)) :
    checkMls u m w = .ok (.mls m w) := by
  rw [modeSizes_eq (by omega)] at hw
  simp only [checkMls, mode_low, wordBad_eq_false hw, raiseIf, bind, Except.bind]
  rfl

/-- AMLD passes its checks. -/
theorem checkAmCopy_eq {op : Nat → DWord → LatOp} (hold : Claims.holdsTile s i h k) (hw : Claims.operandWord u w 16384 0) :
    checkAmCopy s i u h w op = .ok (op k w) := by
  have good : amHandleBad h = false := by
    obtain ⟨hk, rfl, -⟩ := hold
    exact amHandleBad_eq_false hk
  simp only [checkAmCopy, good, wordBad_eq_false hw, heldTile_eq hold, raiseIf, bind, Except.bind]
  rfl

/-- MSTREAM passes its checks. -/
theorem checkMstream_eq {m : BitVec 4} (hm : m.toNat % 8 ≠ 7) (hold : Claims.holdsTile s i h k)
    (hw : let z := Claims.modeSizes (m.toNat % 8)
      let n := (w.extractLsb' 32 6).toNat + 1
      Claims.operandWord u w (n * z.2.1) (if z.2.2 then 4 * n else 0) ∧ (w.extractLsb' 20 6).toNat + n ≤ 64 ∧
        ∃ p, (Claims.planes u).stationary = some p ∧ p.mode.toNat % 8 = m.toNat % 8) :
    checkMstream s i u m h w = .ok (.mstream m k w) := by
  obtain ⟨hword, hrows, p, hp, hmode⟩ := hw
  have good : amHandleBad h = false := by
    obtain ⟨hk, rfl, -⟩ := hold
    exact amHandleBad_eq_false hk
  have rows : wordRows w = (w.extractLsb' 32 6).toNat + 1 := congrArg (· + 1) (bitsOf_toNat w rfl)
  have row0 : wordRow0 w = (w.extractLsb' 20 6).toNat := bitsOf_toNat w rfl
  have plane : (planesAfter u).stationary.any (fun p => p.mode.toNat % 8 == m.toNat % 8) = true := by
    simp [planesAfter_eq, hp, hmode]
  rw [modeSizes_eq (by omega), ← rows] at hword
  rw [← rows, ← row0] at hrows
  simp only [checkMstream, good, mode_low, wordBad_eq_false hword, decide_eq_false (Nat.not_lt.2 hrows), heldTile_eq hold, plane, raiseIf, bind,
    Except.bind]
  rfl

/-- A follow-on word in order gives its command. -/
theorem followOn_eq {op : LatOp} (hop : Claims.follows s i u w op) : followOn s i u w = .ok (some op) := by
  have hkind : bitsOf w.toNat 27 26 = (w.extractLsb' 26 2).toNat := bitsOf_toNat w rfl
  have htile : bitsOf w.toNat 31 28 = (w.extractLsb' 28 4).toNat := bitsOf_toNat w rfl
  have hlow : ((w.extractLsb' 60 4).extractLsb' 0 3 != 0) = decide ((w.extractLsb' 60 4).toNat % 8 ≠ 0) := by
    generalize w.extractLsb' 60 4 = m
    revert m
    decide
  simp only [followOn, hkind, htile, hlow]
  unfold Claims.follows at hop
  dsimp only at hop
  split at hop
  case h_1 h0 =>
    obtain ⟨tile, legal, rfl, hword⟩ := hop
    simp only [h0, tile, modeUndefined_eq_false legal, checkMls_eq legal.1 hword, raiseIf, bind, Except.bind]
    rfl
  case h_2 h1 =>
    obtain ⟨legal, rfl, hold, hrest⟩ := hop
    simp only [h1, modeUndefined_eq_false legal, checkMstream_eq legal.1 hold hrest, raiseIf, bind, Except.bind]
    rfl
  case h_3 h2 =>
    obtain ⟨hm, rfl, hold, hword⟩ := hop
    simp only [h2, hm, checkAmCopy_eq hold hword, raiseIf, bind, Except.bind]
    rfl
  case h_4 => exact hop.elim

end Handle

/-! ### The command that waits for its copy (R263) -/

/-- The last command of a list alone changes. -/
theorem mapIdx_last {α : Type} (f : α → α) (xs : List α) (y : α) :
    ((xs ++ [y]).mapIdx fun n x => if n + 1 = (xs ++ [y]).length then f x else x) = xs ++ [f y] := by
  rw [List.mapIdx_concat]
  refine congrArg₂ _ (List.ext_getElem (by simp) fun n h _ => ?_) (by simp)
  have : n < xs.length := by simpa using h
  rw [List.getElem_mapIdx, if_neg (by simp; omega)]

/-- A command is placed while fewer than eight have not started. -/
theorem placeCommand_eq {u : Team} (op : LatOp) (h : Claims.unstarted u < 8) :
    placeCommand u op = .ok { u with lat := u.lat ++ [{ seq := u.latSeq, op := op }], latSeq := (u.latSeq + 1) % 2 ^ 32 } := by
  have room : waitWhile (decide (8 ≤ (u.lat.filter fun c => !c.started).length)) (.lattice u.latSeq) = .ok () := by
    rw [← List.countP_eq_length_filter]
    exact if_neg (by simpa [Claims.unstarted] using h)
  simp only [placeCommand, room, bind, Except.bind]

/-- The team with a command of the Lattice behind those it has, to start after a copy. -/
def Team.queued (u : Team) (op : LatOp) (id : Nat) : Team :=
  { u with lat := u.lat ++ [{ seq := u.latSeq, op := op, after := some id }], latSeq := (u.latSeq + 1) % 2 ^ 32 }

/-! ### Copies of the A-stream (R261) -/

section IssueCopy
variable {s : State} {i : Issue} {u : Team} {d : BitVec 6} {tn : BitVec 4} {x : BitVec 7} {off : Int} {kind fn size n : Nat}
  {src w idx : DWord} {more : Act (Option LatOp)}

/-- The translation register that forms the destination: that of the instruction for virtual memory, else none (R260). -/
def copyBase (u : Team) (tn : BitVec 4) (w : DWord) : TReg := if (w.extractLsb' 32 2).toNat ≠ 0 then {} else readT u tn.toNat

/-- The copy that the instruction describes. -/
def describedCopy (u : Team) (tn : BitVec 4) (off : Int) (kind fn size : Nat) (src w idx : DWord) : Copy :=
  copyOfFlags kind fn size src.toNat (Claims.address (copyBase u tn w) idx off size) w

/-- The destination of a copy. -/
theorem copyDst_eq {core : Nat} (tn : BitVec 4) (w : DWord) (off : Int) (size : Nat) (hx : sourceA i u core x = .ok idx) :
    copyDst i u core tn x w off size = .ok (Claims.address (copyBase u tn w) idx off size) := by
  simp only [copyDst, hx, formAddr_eq, copyBase, bitsOf_toNat w (hi := 33) (lo := 32) (n := 2) rfl, ne_eq, ite_not, bind, Except.bind]

/-- A copy stops where its checks do. -/
theorem issueCopy_refused {e : Stop} (hsrc : readS u d.toNat = .ok src) (hw : readS u (d.toNat + 1) = .ok w)
    (hx : sourceA i u (coreWord s i.core) x = .ok idx)
    (hcheck : checkCopy s i u tn w (describedCopy u tn off kind fn size src w idx) = .error e) :
    issueCopy s i u d tn x off kind fn size more = .error e := by
  unfold describedCopy at hcheck
  simp only [issueCopy, hsrc, hw, copyDst_eq tn w off size hx, hcheck, bind, Except.bind]

section Passes
variable (hsrc : readS u d.toNat = .ok src) (hw : readS u (d.toNat + 1) = .ok w) (hx : sourceA i u (coreWord s i.core) x = .ok idx)
  (hcheck : checkCopy s i u tn w (describedCopy u tn off kind fn size src w idx) = .ok ())
  (hneeds : copyNeeds s i.core u.info.ctx (describedCopy u tn off kind fn size src w idx) = [])
include hsrc hw hx hcheck hneeds

/-- With every entry taken the instruction waits. -/
theorem issueCopy_full {op : Option LatOp} (hmore : more = .ok op) (hfull : copyEntries s u = []) :
    issueCopy s i u d tn x off kind fn size more = waitOn (.other 0) := by
  unfold describedCopy at hcheck hneeds
  simp only [issueCopy, hsrc, hw, copyDst_eq tn w off size hx, hcheck, hmore, hneeds, awaitEntry, hfull, waitOn, bind, Except.bind]
  rfl

/-- A copy without a command takes the lowest free entry, and its segments enter the leaf. -/
theorem issueCopy_enters (hmore : more = .ok none) (hentry : (copyEntries s u).head? = some n) :
    issueCopy s i u d tn x off kind fn size more = .ok (pushSegments
      (addCopy (s.setTeam i.wid u) (ownCopy i u n (describedCopy u tn off kind fn size src w idx))).1 (copyLeaf i.core) s.eng.copySeq
      (ownCopy i u n (describedCopy u tn off kind fn size src w idx))) := by
  unfold describedCopy at hcheck hneeds ⊢
  obtain ⟨l, hl⟩ := List.head?_eq_some_iff.1 hentry
  simp only [issueCopy, hsrc, hw, copyDst_eq tn w off size hx, hcheck, hmore, hneeds, awaitEntry, hl, bind, Except.bind]
  rfl

/-- A copy with a command queues it, to start after the copy. -/
theorem issueCopy_queues {op : LatOp} (hmore : more = .ok (some op)) (hentry : (copyEntries s u).head? = some n)
    (hroom : Claims.unstarted u < 8) :
    issueCopy s i u d tn x off kind fn size more = .ok (pushSegments
      (addCopy (s.setTeam i.wid (u.queued op s.eng.copySeq)) (ownCopy i u n (describedCopy u tn off kind fn size src w idx))).1 (copyLeaf i.core)
      s.eng.copySeq (ownCopy i u n (describedCopy u tn off kind fn size src w idx))) := by
  unfold describedCopy at hcheck hneeds ⊢
  obtain ⟨l, hl⟩ := List.head?_eq_some_iff.1 hentry
  simp only [issueCopy, hsrc, hw, copyDst_eq tn w off size hx, hcheck, hmore, hneeds, awaitEntry, hl, placeCommand_eq op hroom,
    mapIdx_last, bind, Except.bind]
  rfl

end Passes

end IssueCopy

/-! ### CPY, CPYM and CPYR -/

section CopyBody
variable {y : Instr} {s s' : State} {i : Issue} {u : Team} {kind fn : Nat} {d : BitVec 6} {tn : BitVec 4} {f : BitVec 7} {sz : BitVec 2} {off : Int}

/-- The checks of a copy's follow-on word: CPYM alone has one. -/
def copyMore (s : State) (i : Issue) (u : Team) (kind : Nat) (fw : DWord) : Act (Option LatOp) :=
  if kind = 1 then followOn s i u fw else .ok none

/-- CPY, CPYM and CPYR issue a copy of what they name. -/
theorem exec_copy (hy : Claims.copyKind i.hint y = some (kind, fn, d, tn, f, sz, off)) (s s' : State) (u : Team) :
    ∃ body, exec y s = issue y plain s body ∧ ∀ fw, (kind = 1 → readS u (d.toNat + 2) = .ok fw) →
      body i u s' = issueCopy s' i u d tn f off kind fn (Claims.bytes sz) (copyMore s' i u kind fw) := by
  unfold Claims.copyKind at hy
  split at hy
  · cases hy
    rw [exec_cpy]
    exact ⟨_, rfl, fun fw _ => by rw [szBytes_eq]; rfl⟩
  · cases hy
    rw [exec_cpym]
    refine ⟨_, rfl, fun fw hfw => ?_⟩
    simp only [hfw rfl, szBytes_eq, bind, Except.bind]
    rfl
  · cases hy
    rw [exec_cpyr]
    exact ⟨_, rfl, fun fw _ => by rw [szBytes_eq]; rfl⟩
  · cases hy

end CopyBody

section Issued
variable {s : State} {i : Issue} {t : Team} {kind fn size : Nat} {tn : BitVec 4} {off : Int} {src w idx : DWord}

/-- The record of the copy that the instruction enters as entry `n`. -/
def issuedCopy (i : Issue) (t : Team) (tn : BitVec 4) (off : Int) (kind fn size : Nat) (src w idx : DWord) (n : Nat) : Copy :=
  Claims.copyRecord i (atIssue i t) kind fn size src.toNat
    (Claims.address (if (w.extractLsb' 32 2).toNat ≠ 0 then {} else tabGetD {} t.a.t tn.toNat) idx off size) w n

/-- The translation registers do not change as the instruction issues. -/
theorem readT_atIssue (i : Issue) (t : Team) (n : Nat) : readT (atIssue i t) n = tabGetD {} t.a.t n := by
  cases h : i.stream <;> simp [readT, atIssue, h, Team.advance]

/-- Fewer than eight commands have not started, as before the instruction issued. -/
theorem unstarted_atIssue (i : Issue) (t : Team) : Claims.unstarted (atIssue i t) = Claims.unstarted t := by
  rw [Claims.unstarted, atIssue, Team.advance_lat, Claims.unstarted]

/-- A copy of the team, as the statements write it. -/
theorem ownCopy_described (n : Nat) :
    ownCopy i (atIssue i t) n (describedCopy (atIssue i t) tn off kind fn size src w idx) =
      issuedCopy i t tn off kind fn size src w idx n := by
  rw [describedCopy, ownCopy_eq, copyBase, readT_atIssue, issuedCopy]

/-- The destination kind of a copy. -/
theorem describedCopy_dkind (u : Team) : (describedCopy u tn off kind fn size src w idx).dkind = (w.extractLsb' 32 2).toNat :=
  bitsOf_toNat w rfl

/-- The flags word of a copy in order. -/
theorem describedCopy_fits (u : Team) :
    copyFlagsBad (describedCopy u tn off kind fn size src w idx) w = false ↔ Claims.flagsFit w kind size := copyFlagsBad_eq_false_iff ..

/-- The causes of a copy's ranges, found while the team issues, are those of its record. -/
theorem copyCause_described (n : Nat) :
    copyCause (s.setTeam i.wid (atIssue i t)) i.core (atIssue i t).info.ctx (atIssue i t).info.scratchBytes
        (describedCopy (atIssue i t) tn off kind fn size src w idx) =
      copyCause s i.core t.info.ctx t.info.scratchBytes (issuedCopy i t tn off kind fn size src w idx n) := by
  rw [copyCause_setTeam, ← copyCause_ownCopy s _ _ _ i (atIssue i t) n, ownCopy_described, atIssue, Team.advance_info]

/-- The pages that a copy needs, found while the team issues, are those of its record. -/
theorem copyNeeds_described (n : Nat) :
    copyNeeds (s.setTeam i.wid (atIssue i t)) i.core (atIssue i t).info.ctx (describedCopy (atIssue i t) tn off kind fn size src w idx) =
      copyNeeds s i.core t.info.ctx (issuedCopy i t tn off kind fn size src w idx n) := by
  rw [copyNeeds_setTeam, ← copyNeeds_ownCopy s _ _ i (atIssue i t) n, ownCopy_described, atIssue, Team.advance_info]

/-- Where a copy's flags word and translation register are in order, its ranges are checked. -/
theorem checkCopy_described (n : Nat) (hfit : Claims.flagsFit w kind size) (hfar : (w.extractLsb' 32 2).toNat ≠ 0 → tn = 0)
    (hnear : ¬(w.extractLsb' 32 2).toNat ≠ 0 →
      (if (w.extractLsb' 32 2).toNat ≠ 0 then {} else tabGetD {} t.a.t tn.toNat : TReg).valid = true) :
    checkCopy (s.setTeam i.wid (atIssue i t)) i (atIssue i t) tn w (describedCopy (atIssue i t) tn off kind fn size src w idx) =
      (copyCause s i.core t.info.ctx t.info.scratchBytes (issuedCopy i t tn off kind fn size src w idx n)).elim (.ok ()) fun p =>
      if (copyOrder.take 9).contains p.1 then raiseWith p.1 { value := BitVec.ofNat 64 p.2 } else raise p.1 := by
  rw [← copyCause_described n, checkCopy_ranges ((describedCopy_fits _).2 hfit)]
  · rwa [describedCopy_dkind]
  · rw [describedCopy_dkind, readT_atIssue]
    intro h
    simpa only [h, ne_eq, not_true_eq_false, not_false_eq_true, if_false, true_implies] using hnear

end Issued

/-- A copy in order is entered (R261 to R264). -/
theorem copies_enter : Claims.Copies := by
  intro y s i t kind fn d tn f sz off src w idx n h _ hy u size hsrc hw hx hfit far r hfar hnear hlow c hcause hneeds pushed
  have hcheck := (checkCopy_described n hfit hfar hnear).trans (congrArg (Option.elim · _ _) hcause)
  have hpages := (copyNeeds_described n).trans hneeds
  have hentry := (congrArg List.head? (copyEntries_atIssue s i t)).trans (awaitEntry_lowest hlow)
  have hx' : sourceA i u (coreWord (s.setTeam i.wid u) i.core) f = .ok idx := by rwa [coreWord_setTeam]
  obtain ⟨body, hexec, hbody⟩ := exec_copy hy s (s.setTeam i.wid u) u
  refine ⟨fun hk => ?_, fun hk fw op hfw hop hroom => ?_, fun k => ?_⟩
  · have henter := (hbody 0 fun h => absurd h hk).trans
      (issueCopy_enters hsrc hw hx' hcheck hpages (if_neg hk) hentry)
    rw [ownCopy_described, State.setTeam_setTeam] at henter
    rw [hexec, issue_next plain h henter]
    rfl
  · have hmore : copyMore (s.setTeam i.wid u) i u kind fw = .ok (some op) := (if_pos hk).trans (followOn_eq hop)
    have hqueue := (hbody fw fun _ => hfw).trans
      (issueCopy_queues hsrc hw hx' hcheck hpages hmore hentry ((unstarted_atIssue i t).trans_lt hroom))
    rw [ownCopy_described, State.setTeam_setTeam] at hqueue
    rw [hexec, issue_next plain h hqueue]
    rfl
  · exact congrArg (memGet · k) (pushSegments_mem ..)

/-- What a copy meets instead (R88, R260, R261). -/
theorem copies_stop : Claims.CopyCauses := by
  intro y s i t kind fn d tn f sz off src w idx h _ hy u size hsrc hw hx hfollow stops far r c
  have hx' : sourceA i u (coreWord (s.setTeam i.wid u) i.core) f = .ok idx := by rwa [coreWord_setTeam]
  obtain ⟨body, hexec, hbody⟩ := exec_copy hy s (s.setTeam i.wid u) u
  obtain ⟨fw, hfw⟩ : ∃ fw, kind = 1 → readS u (d.toNat + 2) = .ok fw := by
    by_cases hk : kind = 1
    · exact (hfollow hk).imp fun fw hfw _ => hfw
    · exact ⟨0, fun h => absurd h hk⟩
  have refused : ∀ {e : Stop}, checkCopy (s.setTeam i.wid u) i u tn w (describedCopy u tn off kind fn size src w idx) = .error e →
      body i u (s.setTeam i.wid u) = .error e := fun hcheck => (hbody fw hfw).trans (issueCopy_refused hsrc hw hx' hcheck)
  have stop : ∀ {k : Nat}, checkCopy (s.setTeam i.wid u) i u tn w (describedCopy u tn off kind fn size src w idx) = raise k → stops k :=
    fun hcheck => ⟨_, hexec.trans (issue_trap plain h (refused hcheck))⟩
  refine ⟨fun hbad => ?_, fun hfit hnear hinvalid => ?_, fun hfit hfar hnear => ⟨fun k at_ hcause => ?_, fun hk hcause hneeds hfull => ?_⟩⟩
  · exact stop (checkCopy_flags (by rw [← Bool.not_eq_false]; exact mt (describedCopy_fits _).1 hbad))
  · exact stop (checkCopy_register ((describedCopy_fits _).2 hfit) ((describedCopy_dkind u).trans (not_not.1 hnear))
      (by rwa [readT_atIssue]))
  · have hcheck := (checkCopy_described 0 hfit hfar hnear).trans (congrArg (Option.elim · _ _) hcause)
    have haddr := copyOrder_addressed (copyCause_mem hcause)
    refine ⟨fun hk => stop (hcheck.trans (if_neg fun ha => hk.elim (haddr.1 ha).1 (haddr.1 ha).2)), fun hk hk' => ?_⟩
    rw [hexec, issue_trap plain h (refused (hcheck.trans (if_pos (haddr.2 ⟨hk, hk'⟩))))]
    rfl
  · have hcheck := (checkCopy_described 0 hfit hfar hnear).trans (congrArg (Option.elim · _ _) hcause)
    have hpages := (copyNeeds_described 0).trans hneeds
    rw [hexec, issue_wait plain h ((hbody fw hfw).trans (issueCopy_full hsrc hw hx' hcheck hpages (if_neg hk)
      ((copyEntries_atIssue s i t).trans hfull)))]

/-- Settles O44: each of the three instructions is one issued copy, whose checks, entry and segments are those of R259 to R264. -/
theorem copies : Obligations.Copies := ⟨copies_enter, copies_stop⟩

end Sys2Proof.Machine

/-! ## The operands of lane instructions -/

namespace Sys2Proof.Machine

/-! ### The lanes of a mask -/

/-- A lane of a mask lies below the number of lanes, and its bit is set. -/
theorem mem_maskLanes {n : Nat} {m : Mask} {l : Nat} : l ∈ maskLanes n m ↔ l < n ∧ m.getLsbD l = true := by
  simp [maskLanes]

/-- Every lane of a mask is one of its 1024. -/
theorem lt_of_mem_maskLanes {n : Nat} {m : Mask} {l : Nat} (h : l ∈ maskLanes n m) : l < 1024 :=
  BitVec.lt_of_getLsbD (mem_maskLanes.1 h).2

/-- The lanes of a mask rise. -/
theorem pairwise_maskLanes (n : Nat) (m : Mask) : (maskLanes n m).Pairwise (· < ·) := List.pairwise_lt_range.filter _

/-- The mask of one lane. -/
theorem getLsbD_laneBit (k l : Nat) : (laneBit k).getLsbD l = (decide (l < 1024) && decide (l = k)) := by
  rw [laneBit, BitVec.getLsbD_ofNat, Nat.one_shiftLeft, Nat.testBit_two_pow]
  simp only [eq_comm]

/-- A lane below 1024 is in the mask of a list where it is in the list. -/
theorem getLsbD_lanesMask {l : Nat} (hl : l < 1024) (ls : List Nat) : (lanesMask ls).getLsbD l = decide (l ∈ ls) := by
  have joined : ∀ (ls : List Nat) (m : Mask), (ls.foldl (fun m k => m ||| laneBit k) m).getLsbD l = (m.getLsbD l || decide (l ∈ ls)) := by
    intro ls
    induction ls with
    | nil => simp
    | cons k ks ih =>
      intro m
      rw [List.foldl_cons, ih, BitVec.getLsbD_or, getLsbD_laneBit, decide_eq_true hl, Bool.true_and, Bool.or_assoc, ← Bool.decide_or]
      simp only [List.mem_cons]
  rw [lanesMask, joined, BitVec.ofNat_eq_ofNat, BitVec.getLsbD_zero, Bool.false_or]

/-! ### Lists of sources -/

/-- The element of a numbered list at a place carries the place. -/
theorem getElem?_enum {α : Type} (k : Nat) : ∀ (i : Nat) (xs : List α), (enum i xs)[k]? = xs[k]?.map fun x => (i + k, x) := by
  induction k with
  | zero => intro i xs; cases xs <;> rfl
  | succ k ih =>
    intro i xs
    cases xs with
    | nil => rfl
    | cons x xs => simp only [enum, List.getElem?_cons_succ, ih, Nat.add_assoc, Nat.add_comm 1 k]

/-- A member of a list numbered from 0 stands in the list at its number. -/
theorem getElem?_of_mem_enum {α : Type} {xs : List α} {p : Nat × α} (h : p ∈ enum 0 xs) : xs[p.1]? = some p.2 := by
  obtain ⟨k, hk⟩ := List.mem_iff_getElem?.1 h
  rw [getElem?_enum, Option.map_eq_some_iff] at hk
  obtain ⟨x, hx, rfl⟩ := hk
  simpa using hx

/-- Actions that all succeed succeed together. -/
theorem mapM_ok {α β : Type} {g : α → Act β} {h : α → β} : ∀ {xs : List α}, (∀ x ∈ xs, g x = .ok (h x)) → xs.mapM g = .ok (xs.map h)
  | [], _ => rfl
  | x :: xs, hx => by
    obtain ⟨hhead, htail⟩ := List.forall_mem_cons.1 hx
    rw [List.mapM_cons, hhead, mapM_ok htail]
    rfl

/-- Where two actions in a row succeed, each does. -/
theorem act_bind_ok {α β : Type} {x : Act α} {f : α → Act β} {b : β} (h : (x >>= f) = .ok b) : ∃ a, x = .ok a ∧ f a = .ok b := by
  cases x with
  | error e => cases h
  | ok a => exact ⟨a, rfl, h⟩

/-! ### The operands at their places (R58, R71) -/

/-- The operands in the order a, b, d, e, g: the third operand stands behind two others, absent ones reading 0. -/
def operandPlaces (vals : List (Nat → Word)) (third : Nat → Word) : List (Nat → Word) :=
  vals.take 2 ++ (List.replicate (2 - vals.length) fun _ => 0) ++ third :: vals.drop 2

/-- The third operand stands at place 2. -/
theorem operandPlaces_third (third : Nat → Word) : ∀ vals : List (Nat → Word), (operandPlaces vals third)[2]? = some third
  | [] => rfl
  | [_] => rfl
  | _ :: _ :: _ => by simp [operandPlaces]

/-- The other operands stand before it and behind it. -/
theorem operandPlaces_source (third : Nat → Word) {vals : List (Nat → Word)} {k : Nat} {v : Nat → Word} (h : vals[k]? = some v) :
    (operandPlaces vals third)[if k < 2 then k else k + 1]? = some v := by
  match vals, k with
  | [_], 0 => exact h
  | _ :: _ :: _, 0 => exact h
  | _ :: _ :: _, 1 => exact h
  | _ :: _ :: vals, k + 2 =>
    have behind : ¬ k + 2 < 2 := by omega
    simpa [operandPlaces, behind] using h

/-- The value of the third operand: v_d where d is a source, else 0. -/
def thirdOperand (u : Team) (f : Frag) : Option (BitVec 6) → Act (Nat → Word)
  | none => .ok fun _ => 0
  | some d => do
    let p ← f.win.reg u.info.vphys d.toNat
    .ok fun l => tabGetD 0 u.v (vKey l p)

/-- The operands that the fragment `f` reads. -/
def lanesOf (u : Team) (f : Frag) (names : List (BitVec 7)) (vals : List (Nat → Word)) (third : Nat → Word) : ELanes where
  frag := f
  lanes := maskLanes u.info.lanes f.mask
  fields := names
  resid := residency u f names
  arg := fun k l => ((operandPlaces vals third).getD k fun _ => 0) l

section Operands
variable {i : Issue} {u : Team} {core : Nat} {f : Frag} {fs : ESources} {d : Option (BitVec 6)}

/-- The operands of a fragment are read one after another: its queue entries are awaited, then each field is read, then v_d. -/
theorem eOperands_eq (hf : tabGet u.frags i.frag = some f) : eOperands i u core fs d = (do
    awaitEntries u f (fs.map (·.1))
    let vals ← (enum 0 fs).mapM fun p => laneSource i u core f (fs.map (·.1)) p.1 p.2.2
    let third ← thirdOperand u f d
    .ok (lanesOf u f (fs.map (·.1)) vals third)) := by
  unfold eOperands
  rw [hf]
  cases d with
  | none => rfl
  | some d =>
    simp only [thirdOperand, bind_assoc]
    rfl

/-- Operands whose fields can all be read are read at once. -/
theorem eOperands_ok {val : Nat × BitVec 7 × OpType → Nat → Word} {third : Nat → Word} (hf : tabGet u.frags i.frag = some f)
    (hawait : awaitEntries u f (fs.map (·.1)) = .ok ())
    (hvals : ∀ p ∈ enum 0 fs, laneSource i u core f (fs.map (·.1)) p.1 p.2.2 = .ok (val p)) (hthird : thirdOperand u f d = .ok third) :
    eOperands i u core fs d = .ok (lanesOf u f (fs.map (·.1)) ((enum 0 fs).map val) third) := by
  rw [eOperands_eq hf, hawait, mapM_ok hvals, hthird]
  rfl

/-- Operands whose entries cannot be awaited stop as the wait for the entries does. -/
theorem eOperands_stops {e : Stop} (hf : tabGet u.frags i.frag = some f) (hawait : awaitEntries u f (fs.map (·.1)) = .error e) :
    eOperands i u core fs d = .error e := by
  rw [eOperands_eq hf, hawait]
  rfl

/-- Operands that are there are those of the issuing fragment, in its active lanes. -/
theorem eOperands_inv {o : ELanes} (h : eOperands i u core fs d = .ok o) :
    tabGet u.frags i.frag = some o.frag ∧ o.lanes = maskLanes u.info.lanes o.frag.mask ∧ o.fields = fs.map (·.1) := by
  cases hf : tabGet u.frags i.frag with
  | none =>
    rw [eOperands, hf] at h
    cases h
  | some f =>
    rw [eOperands_eq hf] at h
    obtain ⟨_, _, h⟩ := act_bind_ok h
    obtain ⟨_, _, h⟩ := act_bind_ok h
    obtain ⟨_, _, h⟩ := act_bind_ok h
    cases h
    exact ⟨rfl, rfl, rfl⟩

/-- The operand of a source field stands at its place. -/
theorem lanesOf_arg_source {val : Nat × BitVec 7 × OpType → Nat → Word} {third : Nat → Word} {names : List (BitVec 7)} {k : Nat}
    {x : BitVec 7 × OpType} (hk : fs[k]? = some x) (l : Nat) :
    (lanesOf u f names ((enum 0 fs).map val) third).arg (if k < 2 then k else k + 1) l = val (k, x) l := by
  have place : ((enum 0 fs).map val)[k]? = some (val (k, x)) := by simp [getElem?_enum, hk]
  simp only [lanesOf, List.getD_eq_getElem?_getD, operandPlaces_source third place, Option.getD_some]

/-- The third operand stands behind a and b. -/
theorem lanesOf_arg_third (names : List (BitVec 7)) (vals : List (Nat → Word)) (third : Nat → Word) (l : Nat) :
    (lanesOf u f names vals third).arg 2 l = third l := by
  simp [lanesOf, List.getD_eq_getElem?_getD, operandPlaces_third]

/-! ### Fields that name no queue and no latch -/

/-- Window register `n` in reach. -/
theorem windowReg_ok {w : Window} {phys n : Nat} (h64 : n < 64) (h : n < w.size + w.caller) :
    w.reg phys n = .ok ((w.base + 64 * phys - n) % phys) := if_pos (by omega)

/-- The specials of a lane (Table 3-3), and the constants behind them. -/
theorem fieldValue_special (x : BitVec 7) (ty : OpType) (l : Nat) (h : 88 ≤ x.toNat) : Claims.fieldValue i u core f x ty l =
    if x.toNat < 96 then BitVec.ofNat 32 (laneSpecial i u core f l x.toNat) else constantBits ty (x.toNat - 96) := by
  have register : ¬ x.toNat < 64 := by omega
  rw [Claims.fieldValue]
  simp only [if_neg register]
  split
  case h_8 hx =>
    rw [hx]
    exact (BitVec.setWidth_eq i.cyclo).symm.trans (BitVec.ofNat_toNat ..).symm
  case h_9 =>
    have above : ¬ x.toNat < 96 := by
      simp only [imp_false] at *
      omega
    rw [if_neg above]
  all_goals
    rename_i hx
    rw [hx]
    rfl

/-- A field that names no queue and no latch is read at once. -/
theorem laneSource_plain {names : List (BitVec 7)} {pos : Nat} {x : BitVec 7} (ty : OpType) (hx : names[pos]? = some x) (h : Claims.plainField f x) :
    laneSource i u core f names pos ty = .ok fun l => Claims.fieldValue i u core f x ty l := by
  unfold laneSource
  rw [hx]
  rcases h with ⟨hreach, h64⟩ | h88
  · simp only [if_pos h64, windowReg_ok h64 hreach, bind, Except.bind, Claims.fieldValue, vKey]
  · have notRegister : ¬ x.toNat < 64 := by omega
    have notLatch : ¬ x.toNat < 72 := by omega
    have notQueue : ¬ x.toNat < 88 := by omega
    simp only [if_neg notRegister, if_neg notLatch, if_neg notQueue, fieldValue_special x ty _ h88]
    split <;> rfl

/-- A plain field names no queue. -/
theorem isQueueField_plain {x : BitVec 7} (h : Claims.plainField f x) : isQueueField x = false := by
  rcases h with ⟨_, h⟩ | h
  · exact Bool.and_eq_false_iff.2 (.inl (decide_eq_false (by omega)))
  · exact Bool.and_eq_false_iff.2 (.inr (decide_eq_false (by omega)))

/-- A field at a position has no entry to read in some lane of the fragment. -/
def lacksEntry (u : Team) (f : Frag) (names : List (BitVec 7)) (p : Nat × BitVec 7) : Bool :=
  match fieldQueue p.2 with
  | none => false
  | some q => (maskLanes u.info.lanes f.mask).any fun l => decide ((pendingEntries (tabGetD {} u.q q) l).length ≤ entryIndex names p.1)

/-- What becomes of the wait for the entries of a queue: while some may come it goes on, and else it is cause 0x01B (R194). -/
def entriesWait (u : Team) : Option Nat → Act Unit
  | none => .ok ()
  | some q => if u.a.ended && u.gather.isEmpty then raise 0x01B else waitOn (.queue q)

/-- The causes of the queues that the fields name, then the wait for the first field that lacks an entry. -/
theorem awaitEntries_eq (names : List (BitVec 7)) : awaitEntries u f names = (do
    raiseIf ((names.filterMap fieldQueue).any fun q => !(decide (q < 4) || q == 6)) 0x014
    raiseIf ((names.filterMap fieldQueue).any fun q => (tabGetD {} u.q q).cap = 0) 0x015
    entriesWait u (((enum 0 names).find? (lacksEntry u f names)).bind fun p => fieldQueue p.2)) := rfl

/-- Fields of queues that the E-stream may read, and that are declared, wait for the first of them that lacks an entry. -/
theorem awaitEntries_declared {names : List (BitVec 7)} (h : ∀ q ∈ names.filterMap fieldQueue, (q < 4 ∨ q = 6) ∧ (u.queue q).cap ≠ 0) :
    awaitEntries u f names = entriesWait u (((enum 0 names).find? (lacksEntry u f names)).bind fun p => fieldQueue p.2) := by
  have readable : ((names.filterMap fieldQueue).any fun q => !(decide (q < 4) || q == 6)) = false :=
    List.any_eq_false.2 fun q hq => by simpa [or_iff_not_imp_left] using (h q hq).1
  have declared : ((names.filterMap fieldQueue).any fun q => (tabGetD {} u.q q).cap = 0) = false :=
    List.any_eq_false.2 fun q hq => by simpa [Team.queue] using (h q hq).2
  rw [awaitEntries_eq, readable, declared]
  rfl

/-- Fields that name no queue wait for no entry. -/
theorem awaitEntries_plain {names : List (BitVec 7)} (h : ∀ x ∈ names, isQueueField x = false) : awaitEntries u f names = .ok () := by
  have noQueue : ∀ x ∈ names, fieldQueue x = none := fun x hx => by simp [fieldQueue, h x hx]
  have held : (enum 0 names).find? (lacksEntry u f names) = none := List.find?_eq_none.2 fun p hp => by
    simp [lacksEntry, noQueue _ (List.mem_of_getElem? (getElem?_of_mem_enum hp))]
  rw [awaitEntries_declared (by simp [List.filterMap_eq_nil_iff.2 noQueue]), held]
  rfl

/-- Fields that name no queue deliver no residency bits. -/
theorem residency_plain {names : List (BitVec 7)} (h : ∀ x ∈ names, isQueueField x = false) : residency u f names = none :=
  if_neg (by simpa using h)

/-- The operands of plain fields. -/
def plainOperands (i : Issue) (u : Team) (core : Nat) (f : Frag) (fs : ESources) (third : Nat → Word) : ELanes :=
  lanesOf u f (fs.map (·.1)) ((enum 0 fs).map fun p l => Claims.fieldValue i u core f p.2.1 p.2.2 l) third

/-- Plain fields are read at once. -/
theorem eOperands_plain {third : Nat → Word} (hf : tabGet u.frags i.frag = some f) (hfs : ∀ x ∈ fs, Claims.plainField f x.1)
    (hthird : thirdOperand u f d = .ok third) : eOperands i u core fs d = .ok (plainOperands i u core f fs third) := by
  have noQueue : ∀ x ∈ fs.map (·.1), isQueueField x = false := List.forall_mem_map.2 fun x hx => isQueueField_plain (hfs x hx)
  refine eOperands_ok hf (awaitEntries_plain noQueue) (fun p hp => ?_) hthird
  have place := getElem?_of_mem_enum hp
  exact laneSource_plain _ (by simp [place]) (hfs _ (List.mem_of_getElem? place))

/-- What the statement says of the operands of plain fields. -/
theorem plainOperands_spec (third : Nat → Word) (hfs : ∀ x ∈ fs, Claims.plainField f x.1) :
    let o := plainOperands i u core f fs third
    o.frag = f ∧ o.lanes = Claims.activeLanes u f ∧ o.resid = none ∧ o.fields = fs.map (·.1) ∧
      ∀ k x l, fs[k]? = some x → o.arg (if k < 2 then k else k + 1) l = Claims.fieldValue i u core f x.1 x.2 l :=
  ⟨rfl, rfl, residency_plain (List.forall_mem_map.2 fun x hx => isQueueField_plain (hfs x hx)), rfl, fun _ _ l hk => lanesOf_arg_source hk l⟩

/-- v_d as an operand is the register of its number in each lane. -/
theorem thirdOperand_some {e : BitVec 6} (h : e.toNat < f.win.size + f.win.caller) :
    thirdOperand u f (some e) = .ok fun l => Claims.fieldValue i u core f (0#1 ++ e) .int l := by
  have number : (0#1 ++ e).toNat = e.toNat := by
    rw [BitVec.toNat_append]
    exact Nat.zero_or _
  simp only [thirdOperand, windowReg_ok e.isLt h, bind, Except.bind, Claims.fieldValue, number, if_pos e.isLt, vKey]

end Operands

/-- Plain operands, with and without v_d. -/
theorem laneOperands_plain : Claims.LaneOperands := by
  intro i u core f fs d hf _ hfs
  refine ⟨⟨_, eOperands_plain hf hfs rfl, plainOperands_spec _ hfs⟩, fun hd => ?_⟩
  obtain ⟨hfrag, hlanes, hresid, hfields, hargs⟩ := plainOperands_spec (i := i) (u := u) (core := core)
    (fun l => Claims.fieldValue i u core f (0#1 ++ d) .int l) hfs
  exact ⟨_, eOperands_plain hf hfs (thirdOperand_some hd), hfrag, hlanes, hresid, hfields, hargs, lanesOf_arg_third _ _ _⟩

/-! ### Operands from queues (R56, R58, R118, R194) -/

section QueueOperand
variable {i : Issue} {u : Team} {core : Nat} {f : Frag} {x : BitVec 7} {q : Nat}

/-- A field that pops or peeks queue `q`. -/
def namesQueue (x : BitVec 7) (q : Nat) : Prop := x.toNat = 72 + q ∨ x.toNat = 80 + q

/-- The queue that a field names. -/
theorem fieldQueue_eq (hx : namesQueue x q) (hq : q < 4 ∨ q = 6) : fieldQueue x = some q := by
  have field : isQueueField x = true := by
    rw [isQueueField, Bool.and_eq_true, decide_eq_true_eq, decide_eq_true_eq]
    rcases hx with hx | hx <;> omega
  have number : (x.toNat - 72) % 8 = q := by rcases hx with hx | hx <;> omega
  rw [fieldQueue, if_pos field, number]

/-- A field below 80 pops, one from 80 on peeks. -/
theorem isPopField_eq (hx : namesQueue x q) : isPopField x = decide (x.toNat < 80) := by
  rw [isPopField, ← Bool.decide_and]
  exact decide_eq_decide.2 (by rcases hx with hx | hx <;> omega)

/-- The only field of an instruction reads the first pending entry. -/
theorem entryIndex_single (x : BitVec 7) : entryIndex [x] 0 = 0 := ite_self _

/-- The first pending entry of a lane is its oldest. -/
theorem head?_pendingEntries (y : Queue) (l : Nat) : (pendingEntries y l).head? = laneEntry y l := List.head?_filter

/-- The only field of an instruction reads the oldest entry in which the lane is pending. -/
theorem fieldEntry_single (u : Team) (x : BitVec 7) (q l : Nat) : fieldEntry u [x] 0 q l = (laneEntry (u.queue q) l).getD {} := by
  rw [fieldEntry, entryIndex_single, ← List.head?_eq_getElem?, head?_pendingEntries]
  rfl

/-- The only field of an instruction lacks an entry where some lane is pending in none. -/
theorem lacksEntry_single (hx : fieldQueue x = some q) :
    lacksEntry u f [x] (0, x) = (Claims.activeLanes u f).any fun l => (laneEntry (u.queue q) l).isNone := by
  have lacks : ∀ l, decide ((pendingEntries (tabGetD {} u.q q) l).length ≤ entryIndex [x] 0) = (laneEntry (u.queue q) l).isNone := by
    intro l
    rw [Bool.eq_iff_iff, decide_eq_true_iff, entryIndex_single, Nat.le_zero, List.length_eq_zero_iff, ← List.head?_eq_none_iff,
      head?_pendingEntries, Option.isNone_iff_eq_none]
    rfl
  simp only [lacksEntry, hx, lacks]
  rfl

/-- The only field of an instruction waits where some lane is pending in no entry. -/
theorem awaitEntries_single (hx : fieldQueue x = some q) (hq : q < 4 ∨ q = 6) (hcap : (u.queue q).cap ≠ 0) : awaitEntries u f [x] =
    entriesWait u (if (Claims.activeLanes u f).any fun l => (laneEntry (u.queue q) l).isNone then some q else none) := by
  rw [awaitEntries_declared (by simp [hx, hq, hcap]), ← lacksEntry_single hx, enum, enum, List.find?_cons, List.find?_nil]
  cases lacksEntry u f [x] (0, x)
  · rfl
  · exact congrArg (entriesWait u) hx

/-- Where every lane of the fragment has an entry, none is waited for. -/
theorem awaitEntries_held (hx : fieldQueue x = some q) (hq : q < 4 ∨ q = 6) (hcap : (u.queue q).cap ≠ 0)
    (h : ∀ l ∈ Claims.activeLanes u f, (laneEntry (u.queue q) l).isSome) : awaitEntries u f [x] = .ok () := by
  have held : ¬ (Claims.activeLanes u f).any (fun l => (laneEntry (u.queue q) l).isNone) = true := by
    simpa [← Option.isSome_iff_ne_none] using h
  rw [awaitEntries_single hx hq hcap, if_neg held]
  rfl

/-- Where some lane has no entry, one is waited for. -/
theorem awaitEntries_lacking (hx : fieldQueue x = some q) (hq : q < 4 ∨ q = 6) (hcap : (u.queue q).cap ≠ 0) {l : Nat}
    (hl : l ∈ Claims.activeLanes u f) (h : laneEntry (u.queue q) l = none) : awaitEntries u f [x] = entriesWait u (some q) := by
  rw [awaitEntries_single hx hq hcap, if_pos (List.any_eq_true.2 ⟨l, hl, by rw [h]; rfl⟩)]

/-- The value of a queue field in a lane: a uniform one from q6, else the lane's own (R55). -/
theorem laneSource_queue (hx : namesQueue x q) (hq : q < 4 ∨ q = 6) (ty : OpType) : laneSource i u core f [x] 0 ty =
    .ok fun l => (tabGetD 0 ((laneEntry (u.queue q) l).getD {}).vals (if q = 6 then 0 else l)).setWidth 32 := by
  have number : (x.toNat - 72) % 8 = q := by rcases hx with hx | hx <;> omega
  have notRegister : ¬ x.toNat < 64 := by rcases hx with hx | hx <;> omega
  have notLatch : ¬ x.toNat < 72 := by rcases hx with hx | hx <;> omega
  have inQueues : x.toNat < 88 := by rcases hx with hx | hx <;> omega
  simp only [laneSource, List.getElem?_cons_zero, if_neg notRegister, if_neg notLatch, if_pos inQueues, number, fieldEntry_single]
  rfl

/-- The residency bits of the lanes' oldest entries (R118). -/
def queueResidency (u : Team) (f : Frag) (q : Nat) : Mask :=
  lanesMask ((Claims.activeLanes u f).filter fun l => ((laneEntry (u.queue q) l).getD {}).resid.getLsbD l)

/-- A queue field delivers the residency bits of its entries. -/
theorem residency_single (hx : fieldQueue x = some q) : residency u f [x] = some (queueResidency u f q) := by
  have field : [x].any isQueueField = true := by
    by_contra h
    simp_all [fieldQueue]
  rw [residency, if_pos field]
  simp only [enum, List.any_cons, List.any_nil, Bool.or_false, hx, fieldEntry_single]
  rfl

/-- A residency bit is that of the lane's oldest entry, in the active lanes alone. -/
theorem getLsbD_queueResidency (l : Nat) : (queueResidency u f q).getLsbD l =
    decide (l ∈ Claims.activeLanes u f ∧ ((laneEntry (u.queue q) l).getD {}).resid.getLsbD l) := by
  by_cases hl : l < 1024
  · rw [queueResidency, getLsbD_lanesMask hl]
    simp only [List.mem_filter]
  · rw [BitVec.getLsbD_of_ge _ _ (not_lt.1 hl), eq_comm, decide_eq_false_iff_not]
    exact fun h => hl (lt_of_mem_maskLanes h.1)

/-- A pop takes each active lane from its oldest entry; a peek leaves the entries. -/
theorem popFields_single (hx : namesQueue x q) (hq : q < 4 ∨ q = 6) :
    popFields u f [x] = if 80 ≤ x.toNat then u else u.setQueue q (popLanes (u.queue q) (Claims.activeLanes u f)) := by
  rw [popFields, List.foldl_cons, List.foldl_nil, isPopField_eq hx, fieldQueue_eq hx hq]
  by_cases h80 : 80 ≤ x.toNat
  · rw [decide_eq_false (not_lt.2 h80), if_pos h80]
  · rw [decide_eq_true (not_le.1 h80), if_neg h80]
    rfl

end QueueOperand

/-- A queue operand: its entries, and the wait for them. -/
theorem laneQueueOperand : Claims.LaneQueueOperand := by
  intro i u core f x q hf hq hx hcap lanes
  have hqueue := fieldQueue_eq hx hq
  refine ⟨fun e he => ?_, fun l hl hnone => ?_⟩
  · have held : awaitEntries u f [x] = .ok () := awaitEntries_held hqueue hq hcap fun l hl => by rw [he l hl]; rfl
    refine ⟨_, eOperands_ok (val := fun _ l => (tabGetD 0 ((laneEntry (u.queue q) l).getD {}).vals (if q = 6 then 0 else l)).setWidth 32)
      hf held (List.forall_mem_singleton.2 (laneSource_queue hx hq _)) rfl, rfl, fun l hl => ?_,
      ⟨_, residency_single hqueue, fun l => ?_⟩, popFields_single hx hq⟩
    · refine (lanesOf_arg_source (k := 0) rfl l).trans ?_
      rw [he l hl]
      rfl
    · rw [getLsbD_queueResidency, decide_eq_decide]
      exact and_congr_right fun hl => by rw [he l hl]; rfl
  · have lacking : awaitEntries u f [x] = entriesWait u (some q) := awaitEntries_lacking hqueue hq hcap hl hnone
    refine ⟨fun hmore => eOperands_stops hf (lacking.trans (if_neg ?_)), fun hended hidle => eOperands_stops hf (lacking.trans (if_pos ?_))⟩
    · rcases hmore with hruns | hgather
      · simp [hruns]
      · simp [hgather]
    · simp [hended, hidle]

/-- Settles O27, the plain operands and those from queues. -/
theorem laneOperands : Obligations.LaneOperands := ⟨laneOperands_plain, laneQueueOperand⟩

end Sys2Proof.Machine

/-! ## Integer arithmetic, logic, shifts and bit fields of the compute stream -/

namespace Sys2Proof.Machine

/-! ### Lane instructions that compute each lane on its own -/

/-- The instruction that computes `r` in each lane on its own (R116). -/
def laneOp (x : Instr) (r : Claims.LaneOp) : State → Host.Outcome State Fault Refusal :=
  vOp x r.n r.d r.fields r.third r.pipe fun i u o => .ok (eachLane o fun l => r.value i u fun k => o.arg k l)

/-- An instruction that computes each lane on its own completes with the lanes' values. -/
theorem computes_of_laneOp {x : Instr} {r : Claims.LaneOp} (hx : exec x = laneOp x r) : Claims.computes x r := by
  intro s i t o p h ho hp
  unfold Claims.delivers
  rw [hx, ← eachLane_eq o fun l => r.value i (atIssue i t) fun k => o.arg k l]
  exact vOp_delivers h ho hp rfl

/-! ### Typed forms (R122) -/

/-- The operand width of a typed form. -/
theorem typeWidthE_eq (w : BitVec 2) : typeWidthE w = if w = 3 then 32 else 8 * 2 ^ w.toNat := by
  rw [typeWidthE, Nat.shiftLeft_eq]

/-- An operand of a typed form is the integer of its low bits. -/
theorem typeIntE_eq (sg : BitVec 1) (w : BitVec 2) (x : Word) :
    typeIntE sg w x = if sg = 1 then (x.setWidth (typeWidthE w)).toInt else ((x.setWidth (typeWidthE w)).toNat : Int) := by
  simp only [typeIntE, BitVec.toInt_eq_toNat_bmod, BitVec.toNat_setWidth, Int.natCast_mod, Int.emod_bmod]

/-- The word of a remainder is the low bits of an integer, extended with zeros. -/
theorem ofInt_emod_two_pow (k n : Nat) (z : Int) : BitVec.ofInt k (z % (2 ^ n : Nat)) = (BitVec.ofInt n z).setWidth k := by
  have nonneg : 0 ≤ z % ((2 ^ n : Nat) : Int) := Int.emod_nonneg _ (by positivity)
  rw [← Int.toNat_of_nonneg nonneg, BitVec.ofInt_natCast, ← BitVec.toNat_ofInt, BitVec.ofNat_toNat]

/-- The word of a balanced remainder is the low bits of an integer, extended with their sign. -/
theorem ofInt_bmod_two_pow (k n : Nat) (z : Int) : BitVec.ofInt k (z.bmod (2 ^ n)) = (BitVec.ofInt n z).signExtend k := by
  rw [BitVec.signExtend, BitVec.toInt_ofInt]

/-- The result of a typed form: saturated, with SAT where it does not fit, or wrapped and extended. -/
theorem typeExtE_eq (sg : BitVec 1) (w : BitVec 2) (z : Int) : typeExtE sg w z =
    let lo : Int := if sg = 1 then -2147483648 else 0
    let hi : Int := if sg = 1 then 2147483647 else 4294967295
    if w = 3 then (BitVec.ofInt 32 (max lo (min hi z)), if lo ≤ z ∧ z ≤ hi then 0 else flagSAT)
    else (if sg = 1 then (BitVec.ofInt (typeWidthE w) z).signExtend 32 else (BitVec.ofInt (typeWidthE w) z).setWidth 32, 0) := by
  have fits : ∀ lo hi : Int, (if z < lo ∨ hi < z then flagSAT else 0) = if lo ≤ z ∧ z ≤ hi then 0 else flagSAT := fun lo hi => by
    rw [← ite_not]
    simp only [not_or, not_lt]
  by_cases hw : w = 3
  · simp only [typeExtE, if_pos hw, fits]
    rfl
  · simp only [typeExtE, if_neg hw, ← ofInt_emod_two_pow, ← ofInt_bmod_two_pow]
    split <;> rfl

/-- A typed form on the integers of its operands is the one of the statements. -/
theorem typedLane_eq (sg : BitVec 1) (w : BitVec 2) (f : Int → Int → Int → Int) (a b d : Word) :
    typeExtE sg w (f (typeIntE sg w a) (typeIntE sg w b) (typeIntE sg w d)) = Claims.typedLane sg w f a b d := by
  simp only [typeExtE_eq, typeIntE_eq, Claims.typedLane]
  rw [← typeWidthE_eq]

section Forms
variable {x : Instr} {n : BitVec 1} {d : BitVec 6} {a b : BitVec 7} {sg : BitVec 1} {w : BitVec 2} {third : Bool} {pipe : Nat}

/-- A typed instruction computes its typed form in each lane. -/
theorem typedE_eq (f : Int → Int → Int → Int) : typedE x n d a b sg w third pipe f =
    laneOp x ⟨n, d, [(a, .int), (b, .int)], third, pipe, fun _ _ v => Claims.typedLane sg w f (v 0) (v 1) (v 2)⟩ := by
  simp only [typedE, typedLane_eq]
  rfl

/-- An instruction on a and b computes its function in each lane. -/
theorem abOp_eq (f : Word → Word → Word) :
    abOp x n d a b f = laneOp x ⟨n, d, [(a, .int), (b, .int)], false, 0, fun _ _ v => (f (v 0) (v 1), 0)⟩ := rfl

/-- An instruction on a and v_d computes its function in each lane. -/
theorem aOp_eq (f : Option Hint → Word → Word → Word) :
    aOp x n d a third f = laneOp x ⟨n, d, [(a, .int)], third, 0, fun i _ v => (f i.hint (v 0) (v 2), 0)⟩ := rfl

end Forms

/-! `exec` at the typed instructions and at ADD with an immediate. -/

section TypedArms
variable (n : BitVec 1) (d : BitVec 6) (a b : BitVec 7) (sg : BitVec 1) (w : BitVec 2)

theorem exec_addE : exec (.addE n d a b sg w) = typedE (.addE n d a b sg w) n d a b sg w false 0 fun x y _ => x + y := rfl
theorem exec_subE : exec (.subE n d a b sg w) = typedE (.subE n d a b sg w) n d a b sg w false 0 fun x y _ => x - y := rfl
theorem exec_mulE : exec (.mulE n d a b sg w) = typedE (.mulE n d a b sg w) n d a b sg w false 2 fun x y _ => x * y := rfl
theorem exec_mulhE : exec (.mulhE n d a b sg w) =
    typedE (.mulhE n d a b sg w) n d a b sg w false 2 fun x y _ => x * y / (2 ^ typeWidthE w : Nat) := rfl
theorem exec_mad : exec (.mad n d a b sg w) = typedE (.mad n d a b sg w) n d a b sg w true 2 fun x y z => x * y + z := rfl
theorem exec_minE : exec (.minE n d a b sg w) = typedE (.minE n d a b sg w) n d a b sg w false 0 fun x y _ => min x y := rfl
theorem exec_maxE : exec (.maxE n d a b sg w) = typedE (.maxE n d a b sg w) n d a b sg w false 0 fun x y _ => max x y := rfl
theorem exec_addImmE (m : BitVec 11) : exec (.addImmE n d a m) =
    aOp (.addImmE n d a m) n d a false fun h u _ => u + (signedImm h m).extractLsb' 0 32 := rfl

end TypedArms

/-- `exec` at a typed instruction computes its typed form, and at ADD with an immediate the sum. -/
theorem exec_integerLane {x : Instr} {r : Claims.LaneOp} (hr : Claims.integerLane x = some r) : exec x = laneOp x r := by
  unfold Claims.integerLane at hr
  split at hr <;> cases hr
  case h_1 => rw [exec_addE, typedE_eq]
  case h_2 => rw [exec_subE, typedE_eq]
  case h_3 => rw [exec_mulE, typedE_eq]
  case h_4 w =>
    rw [exec_mulhE, typedE_eq, typeWidthE_eq]
    simp only [Nat.cast_pow, Nat.cast_ofNat]
  case h_5 => rw [exec_mad, typedE_eq]
  case h_6 => rw [exec_minE, typedE_eq]
  case h_7 => rw [exec_maxE, typedE_eq]
  case h_8 => rw [exec_addImmE, aOp_eq]; rfl

/-- The typed instructions of the E-stream, and ADD with an immediate. -/
theorem laneIntegers_complete : Claims.LaneIntegers := fun _ _ hr => computes_of_laneOp (exec_integerLane hr)

/-! ### Shifts (R124) -/

/-- A word extended with zeros keeps its bits. -/
theorem getLsbD_setWidth_word (x : Word) (k : Nat) : (x.setWidth 64).getLsbD k = x.getLsbD k := by
  rw [BitVec.getLsbD_setWidth, Bool.and_eq_right_iff_imp, decide_eq_true_eq]
  exact fun h => (BitVec.lt_of_getLsbD h).trans (by decide)

/-- A word extended with zeros keeps its number. -/
theorem toNat_setWidth_word (x : Word) : (x.setWidth 64).toNat = x.toNat := BitVec.toNat_setWidth_of_le (by decide)

/-- A shift of a lane's value is that of the statements, where the shift of words is. -/
theorem shiftE_eq {op : ShiftOp} {signed : Bool} {g : (w : Nat) → BitVec w → Nat → BitVec w} {w : BitVec 2}
    (h : ∀ u k, shifted op w u k = Claims.shift w signed g u k) (u : Word) (k : Nat) : shiftE op w u k = Claims.shiftLane w signed g u k := by
  rw [Claims.shiftLane, ← h, shifted, toNat_setWidth_word, BitVec.setWidth_eq_extractLsb' (by decide)]
  rfl

/-! ### Bit fields (R125) -/

/-- A field of a lane's value, extended. -/
theorem extractE_eq (signed : Bool) (o w : Nat) (x : Word) : extractE signed o w x =
    if signed then ((x >>> o).setWidth w).signExtend 32 else ((x >>> o).setWidth w).setWidth 32 := by
  have field : ((x.setWidth 64) >>> o).setWidth w = (x >>> o).setWidth w := by
    ext k hk
    simp only [BitVec.getElem_setWidth, BitVec.getLsbD_ushiftRight, getLsbD_setWidth_word]
  rw [extractE, extractField_eq, BitVec.zeroExtend_eq_setWidth, field, ← BitVec.setWidth_eq_extractLsb' (by decide)]
  cases signed
  · simp
  · ext k hk
    have wide : k < 64 := by omega
    simp [BitVec.getElem_signExtend, wide]

/-- The bits of a field's mask. -/
theorem getLsbD_fieldMask {n o w k : Nat} (hk : k < n) : (Claims.fieldMask n o w).getLsbD k = decide (o ≤ k ∧ k < o + w) := by
  rw [Claims.fieldMask, BitVec.getLsbD_shiftLeft, BitVec.getLsbD_ushiftRight, BitVec.getLsbD_allOnes, decide_eq_true hk, Bool.true_and,
    ← decide_not, ← Bool.decide_and, decide_eq_decide]
  omega

/-- A lane's value with a field replaced. -/
theorem insertE_eq {o w : Nat} (h : w ≤ 64) (old x : Word) : (insertField o w (old.zeroExtend 64) (x.zeroExtend 64)).extractLsb' 0 32 =
    (old &&& ~~~Claims.fieldMask 32 o w) ||| ((x <<< o) &&& Claims.fieldMask 32 o w) := by
  have mask : ∀ k < 32, (Claims.fieldMask 64 o w).getLsbD k = (Claims.fieldMask 32 o w).getLsbD k := fun k hk => by
    rw [getLsbD_fieldMask hk, getLsbD_fieldMask (by omega)]
  rw [insertField, fieldMask_eq h]
  apply BitVec.eq_of_getLsbD_eq
  intro k hk
  have wide : k < 64 := by omega
  simp only [BitVec.getLsbD_extractLsb', BitVec.getLsbD_or, BitVec.getLsbD_and, BitVec.getLsbD_not, BitVec.getLsbD_shiftLeft,
    BitVec.zeroExtend_eq_setWidth, BitVec.getLsbD_setWidth, Nat.zero_add, hk, wide, mask k hk, decide_true, Bool.true_and]
  have inWord : decide (k - o < 64) = true := decide_eq_true (by omega)
  rw [inWord, Bool.true_and]

/-! ### Counting bits (R124) -/

/-- CLZ of a lane's value counts the places above the highest bit that is set. -/
theorem leadingZerosE_eq (w : BitVec 2) (x : Word) : leadingZeros (8 <<< w.toNat) (x.toNat % 2 ^ (8 <<< w.toNat)) =
    (List.range (8 * 2 ^ w.toNat)).findIdx fun k => x.getLsbD (8 * 2 ^ w.toNat - 1 - k) := by
  rw [shift_width, ← toNat_setWidth_word, leadingZeros_eq]
  simp only [getLsbD_setWidth_word]

/-- POPC of a lane's value counts the bits that are set. -/
theorem oneBitsE_eq (w : BitVec 2) (x : Word) : oneBits (8 <<< w.toNat) (x.toNat % 2 ^ (8 <<< w.toNat)) =
    (List.range (8 * 2 ^ w.toNat)).countP fun k => x.getLsbD k := by
  rw [shift_width, ← toNat_setWidth_word, oneBits_eq]
  simp only [getLsbD_setWidth_word]

/-! `exec` at the logical instructions, the shifts, the bit fields and the bit counts. -/

section BitsArms
variable (n : BitVec 1) (d : BitVec 6) (a b m : BitVec 7) (w : BitVec 2)

theorem exec_andE : exec (.andE n d a b) = abOp (.andE n d a b) n d a b fun u v => u &&& v := rfl
theorem exec_orE : exec (.orE n d a b) = abOp (.orE n d a b) n d a b fun u v => u ||| v := rfl
theorem exec_xorE : exec (.xorE n d a b) = abOp (.xorE n d a b) n d a b fun u v => u ^^^ v := rfl
theorem exec_andnE : exec (.andnE n d a b) = abOp (.andnE n d a b) n d a b fun u v => u &&& ~~~v := rfl
theorem exec_shlE : exec (.shlE n d a b w) = abOp (.shlE n d a b w) n d a b fun u v => shiftE .shl w u v.toNat := rfl
theorem exec_shrE : exec (.shrE n d a b w) = abOp (.shrE n d a b w) n d a b fun u v => shiftE .shr w u v.toNat := rfl
theorem exec_sarE : exec (.sarE n d a b w) = abOp (.sarE n d a b w) n d a b fun u v => shiftE .sar w u v.toNat := rfl
theorem exec_rotE : exec (.rotE n d a b w) = abOp (.rotE n d a b w) n d a b fun u v => shiftE .rot w u v.toNat := rfl
theorem exec_shlImmE : exec (.shlImmE n d a w m) = aOp (.shlImmE n d a w m) n d a false fun _ u _ => shiftE .shl w u m.toNat := rfl
theorem exec_shrImmE : exec (.shrImmE n d a w m) = aOp (.shrImmE n d a w m) n d a false fun _ u _ => shiftE .shr w u m.toNat := rfl
theorem exec_sarImmE : exec (.sarImmE n d a w m) = aOp (.sarImmE n d a w m) n d a false fun _ u _ => shiftE .sar w u m.toNat := rfl
theorem exec_rotImmE : exec (.rotImmE n d a w m) = aOp (.rotImmE n d a w m) n d a false fun _ u _ => shiftE .rot w u m.toNat := rfl
theorem exec_bfxSE (k : BitVec 4) (o : BitVec 6) : exec (.bfxSE n d a k o) = execBfxSE n d a k o := rfl
theorem exec_bfxZE (k : BitVec 4) (o : BitVec 6) : exec (.bfxZE n d a k o) = execBfxZE n d a k o := rfl
theorem exec_bfiE (k : BitVec 5) (o : BitVec 6) : exec (.bfiE n d a k o) = execBfiE n d a k o := rfl
theorem exec_clzE : exec (.clzE n d a w) = execClzE n d a w := rfl
theorem exec_popcE : exec (.popcE n d a w) = execPopcE n d a w := rfl

end BitsArms

/-- `exec` at a logical instruction, a shift, a bit field or a bit count computes its value. -/
theorem exec_bitsLane {x : Instr} {r : Claims.LaneOp} (hr : Claims.bitsLane x = some r) : exec x = laneOp x r := by
  unfold Claims.bitsLane at hr
  split at hr <;> cases hr
  case h_1 => rw [exec_andE, abOp_eq]
  case h_2 => rw [exec_orE, abOp_eq]
  case h_3 => rw [exec_xorE, abOp_eq]
  case h_4 => rw [exec_andnE, abOp_eq]
  case h_5 w => simp only [exec_shlE, abOp_eq, shiftE_eq (shifted_shl w)]
  case h_6 w => simp only [exec_shrE, abOp_eq, shiftE_eq (shifted_shr w)]
  case h_7 w => simp only [exec_sarE, abOp_eq, shiftE_eq (shifted_sar w)]
  case h_8 w => simp only [exec_rotE, abOp_eq, shiftE_eq (shifted_rot w)]
  case h_9 w m => simp only [exec_shlImmE, aOp_eq, shiftE_eq (shifted_shl w)]
  case h_10 w m => simp only [exec_shrImmE, aOp_eq, shiftE_eq (shifted_shr w)]
  case h_11 w m => simp only [exec_sarImmE, aOp_eq, shiftE_eq (shifted_sar w)]
  case h_12 w m => simp only [exec_rotImmE, aOp_eq, shiftE_eq (shifted_rot w)]
  case h_13 => simp only [exec_bfxSE, execBfxSE, aOp_eq, extractE_eq, if_true]
  case h_14 => simp only [exec_bfxZE, execBfxZE, aOp_eq, extractE_eq, Bool.false_eq_true, if_false]
  case h_15 => simp only [exec_bfiE, execBfiE, aOp_eq, insertE_eq (bfi_width_le _)]
  case h_16 => simp only [exec_clzE, execClzE, aOp_eq, leadingZerosE_eq]
  case h_17 => simp only [exec_popcE, execPopcE, aOp_eq, oneBitsE_eq]

/-- The logical instructions, the shifts, the bit fields and the bit counts. -/
theorem laneBits_complete : Claims.LaneBits := fun _ _ hr => computes_of_laneOp (exec_bitsLane hr)

/-! ### Funnel shifts (R126) -/

theorem exec_fshlE (n : BitVec 1) (d : BitVec 6) (a b : BitVec 7) (sg : BitVec 1) : exec (.fshlE n d a b sg) = execFshlE n d a b sg := rfl
theorem exec_fshrE (n : BitVec 1) (d : BitVec 6) (a b : BitVec 7) (sg : BitVec 1) : exec (.fshrE n d a b sg) = execFshrE n d a b sg := rfl

/-- Only what the lanes compute matters. -/
theorem eachLane_congr {o : ELanes} {f g : Nat → Word × FpFlags} (h : ∀ l ∈ o.lanes, f l = g l) : eachLane o f = eachLane o g := by
  have results : (o.lanes.map fun l => (l, f l)) = o.lanes.map fun l => (l, g l) := List.map_congr_left fun l hl => by rw [h l hl]
  rw [eachLane, results]
  rfl

/-- The low bits of a number, extended. -/
theorem extractE_low {w : Nat} (sg : BitVec 1) (hw : w ≤ 32) (n : Nat) : extractE (sg == 1) 0 w (BitVec.ofNat 32 (n % 2 ^ w)) =
    if sg = 1 then ((BitVec.ofNat 32 n).setWidth w).signExtend 32 else ((BitVec.ofNat 32 n).setWidth w).setWidth 32 := by
  have low : (BitVec.ofNat 32 (n % 2 ^ w)).setWidth w = (BitVec.ofNat 32 n).setWidth w := by
    apply BitVec.eq_of_toNat_eq
    simp only [BitVec.toNat_setWidth, BitVec.toNat_ofNat, Nat.mod_mod_of_dvd _ (Nat.pow_dvd_pow 2 hw), Nat.mod_mod]
  rw [extractE_eq, BitVec.ushiftRight_zero, low]
  exact if_congr beq_iff_eq rfl rfl

/-- The upper half of a pair of lane values shifted left. -/
theorem funnelE_left (old u : Word) (o : Nat) :
    BitVec.ofNat 32 ((old.toNat * 2 ^ 32 + u.toNat) * 2 ^ o / 2 ^ 32 % 2 ^ 32) = ((old ++ u) <<< o).extractLsb' 32 32 := by
  apply BitVec.eq_of_toNat_eq
  rw [BitVec.extractLsb'_toNat, BitVec.toNat_shiftLeft, BitVec.toNat_append, ← Nat.shiftLeft_add_eq_or_of_lt u.isLt, BitVec.toNat_ofNat,
    Nat.shiftLeft_eq, Nat.shiftLeft_eq, Nat.shiftRight_eq_div_pow]
  generalize (old.toNat * 2 ^ 32 + u.toNat) * 2 ^ o = n
  omega

/-- The lower half of a pair of lane values shifted right. -/
theorem funnelE_right (old u : Word) (o : Nat) :
    BitVec.ofNat 32 ((u.toNat * 2 ^ 32 + old.toNat) / 2 ^ o) = ((u ++ old) >>> o).setWidth 32 := by
  apply BitVec.eq_of_toNat_eq
  rw [BitVec.toNat_setWidth, BitVec.toNat_ushiftRight, BitVec.toNat_append, ← Nat.shiftLeft_add_eq_or_of_lt old.isLt, BitVec.toNat_ofNat,
    Nat.shiftLeft_eq, Nat.shiftRight_eq_div_pow]

/-- The offset of a funnel shift of the E-stream. -/
theorem funnelE_offset (v : Word) : v.toNat % 64 = (v.extractLsb' 0 6).toNat := by
  rw [BitVec.extractLsb'_toNat, Nat.shiftRight_zero]

/-- The width of a funnel shift of the E-stream. -/
theorem funnelE_width (v : Word) : v.toNat / 256 % 64 = (v.extractLsb' 8 6).toNat := by
  rw [BitVec.extractLsb'_toNat, Nat.shiftRight_eq_div_pow]

section FunnelLanes
variable {x : Instr} {s : State} {i : Issue} {t : Team} {n : BitVec 1} {d : BitVec 6} {a b : BitVec 7} {sg : BitVec 1} {o : ELanes} {p : Nat}
  {y : Nat → Nat → Nat → Nat}

/-- The widths that a funnel shift of the E-stream takes. -/
def goodWidth (v : Word) : Bool := decide (1 ≤ (v.extractLsb' 8 6).toNat ∧ (v.extractLsb' 8 6).toNat ≤ 32)

/-- The width that raises 0x041 is one that is not good. -/
theorem badWidth_eq (v : Word) : (decide (v.toNat / 256 % 64 = 0) || decide (32 < v.toNat / 256 % 64)) = !goodWidth v := by
  rw [goodWidth, funnelE_width, ← Bool.decide_or, ← decide_not, decide_eq_decide]
  omega

/-- A funnel shift of good widths gives the low bits of the shifted pair `z` in each lane. -/
theorem funnelE_delivers (hx : exec x = funnelE x n d a b sg y) (h : Issuing x s i t)
    (ho : eOperands i (atIssue i t) (coreWord s i.core) [(a, .int), (b, .int)] (some d) = .ok o) (hp : destV (atIssue i t) o n d = .ok p)
    (hgood : ∀ l ∈ o.lanes, goodWidth (o.arg 1 l) = true) {z : Nat → Word}
    (hz : ∀ l, BitVec.ofNat 32 (y (o.arg 2 l).toNat (o.arg 0 l).toNat ((o.arg 1 l).extractLsb' 0 6).toNat) = z l) :
    Claims.delivers x s i (atIssue i t) o n p 0 fun l =>
      let w := ((o.arg 1 l).extractLsb' 8 6).toNat
      (if sg = 1 then ((z l).setWidth w).signExtend 32 else ((z l).setWidth w).setWidth 32, 0) := by
  have noCause : laneCause o 0x041 (fun l => decide ((o.arg 1 l).toNat / 256 % 64 = 0) || decide (32 < (o.arg 1 l).toNat / 256 % 64)) = .ok () :=
    laneCause_ok _ fun l hl => by rw [badWidth_eq, hgood l hl]; rfl
  unfold Claims.delivers
  rw [hx, ← eachLane_eq o]
  refine vOp_delivers (third := true) h ho hp ?_
  simp only [noCause, bind, Except.bind]
  simp only [funnelE_offset, funnelE_width]
  refine congrArg Except.ok (eachLane_congr fun l hl => ?_)
  obtain ⟨_, h32⟩ := of_decide_eq_true (hgood l hl)
  simp only [extractE_low sg h32, hz]

/-- A funnel shift raises 0x041 at the lowest lane of another width. -/
theorem funnelE_raises (hx : exec x = funnelE x n d a b sg y) (h : Issuing x s i t)
    (ho : eOperands i (atIssue i t) (coreWord s i.core) [(a, .int), (b, .int)] (some d) = .ok o) (hp : destV (atIssue i t) o n d = .ok p)
    {l : Nat} (hl : o.lanes.find? (fun l => !goodWidth (o.arg 1 l)) = some l) :
    exec x s = .next (settle s i t {} (raiseWith 0x041 { lane := some l, value := o.arg 1 l ++ o.arg 0 l })) := by
  rw [hx]
  refine vOp_raises (third := true) h ho hp ?_
  simp only [badWidth_eq, laneCause_raises _ hl, bind, Except.bind, raiseWith]

end FunnelLanes

/-- FSHL and FSHR of the E-stream. -/
theorem laneFunnelShift : Claims.LaneFunnelShift := by
  intro s i t left n d a b sg o p x u width by_ pair good h ho hp
  have hgood : o.lanes.all good = true → ∀ l ∈ o.lanes, goodWidth (o.arg 1 l) = true := List.all_eq_true.1
  cases left
  · have hx : exec x = _ := exec_fshrE n d a b sg
    exact ⟨fun hall => funnelE_delivers hx h ho hp (hgood hall) fun l => funnelE_right .., fun l hl => funnelE_raises hx h ho hp hl⟩
  · have hx : exec x = _ := exec_fshlE n d a b sg
    exact ⟨fun hall => funnelE_delivers hx h ho hp (hgood hall) fun l => funnelE_left .., fun l hl => funnelE_raises hx h ho hp hl⟩

/-- Settles O29: the typed forms, the bits, and the funnel shifts. -/
theorem laneIntegers : Obligations.LaneIntegers := ⟨laneIntegers_complete, laneBits_complete, laneFunnelShift⟩

end Sys2Proof.Machine

/-! ## Compares, selects, immediates and pushes of the compute stream -/

namespace Sys2Proof.Machine

/-! ### LI forms 0 and 1, and SEL (R128, R129) -/

theorem exec_liE (n : BitVec 1) (d : BitVec 6) (m : BitVec 11) : exec (.liE n d m) = execLiE n d m := rfl
theorem exec_liFromK (n : BitVec 1) (d : BitVec 6) (k : BitVec 4) : exec (.liFromK n d k) = execLiFromK n d k := rfl
theorem exec_liHiFromK (n : BitVec 1) (d : BitVec 6) (k : BitVec 4) : exec (.liHiFromK n d k) = execLiHiFromK n d k := rfl
theorem exec_selE (n : BitVec 1) (d : BitVec 6) (a b : BitVec 7) (f : BitVec 3) : exec (.selE n d a b f) = execSelE n d a b f := rfl

/-- `exec` at LI form 0 or 1 computes the immediate, or the half of the k register, in each lane. -/
theorem exec_selectLane {x : Instr} {r : Claims.LaneOp} (hr : Claims.selectLane x = some r) : exec x = laneOp x r := by
  unfold Claims.selectLane at hr
  split at hr <;> cases hr
  case h_1 => rw [exec_liE]; rfl
  case h_2 => rw [exec_liFromK]; rfl
  case h_3 => rw [exec_liHiFromK]; rfl

/-- The bit of a flag register at a lane. -/
theorem bit_readF (u : Team) (g : BitVec 3) (l : Nat) : bit (readF u g.toNat) l = Claims.flag u g l := by
  have hzero : g.toNat = 0 ↔ g = 0 := BitVec.toNat_inj (y := 0#3)
  unfold readF Claims.flag
  simp only [hzero]
  split
  · exact BitVec.getLsbD_allOnes
  · rfl

/-- The issue of an instruction leaves the flag registers. -/
theorem flag_atIssue (i : Issue) (t : Team) (g : BitVec 3) (l : Nat) : Claims.flag (atIssue i t) g l = Claims.flag t g l := by
  simp only [Claims.flag, atIssue, Team.advance_f]

/-- LI forms 0 and 1, and SEL. -/
theorem laneSelectLoad : Claims.LaneSelectLoad := by
  refine ⟨fun _ _ hr => computes_of_laneOp (exec_selectLane hr), fun s i t n d a b f o p h ho hp => ?_⟩
  unfold Claims.delivers
  rw [exec_selE, ← eachLane_eq o]
  refine vOp_delivers (third := true) h ho hp ?_
  simp only [bit_readF, flag_atIssue]
  rfl

/-! ### CMP and FCMP (R127, R133) -/

theorem exec_cmpE (d : BitVec 3) (a b : BitVec 7) (c : BitVec 4) : exec (.cmpE d a b c) = execCmpE d a b c := rfl
theorem exec_fcmp (d : BitVec 3) (a b : BitVec 7) (c : BitVec 3) : exec (.fcmp d a b c) = execFcmp d a b c := rfl

/-- Lanes that set no flag leave FSTAT. -/
theorem joined_zero (o : ELanes) : (Claims.joined o fun _ => 0) = 0 := by
  rw [Claims.joined]
  induction o.lanes with
  | nil => rfl
  | cons l ls ih => exact ih

/-- A flag register with the flags `c` of the active lanes. -/
def flagged (u : Team) (o : ELanes) (d : BitVec 3) (c : Nat → Bool) : Team := writeF u d.toNat o.frag.mask (lanesMask (o.lanes.filter c))

/-- An instruction whose result is a flag of each lane completes with the flags of the active lanes. -/
theorem fOp_next {x : Instr} {d : BitVec 3} {fs : ESources} {f : ELanes → Nat → Bool × FpFlags} {s : State} {i : Issue} {t : Team} {o : ELanes}
    (h : Issuing x s i t) (ho : eOperands i (atIssue i t) (coreWord s i.core) fs none = .ok o) :
    fOp x d fs f s = .next (doneWith s i (flagged (eFinish (atIssue i t) o (d = 7) (Claims.joined o fun l => (f o l).2)) o d fun l => (f o l).1)) := by
  have own : (d == 7) = decide (d = 7) := beq_eq_decide d 7
  have bits : ((o.lanes.map fun l => (l, f o l)).filter fun r => r.2.1).map (·.1) = o.lanes.filter fun l => (f o l).1 := by
    rw [List.filter_map, List.map_map]
    exact List.map_id _
  refine issue_team plain h ?_
  simp only [coreWord_setTeam, ho, bits, own, List.foldl_map, State.setTeam_setTeam, bind, Except.bind]
  rfl

/-- What the statements say of the team that a flag result leaves. -/
theorem flagged_flagsWritten (u : Team) (o : ELanes) (d : BitVec 3) (c : Nat → Bool) : Claims.flagsWritten u (flagged u o d c) o d c := by
  have hzero : d.toNat = 0 ↔ d = 0 := BitVec.toNat_inj (y := 0#3)
  refine ⟨fun hd => if_pos (hzero.2 hd), fun hd => ?_⟩
  have written : flagged u o d c =
      { u with f := tabSetD 0 u.f d.toNat ((tabGetD 0 u.f d.toNat &&& ~~~o.frag.mask) ||| (lanesMask (o.lanes.filter c) &&& o.frag.mask)) } :=
    if_neg (mt hzero.1 hd)
  rw [written]
  refine ⟨fun l hl => ?_, fun k hk => tabGetD_tabSetD_other 0 u.f _ hk, rfl⟩
  simp only [tabGetD_tabSetD_same, BitVec.getLsbD_or, BitVec.getLsbD_and, BitVec.getLsbD_not, getLsbD_lanesMask hl, List.mem_filter,
    decide_eq_true hl, Bool.true_and]
  cases o.frag.mask.getLsbD l <;> simp

/-- CMP and FCMP. -/
theorem laneCompares_complete : Claims.LaneCompares := by
  intro s i t d a b o u
  refine ⟨fun c _ h ho => ⟨_, ?_, flagged_flagsWritten _ o d _⟩, fun c h ho => ⟨_, ?_, flagged_flagsWritten _ o d _⟩⟩
  · rw [exec_cmpE, execCmpE, fOp_next h ho, joined_zero]
    simp only [compareHolds_eq]
    rfl
  · rw [exec_fcmp]
    exact fOp_next h ho

/-- Settles O30: LI and SEL, then CMP and FCMP. -/
theorem laneCompares : Obligations.LaneCompares := ⟨laneSelectLoad, laneCompares_complete⟩

/-! ### LI to a k register (R129) -/

theorem exec_liKImm (k : BitVec 4) (m : BitVec 11) (s : State) : exec (.liKImm k m) s = execLiKImm k m s := rfl
theorem exec_liKQ6 (k : BitVec 4) (p : BitVec 1) (s : State) : exec (.liKQ6 k p) s = execLiKQ6 k p s := rfl
theorem exec_qpushE (d : BitVec 6) (a : BitVec 7) (f : BitVec 3) (s : State) : exec (.qpushE d a f) s = execQpushE d a f s := rfl

/-- The field of q6 that LI k, q6 pops or, with PK, peeks. -/
def q6Field (pk : BitVec 1) : BitVec 7 := if pk = 1 then 86 else 78

/-- It names q6. -/
theorem q6Field_names (pk : BitVec 1) : namesQueue (q6Field pk) 6 := by
  unfold namesQueue
  revert pk
  decide

/-- It peeks with PK alone. -/
theorem q6Field_peeks (pk : BitVec 1) : 80 ≤ (q6Field pk).toNat ↔ ¬ pk = 0 := by revert pk; decide

/-- The lowest lane of a mask is one of its lanes. -/
theorem lowLane_mem {m : Mask} {l n : Nat} (h : lowLane m = some l) (hn : l < n) : l ∈ maskLanes n m :=
  mem_maskLanes.2 ⟨hn, List.find?_some h⟩

/-- LI k, q6: the k register takes the whole entry of the lowest lane, and f7 the residency bits. -/
theorem liKQ6_next {k : BitVec 4} {pk : BitVec 1} {s : State} {i : Issue} {t : Team} {f : Frag} {l : Nat} {e : QEntry}
    (h : Issuing (.liKQ6 k pk) s i t) (hf : tabGet (atIssue i t).frags i.frag = some f) (hcap : ((atIssue i t).queue 6).cap ≠ 0)
    (hl : lowLane f.mask = some l) (he : laneEntry ((atIssue i t).queue 6) l = some e)
    (hheld : ∀ k ∈ Claims.activeLanes (atIssue i t) f, (laneEntry ((atIssue i t).queue 6) k).isSome) :
    exec (.liKQ6 k pk) s = .next (doneWith s i (writeK (writeF (popFields (atIssue i t) f [q6Field pk]) 7 f.mask (queueResidency (atIssue i t) f 6))
      k.toNat (tabGetD 0 e.vals 0))) := by
  have hq : 6 < 4 ∨ 6 = 6 := .inr rfl
  have names := fieldQueue_eq (q6Field_names pk) hq
  have held : awaitEntries (atIssue i t) f [q6Field pk] = .ok () := awaitEntries_held names hq hcap hheld
  have entry : fieldEntry (atIssue i t) [q6Field pk] 0 6 ((lowLane f.mask).getD 0) = e := by rw [hl, fieldEntry_single, Option.getD_some, he]; rfl
  have resid := residency_single (u := atIssue i t) (f := f) names
  rw [exec_liKQ6]
  refine issue_team plain h ?_
  rw [hf]
  unfold q6Field at held entry resid
  simp only [held, entry, resid, Option.getD_some, State.setTeam_setTeam, bind, Except.bind]
  rfl

/-! ### QPUSH of the E-stream (R57, R130) -/

/-- The masks of a table's fragments, joined to `a`. -/
def maskUnion (t : Tab Frag) (a : Mask) : Mask := t.foldl (fun m p => m ||| p.2.mask) a

/-- A mask that the table holds adds nothing to the union. -/
theorem maskUnion_absorbs {f : Frag} {n : Nat} {t : Tab Frag} (h : (n, f) ∈ t) (a : Mask) : maskUnion t (a ||| f.mask) = maskUnion t a := by
  induction t generalizing a with
  | nil => cases h
  | cons p t ih =>
    simp only [maskUnion, List.foldl_cons] at ih ⊢
    rcases List.mem_cons.1 h with rfl | h
    · rw [BitVec.or_assoc, BitVec.or_self]
    · rw [BitVec.or_assoc, BitVec.or_comm f.mask, ← BitVec.or_assoc]
      exact ih h _

/-- The union does not change where a fragment is replaced by one with its mask. -/
theorem maskUnion_tabSet {n : Nat} {f g : Frag} (hmask : g.mask = f.mask) {t : Tab Frag} (h : tabGet t n = some f) (a : Mask) :
    maskUnion (tabSet t n g) a = maskUnion t a := by
  induction t generalizing a with
  | nil => cases h
  | cons p t ih =>
    obtain ⟨k, e⟩ := p
    by_cases hk : k = n
    · rw [tabGet, if_pos hk, Option.some.injEq] at h
      simp only [tabSet, if_pos hk, maskUnion, List.foldl_cons, hmask, h]
    · by_cases hn : n < k
      · rw [tabSet, if_neg hk, if_pos hn, maskUnion, List.foldl_cons, hmask]
        exact maskUnion_absorbs (mem_of_tabGet h) a
      · rw [tabGet, if_neg hk] at h
        rw [tabSet, if_neg hk, if_neg hn, maskUnion, List.foldl_cons, maskUnion, List.foldl_cons]
        exact ih h _

/-- A change of a fragment that keeps its mask leaves the lanes that live. -/
theorem live_modFrag (t : Team) (n : Nat) {g : Frag → Frag} (hg : ∀ f, (g f).mask = f.mask) : (t.modFrag n g).live = t.live := by
  have same : maskUnion (tabMod t.frags n g) 0 = maskUnion t.frags 0 := by
    unfold tabMod
    cases hf : tabGet t.frags n with
    | none => rfl
    | some f => exact maskUnion_tabSet (hg f) hf 0
  exact congrArg (fun m => t.parked.foldl (fun m p => m ||| p.frag.mask) m) same

/-- The issue of an instruction leaves the lanes that live. -/
theorem live_atIssue (i : Issue) (t : Team) : (atIssue i t).live = t.live := by
  unfold atIssue
  cases i.stream with
  | a => rfl
  | e n => exact live_modFrag t n fun _ => rfl

/-- The issue of an instruction leaves the queues. -/
theorem queue_atIssue (i : Issue) (t : Team) (q : Nat) : (atIssue i t).queue q = t.queue q := by
  simp only [Team.queue, atIssue, Team.advance_q]

/-- The end of a lane instruction changes queues, flag registers and FSTAT alone. -/
theorem eFinish_eq (u : Team) (o : ELanes) (own : Bool) (fl : FpFlags) : ∃ q f,
    eFinish u o own fl = { u with q := q, f := f, fstat := u.fstat ||| fl } := by
  obtain ⟨q, hq⟩ := popFields_eq o.frag o.fields u
  unfold eFinish
  rw [hq]
  cases o.resid with
  | none => exact ⟨q, u.f, rfl⟩
  | some m =>
    cases own
    · exact ⟨q, _, rfl⟩
    · exact ⟨q, u.f, rfl⟩

/-- It leaves the lanes that live. -/
theorem live_eFinish (u : Team) (o : ELanes) (own : Bool) (fl : FpFlags) : (eFinish u o own fl).live = u.live := by
  obtain ⟨q, f, h⟩ := eFinish_eq u o own fl
  rw [h]
  rfl

/-- The issue of an instruction leaves the queues and what the gather engine holds, so what a queue takes. -/
theorem takes_atIssue {i : Issue} {t : Team} {q : Nat} (h : Claims.takes t q) : Claims.takes (atIssue i t) q := by
  obtain ⟨hcap, hroom⟩ := h
  have room : hasRoom (atIssue i t) q = hasRoom t q := by
    have hgather : (atIssue i t).gather = t.gather := t.advance_gather _
    have hinfo : (atIssue i t).info = t.info := t.advance_info _
    rw [hasRoom, hasRoom, entryBytes, entryBytes, queue_atIssue, hgather, hinfo]
  exact ⟨(queue_atIssue i t q).symm ▸ hcap, room.trans hroom⟩

/-- The queue after QPUSH of the E-stream: each active lane's value goes into the entry that it has yet to write, or opens one. -/
def pushedQueue (u : Team) (o : ELanes) (g : BitVec 3) (x : Queue) : Queue :=
  { x with entries := o.lanes.foldl (fun es l => pushLane u.live ((o.arg 0 l).setWidth 64) (!Claims.flag u g l) l es) x.entries }

/-- QPUSH of the E-stream into a queue of the right direction with room. -/
theorem qpushE_next {d : BitVec 6} {a : BitVec 7} {g : BitVec 3} {s : State} {i : Issue} {t : Team} {o : ELanes}
    (h : Issuing (.qpushE d a g) s i t) (hd : d = 4 ∨ d = 5 ∨ d = 7)
    (ho : eOperands i (atIssue i t) (coreWord s i.core) [(a, .int)] none = .ok o) (htakes : Claims.takes (atIssue i t) d.toNat) :
    exec (.qpushE d a g) s = .next (doneWith s i ((eFinish (atIssue i t) o false 0).setQueue d.toNat
      (pushedQueue (atIssue i t) o g ((eFinish (atIssue i t) o false 0).queue d.toNat)))) := by
  obtain ⟨hcap, hroom⟩ := htakes
  have direction : (d.toNat == 4 || d.toNat == 5 || d.toNat == 7) = true := by rcases hd with rfl | rfl | rfl <;> rfl
  have named : queueCause (atIssue i t) d.toNat (d.toNat == 4 || d.toNat == 5 || d.toNat == 7) = .ok () := queueCause_ok direction hcap
  rw [exec_qpushE]
  refine issue_team plain h ?_
  simp only [coreWord_setTeam, ho, named, hroom, Bool.not_true, Bool.and_false, Bool.false_eq_true, if_false, bit_readF, live_eFinish,
    State.setTeam_setTeam, bind, Except.bind]
  rfl

/-- Settles O31: the immediate, the entry of q6, and the push. -/
theorem uniformAndPush : Obligations.UniformAndPush := by
  intro s i t f hf u
  have hk : u.k = t.k := t.advance_k _
  have hqueue : ∀ q, u.queue q = t.queue q := queue_atIssue i t
  refine ⟨fun k m h => ?_, fun k pk l e h hcap hl he hheld hlane => ?_, fun d a g o h hd ho htakes => ?_⟩
  · rw [exec_liKImm, ← hk]
    exact issue_onTeam plain h rfl
  · simp only [← hqueue, ← hk] at hcap he hheld ⊢
    refine ⟨queueResidency u f 6, fun k hmem x hx => ?_, ?_⟩
    · rw [getLsbD_queueResidency, hx]
      simp [hmem]
    · rw [liKQ6_next h hf hcap hl he hheld, popFields_single (q6Field_names pk) (.inr rfl)]
      simp only [q6Field_peeks, ite_not]
      by_cases hpk : pk = 0
      · simp only [if_pos hpk]
        rfl
      · simp only [if_neg hpk]
        rfl
  · refine (qpushE_next h hd ho (takes_atIssue htakes)).trans ?_
    simp only [pushedQueue, live_atIssue, flag_atIssue]
    rfl

end Sys2Proof.Machine

/-! ## Floating-point arithmetic of the compute stream -/

namespace Sys2Proof.Machine

/-! ### The sign operations (R134) -/

/-- The sign that a code of FSGN gives, from the signs of a and b. -/
def signBit (op : BitVec 2) (a b : Bool) : Bool :=
  match op.toNat with
  | 0 => b
  | 1 => !b
  | 2 => a ^^ b
  | _ => !a

/-- The word whose sign bits FSGN takes. -/
def signWord (op : BitVec 2) (a b : Word) : Word :=
  match op.toNat with
  | 0 => b
  | 1 => ~~~b
  | 2 => a ^^^ b
  | _ => ~~~a

/-- The places of the sign bits of sub-elements of 32, 16, 8 or 4 bits. -/
def signPlaces (w : BitVec 2) : Word :=
  match w.toNat with
  | 0 => 0x80000000
  | 1 => 0x80008000
  | 2 => 0x80808080
  | _ => 0x88888888

/-- A bit of the word that the signs come from. -/
theorem getLsbD_signWord (op : BitVec 2) (a b : Word) {k : Nat} (hk : k < 32) :
    (signWord op a b).getLsbD k = signBit op (a.getLsbD k) (b.getLsbD k) := by
  unfold signWord signBit
  split
  · rfl
  · rw [BitVec.getLsbD_not, decide_eq_true hk, Bool.true_and]
  · exact BitVec.getLsbD_xor
  · rw [BitVec.getLsbD_not, decide_eq_true hk, Bool.true_and]

/-- The sign bit of a sub-element is its highest. -/
theorem getLsbD_signPlaces (w : BitVec 2) : ∀ k < 32, (signPlaces w).getLsbD k = decide (k % (32 >>> w.toNat) = 32 >>> w.toNat - 1) := by
  revert w
  decide

/-- The result of a sign operation on one sub-element: the magnitude of a, and the sign of the operation above it. -/
theorem signOp_eq (op : BitVec 2) (w a b : Nat) :
    signOp op w a b = 2 ^ (w - 1) * (signBit op (a.testBit (w - 1)) (b.testBit (w - 1))).toNat + a % 2 ^ (w - 1) := by
  unfold signOp signBit
  simp only [← Nat.toNat_testBit]
  rw [Nat.add_comm, Nat.mul_comm]
  generalize op.toNat = code
  match code with
  | 0 => rfl
  | 1 => cases b.testBit (w - 1) <;> rfl
  | 2 => cases a.testBit (w - 1) <;> cases b.testBit (w - 1) <;> rfl
  | _ + 3 => cases a.testBit (w - 1) <;> rfl

/-- Its bits. -/
theorem signOp_testBit (op : BitVec 2) {w : Nat} (a b : Nat) {k : Nat} (hk : k < w) :
    (signOp op w a b).testBit k = if k = w - 1 then signBit op (a.testBit k) (b.testBit k) else a.testBit k := by
  rw [signOp_eq, Nat.testBit_two_pow_mul_add _ (Nat.mod_lt _ (by positivity))]
  by_cases htop : k = w - 1
  · rw [if_pos htop, if_neg (by omega), htop, Nat.sub_self, Nat.testBit_zero]
    cases signBit op (a.testBit (w - 1)) (b.testBit (w - 1)) <;> rfl
  · rw [if_neg htop, if_pos (by omega), Nat.testBit_mod_two_pow, decide_eq_true (by omega), Bool.true_and]

/-- It fits the sub-element. -/
theorem signOp_lt (op : BitVec 2) {w : Nat} (a b : Nat) (hw : 0 < w) : signOp op w a b < 2 ^ w := by
  have low : a % 2 ^ (w - 1) < 2 ^ (w - 1) := Nat.mod_lt _ (by positivity)
  have twice : 2 ^ w = 2 * 2 ^ (w - 1) := by rw [← pow_succ', Nat.sub_add_cancel hw]
  rw [signOp_eq, twice]
  cases signBit op (a.testBit (w - 1)) (b.testBit (w - 1)) <;> simp <;> omega

/-! ### Packed values (R135) -/

/-- A bit of a sub-element. -/
theorem subElem_testBit {w k : Nat} (x : Word) (hw : 0 < w) : (subElem w (k / w) x).testBit (k % w) = x.getLsbD k := by
  rw [subElem, Nat.testBit_mod_two_pow, decide_eq_true (Nat.mod_lt k hw), Bool.true_and, Nat.testBit_div_two_pow, Nat.mod_add_div]
  rfl

/-- The joined sub-elements of a list of places. -/
theorem packed_bits (w : Nat) (g : Nat → Nat × FpFlags) {k : Nat} (hk : k < 32) (is : List Nat) (acc : Word × FpFlags) :
    (is.foldl (fun acc i => (acc.1 ||| BitVec.ofNat 32 ((g i).1 * 2 ^ (w * i)), acc.2 ||| (g i).2)) acc).1.getLsbD k =
      (acc.1.getLsbD k || is.any fun i => ((g i).1 * 2 ^ (w * i)).testBit k) := by
  induction is generalizing acc with
  | nil => simp
  | cons i is ih =>
    rw [List.foldl_cons, ih, BitVec.getLsbD_or, BitVec.getLsbD_ofNat, decide_eq_true hk, Bool.true_and, List.any_cons, Bool.or_assoc]

/-- A bit of a packed value is one of the sub-element that it falls in. -/
theorem packedMap_bit {w : Nat} {g : Nat → Nat × FpFlags} (hw : 0 < w) (hdvd : w ∣ 32) (hg : ∀ i, (g i).1 < 2 ^ w) {k : Nat} (hk : k < 32) :
    (packedMap w g).1.getLsbD k = (g (k / w)).1.testBit (k % w) := by
  have inside : ∀ i, ((g i).1 * 2 ^ (w * i)).testBit k = (decide (i = k / w) && (g i).1.testBit (k % w)) := fun i => by
    have parts : w * (k / w) + k % w = k := Nat.div_add_mod k w
    have small : k % w < w := Nat.mod_lt k hw
    rw [Nat.testBit_mul_two_pow]
    rcases lt_trichotomy i (k / w) with hi | rfl | hi
    · have next : w * (i + 1) ≤ w * (k / w) := Nat.mul_le_mul_left w hi
      have above : w * i + w ≤ k := by rw [Nat.mul_succ] at next; omega
      have zero : (g i).1.testBit (k - w * i) = false :=
        Nat.testBit_lt_two_pow ((hg i).trans_le (Nat.pow_le_pow_right (by decide) (by omega)))
      rw [zero, Bool.and_false, decide_eq_false hi.ne, Bool.false_and]
    · have rest : k - w * (k / w) = k % w := by omega
      rw [rest, decide_eq_true (by omega), decide_eq_true rfl]
    · have next : w * (k / w + 1) ≤ w * i := Nat.mul_le_mul_left w hi
      have below : ¬ w * i ≤ k := by rw [Nat.mul_succ] at next; omega
      rw [decide_eq_false below, Bool.false_and, decide_eq_false hi.ne', Bool.false_and]
  have place : k / w < 32 / w := Nat.div_lt_div_of_lt_of_dvd hdvd hk
  refine (packed_bits w g hk _ _).trans ?_
  simp only [inside, BitVec.ofNat_eq_ofNat, BitVec.getLsbD_zero, Bool.false_or]
  rw [Bool.eq_iff_iff, List.any_eq_true]
  constructor
  · rintro ⟨i, _, hi⟩
    obtain ⟨hplace, hbit⟩ := Bool.and_eq_true_iff.1 hi
    rwa [of_decide_eq_true hplace] at hbit
  · exact fun hbit => ⟨k / w, List.mem_range.2 place, by rw [decide_eq_true rfl, Bool.true_and, hbit]⟩

/-- Sub-elements that set no flags set none together. -/
theorem packedMap_flags {w : Nat} {g : Nat → Nat × FpFlags} (hg : ∀ i, (g i).2 = 0) : (packedMap w g).2 = 0 := by
  have joined : ∀ (is : List Nat) (acc : Word × FpFlags), acc.2 = 0 →
      (is.foldl (fun acc i => (acc.1 ||| BitVec.ofNat 32 ((g i).1 * 2 ^ (w * i)), acc.2 ||| (g i).2)) acc).2 = 0 := by
    intro is
    induction is with
    | nil => exact fun _ h => h
    | cons i is ih => exact fun acc h => ih _ (by simp only [h, hg i]; rfl)
  exact joined _ _ rfl

/-- FSGN changes the sign bits of a alone. -/
theorem packedMap_signOp (w op : BitVec 2) (a b : Word) :
    packedMap (32 >>> w.toNat) (fun i => (signOp op (32 >>> w.toNat) (subElem (32 >>> w.toNat) i a) (subElem (32 >>> w.toNat) i b), 0)) =
      ((a &&& ~~~signPlaces w) ||| (signWord op a b &&& signPlaces w), 0) := by
  have places := getLsbD_signPlaces w
  have width : 0 < 32 >>> w.toNat ∧ 32 >>> w.toNat ∣ 32 := by revert w; decide
  generalize 32 >>> w.toNat = n at places width ⊢
  obtain ⟨hn, hdvd⟩ := width
  refine Prod.ext (BitVec.eq_of_getLsbD_eq fun k hk => ?_) (packedMap_flags fun _ => rfl)
  rw [packedMap_bit hn hdvd (fun i => signOp_lt op _ _ hn) hk, signOp_testBit op _ _ (Nat.mod_lt k hn), subElem_testBit a hn, subElem_testBit b hn,
    BitVec.getLsbD_or, BitVec.getLsbD_and, BitVec.getLsbD_and, BitVec.getLsbD_not, decide_eq_true hk, getLsbD_signWord op a b hk, places k hk]
  by_cases htop : k % n = n - 1
  · simp [htop]
  · simp [htop]

/-! ### FP32 instructions and packed instructions (R131 to R136) -/

section FloatForms
variable {x : Instr} {n : BitVec 1} {d : BitVec 6} {a b : BitVec 7} {third : Bool}

/-- An FP32 instruction computes its operation in each lane. -/
theorem fpE_eq (pipe : Nat) (op : FpOp) (mode : Rm) : fpE x n d a b third pipe op mode = laneOp x ⟨n, d, [(a, .f32), (b, .f32)], third, pipe,
    fun _ _ v => Claims.asWord (fpOp op .f32 mode true (v 0).toNat (v 1).toNat (v 2).toNat)⟩ := rfl

/-- A packed instruction computes its operation on each sub-element of each lane. -/
theorem packedE_eq (op : FpOp) (f : FpFmt) : packedE x n d a b third op f = laneOp x (Claims.packed n d a b third op f) := rfl

/-- A packed comparison compares each sub-element of each lane. -/
theorem packedCmp_eq (f : FpFmt) (c : BitVec 3) : packedCmp x n d a b f c = laneOp x (Claims.packedCompare n d a b c f) := rfl

end FloatForms

/-! `exec` at the FP32 instructions. -/

section FloatArms
variable (n : BitVec 1) (d : BitVec 6) (a b : BitVec 7) (r : BitVec 3) (u : BitVec 1)

theorem exec_fadd : exec (.fadd n d a b r) = fpE (.fadd n d a b r) n d a b false 2 .add (rmOf r.toNat) := rfl
theorem exec_fsub : exec (.fsub n d a b r) = fpE (.fsub n d a b r) n d a b false 2 .sub (rmOf r.toNat) := rfl
theorem exec_fmul : exec (.fmul n d a b r) = fpE (.fmul n d a b r) n d a b false 2 .mul (rmOf r.toNat) := rfl
theorem exec_ffma : exec (.ffma n d a b r) = fpE (.ffma n d a b r) n d a b true 2 .fma (rmOf r.toNat) := rfl
theorem exec_ffms : exec (.ffms n d a b r) = fpE (.ffms n d a b r) n d a b true 2 .fms (rmOf r.toNat) := rfl
theorem exec_fmin : exec (.fmin n d a b u) = fpE (.fmin n d a b u) n d a b false 0 (.min (u == 1)) .rne := rfl
theorem exec_fmax : exec (.fmax n d a b u) = fpE (.fmax n d a b u) n d a b false 0 (.max (u == 1)) .rne := rfl
theorem exec_fsgn (w o : BitVec 2) : exec (.fsgn n d a b w o) = execFsgn n d a b w o := rfl

end FloatArms

/-- FSGN computes a with the signs of its operation in each lane. -/
theorem execFsgn_eq (n : BitVec 1) (d : BitVec 6) (a b : BitVec 7) (w o : BitVec 2) : execFsgn n d a b w o =
    laneOp (.fsgn n d a b w o) ⟨n, d, [(a, signType w), (b, signType w)], false, 0, fun _ _ v =>
      ((v 0 &&& ~~~signPlaces w) ||| (signWord o (v 0) (v 1) &&& signPlaces w), 0)⟩ := by
  simp only [execFsgn, packedMap_signOp]
  rfl

/-- `exec` at an FP32 instruction computes its exact result, rounded once, or its selection. -/
theorem exec_floatLane {x : Instr} {r : Claims.LaneOp} (hr : Claims.floatLane x = some r) : exec x = laneOp x r := by
  unfold Claims.floatLane at hr
  split at hr <;> cases hr
  case h_1 => rw [exec_fadd, fpE_eq]; rfl
  case h_2 => rw [exec_fsub, fpE_eq]; rfl
  case h_3 => rw [exec_fmul, fpE_eq]; rfl
  case h_4 => rw [exec_ffma, fpE_eq]; rfl
  case h_5 => rw [exec_ffms, fpE_eq]; rfl
  case h_6 => rw [exec_fmin, fpE_eq]; rfl
  case h_7 => rw [exec_fmax, fpE_eq]; rfl
  case h_8 => rw [exec_fsgn, execFsgn_eq]; rfl

/-- `exec` at a packed instruction computes its operation on each sub-element. -/
theorem exec_packedLane {x : Instr} {r : Claims.LaneOp} (hr : Claims.packedLane x = some r) : exec x = laneOp x r := by
  unfold Claims.packedLane at hr
  split at hr <;> cases hr
  case h_8 => exact packedCmp_eq ..
  case h_16 => exact packedCmp_eq ..
  all_goals exact packedE_eq ..

/-- Settles O32: FP32 arithmetic and FSGN, and packed arithmetic. -/
theorem laneFloats : Obligations.LaneFloats :=
  ⟨fun _ _ hr => computes_of_laneOp (exec_floatLane hr), fun _ _ hr => computes_of_laneOp (exec_packedLane hr)⟩


end Sys2Proof.Machine

/-! ## Cross-lane instructions -/

namespace Sys2Proof.Machine

/-! ### Votes and shuffles (R142 to R144) -/

/-- A vote of the model is that of the statements. -/
theorem voteLane_eq (u : Team) (o : ELanes) (team : Bool) (op : BitVec 3) (l : Nat) : voteLane u o team op l = Claims.vote u o team op l := by
  unfold voteLane Claims.vote
  generalize op.toNat = code
  match code with
  | 0 =>
    refine if_congr ?_ rfl rfl
    rw [List.length_filter_eq_length_iff, List.all_eq_true]
    rfl
  | 1 =>
    have empty : ∀ (g : List Nat) (p : Nat → Bool), (g.filter p).isEmpty = !g.any p := fun g p => by
      rw [Bool.eq_iff_iff]
      simp
    simp only [empty, Bool.not_eq_true', ← Bool.not_eq_true, ite_not]
    rfl
  | 2 =>
    simp only [beq_eq_decide]
    rfl
  | 3 =>
    have first : (o.arg 1 l).toNat % 32 * 32 = 32 * ((o.arg 1 l).extractLsb' 0 5).toNat := by
      rw [BitVec.extractLsb'_toNat, Nat.shiftRight_zero, Nat.mul_comm]
    simp only [first, List.filter_map, List.map_map, ← Bool.decide_and, List.sum_eq_foldl, List.foldl_map]
    rfl
  | _ + 4 => rfl

/-- A shuffle of the model is that of the statements. -/
theorem shuffleLane_eq (u : Team) (o : ELanes) (team : Bool) (op : BitVec 2) (l : Nat) :
    shuffleLane u o team op l = Claims.shuffle u o team op l := by
  have found : ∀ src : Option Nat, (src.bind fun p => (groupOf o team l).find? fun k => position u o team k = p) =
      (groupOf o team l).find? fun k => some (k % groupSize u o team) = src := by
    intro src
    cases src with
    | none => exact (List.find?_eq_none.2 fun k _ => by simp).symm
    | some p => exact List.find?_congr fun k _ => decide_eq_decide.2 (by simp [position])
  unfold shuffleLane
  simp only [found]
  rfl

/-! ### The pairwise tree (R39) -/

/-- The fold of a list from its first element. -/
def foldFirst {α : Type} (f : α → α → α) : List α → Option α
  | [] => none
  | x :: xs => some (xs.foldl f x)

section Tree
variable {α : Type} {f : α → α → α} {op : α → α → α × FpFlags}

/-- A level of the tree of an associative operation keeps every fold of the values that are present. -/
theorem treeLevel_foldl (hop : ∀ x y, op x y = (f x y, 0)) (assoc : ∀ x y z, f (f x y) z = f x (f y z)) (fl : FpFlags) :
    ∀ (xs : List (Option α)) (a : α), (treeLevel op xs fl).1.reduceOption.foldl f a = xs.reduceOption.foldl f a
  | [], _ => rfl
  | [_], _ => rfl
  | some x :: some y :: xs, a => by
    simp only [treeLevel, hop, BitVec.ofNat_eq_ofNat, BitVec.or_zero, List.reduceOption_cons_of_some, List.foldl_cons,
      treeLevel_foldl hop assoc fl xs, assoc]
  | some x :: none :: xs, a => by
    simp only [treeLevel, List.reduceOption_cons_of_some, List.reduceOption_cons_of_none, List.foldl_cons, treeLevel_foldl hop assoc fl xs]
  | none :: some y :: xs, a => by
    simp only [treeLevel, List.reduceOption_cons_of_some, List.reduceOption_cons_of_none, List.foldl_cons, treeLevel_foldl hop assoc fl xs]
  | none :: none :: xs, a => by
    simp only [treeLevel, List.reduceOption_cons_of_none, treeLevel_foldl hop assoc fl xs]

/-- A level of the tree of an associative operation keeps the fold of the values that are present. -/
theorem treeLevel_foldFirst (hop : ∀ x y, op x y = (f x y, 0)) (assoc : ∀ x y z, f (f x y) z = f x (f y z)) (fl : FpFlags) :
    ∀ xs : List (Option α), foldFirst f (treeLevel op xs fl).1.reduceOption = foldFirst f xs.reduceOption
  | [] => rfl
  | [_] => rfl
  | some x :: some y :: xs => by
    simp only [treeLevel, hop, BitVec.ofNat_eq_ofNat, BitVec.or_zero, List.reduceOption_cons_of_some, foldFirst, List.foldl_cons,
      treeLevel_foldl hop assoc fl xs]
  | some x :: none :: xs => by
    simp only [treeLevel, List.reduceOption_cons_of_some, List.reduceOption_cons_of_none, foldFirst, treeLevel_foldl hop assoc fl xs]
  | none :: some y :: xs => by
    simp only [treeLevel, List.reduceOption_cons_of_some, List.reduceOption_cons_of_none, foldFirst, treeLevel_foldl hop assoc fl xs]
  | none :: none :: xs => by
    simp only [treeLevel, List.reduceOption_cons_of_none, treeLevel_foldFirst hop assoc fl xs]

/-- A level of the tree of an operation without flags sets none. -/
theorem treeLevel_flags (hop : ∀ x y, op x y = (f x y, 0)) (fl : FpFlags) : ∀ xs : List (Option α), (treeLevel op xs fl).2 = fl
  | [] => rfl
  | [_] => rfl
  | some x :: some y :: xs => by simp only [treeLevel, hop, BitVec.ofNat_eq_ofNat, BitVec.or_zero, treeLevel_flags hop fl xs]
  | some _ :: none :: xs => by simp only [treeLevel, treeLevel_flags hop fl xs]
  | none :: _ :: xs => by simp only [treeLevel, treeLevel_flags hop fl xs]

/-- A level of the tree halves the positions. -/
theorem treeLevel_length (op : α → α → α × FpFlags) : ∀ (xs : List (Option α)) (fl : FpFlags), 2 * (treeLevel op xs fl).1.length ≤ xs.length + 1
  | [], _ => Nat.zero_le _
  | [_], _ => le_rfl
  | some x :: some y :: xs, fl => by
    have rest := treeLevel_length op xs (fl ||| (op x y).2)
    simp only [treeLevel, List.length_cons]
    omega
  | some _ :: none :: xs, fl => by
    have rest := treeLevel_length op xs fl
    simp only [treeLevel, List.length_cons]
    omega
  | none :: _ :: xs, fl => by
    have rest := treeLevel_length op xs fl
    simp only [treeLevel, List.length_cons]
    omega

/-- The tree of an associative operation without flags, deep enough for its positions, folds the values that are present. -/
theorem treeFold_eq (hop : ∀ x y, op x y = (f x y, 0)) (assoc : ∀ x y z, f (f x y) z = f x (f y z)) (fl : FpFlags) :
    ∀ (n : Nat) (xs : List (Option α)), xs.length ≤ 2 ^ n → treeFold op n xs fl = (foldFirst f xs.reduceOption, fl)
  | 0, [], _ => rfl
  | 0, [none], _ => rfl
  | 0, [some _], _ => rfl
  | n + 1, xs, h => by
    have halved := treeLevel_length op xs fl
    have fits : (treeLevel op xs fl).1.length ≤ 2 ^ n := by
      rw [pow_succ] at h
      omega
    have rest := treeFold_eq hop assoc fl n (treeLevel op xs fl).1 fits
    rw [treeLevel_foldFirst hop assoc] at rest
    simp only [treeFold, treeLevel_flags hop, rest]

end Tree

/-! ### The positions of a group (R142, R145) -/

/-- The values that are present in a list with gaps. -/
theorem reduceOption_map_ite {α : Type} (p : Nat → Bool) (v : Nat → α) (xs : List Nat) :
    (xs.map fun x => if p x then some (v x) else none).reduceOption = (xs.filter p).map v := by
  induction xs with
  | nil => rfl
  | cons x xs ih => by_cases hp : p x <;> simp [hp, ih]

/-- The values at the positions of a rising list of lanes are those of the lanes, in their order. -/
theorem present_values {n first : Nat} {g : List Nat} (v : Nat → Word) (hg : g.Pairwise (· < ·)) (hin : ∀ k ∈ g, first ≤ k ∧ k < first + n) :
    ((List.range n).map fun p => if g.contains (first + p) then some (v (first + p)) else none).reduceOption = g.map v := by
  have lanes : ((List.range n).filter fun p => g.contains (first + p)).map (first + ·) = g := by
    refine List.Pairwise.eq_of_mem_iff (r := (· < ·)) ?_ hg fun k => ?_
    · exact List.pairwise_map.2 ((List.pairwise_lt_range.filter _).imp fun h => Nat.add_lt_add_left h _)
    · simp only [List.mem_map, List.mem_filter, List.mem_range, List.contains_iff_mem]
      constructor
      · rintro ⟨p, ⟨_, hp⟩, rfl⟩
        exact hp
      · intro hk
        obtain ⟨hlow, hhigh⟩ := hin k hk
        have place : first + (k - first) = k := by omega
        exact ⟨k - first, ⟨by omega, by rwa [place]⟩, place⟩
  rw [reduceOption_map_ite (fun p => g.contains (first + p)) fun p => v (first + p)]
  conv_rhs => rw [← lanes, List.map_map]
  rfl

/-- The lanes of a group rise. -/
theorem groupOf_pairwise {o : ELanes} (ho : o.lanes.Pairwise (· < ·)) (team : Bool) (l : Nat) : (groupOf o team l).Pairwise (· < ·) := by
  cases team
  · exact ho.filter _
  · exact ho

/-- The first lane of a group's positions. -/
def groupFirst (u : Team) (o : ELanes) (team : Bool) (l : Nat) : Nat := if team then 0 else l / groupSize u o team * groupSize u o team

/-- The lanes of a group stand at its positions. -/
theorem groupOf_positions {u : Team} {o : ELanes} (ho : ∀ k ∈ o.lanes, k < u.info.lanes) (team : Bool) (l : Nat) :
    ∀ k ∈ groupOf o team l, groupFirst u o team l ≤ k ∧ k < groupFirst u o team l + groupSize u o team := by
  intro k hk
  cases team
  · have size : 0 < setSize o.frag.partn := Nat.two_pow_pos _
    have quotient : k / setSize o.frag.partn = l / setSize o.frag.partn := of_decide_eq_true (List.mem_filter.1 hk).2
    show l / setSize o.frag.partn * setSize o.frag.partn ≤ k ∧ k < l / setSize o.frag.partn * setSize o.frag.partn + setSize o.frag.partn
    rw [← quotient]
    exact ⟨Nat.div_mul_le_self .., Nat.lt_div_mul_add size⟩
  · exact ⟨Nat.zero_le _, by simpa [groupFirst, groupSize] using ho k hk⟩

/-- A group has at most 1024 positions. -/
theorem groupSize_le {u : Team} (h : u.info.lanes ≤ 1024) (o : ELanes) (team : Bool) : groupSize u o team ≤ 2 ^ 10 := by
  cases team
  · exact Nat.pow_le_pow_right (by decide) (by omega)
  · exact h

/-! ### The operations of reductions and scans (Table 6-9) -/

/-- The smaller signed word is that of its integers. -/
theorem toInt_smaller (x y : Word) : (if y.slt x then y else x).toInt = min x.toInt y.toInt := by
  rw [BitVec.slt_eq_decide]
  by_cases h : y.toInt < x.toInt
  · simp [h, min_eq_right h.le]
  · simp [h, min_eq_left (not_lt.1 h)]

/-- The larger signed word is that of its integers. -/
theorem toInt_larger (x y : Word) : (if x.slt y then y else x).toInt = max x.toInt y.toInt := by
  rw [BitVec.slt_eq_decide]
  by_cases h : x.toInt < y.toInt
  · simp [h, max_eq_right h.le]
  · simp [h, max_eq_left (not_lt.1 h)]

/-- The smaller unsigned word is that of its numbers. -/
theorem toNat_smaller (x y : Word) : (if y.ult x then y else x).toNat = min x.toNat y.toNat := by
  rw [BitVec.ult_eq_decide]
  by_cases h : y.toNat < x.toNat
  · simp [h, min_eq_right h.le]
  · simp [h, min_eq_left (not_lt.1 h)]

/-- The larger unsigned word is that of its numbers. -/
theorem toNat_larger (x y : Word) : (if x.ult y then y else x).toNat = max x.toNat y.toNat := by
  rw [BitVec.ult_eq_decide]
  by_cases h : x.toNat < y.toNat
  · simp [h, max_eq_right h.le]
  · simp [h, max_eq_left (not_lt.1 h)]

/-! The choices of the model, which compare the other way round, are the same. -/

theorem signedSmaller_eq (x y : Word) : (if x.toInt ≤ y.toInt then x else y) = if y.slt x then y else x :=
  BitVec.eq_of_toInt_eq (by rw [toInt_smaller, min_def]; exact apply_ite ..)
theorem signedLarger_eq (x y : Word) : (if x.toInt ≤ y.toInt then y else x) = if x.slt y then y else x :=
  BitVec.eq_of_toInt_eq (by rw [toInt_larger, max_def]; exact apply_ite ..)
theorem unsignedSmaller_eq (x y : Word) : (if x ≤ y then x else y) = if y.ult x then y else x :=
  BitVec.eq_of_toNat_eq (by rw [toNat_smaller, min_def]; exact apply_ite ..)
theorem unsignedLarger_eq (x y : Word) : (if x ≤ y then y else x) = if x.ult y then y else x :=
  BitVec.eq_of_toNat_eq (by rw [toNat_larger, max_def]; exact apply_ite ..)

/-- An integer or bitwise operation is that of the statements, without flags. -/
theorem combine_eq {op : BitVec 4} (h : 3 ≤ op.toNat) (x y : Word) : combine op x y = (Claims.reduceOp op x y, 0) := by
  unfold combine Claims.reduceOp
  generalize op.toNat = code at h
  match code with
  | 3 | 6 | 7 | 8 => rfl
  | 4 => exact congrArg (·, 0) (signedSmaller_eq x y)
  | 5 => exact congrArg (·, 0) (signedLarger_eq x y)
  | 9 => exact congrArg (·, 0) (unsignedSmaller_eq x y)
  | _ + 10 => exact congrArg (·, 0) (unsignedLarger_eq x y)

/-- The integer and bitwise operations are associative. -/
theorem reduceOp_assoc (op : BitVec 4) (x y z : Word) :
    Claims.reduceOp op (Claims.reduceOp op x y) z = Claims.reduceOp op x (Claims.reduceOp op y z) := by
  unfold Claims.reduceOp
  split
  · exact BitVec.add_assoc ..
  · exact BitVec.eq_of_toInt_eq (by simp only [toInt_smaller, min_assoc])
  · exact BitVec.eq_of_toInt_eq (by simp only [toInt_larger, max_assoc])
  · exact BitVec.and_assoc ..
  · exact BitVec.or_assoc ..
  · exact BitVec.xor_assoc ..
  · exact BitVec.eq_of_toNat_eq (by simp only [toNat_smaller, min_assoc])
  · exact BitVec.eq_of_toNat_eq (by simp only [toNat_larger, max_assoc])

/-- The fold of the values of some lanes, from the first. -/
theorem foldFirst_map (f : Word → Word → Word) (empty : Word) (v : Nat → Word) (g : List Nat) :
    (foldFirst f (g.map v)).getD empty = Claims.foldLanes f empty v g := by
  cases g with
  | nil => rfl
  | cons l ls => exact List.foldl_map

/-- A reduction of the model is that of the statements. -/
theorem reduceLane_eq {u : Team} {o : ELanes} (hlanes : u.info.lanes ≤ 1024) (hrise : o.lanes.Pairwise (· < ·))
    (hin : ∀ k ∈ o.lanes, k < u.info.lanes) (team : Bool) (op : BitVec 4) (l : Nat) :
    reduceLane u o team op l = Claims.reduce u o team op l := by
  unfold Claims.reduce
  split
  · rename_i hop
    have values := present_values (o.arg 0) (groupOf_pairwise hrise team l) (groupOf_positions hin team l)
    have tree := treeFold_eq (combine_eq hop) (reduceOp_assoc op) 0 10
      ((List.range (groupSize u o team)).map fun p =>
        if (groupOf o team l).contains (groupFirst u o team l + p) then some (o.arg 0 (groupFirst u o team l + p)) else none)
      (by simpa using groupSize_le hlanes o team)
    rw [values] at tree
    rw [← foldFirst_map]
    exact congrArg (fun r : Option Word × FpFlags => (r.1.getD 0, r.2)) tree
  · rfl

/-! ### Scans (R146) -/

/-- The lanes that a scan folds. -/
def scanLanes (o : ELanes) (excl : Bool) (l : Nat) : List Nat := (Claims.group o false l).filter fun k => k < l ∨ (excl = false ∧ k = l)

/-- The running result of a scan of an integer operation sets no flags. -/
theorem scan_foldl {op : BitVec 4} (h : 3 ≤ op.toNat) (v : Nat → Word) (ls : List Nat) (a : Word) :
    ls.foldl (fun acc k => ((combine op acc.1 (v k)).1, acc.2 ||| (combine op acc.1 (v k)).2)) (a, 0) =
      (ls.foldl (fun a k => Claims.reduceOp op a (v k)) a, 0) := by
  induction ls generalizing a with
  | nil => rfl
  | cons k ks ih => simpa only [List.foldl_cons, combine_eq h, BitVec.ofNat_eq_ofNat, BitVec.or_zero] using ih _

/-- An integer scan folds the lanes up to the lane, or before it. -/
theorem scanLane_eq_foldLanes (o : ELanes) (excl : Bool) {op : BitVec 2} (h : 3 ≤ (scanOp op).1.toNat) (l : Nat) :
    scanLane o excl op l = (Claims.foldLanes (Claims.reduceOp (scanOp op).1) (scanOp op).2 (o.arg 0) (scanLanes o excl l), 0) := by
  have lanes : (groupOf o false l).filter (fun k => decide (k < l) || (!excl && k == l)) = scanLanes o excl l :=
    List.filter_congr fun k _ => by cases excl <;> simp [Bool.decide_or, beq_eq_decide]
  unfold scanLane
  rw [lanes]
  cases scanLanes o excl l with
  | nil => rfl
  | cons k ks => exact scan_foldl h (o.arg 0) ks _

/-- A scan of the model is that of the statements. -/
theorem scanLane_eq (o : ELanes) (excl : Bool) {op : BitVec 2} (h : op ≠ 0) (l : Nat) :
    scanLane o excl op l = (Claims.scan o excl op l, 0) := by
  have codes : op = 1 ∨ op = 2 ∨ op = 3 := by revert op; decide
  rcases codes with rfl | rfl | rfl <;> exact scanLane_eq_foldLanes o excl (by decide) l

/-! ### ARGM (R147) -/

/-- The rank of a value for ARGM, lowest first: its number as .i32 or .n32, turned round for the largest. -/
def argmRank (ty : BitVec 2) (isMin : Bool) (x : Word) : Int :=
  let n : Int := if ty = 1 then x.toInt else x.toNat
  if isMin then n else -n

/-- A lane takes the place of the winner where its value ranks lower. -/
theorem argmAbove_eq {ty : BitVec 2} (hty : ty = 1 ∨ ty = 2) (isMin : Bool) (x y : Word) :
    (if isMin then argmAbove ty x y else argmAbove ty y x) = decide (argmRank ty isMin y < argmRank ty isMin x) := by
  rcases hty with rfl | rfl <;> cases isMin <;> simp [argmAbove, argmRank]

/-- The statements' better value is one of lower rank. -/
theorem argmBetter_eq {ty : BitVec 2} (hty : ty = 1 ∨ ty = 2) (isMin : Bool) (x y : Word) :
    (if ty = 1 then (if isMin then x.slt y else y.slt x) else (if isMin then x.ult y else y.ult x)) =
      decide (argmRank ty isMin x < argmRank ty isMin y) := by
  rcases hty with rfl | rfl <;> cases isMin <;> simp [argmRank, BitVec.slt_eq_decide, BitVec.ult_eq_decide]

/-- The winner after another lane. -/
def argmPick (better : Nat → Nat → Bool) (w k : Nat) : Nat := if better w k then k else w

/-- A fold that keeps or replaces its lane ends at one of the lanes. -/
theorem foldl_argmPick_mem (better : Nat → Nat → Bool) (ls : List Nat) (l : Nat) : ls.foldl (argmPick better) l ∈ l :: ls := by
  induction ls generalizing l with
  | nil => exact List.mem_cons_self ..
  | cons k ks ih =>
    have hmem := List.mem_cons.1 (ih (argmPick better l k))
    have hpick : argmPick better l k = k ∨ argmPick better l k = l := ite_eq_or_eq ..
    rw [List.foldl_cons, List.mem_cons, List.mem_cons]
    rcases hmem with hw | hw
    · rcases hpick with hp | hp
      · exact .inr (.inl (hw.trans hp))
      · exact .inl (hw.trans hp)
    · exact .inr (.inr hw)

/-- A fold that takes each lane of lower rank ends at the lowest rank, and at its lowest lane. -/
theorem foldl_argmPick_lowest (rank : Nat → Int) (ls : List Nat) (l : Nat) (h : (l :: ls).Pairwise (· < ·)) :
    let w := ls.foldl (argmPick fun w k => decide (rank k < rank w)) l
    ∀ k ∈ l :: ls, rank w ≤ rank k ∧ (k < w → rank w < rank k) := by
  induction ls generalizing l with
  | nil => exact List.forall_mem_singleton.2 ⟨le_rfl, fun hlt => absurd hlt (lt_irrefl _)⟩
  | cons m ms ih =>
    obtain ⟨hl, hm, hms⟩ : (∀ k ∈ m :: ms, l < k) ∧ (∀ k ∈ ms, m < k) ∧ ms.Pairwise (· < ·) := by
      rw [List.pairwise_cons, List.pairwise_cons] at h
      exact h
    have hlm : l < m := hl m (List.mem_cons_self ..)
    rw [List.foldl_cons]
    by_cases hrank : rank m < rank l
    · have picked : argmPick (fun w k => decide (rank k < rank w)) l m = m := if_pos (decide_eq_true hrank)
      rw [picked]
      have lowest := ih m (List.pairwise_cons.2 ⟨hm, hms⟩)
      have below := (lowest m (List.mem_cons_self ..)).1
      exact List.forall_mem_cons.2 ⟨⟨by omega, fun _ => by omega⟩, lowest⟩
    · have picked : argmPick (fun w k => decide (rank k < rank w)) l m = l := if_neg (by simpa using hrank)
      rw [picked]
      have lowest := ih l (List.pairwise_cons.2 ⟨fun k hk => hl k (List.mem_cons_of_mem _ hk), hms⟩)
      obtain ⟨below, strict⟩ := lowest l (List.mem_cons_self ..)
      refine List.forall_mem_cons.2 ⟨⟨below, strict⟩, List.forall_mem_cons.2 ⟨⟨by omega, fun hw => ?_⟩, fun k hk =>
        lowest k (List.mem_cons_of_mem _ hk)⟩⟩
      have := strict (hlm.trans hw)
      omega

/-- The lowest lane with a property: every lower one of a rising list lacks it. -/
theorem find?_lowest {p : Nat → Bool} {ls : List Nat} {w : Nat} (h : ls.Pairwise (· < ·)) (hw : ls.find? p = some w) :
    ∀ k ∈ ls, k < w → p k = false := by
  obtain ⟨_, before, after, rfl, hbefore⟩ := List.find?_eq_some_iff_append.1 hw
  obtain ⟨_, hafter, _⟩ := List.pairwise_append.1 h
  intro k hk hlt
  rcases List.mem_append.1 hk with hk | hk
  · simpa using hbefore k hk
  · rcases List.mem_cons.1 hk with rfl | hk
    · exact absurd hlt (lt_irrefl _)
    · exact absurd hlt (lt_asymm ((List.pairwise_cons.1 hafter).1 k hk))

/-- A participant of ARGM on FP32 values that is a NaN. -/
def argmNan (ty : BitVec 2) (v : Nat → Word) (k : Nat) : Bool := ty == 0 && (fpDecode .f32 (v k).toNat).isNan

/-- The lowest NaN wins. -/
theorem argmWinner_nan {ty : BitVec 2} (isMin : Bool) {v : Nat → Word} {ls : List Nat} {w : Nat} (h : ls.find? (argmNan ty v) = some w) :
    argmWinner ty isMin v ls = w := by
  cases ls with
  | nil => cases h
  | cons l ls =>
    unfold argmWinner
    unfold argmNan at h
    simp only [h]

/-- Without a NaN the lanes are compared in their order. -/
theorem argmWinner_fold {ty : BitVec 2} (isMin : Bool) {v : Nat → Word} {l : Nat} {ls : List Nat} (h : (l :: ls).find? (argmNan ty v) = none) :
    argmWinner ty isMin v (l :: ls) =
      ls.foldl (argmPick fun w k => if isMin then argmAbove ty (v w) (v k) else argmAbove ty (v k) (v w)) l := by
  unfold argmWinner
  unfold argmNan at h
  simp only [h]
  rfl

/-- ARGM's winner. -/
theorem argWinner : Claims.ArgWinner := by
  intro ty isMin v ls hne hrise w better nan
  obtain ⟨l, ls, rfl⟩ := List.exists_cons_of_ne_nil hne
  refine ⟨?_, fun hty => ?_, fun hty hnan => ?_⟩
  · cases hfind : (l :: ls).find? (argmNan ty v) with
    | none =>
      rw [show w = _ from argmWinner_fold isMin hfind]
      exact foldl_argmPick_mem ..
    | some k =>
      rw [show w = k from argmWinner_nan isMin hfind]
      exact List.mem_of_find?_eq_some hfind
  · have noNan : (l :: ls).find? (argmNan ty v) = none := List.find?_eq_none.2 fun k _ => by rcases hty with rfl | rfl <;> simp [argmNan]
    have hw : w = ls.foldl (argmPick fun w k => decide (argmRank ty isMin (v k) < argmRank ty isMin (v w))) l := by
      simp only [← argmAbove_eq hty]
      exact argmWinner_fold isMin noNan
    have hbetter : ∀ x y, better x y = decide (argmRank ty isMin (v x) < argmRank ty isMin (v y)) := fun x y => argmBetter_eq hty isMin _ _
    have lowest := foldl_argmPick_lowest (fun k => argmRank ty isMin (v k)) ls l hrise
    simp only [hbetter, hw, decide_eq_false_iff_not, not_lt, decide_eq_true_eq]
    exact ⟨fun k hk => (lowest k hk).1, fun k hk => (lowest k hk).2⟩
  · subst hty
    obtain ⟨k, hk, hknan⟩ := hnan
    have found : ((l :: ls).find? nan).isSome := List.find?_isSome.2 ⟨k, hk, hknan⟩
    obtain ⟨n, hn⟩ := Option.isSome_iff_exists.1 found
    rw [show w = n from argmWinner_nan isMin hn]
    exact ⟨List.find?_some hn, find?_lowest hrise hn⟩

/-! ### The instructions -/

/-- The type of a cross-lane source. -/
theorem crossType_decide (p : Prop) [Decidable p] : crossType (decide p) = if p then .f32 else .int := by
  by_cases h : p <;> simp [crossType, h]

/-- What a cross-lane instruction computes in a lane. -/
def crossLane : Instr → Team → ELanes → Nat → Word × FpFlags
  | .vote _ _ _ op => fun u o l => (voteLane u o false op l, 0)
  | .votet _ _ _ _ op => fun u o l => (voteLane u o true op l, 0)
  | .shfl _ _ _ _ op => fun u o l => (shuffleLane u o false op l, 0)
  | .shflt _ _ _ _ op => fun u o l => (shuffleLane u o true op l, 0)
  | .reds _ _ _ op => fun u o => reduceLane u o false op
  | .redt _ _ _ op => fun u o => reduceLane u o true op
  | .scan _ _ _ x op => fun _ o => scanLane o (x == 1) op
  | .argm _ _ _ ty m => fun u o l =>
    (BitVec.ofNat 32 (position u o false (argmWinner ty (m == 1) (o.arg 0) (groupOf o false l))),
      if ty == 0 && (fpDecode .f32 (o.arg 0 l).toNat).sig then flagNV else 0)
  | _ => fun _ _ _ => (0, 0)

/-! `exec` at the cross-lane instructions. -/

section CrossArms
variable (n : BitVec 1) (d : BitVec 6) (a b : BitVec 7)

theorem exec_vote (op : BitVec 3) : exec (.vote n d a op) = execVote n d a op := rfl
theorem exec_votet (op : BitVec 3) : exec (.votet n d a b op) = execVotet n d a b op := rfl
theorem exec_shfl (op : BitVec 2) : exec (.shfl n d a b op) = execShfl n d a b op := rfl
theorem exec_shflt (op : BitVec 2) : exec (.shflt n d a b op) = execShflt n d a b op := rfl
theorem exec_reds (op : BitVec 4) : exec (.reds n d a op) = execReds n d a op := rfl
theorem exec_redt (op : BitVec 4) : exec (.redt n d a op) = execRedt n d a op := rfl
theorem exec_scan (x : BitVec 1) (op : BitVec 2) : exec (.scan n d a x op) = execScan n d a x op := rfl
theorem exec_argm (ty : BitVec 2) (m : BitVec 1) : exec (.argm n d a ty m) = execArgm n d a ty m := rfl

end CrossArms

/-- `exec` at a cross-lane instruction computes `crossLane` in each lane. -/
theorem exec_cross {x : Instr} {r : Claims.CrossOp} (hr : Claims.cross x = some r) :
    exec x = vOp x r.n r.d r.fields false 6 fun _ u o => .ok (eachLane o (crossLane x u o)) := by
  unfold Claims.cross at hr
  split at hr <;> cases hr
  case h_1 => exact exec_vote ..
  case h_2 => exact exec_votet ..
  case h_3 => exact exec_shfl ..
  case h_4 => exact exec_shflt ..
  case h_5 => simp only [exec_reds, execReds, crossType_decide]; rfl
  case h_6 => simp only [exec_redt, execRedt, crossType_decide]; rfl
  case h_7 => simp only [exec_scan, execScan, beq_eq_decide, crossType_decide]; rfl
  case h_8 => simp only [exec_argm, execArgm, beq_eq_decide, crossType_decide]; rfl

/-- What a cross-lane instruction computes is what the statements say, for the operands of a fragment. -/
theorem crossLane_eq {x : Instr} {r : Claims.CrossOp} (hr : Claims.cross x = some r) {u : Team} {o : ELanes} (hsize : u.info.lanes ≤ 1024)
    (hlanes : o.lanes = maskLanes u.info.lanes o.frag.mask) (l : Nat) : crossLane x u o l = r.value u o l := by
  have hrise : o.lanes.Pairwise (· < ·) := hlanes ▸ pairwise_maskLanes _ _
  have hin : ∀ k ∈ o.lanes, k < u.info.lanes := fun k hk => (mem_maskLanes.1 (hlanes ▸ hk)).1
  unfold Claims.cross at hr
  split at hr <;> cases hr
  case h_1 => exact congrArg (·, 0) (voteLane_eq ..)
  case h_2 => exact congrArg (·, 0) (voteLane_eq ..)
  case h_3 => exact congrArg (·, 0) (shuffleLane_eq ..)
  case h_4 => exact congrArg (·, 0) (shuffleLane_eq ..)
  case h_5 => exact reduceLane_eq hsize hrise hin ..
  case h_6 => exact reduceLane_eq hsize hrise hin ..
  case h_7 op =>
    by_cases hop : op = 0
    · subst hop
      rfl
    · exact (scanLane_eq _ _ hop _).trans (if_neg hop).symm
  case h_8 ty m =>
    refine Prod.ext rfl (if_congr ?_ rfl rfl)
    rw [Bool.and_eq_true, beq_iff_eq]

/-- The cross-lane instructions. -/
theorem crossLanes_complete : Claims.CrossLanes := by
  intro x r s i t o p hr h hsize ho hp
  obtain ⟨_, hlanes, _⟩ := eOperands_inv ho
  have hinfo : (atIssue i t).info = t.info := t.advance_info _
  unfold Claims.delivers
  rw [exec_cross hr, ← eachLane_eq o fun l => r.value (atIssue i t) o l]
  refine vOp_delivers (third := false) h ho hp (congrArg Except.ok (eachLane_congr fun l _ => ?_))
  exact crossLane_eq hr (by rwa [hinfo]) hlanes l

/-- Settles O34: what the lanes receive, and which lane wins at ARGM. -/
theorem crossLanes : Obligations.CrossLanes := ⟨crossLanes_complete, argWinner⟩

end Sys2Proof.Machine

/-! ## Rings -/

namespace Sys2Proof.Machine

theorem exec_ringClaim (d : BitVec 6) (a : BitVec 7) (s : State) : exec (.ringClaim d a) s = execRingClaim d a s := rfl
theorem exec_ringSig (a b : BitVec 7) (s : State) : exec (.ringSig a b) s = execRingSig a b s := rfl
theorem exec_ringWait (d : BitVec 6) (a b : BitVec 7) (s : State) : exec (.ringWait d a b) s = execRingWait d a b s := rfl
theorem exec_ringFree (a b : BitVec 7) (s : State) : exec (.ringFree a b) s = execRingFree a b s := rfl
theorem exec_ringStat (d : BitVec 6) (a : BitVec 7) (s : State) : exec (.ringStat d a) s = execRingStat d a s := rfl

/-! ### Checks that pass and checks that do not -/

theorem raiseIf_false (c : Nat) : raiseIf false c = .ok () := rfl
theorem raiseIf_true (c : Nat) : raiseIf true c = raise c := rfl
theorem waitWhile_false (w : Wait) : waitWhile false w = .ok () := rfl
theorem waitWhile_true (w : Wait) : waitWhile true w = waitOn w := rfl

/-! ### Causes whose trap value is the first source -/

/-- The A-stream reads a source alike before and after it has moved on. -/
theorem sourceA_atIssue {i : Issue} (ha : i.stream = .a) (t : Team) (core : Nat) (f : BitVec 7) :
    sourceA i (atIssue i t) core f = sourceA i t core f := by
  rw [atIssue, ha]
  rfl

/-- The default trap value of a ring, stash, publication or way-mask instruction is the value of its first source. -/
theorem valueOfA_first {x : Instr} {i : Issue} {t : Team} {core : Nat} {a : BitVec 7} {v : DWord} (ha : i.stream = .a)
    (hmajor : (decide (0x6B ≤ majorOf x) && decide (majorOf x ≤ 0x6E)) = true) (hfield : (sourceFields x).head? = some a)
    (hv : sourceA i (atIssue i t) core a = .ok v) : valueOfA i t core x = v := by
  obtain ⟨fs, hfs⟩ := List.head?_eq_some_iff.1 hfield
  have other : (majorOf x == 0x79 || (decide (0x20 ≤ majorOf x) && decide (majorOf x ≤ 0x2B))) = false := by
    simp only [Bool.and_eq_true, decide_eq_true_iff] at hmajor
    simp only [Bool.or_eq_false_iff, beq_eq_false_iff_ne, Bool.and_eq_false_iff, decide_eq_false_iff_not]
    omega
  rw [sourceA_atIssue ha] at hv
  simp only [valueOfA, other, hfs, Issue.estr_of_a ha, hv, Bool.false_eq_true, if_false]

/-- Such an instruction whose effect raises a cause without a trap value of its own. -/
theorem issue_raises_first {x : Instr} {s : State} {i : Issue} {t : Team} (may : Issue → Team → PendCause → Bool)
    {body : Issue → Team → State → Act State} {a : BitVec 7} {v : DWord} {c : Nat} (h : Issuing x s i t) (ha : i.stream = .a)
    (hmajor : (decide (0x6B ≤ majorOf x) && decide (majorOf x ≤ 0x6E)) = true) (hfield : (sourceFields x).head? = some a)
    (hv : sourceA i (atIssue i t) (coreWord s i.core) a = .ok v)
    (hb : body i (atIssue i t) (s.setTeam i.wid (atIssue i t)) = raise c) :
    issue x may s body = .next (settle s i t { value := v } (raise c)) := by
  rw [issue_trap may h hb, valueOfA_first ha hmajor hfield hv]
  rfl

/-! ### The ring of a reference (R163) -/

/-- A reference names a ring by its low three bits. -/
theorem refRing_eq (v : DWord) : refRing v = v.toNat % 8 := rfl

section RingFor
variable {t : Team} {v : DWord} {side : Ring → Option Nat} {r : Ring}

/-- A ring that is not declared. -/
theorem ringFor_undeclared (h : tabGet t.rings (v.toNat % 8) = none) : ringFor t v side = raise 0x08A := by
  simp only [ringFor, refRing_eq, h]

/-- A ring of which an engine owns the side. -/
theorem ringFor_owned (h : tabGet t.rings (v.toNat % 8) = some r) (hside : side r ≠ none) : ringFor t v side = raise 0x08C := by
  simp only [ringFor, refRing_eq, h, Option.isSome_iff_ne_none.2 hside, raiseIf_true, raise, bind, Except.bind]

/-- A ring whose side the team has. -/
theorem ringFor_own (h : tabGet t.rings (v.toNat % 8) = some r) (hside : side r = none) : ringFor t v side = .ok r := by
  simp only [ringFor, refRing_eq, h, hside, Option.isSome_none, raiseIf_false, bind, Except.bind]

end RingFor

/-- Two changes of a key that make the same of its value make the same table. -/
theorem tabMod_congr {α : Type} {t : Tab α} {n : Nat} {x : α} {f g : α → α} (h : tabGet t n = some x) (hfg : f x = g x) :
    tabMod t n f = tabMod t n g := by
  simp only [tabMod, h, hfg]

/-- A changed ring of a team, as the statements write it. -/
theorem modRing_eq {t : Team} {n : Nat} {r : Ring} {f : Ring → Ring} (h : tabGet t.rings n = some r) :
    t.modRing n f = Claims.setRing t n (f r) :=
  congrArg (fun x => ({ t with rings := x } : Team)) (tabMod_congr (g := fun _ => f r) h rfl)

/-! ### RING.CLAIM, SIG, WAIT, FREE and STAT -/

section RingInstructions
variable {s : State} {i : Issue} {t : Team} {d : BitVec 6} {a b : BitVec 7} {v n : DWord} {p : Nat} {r : Ring}

/-- The rings of a team stay where its stream moves on. -/
theorem atIssue_ring (k : Nat) : tabGet (atIssue i t).rings k = tabGet t.rings k := by rw [atIssue, Team.advance_rings]

/-- The slot that a reference names. -/
theorem refSlot_eq (v : DWord) : bitsOf v.toNat 31 16 = (v.extractLsb' 16 16).toNat := bitsOf_toNat v rfl

section Claim
variable (h : Issuing (.ringClaim d a) s i t) (hv : sourceA i (atIssue i t) (coreWord s i.core) a = .ok v)
  (hp : (atIssue i t).a.win.reg 256 d.toNat = .ok p) (hr : tabGet (atIssue i t).rings (v.toNat % 8) = some r) (hown : r.prod = none)
include h hv hp hr hown

/-- CLAIM takes a tail slot that is FREE. -/
theorem ringClaim_claims (hfree : r.slot r.tail = .free) : exec (.ringClaim d a) s = .next (doneWith s i
    (Claims.setS (Claims.setRing (atIssue i t) (v.toNat % 8) r.claim) p (BitVec.ofNat 64 r.tail))) := by
  have written : writeS ((atIssue i t).modRing (v.toNat % 8) Ring.claim) d.toNat (BitVec.ofNat 64 r.tail) = _ := writeS_eq _ hp
  rw [← modRing_eq hr, exec_ringClaim]
  refine issue_team _ h ?_
  simp only [coreWord_setTeam, refRing_eq, hv, hp, ringFor_own hr hown, hfree, bne_self_eq_false, waitWhile_false, written,
    State.setTeam_setTeam, bind, Except.bind]

/-- CLAIM waits while the tail slot is not FREE. -/
theorem ringClaim_waits (hbusy : r.slot r.tail ≠ .free) : exec (.ringClaim d a) s = .next (noteWait s i (.other (v.toNat % 8)) []) := by
  rw [exec_ringClaim]
  refine issue_wait _ h ?_
  simp only [coreWord_setTeam, refRing_eq, hv, hp, ringFor_own hr hown, bne_iff_ne.2 hbusy, waitWhile_true, waitOn, bind, Except.bind]

end Claim

section Signal
variable (h : Issuing (.ringSig a b) s i t) (ha : i.stream = .a) (hv : sourceA i (atIssue i t) (coreWord s i.core) a = .ok v)
  (hn : sourceA i (atIssue i t) (coreWord s i.core) b = .ok n) (hr : tabGet (atIssue i t).rings (v.toNat % 8) = some r) (hown : r.prod = none)
include h hv hn hr hown

/-- SIG lowers the pending count of a CLAIMED slot that has as many bytes pending. -/
theorem ringSig_lowers (hclaimed : r.slot (v.extractLsb' 16 16).toNat = .claimed) (hpend : n.toNat ≤ r.pend (v.extractLsb' 16 16).toNat) :
    exec (.ringSig a b) s = .next (doneWith s i (lowerPending (atIssue i t) (v.toNat % 8) (v.extractLsb' 16 16).toNat n.toNat)) := by
  rw [exec_ringSig]
  refine issue_team _ h ?_
  simp only [coreWord_setTeam, refRing_eq, refSlot_eq, hv, hn, ringFor_own hr hown, hclaimed, bne_self_eq_false,
    decide_eq_false (Nat.not_lt.2 hpend), raiseIf_false, State.setTeam_setTeam, bind, Except.bind]

include ha

/-- SIG of a slot that is not CLAIMED. -/
theorem ringSig_unclaimed (hother : r.slot (v.extractLsb' 16 16).toNat ≠ .claimed) :
    exec (.ringSig a b) s = .next (settle s i t { value := v } (raise 0x08B)) := by
  rw [exec_ringSig]
  refine issue_raises_first _ h ha rfl rfl hv ?_
  simp only [coreWord_setTeam, refSlot_eq, hv, hn, ringFor_own hr hown, bne_iff_ne.2 hother, raiseIf_true, raise, bind, Except.bind]

/-- SIG of more bytes than are pending. -/
theorem ringSig_exceeds (hclaimed : r.slot (v.extractLsb' 16 16).toNat = .claimed) (hpend : r.pend (v.extractLsb' 16 16).toNat < n.toNat) :
    exec (.ringSig a b) s = .next (settle s i t { value := v } (raise 0x08D)) := by
  rw [exec_ringSig]
  refine issue_raises_first _ h ha rfl rfl hv ?_
  simp only [coreWord_setTeam, refSlot_eq, hv, hn, ringFor_own hr hown, hclaimed, bne_self_eq_false, raiseIf_false, decide_eq_true hpend,
    raiseIf_true, raise, bind, Except.bind]

end Signal

section Wait
variable (h : Issuing (.ringWait d a b) s i t) (hv : sourceA i (atIssue i t) (coreWord s i.core) a = .ok v)
  (hn : sourceA i (atIssue i t) (coreWord s i.core) b = .ok n) (hp : (atIssue i t).a.win.reg 256 d.toNat = .ok p)
  (hr : tabGet (atIssue i t).rings (v.toNat % 8) = some r) (hown : r.cons = none)
include h hv hn hp hr hown

/-- WAIT gives the number of a slot that is FILLED. -/
theorem ringWait_gives (hcount : n.toNat < r.count) (hfilled : r.slot (waitSlot r n.toNat) = .filled) :
    exec (.ringWait d a b) s = .next (doneWith s i (Claims.setS (atIssue i t) p (BitVec.ofNat 64 (waitSlot r n.toNat)))) := by
  rw [exec_ringWait]
  refine issue_team _ h ?_
  simp only [coreWord_setTeam, refRing_eq, hv, hn, hp, ringFor_own hr hown, decide_eq_false (Nat.not_le.2 hcount), raiseIf_false, hfilled,
    bne_self_eq_false, waitWhile_false, writeS_eq _ hp, State.setTeam_setTeam, bind, Except.bind]

/-- WAIT waits while the slot is not FILLED. -/
theorem ringWait_waits (hcount : n.toNat < r.count) (hbusy : r.slot (waitSlot r n.toNat) ≠ .filled) :
    exec (.ringWait d a b) s = .next (noteWait s i (.other (v.toNat % 8)) []) := by
  rw [exec_ringWait]
  refine issue_wait _ h ?_
  simp only [coreWord_setTeam, refRing_eq, hv, hn, hp, ringFor_own hr hown, decide_eq_false (Nat.not_le.2 hcount), raiseIf_false,
    bne_iff_ne.2 hbusy, waitWhile_true, waitOn, bind, Except.bind]

/-- WAIT for a number that the ring has no slot for. -/
theorem ringWait_exceeds (ha : i.stream = .a) (hcount : r.count ≤ n.toNat) :
    exec (.ringWait d a b) s = .next (settle s i t { value := v } (raise 0x009)) := by
  rw [exec_ringWait]
  refine issue_raises_first _ h ha rfl rfl hv ?_
  simp only [coreWord_setTeam, hv, hn, hp, ringFor_own hr hown, decide_eq_true hcount, raiseIf_true, raise, bind, Except.bind]

end Wait

section Free
variable (h : Issuing (.ringFree a b) s i t) (hv : sourceA i (atIssue i t) (coreWord s i.core) a = .ok v)
  (hr : tabGet (atIssue i t).rings (v.toNat % 8) = some r) (hown : r.cons = none) (hfilled : r.slot r.head = .filled)
include h hv hr hown hfilled

/-- FREE with b = 96 releases a head slot that is FILLED. -/
theorem ringFree_releases (hb : b = 96) :
    exec (.ringFree a b) s = .next (doneWith s i (Claims.setRing (atIssue i t) (v.toNat % 8) r.release)) := by
  rw [← modRing_eq hr, exec_ringFree]
  refine issue_team _ h ?_
  simp only [coreWord_setTeam, refRing_eq, hv, if_pos hb, ringFor_own hr hown, hfilled, bne_self_eq_false, raiseIf_false,
    State.setTeam_setTeam, bind, Except.bind]

/-- FREE with another b pops the complete oldest entry of its queue as well. -/
theorem ringFree_pops {e : QEntry} (hb : b ≠ 96) (hcap : (t.queue (indexQueue b)).cap ≠ 0)
    (he : headEtoA (atIssue i t) (indexQueue b) = .ok e) : exec (.ringFree a b) s = .next (doneWith s i
      (Claims.setRing (dropEtoA (atIssue i t) (indexQueue b)) (v.toNat % 8) r.release)) := by
  have left : tabGet (dropEtoA (atIssue i t) (indexQueue b)).rings (v.toNat % 8) = some r := hr
  have named : queueCause (atIssue i t) (indexQueue b) true = .ok () :=
    queueCause_ok rfl (by rwa [Team.queue, atIssue, Team.advance_q])
  rw [← modRing_eq left, exec_ringFree]
  refine issue_team _ h ?_
  simp only [coreWord_setTeam, refRing_eq, hv, if_neg hb, named, he, ringFor_own left hown, hfilled, bne_self_eq_false, raiseIf_false,
    State.setTeam_setTeam, bind, Except.bind]

end Free

/-- CLAIM, SIG and WAIT stop where their ring is not the team's to use. -/
theorem ring_stops {x : Instr} {side : Ring → Option Nat} {c : Nat}
    (hx : (x = .ringClaim d a ∨ x = .ringSig a b) ∧ side = (·.prod) ∨ x = .ringWait d a b ∧ side = (·.cons)) (h : Issuing x s i t)
    (ha : i.stream = .a) (hv : sourceA i (atIssue i t) (coreWord s i.core) a = .ok v)
    (hn : sourceA i (atIssue i t) (coreWord s i.core) b = .ok n) (hp : (atIssue i t).a.win.reg 256 d.toNat = .ok p)
    (hring : ringFor (atIssue i t) v side = raise c) : exec x s = .next (settle s i t { value := v } (raise c)) := by
  rcases hx with ⟨rfl | rfl, rfl⟩ | ⟨rfl, rfl⟩
  · rw [exec_ringClaim]
    refine issue_raises_first _ h ha rfl rfl hv ?_
    simp only [coreWord_setTeam, hv, hp, hring, raise, bind, Except.bind]
  · rw [exec_ringSig]
    refine issue_raises_first _ h ha rfl rfl hv ?_
    simp only [coreWord_setTeam, hv, hn, hring, raise, bind, Except.bind]
  · rw [exec_ringWait]
    refine issue_raises_first _ h ha rfl rfl hv ?_
    simp only [coreWord_setTeam, hv, hn, hp, hring, raise, bind, Except.bind]

/-- STAT of a ring that is not declared. -/
theorem ringStat_undeclared (h : Issuing (.ringStat d a) s i t) (ha : i.stream = .a)
    (hv : sourceA i (atIssue i t) (coreWord s i.core) a = .ok v) (hr : tabGet (atIssue i t).rings (v.toNat % 8) = none) :
    exec (.ringStat d a) s = .next (settle s i t { value := v } (raise 0x08A)) := by
  rw [exec_ringStat]
  refine issue_raises_first _ h ha rfl rfl hv ?_
  simp only [coreWord_setTeam, refRing_eq, hv, hr, raise, bind, Except.bind]

end RingInstructions

/-- What CLAIM, SIG, WAIT and FREE do with a ring that the team may use. -/
theorem ringMoves : Claims.RingMoves := by
  intro s i t d a b v n p r _ u core ring hv ht
  have hr : tabGet (atIssue i t).rings (v.toNat % 8) = some r := (atIssue_ring _).trans ht
  refine ⟨fun h hp hown => ⟨ringClaim_claims h hv hp hr hown, ringClaim_waits h hv hp hr hown⟩, ?_,
    fun h hn hp hown hcount => ⟨ringWait_gives h hv hn hp hr hown hcount, ringWait_waits h hv hn hp hr hown hcount⟩, ?_⟩
  · intro h hn hown k left hk hpend
    rw [ringSig_lowers h hv hn hr hown hk hpend]
    exact congrArg (fun x => Host.Outcome.next (doneWith s i { u with rings := x })) (tabMod_congr hr rfl)
  · intro h hown hfilled freed
    refine ⟨ringFree_releases h hv hr hown hfilled, fun q e hq hcap he => ?_⟩
    rcases hq with ⟨rfl, rfl⟩ | ⟨rfl, rfl⟩ <;> exact ringFree_pops h hv hr hown hfilled (by decide) hcap he

/-- What RING.STAT gives. -/
theorem ringStatus : Claims.RingStatus := by
  intro s i t d a v p r _ hv ht h hp count
  have hr : tabGet (atIssue i t).rings (v.toNat % 8) = some r := (atIssue_ring _).trans ht
  have counted : ∀ x, r.countOf x = count x := fun x => by
    rw [Ring.countOf, ← List.countP_eq_length_filter]
    exact List.countP_congr fun k _ => by rw [beq_iff_eq, decide_eq_true_iff, Ring.slot]
  rw [exec_ringStat]
  refine issue_team _ h ?_
  simp only [coreWord_setTeam, refRing_eq, hv, hr, counted, writeS_eq _ hp, State.setTeam_setTeam, Nat.mul_comm (2 ^ _), bind, Except.bind]

/-- The causes of the ring instructions. -/
theorem ringCauses : Claims.RingCauses := by
  intro s i t d a b v n p ha u stops hv hn hp
  refine ⟨fun ht x hx h => ?_, fun r ht => ?_⟩
  · have hr : tabGet (atIssue i t).rings (v.toNat % 8) = none := (atIssue_ring _).trans ht
    rcases hx with rfl | rfl | rfl | rfl
    · exact ring_stops (.inl ⟨.inl rfl, rfl⟩) h ha hv hn hp (ringFor_undeclared hr)
    · exact ring_stops (.inl ⟨.inr rfl, rfl⟩) h ha hv hn hp (ringFor_undeclared hr)
    · exact ring_stops (.inr ⟨rfl, rfl⟩) h ha hv hn hp (ringFor_undeclared hr)
    · exact ringStat_undeclared h ha hv hr
  · have hr : tabGet (atIssue i t).rings (v.toNat % 8) = some r := (atIssue_ring _).trans ht
    exact ⟨fun hprod x hx h => ring_stops (.inl ⟨hx, rfl⟩) h ha hv hn hp (ringFor_owned hr hprod),
      fun hcons h => ring_stops (.inr ⟨rfl, rfl⟩) h ha hv hn hp (ringFor_owned hr hcons),
      fun hown h => ⟨ringSig_unclaimed h ha hv hn hr hown, ringSig_exceeds h ha hv hn hr hown⟩,
      fun hown hcount h => ringWait_exceeds h hv hn hp hr hown ha hcount⟩

/-- Settles O41: what each ring instruction does with a ring that it may use, and where it stops. -/
theorem rings : Obligations.Rings := ⟨ringMoves, ringStatus, ringCauses⟩

end Sys2Proof.Machine

/-! ## Stash maps and L2 way masks -/

namespace Sys2Proof.Machine

theorem exec_stashMap (d : BitVec 6) (a b : BitVec 7) (s : State) : exec (.stashMap d a b) s = execStashMap d a b s := rfl
theorem exec_stashUnmap (a : BitVec 7) (s : State) : exec (.stashUnmap a) s = execStashUnmap a s := rfl
theorem exec_stashClean (a : BitVec 7) (s : State) : exec (.stashClean a) s = execStashClean a s := rfl
theorem exec_l2ctlOcc (d : BitVec 6) (a : BitVec 7) (s : State) : exec (.l2ctlOcc d a) s = execL2ctlOcc d a s := rfl
theorem exec_l2ctlMask (d : BitVec 6) (s : State) : exec (.l2ctlMask d) s = execL2ctlMask d s := rfl
theorem exec_l2ctlSetmask (d : BitVec 6) (a : BitVec 7) (s : State) : exec (.l2ctlSetmask d a) s = execL2ctlSetmask d a s := rfl

/-! ### STASH.MAP (R160) -/

/-- A range that a team's stash can take: whole lines, clear of the other maps, and within what is left of the stash. -/
def stashFits (t : Team) (base len : Nat) : Prop :=
  base % 128 = 0 ∧ 0 < len ∧ len % 128 = 0 ∧ (∀ m ∈ t.stash, base + len ≤ m.2.base ∨ m.2.base + m.2.len ≤ base) ∧
    (t.stash.map fun m => m.2.len).sum + len ≤ t.info.stashBytes

/-- STASH.MAP refuses the ranges that the stash cannot take. -/
theorem stashBad_eq_false_iff (t : Team) (base len : Nat) : stashBad t base len = false ↔ stashFits t base len := by
  have clear : (t.stash.any fun p => decide (base < p.2.base + p.2.len) && decide (p.2.base < base + len)) = false ↔
      ∀ m ∈ t.stash, base + len ≤ m.2.base ∨ m.2.base + m.2.len ≤ base := by
    simp only [List.any_eq_false, Bool.and_eq_true, decide_eq_true_iff, not_and_or, not_lt]
    exact forall₂_congr fun m _ => Or.comm
  simp only [stashBad, stashFits, Bool.or_eq_false_iff, clear, bne_eq_false_iff_eq, beq_eq_false_iff_ne, decide_eq_false_iff_not, not_lt,
    Nat.pos_iff_ne_zero, and_assoc]

/-- A team's record stays where its stream moves on. -/
theorem atIssue_info (i : Issue) (t : Team) : (atIssue i t).info = t.info := t.advance_info _

/-- So does its stash. -/
theorem atIssue_stash (i : Issue) (t : Team) : (atIssue i t).stash = t.stash := t.advance_stash _

theorem stashBad_atIssue (i : Issue) (t : Team) (base len : Nat) : stashBad (atIssue i t) base len = stashBad t base len := by
  simp only [stashBad, atIssue_stash, atIssue_info]

/-- The lowest free key of a table. -/
theorem tabFree_eq_some {α : Type} {t : Tab α} {n k : Nat} (hk : k < n) (hfree : tabGet t k = none)
    (hbelow : ∀ j, j < k → (tabGet t j).isSome) : tabFree t n = some k := by
  rw [tabFree, List.find?_range_eq_some]
  refine ⟨by rw [hfree]; rfl, List.mem_range.2 hk, fun j hj => ?_⟩
  rw [Option.not_isNone, hbelow j hj]

/-- A table with every key below a number has none free. -/
theorem tabFree_eq_none {α : Type} {t : Tab α} {n : Nat} (h : ∀ k, k < n → (tabGet t k).isSome) : tabFree t n = none := by
  refine List.find?_eq_none.2 fun k hk => ?_
  rw [Option.isNone_iff_eq_none]
  exact Option.ne_none_iff_isSome.2 (h k (List.mem_range.1 hk))

section StashMap
variable {s : State} {i : Issue} {t : Team} {d : BitVec 6} {a b : BitVec 7} {v w : DWord} {p : Nat}

section Map
variable (ha : i.stream = .a) (h : Issuing (.stashMap d a b) s i t) (hv : sourceA i (atIssue i t) (coreWord s i.core) a = .ok v)
  (hw : sourceA i (atIssue i t) (coreWord s i.core) b = .ok w) (hp : (atIssue i t).a.win.reg 256 d.toNat = .ok p)
include h hv hw hp

/-- A range that fits is mapped in the lowest free map, where it can be read. -/
theorem stashMap_maps {k : Nat} (hfits : stashFits t v.toNat w.toNat) (hfree : tabFree t.stash 4 = some k) (hend : v.toNat + w.toNat ≤ 2 ^ 57)
    (hread : (probeRange s i.core t.info.ctx v.toNat w.toNat false 1).1 = none) : exec (.stashMap d a b) s = .next (doneWith s i (Claims.setS
      { atIssue i t with stash := tabSet t.stash k { base := v.toNat, len := w.toNat } } p (BitVec.ofNat 64 k))) := by
  have fits : stashBad (atIssue i t) v.toNat w.toNat = false := (stashBad_atIssue ..).trans ((stashBad_eq_false_iff ..).2 hfits)
  have read : (probeRange s i.core (atIssue i t).info.ctx v.toNat w.toNat false 1).1 = none := by rwa [atIssue_info]
  have written : writeS { atIssue i t with stash := tabSet t.stash k { base := v.toNat, len := w.toNat } } d.toNat (BitVec.ofNat 64 k) = _ :=
    writeS_eq _ hp
  rw [exec_stashMap]
  refine issue_team _ h ?_
  simp only [coreWord_setTeam, hv, hw, hp, fits, raiseIf_false, atIssue_stash, hfree, if_neg (Nat.not_lt.2 hend), probeRange_setTeam, read,
    written, State.setTeam_setTeam, bind, Except.bind]

include ha

/-- A range that does not fit is 0x090. -/
theorem stashMap_unfit (hbad : ¬stashFits t v.toNat w.toNat) :
    exec (.stashMap d a b) s = .next (settle s i t { value := v } (raise 0x090)) := by
  have bad : stashBad (atIssue i t) v.toNat w.toNat = true :=
    (stashBad_atIssue ..).trans ((Bool.not_eq_false _).mp (mt (stashBad_eq_false_iff ..).1 hbad))
  rw [exec_stashMap]
  refine issue_raises_first _ h ha rfl rfl hv ?_
  simp only [coreWord_setTeam, hv, hw, hp, bad, raiseIf_true, raise, bind, Except.bind]

/-- A range that fits meets 0x091 where all four maps are in place. -/
theorem stashMap_full (hfits : stashFits t v.toNat w.toNat) (hfull : tabFree t.stash 4 = none) :
    exec (.stashMap d a b) s = .next (settle s i t { value := v } (raise 0x091)) := by
  have fits : stashBad (atIssue i t) v.toNat w.toNat = false := (stashBad_atIssue ..).trans ((stashBad_eq_false_iff ..).2 hfits)
  rw [exec_stashMap]
  refine issue_raises_first _ h ha rfl rfl hv ?_
  simp only [coreWord_setTeam, hv, hw, hp, fits, raiseIf_false, atIssue_stash, hfull, raise, bind, Except.bind]

end Map

/-- STASH.MAP. -/
theorem stashMapped : Claims.StashMapped := by
  intro s i t d a b v w p ha h hv hw hp base len stops fits
  exact ⟨stashMap_unfit ha h hv hw hp, fun hfits hfull => stashMap_full ha h hv hw hp hfits (tabFree_eq_none hfull),
    fun hfits k hk hfree hbelow hend hread => stashMap_maps h hv hw hp hfits (tabFree_eq_some hk hfree hbelow) hend hread⟩

/-! ### STASH.UNMAP and STASH.CLEAN (R160, R161) -/

/-- An operand names a map that is in place. -/
theorem stashIndex_placed (hv : sourceA i (atIssue i t) (coreWord s i.core) a = .ok v) (hmap : (tabGet t.stash v.toNat).isSome) :
    stashIndex (s.setTeam i.wid (atIssue i t)) i (atIssue i t) a = .ok v.toNat := by
  simp only [stashIndex, coreWord_setTeam, hv, atIssue_stash, Option.isNone_eq_false_iff.2 hmap, raiseIf_false, bind, Except.bind]

/-- An operand names a map that is not in place. -/
theorem stashIndex_unplaced (hv : sourceA i (atIssue i t) (coreWord s i.core) a = .ok v) (hmap : tabGet t.stash v.toNat = none) :
    stashIndex (s.setTeam i.wid (atIssue i t)) i (atIssue i t) a = raise 0x092 := by
  simp only [stashIndex, coreWord_setTeam, hv, atIssue_stash, hmap, Option.isNone_none, raiseIf_true, raise, bind, Except.bind]

end StashMap

/-- STASH.UNMAP and STASH.CLEAN. -/
theorem stashUnmapped : Claims.StashUnmapped := by
  intro s i t a v ha hv u
  have stash : u.stash = t.stash := atIssue_stash i t
  refine ⟨fun hnone x hx h => ?_, fun m hm => ?_⟩
  · have index := stashIndex_unplaced hv hnone
    rcases hx with rfl | rfl
    · rw [exec_stashUnmap]
      refine issue_raises_first _ h ha rfl rfl hv ?_
      simp only [index, raise, bind, Except.bind]
    · rw [exec_stashClean]
      refine issue_raises_first _ h ha rfl rfl hv ?_
      simp only [index, raise, bind, Except.bind]
  · have index := stashIndex_placed hv (by rw [hm]; rfl)
    refine ⟨fun h => ?_, fun h => ?_⟩
    · rw [exec_stashUnmap]
      refine issue_team _ h ?_
      simp only [index, State.setTeam_setTeam, bind, Except.bind, ← stash]
      rfl
    · rw [exec_stashClean]
      refine issue_team _ h ?_
      simp only [index, State.setTeam_setTeam, bind, Except.bind, ← stash]
      rfl

/-- The stash instructions. -/
theorem stashMaps_complete : Claims.StashMaps := ⟨stashMapped, stashUnmapped⟩

/-! ### L2CTL (R165) -/

/-- The lines of a slice that are counted for a region. -/
theorem occupancy_eq (s : State) (node slice : Nat) : occupancy s node slice =
    if s.dev.l2Parts ≤ 1 ∨ slice / 32 / (4 / s.dev.l2Parts) = (s.region node).l2part then
      ((s.dev.l2.filter fun x => x.1 / 1024 = slice).map fun x => x.2.ways.countP fun w => w.2.node = some node).sum
    else 0 := by
  have inside : inPartition s node slice = true ↔ s.dev.l2Parts ≤ 1 ∨ slice / 32 / (4 / s.dev.l2Parts) = (s.region node).l2part := by
    simp only [inPartition, Bool.or_eq_true, decide_eq_true_iff, beq_iff_eq]
  simp only [occupancy, List.countP_eq_length_filter]
  by_cases hin : inPartition s node slice = true
  · rw [if_pos (inside.1 hin), hin, Bool.not_true, if_neg Bool.false_ne_true]
  · rw [if_neg (mt inside.2 hin), if_pos (by simpa using hin)]

/-- A region does not change with a team. -/
theorem region_setTeam (s : State) (w : Nat) (t : Team) (n : Nat) : (s.setTeam w t).region n = s.region n := rfl

/-- Regions and teams are replaced independently. -/
theorem setRegion_setTeam (s : State) (w : Nat) (t : Team) (n : Nat) (r : Region) :
    (s.setTeam w t).setRegion n r = (s.setRegion n r).setTeam w t := rfl

/-- Nor do the lines of L2. -/
theorem occupancy_setTeam (s : State) (w : Nat) (t : Team) (node slice : Nat) : occupancy (s.setTeam w t) node slice = occupancy s node slice := rfl

section WayMask
variable {s : State} {i : Issue} {t : Team} {d : BitVec 6} {a : BitVec 7} {v : DWord} {p : Nat}

section Occupancy
variable (h : Issuing (.l2ctlOcc d a) s i t) (hv : sourceA i (atIssue i t) (coreWord s i.core) a = .ok v)
include h hv

/-- OCC of a slice that there is not. -/
theorem l2ctlOcc_outside (ha : i.stream = .a) (hfar : 127 < v.toNat) :
    exec (.l2ctlOcc d a) s = .next (settle s i t { value := v } (raise 0x098)) := by
  rw [exec_l2ctlOcc]
  refine issue_raises_first _ h ha rfl rfl hv ?_
  simp only [coreWord_setTeam, hv, decide_eq_true hfar, raiseIf_true, raise, bind, Except.bind]

/-- OCC counts the lines of a slice. -/
theorem l2ctlOcc_counts (hp : (atIssue i t).a.win.reg 256 d.toNat = .ok p) (hnear : v.toNat ≤ 127) : exec (.l2ctlOcc d a) s =
    .next (doneWith s i (Claims.setS (atIssue i t) p (BitVec.ofNat 64 (occupancy s t.info.node v.toNat)))) := by
  rw [exec_l2ctlOcc]
  refine issue_team _ h ?_
  simp only [coreWord_setTeam, hv, decide_eq_false (Nat.not_lt.2 hnear), raiseIf_false, atIssue_info, occupancy_setTeam, writeS_eq _ hp,
    State.setTeam_setTeam, bind, Except.bind]

end Occupancy

/-- MASK reads the way mask of the region. -/
theorem l2ctlMask_reads (h : Issuing (.l2ctlMask d) s i t) (hp : (atIssue i t).a.win.reg 256 d.toNat = .ok p) : exec (.l2ctlMask d) s =
    .next (doneWith s i (Claims.setS (atIssue i t) p ((s.region t.info.node).fmask.setWidth 64))) := by
  rw [exec_l2ctlMask]
  refine issue_team _ h ?_
  simp only [atIssue_info, region_setTeam, writeS_eq _ hp, State.setTeam_setTeam, bind, Except.bind]

/-- The bits of an operand that the ceiling of a region allows. -/
theorem allowedMask_eq (v : DWord) (m : BitVec 16) : v.extractLsb' 0 16 &&& m = v.setWidth 16 &&& m :=
  congrArg (· &&& m) (BitVec.eq_of_toNat_eq (by simp))

section SetMask
variable (h : Issuing (.l2ctlSetmask d a) s i t) (hv : sourceA i (atIssue i t) (coreWord s i.core) a = .ok v)
include h hv

/-- SETMASK of a region whose mask is locked. -/
theorem l2ctlSetmask_locked (ha : i.stream = .a) (hlock : (s.region t.info.node).masklock = true) :
    exec (.l2ctlSetmask d a) s = .next (settle s i t { value := v } (raise 0x09A)) := by
  rw [exec_l2ctlSetmask]
  refine issue_raises_first _ h ha rfl rfl hv ?_
  simp only [coreWord_setTeam, hv, atIssue_info, region_setTeam, hlock, raiseIf_true, raise, bind, Except.bind]

variable (hopen : (s.region t.info.node).masklock = false)
include hopen

/-- SETMASK that the ceiling leaves no way. -/
theorem l2ctlSetmask_empty (ha : i.stream = .a) (hm : v.setWidth 16 &&& (s.region t.info.node).fmaskCeil = 0) :
    exec (.l2ctlSetmask d a) s = .next (settle s i t { value := v } (raise 0x099)) := by
  rw [exec_l2ctlSetmask]
  refine issue_raises_first _ h ha rfl rfl hv ?_
  simp only [coreWord_setTeam, hv, atIssue_info, region_setTeam, hopen, raiseIf_false, allowedMask_eq, hm, beq_self_eq_true, raiseIf_true, raise,
    bind, Except.bind]

/-- SETMASK sets the ways that the ceiling allows. -/
theorem l2ctlSetmask_sets (hp : (atIssue i t).a.win.reg 256 d.toNat = .ok p) {m : BitVec 16}
    (hm : v.setWidth 16 &&& (s.region t.info.node).fmaskCeil = m) (hne : m ≠ 0) :
    exec (.l2ctlSetmask d a) s = .next (doneAs ((s.setRegion t.info.node { s.region t.info.node with fmask := m }).setTeam i.wid
      (Claims.setS (atIssue i t) p (m.setWidth 64))) i) := by
  have node : (Claims.setS (atIssue i t) p (m.zeroExtend 64)).info.node = t.info.node := congrArg (·.node) (atIssue_info i t)
  rw [exec_l2ctlSetmask]
  refine issue_next _ h ?_
  simp only [coreWord_setTeam, hv, atIssue_info, region_setTeam, hopen, raiseIf_false, allowedMask_eq, hm, beq_eq_false_iff_ne.2 hne, writeS_eq _ hp,
    node, setRegion_setTeam, State.setTeam_setTeam, bind, Except.bind]

end SetMask

end WayMask

/-- The L2 way masks. -/
theorem wayMasks : Claims.WayMasks := by
  intro s i t d a v p ha u r hv hp
  refine ⟨fun h => ⟨l2ctlOcc_outside h hv ha, fun hnear => ?_⟩, fun h => l2ctlMask_reads h hp, fun h => ?_⟩
  · rw [l2ctlOcc_counts h hv hp hnear, occupancy_eq]
  · exact ⟨l2ctlSetmask_locked h hv ha, fun hopen => l2ctlSetmask_empty h hv hopen ha, fun hopen => l2ctlSetmask_sets h hv hopen hp rfl⟩

/-- Settles O42: the stash instructions and the way masks, each with its causes. -/
theorem stashMaps : Obligations.StashMaps := ⟨stashMaps_complete, wayMasks⟩

end Sys2Proof.Machine

/-! ## Fences and publication -/

namespace Sys2Proof.Machine

theorem exec_fence (sc : BitVec 3) (s : State) : exec (.fence sc) s = execFence sc s := rfl
theorem exec_publish (d : BitVec 6) (a : BitVec 7) (s : State) : exec (.publish d a) s = execPublish d a s := rfl

/-! ### What a release and a write leave of the teams -/

/-- A team but for its stash and its acquired-from table, which the writes and releases of others change. -/
def Team.bare (t : Team) : Team := { t with stash := [], acq := [] }

/-- The team in a slot, but for its stash and its acquired-from table. -/
def State.bareTeam (s : State) (w : Nat) : Option Team := (s.team? w).map Team.bare

/-- A change of every team that commutes with `bare`. -/
theorem State.bareTeam_map {s r : State} {f : Nat × Team → Nat × Team} {g : Team → Team} (hr : r.teams = s.teams.map f)
    (hkey : ∀ p, (f p).1 = p.1) (hbare : ∀ p, (f p).2.bare = g p.2.bare) (w : Nat) : r.bareTeam w = (s.bareTeam w).map g := by
  rw [State.bareTeam, State.bareTeam, State.team?, hr, tabGet_map hkey, Option.map_map, Option.map_map]
  exact congrArg (Option.map · (s.team? w)) (funext fun t => hbare (w, t))

/-- A change of every team that leaves it bare as it was. -/
theorem State.bareTeam_kept {s r : State} {f : Nat × Team → Nat × Team} (hr : r.teams = s.teams.map f) (hkey : ∀ p, (f p).1 = p.1)
    (hbare : ∀ p, (f p).2.bare = p.2.bare) (w : Nat) : r.bareTeam w = s.bareTeam w :=
  (State.bareTeam_map (g := id) hr hkey hbare w).trans Option.map_id'

/-- States with the same teams have them bare alike. -/
theorem State.bareTeam_of_teams {s r : State} (hr : r.teams = s.teams) (w : Nat) : r.bareTeam w = s.bareTeam w := by
  rw [State.bareTeam, State.bareTeam, State.team?, hr, State.team?]

/-- A slot whose team is known bare holds a team. -/
theorem State.bareTeam_some {s : State} {w : Nat} {t : Team} (h : s.bareTeam w = some t) : ∃ u, s.team? w = some u ∧ u.bare = t :=
  Option.map_eq_some_iff.1 h

theorem advanceGen_bareTeam (s : State) (wid w : Nat) : (advanceGen s wid).bareTeam w = s.bareTeam w := by
  unfold advanceGen
  dsimp only
  split
  · exact State.bareTeam_kept (f := fun p => (p.1, { p.2 with acq := p.2.acq.filter (·.1 ≠ wid) })) rfl (fun _ => rfl) (fun _ => rfl) w
  · exact State.bareTeam_of_teams rfl w

theorem recallStash_bareTeam (s : State) (keep : Option Nat) (line : Nat) (write : Bool) (w : Nat) :
    (recallStash s keep line write).bareTeam w = s.bareTeam w := by
  unfold recallStash
  split
  · rfl
  · refine State.bareTeam_kept rfl (fun p => ?_) (fun p => ?_) w <;> dsimp only <;> split <;> rfl

theorem physWrite_bareTeam (s : State) (acc : Accessor) (pa : Nat) (bs : List Byte) (attr : PageAttr) (cls : BitVec 2) (k : TagWrite) (w : Nat) :
    (physWrite s acc pa bs attr cls k).bareTeam w = s.bareTeam w := by
  have written : (physWrite s acc pa bs attr cls k).teams =
      (recallStash (invalidateOthers (l2Touch s acc.node pa attr cls) acc.core (pa / 128)) acc.wid (pa / 128) true).teams :=
    (testWatches_teams ..).trans ((writeTag_teams ..).trans (dropRelease_teams ..))
  have touched : (invalidateOthers (l2Touch s acc.node pa attr cls) acc.core (pa / 128)).teams = s.teams := l2Touch_teams ..
  rw [State.bareTeam_of_teams written, recallStash_bareTeam, State.bareTeam_of_teams touched]

/-! ### What a release and a write leave of memory -/

theorem advanceGen_mem (s : State) (wid : Nat) : (advanceGen s wid).mem = s.mem := by
  unfold advanceGen
  dsimp only
  split <;> rfl

theorem advanceGen_ctxBase (s : State) (wid : Nat) : (advanceGen s wid).dev.ctxBase = s.dev.ctxBase := by
  unfold advanceGen
  dsimp only
  split <;> rfl

theorem l2Touch_mem (s : State) (node : Option Nat) (pa : Nat) (attr : PageAttr) (cls : BitVec 2) : (l2Touch s node pa attr cls).mem = s.mem := by
  unfold l2Touch
  split
  · generalize l2Place _ _ _ _ = x
    rfl
  · rfl

theorem recallStash_mem (s : State) (keep : Option Nat) (line : Nat) (write : Bool) : (recallStash s keep line write).mem = s.mem := by
  unfold recallStash
  split <;> rfl

theorem writeTag_mem (s : State) (pa n : Nat) (k : TagWrite) : (writeTag s pa n k).mem = s.mem := by
  unfold writeTag
  split <;> rfl

theorem testWatches_mem (s : State) (pa n : Nat) : (testWatches s pa n).mem = s.mem := by
  unfold testWatches
  split <;> rfl

/-- A physical write writes its bytes. -/
theorem physWrite_mem (s : State) (acc : Accessor) (pa : Nat) (bs : List Byte) (attr : PageAttr) (cls : BitVec 2) (k : TagWrite) :
    (physWrite s acc pa bs attr cls k).mem = memWrite s.mem pa bs := by
  unfold physWrite
  rw [testWatches_mem]
  refine congrArg (memWrite · pa bs) ((writeTag_mem ..).trans ?_)
  exact (recallStash_mem ..).trans (l2Touch_mem ..)

/-- A write of bytes leaves a range beside it alone. -/
theorem memBytes_memWrite_outside (bs : List Byte) (m : List Host.Cell) (a : Nat) : ∀ (n c : Nat), c + n ≤ a ∨ a + bs.length ≤ c →
    memBytes (memWrite m a bs) c n = memBytes m c n
  | 0, _, _ => rfl
  | n + 1, c, h => by
    rw [memBytes, memBytes, memGet_memWrite_outside bs m a c (by omega), memBytes_memWrite_outside bs m a n (c + 1) (by omega)]

/-! ### FENCE (R159, R239, R252) -/

/-- The release generation goes up by 1. -/
theorem advanceGen_cur (s : State) (wid : Nat) : (genOf (advanceGen s wid) wid).cur = (genOf s wid).cur + 1 := by
  have entry : ∀ g, tabGetD {} (tabSetD {} s.dev.gens wid g) wid = g := fun g => tabGetD_tabSetD_same ..
  unfold advanceGen
  dsimp only
  split <;> exact congrArg GenEntry.cur (entry _)

/-- A wait for acknowledgements is over where none is outstanding, and below system scope. -/
theorem awaitAcks_ok {t : Team} {n : Nat} (h : n = 5 → t.acks = 0) : awaitAcks t n = .ok () := by
  refine if_neg ?_
  simpa using h

/-- What a FENCE leaves of its team: the later atomics are releases, the latest an acquire, and at system scope the stash is clean. -/
def fenceTeam (sc : BitVec 3) (i : Issue) (t : Team) : Team :=
  let t := if i.estr then t else fenceTable i.wid t
  if sc = 5 then cleanStash t else t

/-- The effect of a FENCE at a scope other than 0. -/
def fenceEffect (sc : BitVec 3) (i : Issue) (s : State) : State :=
  let s := advanceGen s i.wid
  let s := if i.estr then s else s.modTeam i.wid (fenceTable i.wid)
  if sc = 5 then s.modTeam i.wid cleanStash else s

theorem fenceEffect_team (sc : BitVec 3) (i : Issue) (s : State) :
    (fenceEffect sc i s).team? i.wid = ((advanceGen s i.wid).team? i.wid).map (fenceTeam sc i) := by
  unfold fenceEffect fenceTeam
  by_cases he : i.estr = true <;> by_cases hsc : sc = 5 <;>
    simp only [he, hsc, if_true, if_false, Bool.false_eq_true, State.modTeam_team?_same, Option.map_map, Option.map_id', Function.comp_def]

theorem fenceEffect_mem (sc : BitVec 3) (i : Issue) (s : State) : (fenceEffect sc i s).mem = s.mem := by
  rw [← advanceGen_mem s i.wid]
  unfold fenceEffect
  dsimp only
  split <;> split <;> rfl

theorem fenceEffect_genOf (sc : BitVec 3) (i : Issue) (s : State) (w : Nat) : genOf (fenceEffect sc i s) w = genOf (advanceGen s i.wid) w := by
  unfold fenceEffect
  dsimp only
  split <;> split <;> rfl

/-- At system scope every stash line is clean. -/
theorem fenceTeam_clean (i : Issue) (t : Team) : ∀ m ∈ (fenceTeam 5 i t).stash, ∀ l ∈ m.2.lines, l.2 = false := by
  intro m hm l hl
  obtain ⟨m, -, rfl⟩ := List.mem_map.1 hm
  obtain ⟨l, -, rfl⟩ := List.mem_map.1 hl
  rfl

/-- In the E-stream a FENCE leaves all of its team but its stash and its acquired-from table. -/
theorem fenceTeam_bare {i : Issue} (he : i.estr = true) (sc : BitVec 3) (t : Team) : (fenceTeam sc i t).bare = t.bare := by
  simp only [fenceTeam, he, if_true]
  split <;> rfl

/-- A team but for what a FENCE of the A-stream changes. -/
def Team.unfenced (t : Team) : Team := { t.bare with seen := none, fenced := true }

theorem fenceTeam_unfenced (sc : BitVec 3) (i : Issue) (t : Team) : (fenceTeam sc i t).unfenced = t.unfenced := by
  unfold fenceTeam
  dsimp only
  split <;> split <;> rfl

/-- What the end of an instruction changes of a team is none of what a fence changes. -/
theorem Team.issued_bare (t : Team) (x : StreamId) : (t.issued x).bare = t.bare.issued x := by cases x <;> rfl
theorem Team.issued_unfenced (t : Team) (x : StreamId) : (t.issued x).unfenced = t.unfenced.issued x := by cases x <;> rfl

section Fence
variable {s : State} {i : Issue} {t : Team} {sc : BitVec 3}

/-- A FENCE at another scope than 0 that waits for nothing. -/
theorem fence_passes (h : Issuing (.fence sc) s i t) (hsc : sc ≠ 0) (hacks : sc = 5 → t.acks = 0)
    (hcoll : i.estr = true → collFlying s (atIssue i t) i.frag = false) :
    exec (.fence sc) s = .next (doneAs (fenceEffect sc i (s.setTeam i.wid (atIssue i t))) i) := by
  have acks : awaitAcks (atIssue i t) sc.toNat = .ok () := by
    refine awaitAcks_ok fun h5 => ?_
    rw [atIssue, Team.advance_acks]
    exact hacks (BitVec.eq_of_toNat_eq h5)
  have landed : (i.estr && collFlying (s.setTeam i.wid (atIssue i t)) (atIssue i t) i.frag) = false := by
    rw [Bool.and_eq_false_imp]
    exact hcoll
  rw [exec_fence]
  refine issue_next _ h ?_
  simp only [if_neg hsc, landed, waitWhile_false, acks, bind, Except.bind]
  rfl

/-- What such a FENCE leaves. -/
theorem fence_leaves (h : Issuing (.fence sc) s i t) (hsc : sc ≠ 0) (hacks : sc = 5 → t.acks = 0)
    (hcoll : i.estr = true → collFlying s (atIssue i t) i.frag = false) :
    ∃ s' u, exec (.fence sc) s = .next s' ∧ sameMem s s' ∧ (genOf s' i.wid).cur = (genOf s i.wid).cur + 1 ∧
      s'.team? i.wid = some ((fenceTeam sc i u).issued i.stream) ∧ u.bare = (atIssue i t).bare := by
  have bare : (advanceGen (s.setTeam i.wid (atIssue i t)) i.wid).bareTeam i.wid = some (atIssue i t).bare := by
    rw [advanceGen_bareTeam, State.bareTeam, State.setTeam_team?_same, Option.map_some]
  obtain ⟨u, hu, hbare⟩ := State.bareTeam_some bare
  refine ⟨_, u, fence_passes h hsc hacks hcoll, fun k => congrArg (memGet · k) (fenceEffect_mem ..), ?_, ?_, hbare⟩
  · exact (congrArg GenEntry.cur (fenceEffect_genOf ..)).trans (advanceGen_cur ..)
  · rw [doneAs, State.modTeam_team?_same, fenceEffect_team, hu, Option.map_some, Option.map_some]

end Fence

/-- FENCE. -/
theorem fences : Claims.Fences := by
  intro s i t sc h
  have clean : ∀ u : Team, sc = 5 → ∀ m ∈ ((fenceTeam sc i u).issued i.stream).stash, ∀ l ∈ m.2.lines, l.2 = false := by
    rintro u rfl
    rw [Team.issued_stash]
    exact fenceTeam_clean i u
  refine ⟨fun hsc => ?_, fun hsc hacks ha => ?_, fun hsc hacks ha => ?_, fun hsc hacks he hcoll => ?_⟩
  · rw [exec_fence]
    exact issue_team _ h (if_pos hsc)
  · have acks : awaitAcks (atIssue i t) sc.toNat = waitOn (.other 0) := by
      refine if_pos ?_
      simpa [hsc, atIssue] using hacks
    have wide : sc ≠ 0 := by rw [hsc]; decide
    rw [exec_fence]
    refine issue_wait _ h ?_
    simp only [if_neg wide, Issue.estr_of_a ha, Bool.false_and, waitWhile_false, acks, waitOn, bind, Except.bind]
  · obtain ⟨s', u, hexec, hmem, hgen, hteam, hu⟩ := fence_leaves h hsc hacks fun he => absurd (ha.symm.trans he) Bool.false_ne_true
    refine ⟨s', _, hexec, hmem, hgen, hteam, ?_, clean u⟩
    change ((fenceTeam sc i u).issued i.stream).unfenced = ((atIssue i t).issued i.stream).unfenced
    rw [Team.issued_unfenced, Team.issued_unfenced, fenceTeam_unfenced, Team.unfenced, hu, ← Team.unfenced]
  · obtain ⟨s', u, hexec, hmem, hgen, hteam, hu⟩ := fence_leaves h hsc hacks fun _ => hcoll
    refine ⟨s', _, hexec, hmem, hgen, hteam, ?_, clean u⟩
    change ((fenceTeam sc i u).issued i.stream).bare = ((atIssue i t).issued i.stream).bare
    rw [Team.issued_bare, Team.issued_bare, fenceTeam_bare he, hu]


/-! ### PUBLISH (R164, R248) -/

/-- A flip of an object cuts the runs of every team. -/
theorem flipObject_bareTeam (s : State) (ctx : Nat) (x : Double) (w : Nat) :
    (flipObject s ctx x).bareTeam w = (s.bareTeam w).map (cutRuns ctx x.obase x.len) := by
  have commutes : ∀ t : Team, (cutRuns ctx x.obase x.len t).bare = cutRuns ctx x.obase x.len t.bare := fun t => by
    have bare : t.bare.info = t.info := rfl
    rw [cutRuns, cutRuns, bare]
    split <;> rfl
  have cut := State.bareTeam_map (s := apexWrite s (ctxDouble s ctx + 32 * x.index + 12) (natLe 4 ((x.flips + 1) % 2 ^ 32)))
    (r := flipObject s ctx x) (f := fun p => (p.1, cutRuns ctx x.obase x.len p.2)) rfl (fun _ => rfl) (fun p => commutes p.2) w
  rw [cut, apexWrite, physWrite_bareTeam]

/-- A flip of an object writes its count. -/
theorem flipObject_mem (s : State) (ctx : Nat) (x : Double) :
    (flipObject s ctx x).mem = memWrite s.mem (ctxDouble s ctx + 32 * x.index + 12) (natLe 4 ((x.flips + 1) % 2 ^ 32)) :=
  physWrite_mem ..

theorem writePublication_mem (s : State) (wid : Nat) (t : Team) (x : Double) :
    (writePublication s wid t x).mem = memWrite s.mem (x.base true + 8 * x.word) (natLe 8 ((x.flips + 1) % 2 ^ 32)) :=
  physWrite_mem ..

theorem writePublication_bareTeam (s : State) (wid : Nat) (t : Team) (x : Double) (w : Nat) :
    (writePublication s wid t x).bareTeam w = s.bareTeam w :=
  physWrite_bareTeam ..

/-- The runs that are cut have no LIMIT. -/
theorem cutRuns_limit {ctx base len : Nat} {t : Team} (hctx : t.info.ctx = ctx) : ∀ r ∈ (cutRuns ctx base len t).a.t,
    base ≤ r.2.vbase.toNat → r.2.vbase.toNat < base + len → r.2.limit = 0 := by
  intro r hr
  rw [cutRuns, if_pos hctx] at hr
  obtain ⟨q, -, rfl⟩ := List.mem_map.1 hr
  split
  case isTrue => exact fun _ _ => rfl
  case isFalse hout => exact fun hlow hhigh => absurd (by simp [hlow, hhigh]) hout

/-- A cut of runs leaves the record of a team and its scalar registers. -/
theorem cutRuns_info (ctx base len : Nat) (t : Team) : (cutRuns ctx base len t).info = t.info := by
  unfold cutRuns
  dsimp only
  split <;> rfl

theorem cutRuns_s (ctx base len : Nat) (t : Team) : (cutRuns ctx base len t).a.s = t.a.s := by
  unfold cutRuns
  dsimp only
  split <;> rfl

/-- The effect of a PUBLISH of the object `x` by the team `u`, its destination written. -/
def publishEffect (s : State) (wid : Nat) (u : Team) (x : Double) : State :=
  writePublication (flipObject ((advanceGen (s.setTeam wid u) wid).modTeam wid cleanStash) u.info.ctx x) wid u x

/-- PUBLISH writes the count into the table and into the publication word. -/
theorem publishEffect_mem (s : State) (wid : Nat) (u : Team) (x : Double) : (publishEffect s wid u x).mem =
    memWrite (memWrite s.mem (ctxDouble s u.info.ctx + 32 * x.index + 12) (natLe 4 ((x.flips + 1) % 2 ^ 32)))
      (x.base true + 8 * x.word) (natLe 8 ((x.flips + 1) % 2 ^ 32)) := by
  have mem : (advanceGen (s.setTeam wid u) wid).mem = s.mem := advanceGen_mem ..
  have table : ctxDouble ((advanceGen (s.setTeam wid u) wid).modTeam wid cleanStash) u.info.ctx = ctxDouble s u.info.ctx := by
    rw [ctxDouble, ctxDouble, State.modTeam_mem, State.modTeam_dev, mem, advanceGen_ctxBase]
    rfl
  rw [publishEffect, writePublication_mem, flipObject_mem, State.modTeam_mem, mem, table]

/-- A clean stash is none of what a bare team has. -/
theorem cleanStash_bareTeam (s : State) (w j : Nat) : (s.modTeam w cleanStash).bareTeam j = s.bareTeam j := by
  by_cases hj : j = w
  · rw [State.bareTeam, State.bareTeam, hj, State.modTeam_team?_same, Option.map_map]
    rfl
  · rw [State.bareTeam, State.modTeam_team?_other s cleanStash hj, State.bareTeam]

/-- PUBLISH cuts the runs of every team, and changes the teams no further but for their stashes and acquired-from tables. -/
theorem publishEffect_bareTeam (s : State) (wid : Nat) (u : Team) (x : Double) (w : Nat) :
    (publishEffect s wid u x).bareTeam w = ((s.setTeam wid u).bareTeam w).map (cutRuns u.info.ctx x.obase x.len) := by
  rw [publishEffect, writePublication_bareTeam, flipObject_bareTeam, cleanStash_bareTeam, advanceGen_bareTeam]

/-- The end of an instruction leaves the record and the registers of the team in each slot. -/
theorem doneAs_team_some {s : State} {i : Issue} {j : Nat} {z : Team} (h : (doneAs s i).team? j = some z) :
    ∃ y, s.team? j = some y ∧ z.info = y.info ∧ z.a = y.a := by
  by_cases hj : j = i.wid
  · subst hj
    rw [doneAs, State.modTeam_team?_same] at h
    obtain ⟨y, hy, rfl⟩ := Option.map_eq_some_iff.1 h
    exact ⟨y, hy, y.issued_info _, y.issued_a _⟩
  · rw [doneAs, State.modTeam_team?_other _ _ hj] at h
    exact ⟨z, h, rfl, rfl⟩

section Publish
variable {s : State} {i : Issue} {t : Team} {d : BitVec 6} {a : BitVec 7} {v : DWord} {p : Nat} {x : Double}

/-- A published object's runs are cut in every team of its context. -/
theorem publishEffect_cuts {u z : Team} {j : Nat} (hz : (doneAs (publishEffect s i.wid u x) i).team? j = some z) (hctx : z.info.ctx = u.info.ctx) :
    ∀ r ∈ z.a.t, x.obase ≤ r.2.vbase.toNat → r.2.vbase.toNat < x.obase + x.len → r.2.limit = 0 := by
  obtain ⟨y, hy, info, regs⟩ := doneAs_team_some hz
  have bare : (publishEffect s i.wid u x).bareTeam j = some y.bare := by rw [State.bareTeam, hy, Option.map_some]
  rw [publishEffect_bareTeam] at bare
  obtain ⟨y₀, -, hcut⟩ := Option.map_eq_some_iff.1 bare
  have cutInfo : y.info = y₀.info := (congrArg Team.info hcut).symm.trans (cutRuns_info ..)
  have cutRegs : z.a.t = (cutRuns u.info.ctx x.obase x.len y₀).a.t := congrArg AStream.t (regs.trans (congrArg Team.a hcut).symm)
  rw [cutRegs]
  exact cutRuns_limit (by rw [← hctx, info, cutInfo])

/-- The publishing team keeps its scalar registers. -/
theorem publishEffect_team (s : State) (i : Issue) (u : Team) (x : Double) :
    ∃ w, (doneAs (publishEffect s i.wid u x) i).team? i.wid = some w ∧ w.a.s = u.a.s := by
  have bare : (publishEffect s i.wid u x).bareTeam i.wid = some (cutRuns u.info.ctx x.obase x.len u.bare) := by
    rw [publishEffect_bareTeam, State.bareTeam, State.setTeam_team?_same, Option.map_some, Option.map_some]
  obtain ⟨y, hy, hcut⟩ := State.bareTeam_some bare
  refine ⟨y.issued i.stream, by rw [doneAs, State.modTeam_team?_same, hy, Option.map_some], ?_⟩
  rw [Team.issued_a]
  exact (congrArg (fun z : Team => z.a.s) hcut).trans (cutRuns_s ..)

variable (h : Issuing (.publish d a) s i t) (hv : sourceA i (atIssue i t) (coreWord s i.core) a = .ok v)
  (hp : (atIssue i t).a.win.reg 256 d.toNat = .ok p)
include h hv hp

/-- PUBLISH of an address that is no object. -/
theorem publish_no_object (ha : i.stream = .a) (hnone : ∀ x ∈ doubles s t.info.ctx, x.obase ≠ v.toNat) :
    exec (.publish d a) s = .next (settle s i t { value := v } (raise 0x094)) := by
  have missing : (doubles s t.info.ctx).find? (fun x => x.obase = v.toNat) = none :=
    List.find?_eq_none.2 fun x hx => by simpa using hnone x hx
  rw [exec_publish]
  refine issue_raises_first _ h ha rfl rfl hv ?_
  simp only [coreWord_setTeam, hv, hp, atIssue_info, doubles_setTeam, missing, raise, bind, Except.bind]

/-- PUBLISH of an object that no engine is still to write, with every write acknowledged. -/
theorem publish_flips (hx : (doubles s t.info.ctx).find? (fun x => x.obase = v.toNat) = some x)
    (hidle : ∀ c ∈ s.eng.copies, c.2.owner = some t.seqNo → writesShadow x c.2 = false) (hacks : t.acks = 0) :
    exec (.publish d a) s = .next (doneAs (publishEffect s i.wid
      (Claims.setS (atIssue i t) p (BitVec.ofNat 64 ((x.flips + 1) % 2 ^ 32))) x) i) := by
  have seq : (atIssue i t).seqNo = t.seqNo := congrArg (fun q => q.seq.toNat) (atIssue_info i t)
  have idle : ((s.setTeam i.wid (atIssue i t)).eng.copies.any fun c => c.2.owner == some t.seqNo && writesShadow x c.2) = false := by
    rw [List.any_eq_false]
    intro c hc
    simp only [Bool.and_eq_true, beq_iff_eq, not_and, Bool.not_eq_true]
    exact hidle c hc
  have acks : awaitAcks (atIssue i t) 5 = .ok () := awaitAcks_ok fun _ => (t.advance_acks _).trans hacks
  rw [exec_publish]
  refine issue_next _ h ?_
  simp only [coreWord_setTeam, hv, hp, atIssue_info, doubles_setTeam, hx, seq, idle, waitWhile_false, acks, writeS_eq _ hp, State.setTeam_setTeam,
    bind, Except.bind]
  rfl

end Publish

/-- PUBLISH. -/
theorem publication : Claims.Publication := by
  intro s i t d a v p ha h hv hp
  refine ⟨publish_no_object h hv hp ha, fun x hx hidle hacks => ?_⟩
  intro n word entry
  have flips := publish_flips h hv hp hx hidle hacks
  generalize hu : Claims.setS (atIssue i t) p (BitVec.ofNat 64 ((x.flips + 1) % 2 ^ 32)) = u at flips
  have info : u.info = t.info := by
    rw [← hu]
    exact atIssue_info i t
  have mem : (doneAs (publishEffect s i.wid u x) i).mem = memWrite (memWrite s.mem entry (n.take 4)) word n := by
    refine (publishEffect_mem ..).trans ?_
    rw [info]
    rfl
  obtain ⟨w, hw, regs⟩ := publishEffect_team s i u x
  refine ⟨_, w, flips, ?_, fun hapart => ?_, fun k hword hentry => ?_, hw, ?_, fun j z hz hctx => ?_⟩
  · rw [mem]
    exact memBytes_memWrite n _ word
  · rw [mem, memBytes_memWrite_outside n _ word 4 entry hapart]
    exact memBytes_memWrite (n.take 4) _ entry
  · rw [mem, memGet_memWrite_outside n _ word k hword, memGet_memWrite_outside (n.take 4) _ entry k hentry]
  · rw [regs, ← hu]
    exact tabGetD_tabSetD_same ..
  · exact publishEffect_cuts hz (hctx.trans (congrArg (·.ctx) info).symm)

/-- Settles O43: FENCE in each stream, and PUBLISH of an object. -/
theorem fencesAndPublication : Obligations.FencesAndPublication := ⟨fences, publication⟩

end Sys2Proof.Machine

/-! ## Lattice commands at issue -/

namespace Sys2Proof.Machine

theorem exec_mls (a : BitVec 7) (m : BitVec 4) (s : State) : exec (.mls a m) s = execMls a m s := rfl
theorem exec_mflip (s : State) : exec .mflip s = execMflip s := rfl
theorem exec_mstream (a b : BitVec 7) (m : BitVec 4) (s : State) : exec (.mstream a b m) s = execMstream a b m s := rfl
theorem exec_mtile (d : BitVec 6) (a b : BitVec 7) (m : BitVec 3) (s : State) : exec (.mtile d a b m) s = execMtile d a b m s := rfl
theorem exec_amclr (a : BitVec 7) (s : State) : exec (.amclr a) s = execAmclr a s := rfl
theorem exec_amld (a b : BitVec 7) (s : State) : exec (.amld a b) s = amCopy (.amld a b) a b .amld s := rfl
theorem exec_amst (a b : BitVec 7) (s : State) : exec (.amst a b) s = amCopy (.amst a b) a b .amst s := rfl

/-! ### A checked command joins the queue (R175) -/

section Placing
variable {x : Instr} {s : State} {i : Issue} {t : Team} {op : LatOp} {vals : List DWord}

/-- What is left of a Lattice command once it is checked: it takes its place in the queue of the team. -/
def placing (s : State) (i : Issue) (u : Team) (op : LatOp) (word : Word) (vals : List DWord) : Act State := do
  let u ← placeCommand u op word vals
  .ok (s.setTeam i.wid u)

/-- With fewer than eight commands not started the command joins the queue. -/
theorem placing_joins {u : Team} (h : Claims.unstarted u < 8) :
    placing s i u op (encode x) vals = .ok (s.setTeam i.wid (Claims.queued u op x vals)) := by
  have room : (u.lat.filter fun c => !c.started).length < 8 := by rwa [← List.countP_eq_length_filter]
  simp only [placing, placeCommand, decide_eq_false (Nat.not_le.2 room), waitWhile_false, bind, Except.bind]
  rfl

/-- With eight commands not started it waits. -/
theorem placing_waits {u : Team} {word : Word} (h : 8 ≤ Claims.unstarted u) :
    placing s i u op word vals = .error (.wait (.lattice u.latSeq) []) := by
  have full : 8 ≤ (u.lat.filter fun c => !c.started).length := by rwa [← List.countP_eq_length_filter]
  simp only [placing, placeCommand, decide_eq_true full, waitWhile_true, waitOn, bind, Except.bind]

/-- A Lattice command whose checks leave it to be placed joins the queue, or waits while that is full. -/
theorem issue_places {body : Issue → Team → State → Act State} (h : Issuing x s i t)
    (hb : body i (atIssue i t) (s.setTeam i.wid (atIssue i t)) =
      placing (s.setTeam i.wid (atIssue i t)) i (atIssue i t) op (encode x) vals) :
    (Claims.unstarted t < 8 → issue x latRaises s body = .next (doneWith s i (Claims.queued (atIssue i t) op x vals))) ∧
    (8 ≤ Claims.unstarted t → issue x latRaises s body = .next (noteWait s i (.lattice t.latSeq) [])) := by
  rw [← unstarted_atIssue i]
  refine ⟨fun room => issue_team _ h ?_, fun full => issue_wait _ h ?_⟩
  · rw [hb, placing_joins room, State.setTeam_setTeam]
  · rw [hb, placing_waits full, atIssue, Team.advance_latSeq]

end Placing

/-! ### The checks of operand words (R179) -/

/-- The plane bytes, row bytes and scales of a mode, the one that R168 leaves out included. -/
theorem modeSizes_low (m : BitVec 4) :
    Claims.modeSizes (m.toNat % 8) = (planeBytes (m.toNat % 8), rowBytes (m.toNat % 8), isMx (m.toNat % 8)) := by
  have : ∀ k < 8, Claims.modeSizes k = (planeBytes k, rowBytes k, isMx k) := by decide
  exact this _ (Nat.mod_lt _ (by decide))

/-- An operand word is refused exactly where it is out of order. -/
theorem wordBad_eq_false_iff (u : Team) (w : DWord) (size scales : Nat) :
    wordBad u w size scales = false ↔ Claims.operandWord u w size scales := by
  have data : wordData w = (w.extractLsb' 0 20).toNat := bitsOf_toNat w rfl
  have scale : wordScale w = (w.extractLsb' 40 20).toNat := bitsOf_toNat w rfl
  have zero : ∀ {n : Nat} (y : BitVec n), y = 0 ↔ y.toNat = 0 := fun y => BitVec.toNat_inj.symm.trans (by simp)
  simp only [wordBad, Claims.operandWord, data, scale, bitsOf_toNat w (hi := 31) (lo := 26) (n := 6) rfl,
    bitsOf_toNat w (hi := 39) (lo := 38) (n := 2) rfl, bitsOf_toNat w (hi := 63) (lo := 60) (n := 4) rfl, zero, Bool.or_eq_false_iff,
    bne_eq_false_iff_eq, Bool.and_eq_false_iff, decide_eq_false_iff_not, Nat.not_lt, and_assoc]

/-- An operand word out of order is refused. -/
theorem wordBad_eq_true {u : Team} {w : DWord} {size scales : Nat} (h : ¬Claims.operandWord u w size scales) :
    wordBad u w size scales = true := by
  rwa [← wordBad_eq_false_iff, Bool.not_eq_false] at h

section Checks
variable {s : State} {i : Issue} {u : Team} {w h : DWord} {k : Nat} {m : BitVec 4}

/-- What MLS checks. -/
theorem checkMls_cases (u : Team) (m : BitVec 4) (w : DWord) :
    let z := Claims.modeSizes (m.toNat % 8)
    (Claims.operandWord u w z.1 (if z.2.2 then 256 else 0) → checkMls u m w = .ok (.mls m w)) ∧
    (¬Claims.operandWord u w z.1 (if z.2.2 then 256 else 0) → checkMls u m w = raise 0x106) := by
  rw [modeSizes_low]
  refine ⟨fun good => ?_, fun bad => ?_⟩
  · simp only [checkMls, mode_low, wordBad_eq_false good, raiseIf_false, bind, Except.bind]
  · simp only [checkMls, mode_low, wordBad_eq_true bad, raiseIf_true, raise, bind, Except.bind]

/-- MSTREAM passes its checks, in whichever mode. -/
theorem checkMstream_passes (hold : Claims.holdsTile s i h k)
    (hw : let z := Claims.modeSizes (m.toNat % 8)
      let n := (w.extractLsb' 32 6).toNat + 1
      Claims.operandWord u w (n * z.2.1) (if z.2.2 then 4 * n else 0) ∧ (w.extractLsb' 20 6).toNat + n ≤ 64 ∧
        ∃ p, (Claims.planes u).stationary = some p ∧ p.mode.toNat % 8 = m.toNat % 8) :
    checkMstream s i u m h w = .ok (.mstream m k w) := by
  obtain ⟨hword, hrows, p, hp, hmode⟩ := hw
  have good : amHandleBad h = false := by
    obtain ⟨hk, rfl, -⟩ := hold
    exact amHandleBad_eq_false hk
  have rows : wordRows w = (w.extractLsb' 32 6).toNat + 1 := congrArg (· + 1) (bitsOf_toNat w rfl)
  have row0 : wordRow0 w = (w.extractLsb' 20 6).toNat := bitsOf_toNat w rfl
  rw [modeSizes_low, ← rows] at hword
  rw [← rows, ← row0] at hrows
  simp only [checkMstream, good, mode_low, wordBad_eq_false hword, decide_eq_false (Nat.not_lt.2 hrows), heldTile_eq hold, planesAfter_eq, hp,
    Option.any_some, hmode, beq_self_eq_true, Bool.not_true, raiseIf_false, bind, Except.bind]

/-- AMLD and AMST refuse an operand word out of order once the handle is well formed. -/
theorem checkAmCopy_refused {op : Nat → DWord → LatOp} (hold : Claims.holdsTile s i h k) (hw : ¬Claims.operandWord u w 16384 0) :
    checkAmCopy s i u h w op = raise 0x106 := by
  obtain ⟨hk, rfl, -⟩ := hold
  simp only [checkAmCopy, amHandleBad_eq_false hk, wordBad_eq_true hw, raiseIf_false, raiseIf_true, raise, bind, Except.bind]

/-- A handle that no AM tile has is 0x100. -/
theorem heldTile_malformed (hbad : h.extractLsb' 4 60 ≠ 0x100) : heldTile s i h = raise 0x100 := by
  have bad : amHandleBad h = true := by
    rw [amHandleBad, bitsOf_toNat h (n := 60) rfl, bne_iff_ne]
    exact mt (BitVec.eq_of_toNat_eq (y := 0x100)) hbad
  simp only [heldTile, bad, raiseIf_true, raise, bind, Except.bind]

/-- The tile of another team, or of none, is 0x103. -/
theorem heldTile_foreign (hgood : h.extractLsb' 4 60 = 0x100) (howner : ((s.core i.core).tile (h.toNat % 16)).owner ≠ some i.wid) :
    heldTile s i h = raise 0x103 := by
  have good : amHandleBad h = false := by
    rw [amHandleBad, bitsOf_toNat h (n := 60) rfl, hgood]
    rfl
  simp only [heldTile, good, bne_iff_ne.2 howner, raiseIf_false, raiseIf_true, raise, bind, Except.bind]

/-! ### The checks of MTILE (R171 to R173, R182) -/

/-- A memory handle in order is not refused. -/
theorem memHandleBad_eq_false {isA : Bool} {n : Nat} (hres : h.extractLsb' 12 4 = 0) (hidx : (h.extractLsb' 0 12).toNat < n)
    (hks : if isA then (h.extractLsb' 56 8).toNat ≠ 0 else (h.extractLsb' 56 8).toNat = 0) : memHandleBad isA n h = false := by
  have idx : bitsOf h.toNat 11 0 = (h.extractLsb' 0 12).toNat := bitsOf_toNat h rfl
  have res : bitsOf h.toNat 15 12 = 0 := (bitsOf_toNat h (n := 4) rfl).trans (by rw [hres]; rfl)
  have ks : bitsOf h.toNat 63 56 = (h.extractLsb' 56 8).toNat := bitsOf_toNat h rfl
  cases isA <;> simp_all [memHandleBad]

/-- A tile all of whose K steps begin within the tensor. -/
theorem beyond_eq_false {x : TileSrc} {isA : Bool} {ks : Nat} (h : ∀ st, st < ks → (x.origin isA st).1 < x.rows ∧ (x.origin isA st).2 < x.cols) :
    x.beyond isA ks = false := by
  simp only [TileSrc.beyond, List.any_eq_false, List.mem_range, Bool.or_eq_true, decide_eq_true_eq, not_or, Nat.not_le]
  exact h

/-- An operand in memory reads nothing of scratch. -/
theorem outside_eq_false {x : TileSrc} (h : x.scratch = false) (u : Team) (isA : Bool) (ks : Nat) : x.outside u isA ks = false := by
  rw [TileSrc.outside, h, Bool.false_and]

end Checks

/-! ### The commands -/

/-- A Lattice command that is accepted is left to be placed. -/
theorem accepted_places {x : Instr} {s : State} {i : Issue} {t : Team} {op : LatOp} {vals : List DWord}
    (hx : Claims.accepted s i (atIssue i t) x op vals) : ∃ body, exec x s = issue x latRaises s body ∧
      body i (atIssue i t) (s.setTeam i.wid (atIssue i t)) =
        placing (s.setTeam i.wid (atIssue i t)) i (atIssue i t) op (encode x) vals := by
  unfold Claims.accepted at hx
  dsimp only at hx
  split at hx
  case h_1 a m =>
    obtain ⟨w, hw, rfl, rfl, hword⟩ := hx
    refine ⟨_, exec_mls a m s, ?_⟩
    simp only [coreWord_setTeam, hw, (checkMls_cases _ m w).1 hword, bind, Except.bind]
    rfl
  case h_2 =>
    obtain ⟨rfl, rfl, hloaded⟩ := hx
    refine ⟨_, exec_mflip s, ?_⟩
    have loaded : (Claims.planes (atIssue i t)).shadow.isNone = false := by rwa [Option.isNone_eq_false_iff, Option.isSome_iff_ne_none]
    simp only [planesAfter_eq, loaded, raiseIf_false, bind, Except.bind]
    rfl
  case h_3 a b m =>
    obtain ⟨h, w, k, hh, hw, rfl, rfl, hold, hrest⟩ := hx
    refine ⟨_, exec_mstream a b m s, ?_⟩
    simp only [coreWord_setTeam, hh, hw, checkMstream_passes (s := s.setTeam i.wid (atIssue i t)) hold hrest, bind, Except.bind]
    rfl
  case h_4 d a b m =>
    obtain ⟨ha, hb, hc, k, sa, sb, ks, hsa, hsb, hsc, hold, rfl, rfl, rfl, hks, hkb, handles, ra, rb, inside, ma, mb⟩ := hx
    refine ⟨_, exec_mtile d a b m s, ?_⟩
    obtain ⟨resA, idxA⟩ := handles ha (.inl rfl)
    obtain ⟨resB, idxB⟩ := handles hb (.inr rfl)
    have goodC : amHandleBad hc = false := by
      obtain ⟨hk, rfl, -⟩ := hold
      exact amHandleBad_eq_false hk
    have goodA : memHandleBad true (atIssue i t).info.kernel.ntiles ha = false := memHandleBad_eq_false resA idxA hks
    have goodB : memHandleBad false (atIssue i t).info.kernel.ntiles hb = false := memHandleBad_eq_false resB idxB (by rw [hkb]; rfl)
    have steps : bitsOf ha.toNat 63 56 = (ha.extractLsb' 56 8).toNat := bitsOf_toNat ha rfl
    have index : ∀ h : DWord, bitsOf h.toNat 11 0 = (h.extractLsb' 0 12).toNat := fun h => bitsOf_toNat h rfl
    have withinA : sa.beyond true (ha.extractLsb' 56 8).toNat = false :=
      beyond_eq_false fun st hst => ⟨(inside st hst).1, (inside st hst).2.1⟩
    have withinB : sb.beyond false (ha.extractLsb' 56 8).toNat = false :=
      beyond_eq_false fun st hst => ⟨(inside st hst).2.2.1, (inside st hst).2.2.2⟩
    simp only [coreWord_setTeam, hsa, hsb, hsc, goodA, goodB, goodC, steps, index, kernelDescriptor, ra, rb, withinA, withinB,
      outside_eq_false ma, outside_eq_false mb, heldTile_eq (s := s.setTeam i.wid (atIssue i t)) hold, Bool.or_self, raiseIf_false, bind,
      Except.bind]
    rfl
  case h_5 a =>
    obtain ⟨h, k, hh, rfl, rfl, hold⟩ := hx
    refine ⟨_, exec_amclr a s, ?_⟩
    simp only [coreWord_setTeam, hh, heldTile_eq (s := s.setTeam i.wid (atIssue i t)) hold, bind, Except.bind]
    rfl
  case h_6 a b =>
    obtain ⟨h, w, k, hh, hw, rfl, rfl, hold, hword⟩ := hx
    refine ⟨_, exec_amld a b s, ?_⟩
    simp only [coreWord_setTeam, hh, hw, checkAmCopy_eq (s := s.setTeam i.wid (atIssue i t)) hold hword, bind, Except.bind]
    rfl
  case h_7 a b =>
    obtain ⟨h, w, k, hh, hw, rfl, rfl, hold, hword⟩ := hx
    refine ⟨_, exec_amst a b s, ?_⟩
    simp only [coreWord_setTeam, hh, hw, checkAmCopy_eq (s := s.setTeam i.wid (atIssue i t)) hold hword, bind, Except.bind]
    rfl
  case h_8 => exact hx.elim

/-- Accepted commands join the queue in order. -/
theorem latticeCommands_complete : Claims.LatticeCommands := by
  intro x s i t op vals h _ hx
  obtain ⟨body, hexec, hbody⟩ := accepted_places hx
  rw [hexec]
  exact issue_places h hbody

section Stops
variable {s : State} {i : Issue} {t : Team} {a b : BitVec 7} {v w : DWord}

/-- MLS of an operand word out of order. -/
theorem mls_stops {m : BitVec 4} (h : Issuing (.mls a m) s i t) (hw : sourceA i (atIssue i t) (coreWord s i.core) a = .ok w)
    (bad : let z := Claims.modeSizes (m.toNat % 8)
      ¬Claims.operandWord (atIssue i t) w z.1 (if z.2.2 then 256 else 0)) :
    ∃ d, exec (.mls a m) s = .next (settle s i t d (raise 0x106)) := by
  refine ⟨_, (exec_mls a m s).trans (issue_trap _ h ?_)⟩
  simp only [coreWord_setTeam, hw, (checkMls_cases _ m w).2 bad, raise, bind, Except.bind]

/-- MFLIP without a shadow plane. -/
theorem mflip_stops (h : Issuing .mflip s i t) (hempty : (Claims.planes (atIssue i t)).shadow = none) :
    ∃ d, exec .mflip s = .next (settle s i t d (raise 0x105)) := by
  refine ⟨_, (exec_mflip s).trans (issue_trap _ h ?_)⟩
  simp only [planesAfter_eq, hempty, Option.isNone_none, raiseIf_true, raise, bind, Except.bind]

/-- AMCLR of a handle that names no tile of the team. -/
theorem amclr_stops {c : Nat} (h : Issuing (.amclr a) s i t) (hv : sourceA i (atIssue i t) (coreWord s i.core) a = .ok v)
    (hc : heldTile (s.setTeam i.wid (atIssue i t)) i v = raise c) : ∃ d, exec (.amclr a) s = .next (settle s i t d (raise c)) := by
  refine ⟨_, (exec_amclr a s).trans (issue_trap _ h ?_)⟩
  simp only [coreWord_setTeam, hv, hc, raise, bind, Except.bind]

/-- AMLD of an operand word out of order. -/
theorem amld_stops {k : Nat} (h : Issuing (.amld a b) s i t) (hv : sourceA i (atIssue i t) (coreWord s i.core) a = .ok v)
    (hw : sourceA i (atIssue i t) (coreWord s i.core) b = .ok w) (hold : Claims.holdsTile s i v k)
    (bad : ¬Claims.operandWord (atIssue i t) w 16384 0) : ∃ d, exec (.amld a b) s = .next (settle s i t d (raise 0x106)) := by
  refine ⟨_, (exec_amld a b s).trans (issue_trap _ h ?_)⟩
  simp only [coreWord_setTeam, hv, hw, checkAmCopy_refused (s := s.setTeam i.wid (atIssue i t)) hold bad, raise, bind, Except.bind]

end Stops

/-- What the checks of Lattice commands raise. -/
theorem latticeCauses : Claims.LatticeCauses := by
  intro x s i t h _ u src stops
  refine ⟨?_, ?_, ?_, ?_⟩
  · rintro a m w rfl hw z bad
    exact mls_stops h hw bad
  · rintro rfl empty
    exact mflip_stops h empty
  · rintro a v rfl hv
    exact ⟨fun bad => amclr_stops h hv (heldTile_malformed bad), fun good foreign => amclr_stops h hv (heldTile_foreign good foreign)⟩
  · rintro a b v w k rfl hv hw hold bad
    exact amld_stops h hv hw hold bad

/-- Settles O39: an accepted command joins the queue of its team, and a command that is not accepted raises its cause. -/
theorem latticeCommands : Obligations.LatticeCommands := ⟨latticeCommands_complete, latticeCauses⟩

end Sys2Proof.Machine

/-! ## Accumulator tiles -/

namespace Sys2Proof.Machine

theorem exec_amalloc (d : BitVec 6) (s : State) : exec (.amalloc d) s = execAmalloc d s := rfl
theorem exec_amfree (a : BitVec 7) (s : State) : exec (.amfree a) s = execAmfree a s := rfl
theorem exec_mwait (a : BitVec 7) (s : State) : exec (.mwait a) s = execMwait a s := rfl
theorem exec_amrd (n : BitVec 1) (d : BitVec 6) (a b : BitVec 7) (r : BitVec 2) (s : State) :
    exec (.amrd n d a b r) s = execAmrd n d a b r s := rfl

/-! ### AMALLOC (R184) -/

section Alloc
variable {s : State} {i : Issue} {t : Team} {d : BitVec 6} {p : Nat}

/-- The tiles of core `c` that team `w` holds, counted. -/
theorem heldTiles_length (c : Core) (w : Nat) : (heldTiles c w).length = (List.range 16).countP fun k => (c.tile k).owner = some w :=
  List.countP_eq_length_filter.symm

/-- The lowest free tile of team space. -/
theorem freeTile_eq_some {c : Core} {k : Nat} (hk : k + c.ttiles < 16) (hfree : (c.tile k).owner = none)
    (hbelow : ∀ j, j < k → (c.tile j).owner ≠ none) : ((List.range (16 - c.ttiles)).find? fun k => (c.tile k).owner.isNone) = some k := by
  rw [List.find?_range_eq_some]
  refine ⟨by rw [hfree]; rfl, List.mem_range.2 (by omega), fun j hj => ?_⟩
  rw [Bool.not_eq_true', Option.isNone_eq_false_iff, Option.isSome_iff_ne_none]
  exact hbelow j hj

/-- No tile of team space is free. -/
theorem freeTile_eq_none {c : Core} (h : ∀ k, k + c.ttiles < 16 → (c.tile k).owner ≠ none) :
    ((List.range (16 - c.ttiles)).find? fun k => (c.tile k).owner.isNone) = none := by
  rw [List.find?_eq_none]
  intro k hk
  rw [Option.isNone_iff_eq_none]
  exact h k (by have := List.mem_range.1 hk; omega)

variable (h : Issuing (.amalloc d) s i t) (hp : (atIssue i t).a.win.reg 256 d.toNat = .ok p)
include h hp

/-- AMALLOC of a team at its quota. -/
theorem amalloc_refused (hquota : t.info.amq ≤ (heldTiles (s.core i.core) i.wid).length) :
    exec (.amalloc d) s = .next (settle s i t {} (raise 0x104)) := by
  have sourceless : valueOfA i t (coreWord s i.core) (.amalloc d) = 0 := rfl
  rw [exec_amalloc, execAmalloc, issue_trap (c := 0x104) (v := none) latRaises h, sourceless]
  · rfl
  · simp only [State.setTeam_core, atIssue_info, hp, decide_eq_true hquota, raiseIf_true, raise, bind, Except.bind]

/-- AMALLOC takes the lowest free tile. -/
theorem amalloc_takes (hquota : (heldTiles (s.core i.core) i.wid).length < t.info.amq) {k : Nat}
    (hk : ((List.range (16 - (s.core i.core).ttiles)).find? fun k => ((s.core i.core).tile k).owner.isNone) = some k) :
    exec (.amalloc d) s = .next (doneAs ((s.setCore i.core ((s.core i.core).setTile k { owner := some i.wid })).setTeam i.wid
      (Claims.setS (atIssue i t) p (BitVec.ofNat 64 (0x1000 + k)))) i) := by
  refine (exec_amalloc d s).trans (issue_next _ h ?_)
  simp only [State.setTeam_core, atIssue_info, hp, decide_eq_false (Nat.not_le.2 hquota), raiseIf_false, hk, writeS_eq _ hp, bind, Except.bind]
  exact congrArg Except.ok (State.setTeam_setTeam (s.setCore i.core _) i.wid (atIssue i t) _)

/-- With no free tile AMALLOC waits. -/
theorem amalloc_waits (hquota : (heldTiles (s.core i.core) i.wid).length < t.info.amq)
    (hnone : ((List.range (16 - (s.core i.core).ttiles)).find? fun k => ((s.core i.core).tile k).owner.isNone) = none) :
    exec (.amalloc d) s = .next (noteWait s i .amalloc []) := by
  refine (exec_amalloc d s).trans (issue_wait _ h ?_)
  simp only [State.setTeam_core, atIssue_info, hp, decide_eq_false (Nat.not_le.2 hquota), raiseIf_false, hnone, waitOn, bind, Except.bind]

end Alloc

/-- AMALLOC. -/
theorem amAlloc : Claims.AmAlloc := by
  intro s i t d p h _ hp c held
  have counted : held = (heldTiles c i.wid).length := (heldTiles_length c i.wid).symm
  rw [counted]
  exact ⟨amalloc_refused h hp, fun hquota k hk hfree hbelow => amalloc_takes h hp hquota (freeTile_eq_some hk hfree hbelow),
    fun hquota hnone => amalloc_waits h hp hquota (freeTile_eq_none hnone)⟩

/-! ### AMFREE (R184) and MWAIT (R187) -/

/-- The commands of a team stay where its stream moves on. -/
theorem atIssue_lat (i : Issue) (t : Team) : (atIssue i t).lat = t.lat := t.advance_lat _

/-- So does the number of the next. -/
theorem atIssue_latSeq (i : Issue) (t : Team) : (atIssue i t).latSeq = t.latSeq := t.advance_latSeq _

/-- AMFREE. -/
theorem amFree : Claims.AmFree := by
  intro s i t a v k h _ hv hold c named
  have naming : (t.lat.any fun x => x.op.tile == some k) = true ↔ named := by
    simp only [List.any_eq_true, beq_iff_eq, named]
  rw [exec_amfree]
  refine ⟨fun free => issue_next _ h ?_, fun busy => issue_wait _ h ?_⟩
  · rw [← naming, Bool.not_eq_true] at free
    simp only [coreWord_setTeam, hv, heldTile_eq (s := s.setTeam i.wid (atIssue i t)) hold, atIssue_lat, free, waitWhile_false, bind,
      Except.bind]
    rfl
  · simp only [coreWord_setTeam, hv, heldTile_eq (s := s.setTeam i.wid (atIssue i t)) hold, atIssue_lat, atIssue_latSeq, naming.2 busy,
      waitWhile_true, waitOn, bind, Except.bind]

/-- MWAIT. -/
theorem latticeWait : Claims.LatticeWait := by
  intro s i t a n h _ hn
  rw [exec_mwait]
  refine ⟨fun few => issue_team _ h ?_, fun many => issue_wait _ h ?_⟩
  · simp only [coreWord_setTeam, hn, atIssue_lat, decide_eq_false (Nat.not_lt.2 few), waitWhile_false, bind, Except.bind]
  · simp only [coreWord_setTeam, hn, atIssue_lat, atIssue_latSeq, decide_eq_true many, waitWhile_true, waitOn, bind, Except.bind]

/-! ### AMRD (R186) -/

section Read
variable {s : State} {i : Issue} {t : Team} {n : BitVec 1} {d : BitVec 6} {a b : BitVec 7} {r : BitVec 2} {o : ELanes} {p : Nat}

/-- An element of a tile, raw or rounded to BF16 or FP16. -/
def amElement (r : BitVec 2) (x : AmTile) (e : Nat) : Word × FpFlags :=
  let w := tabGetD 0 x.data e
  if r = 0 then (w, 0)
  else
    let v := fpDecode .f32 w.toNat
    let y := fpRound (if r = 1 then .bf16 else .f16) .rne true v
    (BitVec.ofNat 32 y.1, y.2 ||| sigFlag v)

/-- The tile that lane `l` names. -/
def amLane (o : ELanes) (l : Nat) : Nat := (o.arg 0 l).toNat % 16

/-- What AMRD does with its operands. -/
def amrdLanes (c : Core) (r : BitVec 2) (i : Issue) (u : Team) (o : ELanes) : Act EResult := do
  laneCause o 0x103 fun l => (c.tile (amLane o l)).owner != some i.wid
  laneCause o 0x102 fun l => decide (4096 ≤ (o.arg 1 l).toNat)
  waitWhile (o.lanes.any fun l => tileWriting c u i.wid (amLane o l)) (.lattice u.latSeq)
  .ok (eachLane o fun l => amElement r (c.tile (amLane o l)) (o.arg 1 l).toNat)

/-- AMRD as a lane instruction with a v result. -/
theorem exec_amrd_eq (s : State) : exec (.amrd n d a b r) s =
    vOp (.amrd n d a b r) n d [(a, .int), (b, .int)] false 7 (fun i u o => amrdLanes (s.core i.core) r i u o) s := rfl

/-- Whether a command writes a tile does not depend on where the streams of its team stand. -/
theorem tileWriting_atIssue (c : Core) (i : Issue) (t : Team) (w k : Nat) : tileWriting c (atIssue i t) w k = tileWriting c t w k := by
  rw [tileWriting, atIssue_lat, tileWriting]

/-- A lane instruction with a v result that waits. -/
theorem vOp_waits {x : Instr} {fs : ESources} {third : Bool} {pipe : Nat} {f : Issue → Team → ELanes → Act EResult} {w : Wait}
    (h : Issuing x s i t) (ho : eOperands i (atIssue i t) (coreWord s i.core) fs (if third then some d else none) = .ok o)
    (hp : destV (atIssue i t) o n d = .ok p) (hr : f i (atIssue i t) o = waitOn w) :
    vOp x n d fs third pipe f s = .next (noteWait s i w []) :=
  issue_wait plain h ((laneBody_eq _ ho hp).trans (by simp [hr, bind, Except.bind, waitOn]))

section Lanes
variable {c : Core} {u : Team}

/-- A lane that names a tile of another team, or of none. -/
theorem amrdLanes_foreign {l : Nat} (hl : o.lanes.find? (fun l => (c.tile (amLane o l)).owner != some i.wid) = some l) :
    amrdLanes c r i u o = raiseWith 0x103 { lane := some l, value := o.arg 1 l ++ o.arg 0 l } := by
  simp only [amrdLanes, laneCause_raises _ hl, raiseWith, bind, Except.bind]

variable (held : ∀ l ∈ o.lanes, (c.tile (amLane o l)).owner = some i.wid)
include held

/-- A lane whose element number is above 4,095. -/
theorem amrdLanes_outside {l : Nat} (hl : o.lanes.find? (fun l => decide (4096 ≤ (o.arg 1 l).toNat)) = some l) :
    amrdLanes c r i u o = raiseWith 0x102 { lane := some l, value := o.arg 1 l ++ o.arg 0 l } := by
  have mine := laneCause_ok 0x103 fun l hl => bne_eq_false_iff_eq.2 (held l hl)
  simp only [amrdLanes, mine, laneCause_raises _ hl, raiseWith, bind, Except.bind]

variable (inside : ∀ l ∈ o.lanes, (o.arg 1 l).toNat < 4096)
include inside

/-- With every lane in order AMRD reads, or waits while a command writes one of its tiles. -/
theorem amrdLanes_reads : amrdLanes c r i u o =
    if o.lanes.any fun l => tileWriting c u i.wid (amLane o l) then waitOn (.lattice u.latSeq)
    else .ok (eachLane o fun l => amElement r (c.tile (amLane o l)) (o.arg 1 l).toNat) := by
  have mine := laneCause_ok 0x103 fun l hl => bne_eq_false_iff_eq.2 (held l hl)
  have near := laneCause_ok 0x102 fun l hl => decide_eq_false (Nat.not_le.2 (inside l hl))
  simp only [amrdLanes, mine, near, bind, Except.bind]
  cases o.lanes.any fun l => tileWriting c u i.wid (amLane o l) <;> rfl

end Lanes

/-- AMRD. -/
theorem readAccumulator : Claims.ReadAccumulator := by
  intro n d a b r s i t o p x h ho hp c k held inside quiet
  have busy : (o.lanes.any fun l => tileWriting c (atIssue i t) i.wid (amLane o l)) = true ↔ ¬quiet := by
    simp only [List.any_eq_true, tileWriting_atIssue, quiet, not_forall, Bool.not_eq_false, exists_prop]
    rfl
  have foreign : (fun l => decide ((c.tile (k l)).owner ≠ some i.wid)) = fun l => (c.tile (k l)).owner != some i.wid :=
    funext fun l => Bool.eq_iff_iff.2 (decide_eq_true_iff.trans bne_iff_ne.symm)
  refine ⟨fun mine near still => ?_, fun l hl => ?_, fun mine l hl => ?_, fun mine near hq => ?_⟩
  · have reads := (amrdLanes_reads (r := r) (u := atIssue i t) mine near).trans (if_neg fun hb => busy.1 hb still)
    change Claims.delivers x s i (atIssue i t) o n p 7 fun l => amElement r (c.tile (amLane o l)) (o.arg 1 l).toNat
    rw [Claims.delivers, exec_amrd_eq, ← eachLane_eq]
    exact vOp_delivers (third := false) h ho hp reads
  · rw [foreign] at hl
    rw [exec_amrd_eq]
    exact vOp_raises (third := false) h ho hp (amrdLanes_foreign hl)
  · rw [exec_amrd_eq]
    exact vOp_raises (third := false) h ho hp (amrdLanes_outside mine hl)
  · have waits := (amrdLanes_reads (r := r) (u := atIssue i t) mine near).trans (if_pos (busy.2 hq))
    rw [atIssue_latSeq] at waits
    rw [exec_amrd_eq]
    exact vOp_waits (third := false) h ho hp waits

end Read

/-- AMALLOC, AMFREE and MWAIT. -/
theorem accumulatorTiles_complete : Claims.AccumulatorTiles := ⟨amAlloc, amFree, latticeWait⟩

/-- Settles O40: how tiles are taken, freed and read. -/
theorem accumulatorTiles : Obligations.AccumulatorTiles := ⟨accumulatorTiles_complete, readAccumulator⟩

end Sys2Proof.Machine

/-! ## Sums that land in accumulator tiles -/

namespace Sys2Proof.Machine

/-- A fold that changes the value of one key at each of its elements, no key twice: each of the keys has its change of the old value, and
every other key keeps its value. -/
theorem tabGetD_foldl_update {α β : Type} [DecidableEq α] (z : α) (key : β → Nat) (g : β → α → α) : ∀ (xs : List β) (d : Tab α),
    (xs.map key).Nodup →
    (∀ x ∈ xs, tabGetD z (xs.foldl (fun d x => tabSetD z d (key x) (g x (tabGetD z d (key x)))) d) (key x) = g x (tabGetD z d (key x))) ∧
    ∀ e, e ∉ xs.map key → tabGetD z (xs.foldl (fun d x => tabSetD z d (key x) (g x (tabGetD z d (key x)))) d) e = tabGetD z d e
  | [], d, _ => ⟨fun _ h => absurd h (List.not_mem_nil), fun _ _ => rfl⟩
  | x :: xs, d, h => by
    rw [List.map_cons, List.nodup_cons] at h
    obtain ⟨hx, hxs⟩ := h
    obtain ⟨changed, kept⟩ := tabGetD_foldl_update z key g xs (tabSetD z d (key x) (g x (tabGetD z d (key x)))) hxs
    refine ⟨fun y hy => ?_, fun e he => ?_⟩
    · rcases List.mem_cons.1 hy with rfl | hy
      · exact (kept _ hx).trans (tabGetD_tabSetD_same ..)
      · have apart : key y ≠ key x := fun e => hx (e ▸ List.mem_map_of_mem hy)
        exact (changed y hy).trans (by rw [tabGetD_tabSetD_other _ _ _ apart])
    · rw [List.map_cons, List.mem_cons, not_or] at he
      exact (kept e he.2).trans (tabGetD_tabSetD_other _ _ _ he.1)

/-- Column `n` of the weights of a landing. -/
def weightColumn (weights : List Elem) (n : Nat) : List Elem :=
  (List.range 128).map fun k => weights.getD (64 * k + n) { fmt := 0, bits := 0, absent := true }

/-- The elements of a tile after a row of activations: row `m` takes the sums of the row. -/
theorem addRow_elements (mode : Nat) (weights : List Elem) (r : Tab Word × FpFlags) (m : Nat) (row : List Elem) :
    (∀ n, n < 64 → tabGetD 0 (addRow mode weights r m row).1 (64 * m + n) =
      (columnSum (isIntMode mode) (tabGetD 0 r.1 (64 * m + n)) row (weightColumn weights n)).1) ∧
    ∀ e, (e < 64 * m ∨ 64 * (m + 1) ≤ e) → tabGetD 0 (addRow mode weights r m row).1 e = tabGetD 0 r.1 e := by
  have data : (addRow mode weights r m row).1 = (List.range 64).foldl (fun d n => tabSetD 0 d (64 * m + n)
      (columnSum (isIntMode mode) (tabGetD 0 d (64 * m + n)) row (weightColumn weights n)).1) r.1 :=
    (List.foldl_hom Prod.fst fun _ _ => rfl).symm
  obtain ⟨changed, kept⟩ := tabGetD_foldl_update 0 (64 * m + ·) (fun n w => (columnSum (isIntMode mode) w row (weightColumn weights n)).1)
    (List.range 64) r.1 (List.nodup_range.map (add_right_injective _))
  rw [data]
  refine ⟨fun n hn => changed n (List.mem_range.2 hn), fun e he => kept e ?_⟩
  simp only [List.mem_map, List.mem_range, not_exists, not_and]
  omega

/-- The elements of a tile after several rows. -/
theorem addRows_elements (mode : Nat) (weights : List Elem) : ∀ (rows : List (List Elem)) (row0 : Nat) (r : Tab Word × FpFlags),
    let new := ((enum row0 rows).foldl (fun r p => addRow mode weights r p.1 p.2) r).1
    (∀ m n, m < rows.length → n < 64 → tabGetD 0 new (64 * (row0 + m) + n) =
      (columnSum (isIntMode mode) (tabGetD 0 r.1 (64 * (row0 + m) + n)) (rows.getD m []) (weightColumn weights n)).1) ∧
    ∀ e, (e < 64 * row0 ∨ 64 * (row0 + rows.length) ≤ e) → tabGetD 0 new e = tabGetD 0 r.1 e
  | [], row0, r => ⟨fun _ _ h => absurd h (Nat.not_lt_zero _), fun _ _ => rfl⟩
  | row :: rows, row0, r => by
    obtain ⟨summed, kept⟩ := addRow_elements mode weights r row0 row
    obtain ⟨later, rest⟩ := addRows_elements mode weights rows (row0 + 1) (addRow mode weights r row0 row)
    refine ⟨fun m n hm hn => ?_, fun e he => ?_⟩
    · cases m with
      | zero => exact (rest _ (.inl (by omega))).trans (summed n hn)
      | succ m =>
        have old := kept (64 * (row0 + (m + 1)) + n) (.inr (by omega))
        have new := later m n (by simpa using hm) hn
        rw [show row0 + 1 + m = row0 + (m + 1) by omega, old] at new
        exact new
    · rw [List.length_cons] at he
      exact (rest e (by omega)).trans (kept e (by omega))

/-- The modes that add integers. -/
theorem isIntMode_eq (mode : Nat) : isIntMode mode = decide (mode = 5 ∨ mode = 6) := by
  rw [isIntMode, Bool.decide_or]
  rfl

/-- The sums of a landing. -/
theorem landedSums : Claims.LandedSums := by
  intro l old
  obtain ⟨summed, kept⟩ := addRows_elements l.mode l.weights l.rows l.row0 (old, 0)
  refine ⟨fun r n hr hn => ?_, kept⟩
  rw [← isIntMode_eq]
  exact summed r n hr hn

end Sys2Proof.Machine

/-! ## Lattice commands execute -/

namespace Sys2Proof.Machine

theorem exec_latticeCommandExecute (s : State) : exec .latticeCommandExecute s = .next (latticeExecute s (s.argN 0)) := rfl

/-! ### The bytes of a tile (R185) -/

/-- The little-endian bytes of a number, each on its own. -/
theorem natLe_eq (n : Nat) : ∀ x, natLe n x = (List.range n).map fun j => BitVec.ofNat 8 (x / 256 ^ j) := by
  induction n with
  | zero => exact fun _ => rfl
  | succ n ih =>
    intro x
    rw [natLe, ih, List.range_succ_eq_map, List.map_cons, List.map_map]
    simp [Function.comp_def, Nat.div_div_eq_div_mul, Nat.pow_succ']

/-- The bytes of a word are its segments. -/
theorem natLe_word (w : Word) : natLe 4 w.toNat = (List.range 4).map fun j => w.extractLsb' (8 * j) 8 := by
  rw [natLe_eq]
  refine List.map_congr_left fun j _ => BitVec.eq_of_toNat_eq ?_
  rw [BitVec.toNat_ofNat, BitVec.extractLsb'_toNat, Nat.shiftRight_eq_div_pow, Nat.pow_mul]

/-- Lists of `k` elements each, one after another, as one list. -/
theorem flatMap_range_map {α : Type} (k : Nat) (f : Nat → Nat → α) (n : Nat) (hk : 0 < k) :
    ((List.range n).flatMap fun e => (List.range k).map (f e)) = (List.range (n * k)).map fun b => f (b / k) (b % k) := by
  induction n with
  | zero => simp
  | succ n ih =>
    rw [List.range_succ, List.flatMap_append, ih, Nat.succ_mul, List.range_add, List.map_append, List.flatMap_singleton, List.map_map]
    refine congrArg _ (List.map_congr_left fun j hj => ?_)
    have hj := List.mem_range.1 hj
    have div : (n * k + j) / k = n := by rw [Nat.mul_comm, Nat.mul_add_div hk, Nat.div_eq_of_lt hj, Nat.add_zero]
    rw [Function.comp_apply, div, Nat.mul_add_mod_of_lt hj]

/-- The bytes of a tile, each on its own. -/
theorem tileBytes_eq (x : AmTile) :
    tileBytes x = (List.range 16384).map fun b => (tabGetD 0 x.data (b / 4)).extractLsb' (8 * (b % 4)) 8 := by
  simp only [tileBytes, natLe_word]
  exact flatMap_range_map 4 (fun e j => (tabGetD 0 x.data e).extractLsb' (8 * j) 8) 4096 (by decide)

/-! ### Writing to scratch -/

/-- The numbers of a numbered list. -/
theorem enum_keys {α : Type} : ∀ (i : Nat) (xs : List α), (enum i xs).map (·.1) = List.range' i xs.length
  | _, [] => rfl
  | i, x :: xs => by rw [enum, List.map_cons, enum_keys, List.length_cons, List.range'_succ]

/-- A write to scratch puts each byte in its place and leaves the others. -/
theorem scratchWrite_bytes (t : Team) (off : Nat) (bs : List Byte) :
    (∀ k b, bs[k]? = some b → tabGetD 0 (scratchWrite t off bs).scratch (off + k) = b) ∧
    ∀ o, (o < off ∨ off + bs.length ≤ o) → tabGetD 0 (scratchWrite t off bs).scratch o = tabGetD 0 t.scratch o := by
  have keys : (enum 0 bs).map (fun p => off + p.1) = (List.range' 0 bs.length).map (off + ·) := by
    rw [← enum_keys, List.map_map]
    rfl
  obtain ⟨written, kept⟩ := tabGetD_foldl_update 0 (fun p : Nat × Byte => off + p.1) (fun p _ => p.2) (enum 0 bs) t.scratch
    (by rw [keys]; exact (List.nodup_range' (step := 1)).map (add_right_injective off))
  refine ⟨fun k b hk => ?_, fun o ho => kept o ?_⟩
  · refine written (k, b) (List.mem_of_getElem? (i := k) ?_)
    rw [getElem?_enum, hk]
    simp
  · rw [keys]
    simp only [List.mem_map, List.mem_range'_1, not_exists, not_and]
    omega

/-! ### The commands (R175, R179, R185) -/

section Executes
variable {s : State} {c w : Nat} {t : Team} {cmd : LatCmd} {rest : List LatCmd}

/-- The team whose oldest command starts. -/
def Team.starting (t : Team) (cmd : LatCmd) (rest : List LatCmd) : Team := { t with lat := { cmd with started := true } :: rest }

variable (hrun : (s.core c).lat.run = some (.team w)) (ht : s.team? w = some t) (hlat : t.lat = cmd :: rest) (hfresh : cmd.started = false)
include hrun ht hlat hfresh

/-- MLS fills the shadow plane and its record. -/
theorem latticeExecute_mls {m : BitVec 4} {x : DWord} (hop : cmd.op = .mls m x) (hlegal : badTernary (planeElems t m x) = false) :
    latticeExecute s c = (s.setTeam w { Team.starting t cmd rest with planes := { t.planes with shadow := some { mode := m, word := x } } }).setLat c
      { (s.core c).lat with shadow := planeElems t m x, shadowOf := some w } := by
  cases cmd
  cases hop
  cases hfresh
  simp only [latticeExecute, hrun, ht, hlat, Bool.false_eq_true, if_false]
  exact if_neg (Bool.eq_false_iff.1 hlegal)

/-- AMCLR zeroes its tile. -/
theorem latticeExecute_amclr {n : Nat} (hop : cmd.op = .amclr n) :
    latticeExecute s c = (s.setTeam w (Team.starting t cmd rest)).setCore c
      ((s.core c).setTile n { (s.core c).tile n with data := [], progress := 0 }) := by
  cases cmd
  cases hop
  cases hfresh
  simp only [latticeExecute, hrun, ht, hlat, Bool.false_eq_true, if_false]
  rfl

/-- The elements that AMLD reads from scratch. -/
def loadedElements (t : Team) (x : DWord) : Tab Word :=
  (List.range 4096).foldl (fun d e => tabSetD 0 d e (BitVec.ofNat 32 (scratchNat t (wordData x + 4 * e) 4))) []

/-- AMLD fills its tile from scratch. -/
theorem latticeExecute_amld {n : Nat} {x : DWord} (hop : cmd.op = .amld n x) :
    latticeExecute s c = (s.setTeam w (Team.starting t cmd rest)).setCore c
      ((s.core c).setTile n { (s.core c).tile n with data := loadedElements t x }) := by
  cases cmd
  cases hop
  cases hfresh
  simp only [latticeExecute, hrun, ht, hlat, Bool.false_eq_true, if_false]
  rfl

/-- AMST copies its tile to scratch. -/
theorem latticeExecute_amst {n : Nat} {x : DWord} (hop : cmd.op = .amst n x) : latticeExecute s c = s.setTeam w { Team.starting t cmd rest with
    scratch := (scratchWrite t (wordData x) (tileBytes ((s.core c).tile n))).scratch } := by
  cases cmd
  cases hop
  cases hfresh
  simp only [latticeExecute, hrun, ht, hlat, Bool.false_eq_true, if_false]
  generalize tileBytes _ = bs
  rfl

end Executes

/-- The data offset of an operand word. -/
theorem wordData_eq (x : DWord) : wordData x = x.toNat % 2 ^ 20 := rfl

/-- The oldest command of the running team starts. -/
theorem commandExecutes : Claims.CommandExecutes := by
  intro s c w t cmd rest harg hrun ht hlat hfresh
  dsimp only
  have runs : exec .latticeCommandExecute s = .next (latticeExecute s c) := by rw [exec_latticeCommandExecute, harg]
  refine ⟨fun m x hop hlegal => ?_, fun n hop => ?_, fun n x hop => ⟨loadedElements t x, ?_, fun e he => ?_⟩,
    fun n x hop => ⟨(scratchWrite t (wordData x) (tileBytes ((s.core c).tile n))).scratch, ?_, fun e j he hj => ?_, fun o ho => ?_⟩⟩
  · exact runs.trans (congrArg _ (latticeExecute_mls hrun ht hlat hfresh hop hlegal))
  · exact runs.trans (congrArg _ (latticeExecute_amclr hrun ht hlat hfresh hop))
  · exact runs.trans (congrArg _ (latticeExecute_amld hrun ht hlat hfresh hop))
  · rw [loadedElements, tabGetD_foldl_tabSetD, if_pos (List.mem_range.2 he), wordData_eq]
  · exact runs.trans (congrArg _ (latticeExecute_amst hrun ht hlat hfresh hop))
  · rw [Nat.add_assoc]
    refine (scratchWrite_bytes t _ _).1 (4 * e + j) _ ?_
    have div : (4 * e + j) / 4 = e := by omega
    have mod : (4 * e + j) % 4 = j := by omega
    rw [tileBytes_eq, List.getElem?_map, List.getElem?_range (by omega), Option.map_some, div, mod]
  · refine (scratchWrite_bytes t _ _).2 o ?_
    rwa [tileBytes_eq, List.length_map, List.length_range]

end Sys2Proof.Machine

/-! ## Decisions of the sequencer -/

namespace Sys2Proof.Machine

theorem exec_sequencerDecision (s : State) :
    exec .sequencerDecision s = .next (unlessGated s (s.argN 0) (sequencerDecision s (s.argN 0))) := rfl

/-- A fold that keeps the least of what it has met gives an element of the list that none lies below. -/
theorem foldl_least {α : Type} (f : α → Nat) : ∀ (ys : List α) (y : α),
    ys.foldl (fun b z => if f z < f b then z else b) y ∈ y :: ys ∧
      ∀ z ∈ y :: ys, f (ys.foldl (fun b z => if f z < f b then z else b) y) ≤ f z
  | [], y => ⟨List.mem_singleton_self y, fun z hz => (congrArg f (List.mem_singleton.1 hz).symm).le⟩
  | z :: zs, y => by
    obtain ⟨hmem, hle⟩ := foldl_least f zs (if f z < f y then z else y)
    rw [List.foldl_cons]
    by_cases h : f z < f y
    · simp only [if_pos h] at hmem hle ⊢
      exact ⟨List.mem_cons_of_mem y hmem, List.forall_mem_cons.2 ⟨(hle z List.mem_cons_self).trans h.le, hle⟩⟩
    · simp only [if_neg h] at hmem hle ⊢
      obtain ⟨least, others⟩ := List.forall_mem_cons.1 hle
      refine ⟨?_, List.forall_mem_cons.2 ⟨least, List.forall_mem_cons.2 ⟨least.trans (Nat.not_lt.1 h), others⟩⟩⟩
      rcases List.mem_cons.1 hmem with kept | later
      · rw [kept]
        exact List.mem_cons_self
      · exact List.mem_cons_of_mem y (List.mem_cons_of_mem z later)

/-- The first item of least rank is one of the list, and none of the list has a lesser rank. -/
theorem bestItem_least {s : State} {x : LatItem} : ∀ {ys : List LatItem}, bestItem s ys = some x →
    x ∈ ys ∧ ∀ y ∈ ys, itemRank s x ≤ itemRank s y
  | [], h => by cases h
  | y :: ys, h => by
    cases h
    exact foldl_least (itemRank s) ys y

/-- Taking an item from a leaf changes no core. -/
theorem takeItem_core (s : State) (id : Nat) (x : LeafItem) (c : Nat) : (takeItem s id x).core c = s.core c := by
  unfold takeItem
  dsimp only
  split
  · split <;> rfl
  · rfl

@[simp] theorem State.setLat_core_same (s : State) (c : Nat) (l : Lattice) : (s.setLat c l).core c = { s.core c with lat := l } :=
  State.setCore_core_same ..

/-- The Lattice once it has taken an item. -/
theorem takeLatItem_lat (s : State) (c : Nat) (x : LatItem) : ((takeLatItem s c x).core c).lat =
    { (s.core c).lat with run := some x, boundary := false, buf := [], held := (s.core c).lat.held.filter fun y => !sameItem x y } := by
  unfold takeLatItem
  dsimp only
  split
  · split
    · rw [takeItem_core, State.setLat_core_same]
    · rw [State.setLat_core_same]
  · rw [State.setLat_core_same]

/-- Being the same item goes both ways. -/
theorem sameItem_comm (x y : LatItem) : sameItem x y = sameItem y x := by
  cases x <;> cases y <;> simp only [sameItem, Bool.beq_comm]

section Decision
variable {s : State} {c : Nat} {x r : LatItem}

/-- A decision with nothing running: the best candidate runs. -/
theorem decision_idle (hrun : (s.core c).lat.run = none) : sequencerDecision s c = (bestItem s (candidates s c)).elim s (takeLatItem s c) := by
  simp only [sequencerDecision, hrun]
  cases bestItem s (candidates s c) <;> rfl

/-- A decision at a K-step boundary, outside a switch of the L2 mode: the best candidate runs and the running item is held aside where the
candidate's rank lies the margin or more below. -/
theorem decision_boundary (hl2 : s.dev.l2Next = none) (hrun : (s.core c).lat.run = some r) (hb : (s.core c).lat.boundary = true)
    (hbest : bestItem s (candidates s c) = some x) : sequencerDecision s c =
      if s.margin (leafId 1 c) ≠ 0 ∧ itemRank s x + s.margin (leafId 1 c) ≤ itemRank s r then
        takeLatItem (s.setLat c { (s.core c).lat with held := (s.core c).lat.held ++ [r], run := none }) c x
      else s.setLat c { (s.core c).lat with boundary := false } := by
  simp only [sequencerDecision, hrun, hl2, hb, hbest, Option.isSome_none, Bool.false_and, Bool.not_true, Bool.false_eq_true, if_false]

end Decision

/-- The sequencer decides. -/
theorem sequencerDecides : Claims.SequencerDecides := by
  intro s c harg hfatal hgated hl2 l
  have runs : exec .sequencerDecision s = .next (sequencerDecision s c) := by
    rw [exec_sequencerDecision, harg, unlessGated, hfatal, hgated]
    rfl
  refine ⟨fun hrun hnone => ?_, fun x hx => ?_⟩
  · rw [runs, decision_idle hrun, hnone]
    rfl
  · obtain ⟨hmem, hle⟩ := bestItem_least hx
    refine ⟨hle, hmem, fun hrun => ⟨takeLatItem s c x, ?_, ?_, ?_⟩, fun r hrun hb => ?_⟩
    · rw [runs, decision_idle hrun, hx]
      rfl
    · rw [takeLatItem_lat]
    · rw [takeLatItem_lat]
    · have decided := runs.trans (congrArg _ (decision_boundary hl2 hrun hb hx))
      refine ⟨fun hm hrank hother => ⟨_, decided.trans (congrArg _ (if_pos ⟨hm, hrank⟩)), ?_, ?_⟩,
        fun hrank => decided.trans (congrArg _ (if_neg fun h => Nat.not_lt.2 h.2 hrank))⟩
      · rw [takeLatItem_lat]
      · rw [takeLatItem_lat, State.setLat_core_same, List.mem_filter, sameItem_comm, hother]
        exact ⟨List.mem_append_right _ (List.mem_singleton_self r), rfl⟩

end Sys2Proof.Machine

/-! ## K steps -/

namespace Sys2Proof.Machine

theorem exec_kStep (s : State) : exec .kStep s = .next (kStep s (s.argN 0)) := rfl
theorem exec_kStepSumsLanded (s : State) : exec .kStepSumsLanded s = .next (kStepLanded s (s.argN 0)) := rfl
theorem exec_operandFetch (s : State) : exec .operandFetch s = .next (operandFetch s (s.argN 0)) := rfl
theorem exec_latticeCommandCompletion (s : State) : exec .latticeCommandCompletion s = .next (latticeCompletion s (s.argN 0)) := rfl

/-- Changing the team of a slot is replacing it. -/
theorem modTeam_eq {s : State} {w : Nat} {t : Team} (g : Team → Team) (h : s.team? w = some t) : s.modTeam w g = s.setTeam w (g t) := by
  have h : tabGet s.teams w = some t := h
  simp only [State.modTeam, State.setTeam, tabMod, h]

/-- The oldest command of a team. -/
theorem oldestCommand_eq {s : State} {w : Nat} {t : Team} {cmd : LatCmd} {rest : List LatCmd} (ht : s.team? w = some t)
    (hlat : t.lat = cmd :: rest) : oldestCommand s w = some cmd := by
  rw [oldestCommand, ht, Option.bind_some, hlat, List.head?_cons]

/-! ### What a fetch leaves alone (R225, R230) -/

/-- The fetch of operands leaves memory, the Lattices and the leaves alone. -/
structure Undisturbed (s r : State) : Prop where
  mem : r.mem = s.mem
  lat : ∀ c, (r.core c).lat = (s.core c).lat
  leaves : r.dev.leaves = s.dev.leaves

/-- A state is as it is. -/
theorem Undisturbed.refl (s : State) : Undisturbed s s := ⟨rfl, fun _ => rfl, rfl⟩

/-- One fetch after another. -/
theorem Undisturbed.trans {s r q : State} (h : Undisturbed s r) (k : Undisturbed r q) : Undisturbed s q :=
  ⟨k.mem.trans h.mem, fun c => (k.lat c).trans (h.lat c), k.leaves.trans h.leaves⟩

/-- A state with a core of which the Lattice is as before. -/
theorem undisturbed_setCore {s : State} {c : Nat} {k : Core} (h : k.lat = (s.core c).lat) : Undisturbed s (s.setCore c k) where
  mem := rfl
  lat d := by
    by_cases hd : d = c
    · rw [hd, State.setCore_core_same, h]
    · rw [State.setCore_core_other _ _ hd]
  leaves := rfl

/-- A translation that enters the buffers. -/
theorem undisturbed_tlbFill (s : State) (core ctx : Nat) (leaf : Leaf) : Undisturbed s (tlbFill s core ctx leaf) :=
  (undisturbed_setCore (k := { s.core core with tlb := tlbEnter s.tick 256 (s.core core).tlb { ctx := ctx, leaf := leaf } }) rfl).trans
    ⟨rfl, fun _ => rfl, rfl⟩

/-- A translation, whatever it finds. -/
theorem undisturbed_xlateFill (s : State) (core ctx va : Nat) : Undisturbed s (xlateFill s core ctx va) := by
  unfold xlateFill
  split
  · split
    · exact .refl s
    · split
      · exact undisturbed_tlbFill ..
      · exact .refl s
  · exact .refl s

/-- A read through L1 leaves the Lattice of its core alone. -/
theorem l1Read_lat (c : Core) (pa : Nat) (cls : BitVec 2) : (l1Read c pa cls).lat = c.lat := by
  unfold l1Read
  dsimp only
  split
  · rfl
  · split
    · rfl
    · split <;> rfl

/-- A read at a physical address. -/
theorem undisturbed_physTouchRead (s : State) (acc : Accessor) (pa : Nat) (attr : PageAttr) (cls : BitVec 2) (l1 : Bool) :
    Undisturbed s (physTouchRead s acc pa attr cls l1) := by
  have touched : Undisturbed s (l2Touch s acc.node pa attr cls) := by
    unfold l2Touch
    split
    · exact ⟨rfl, fun _ => rfl, rfl⟩
    · exact .refl s
  have recalled : ∀ r : State, Undisturbed r (recallStash r acc.wid (pa / 128) false) := fun r => by
    unfold recallStash
    split
    · exact .refl r
    · exact ⟨rfl, fun _ => rfl, rfl⟩
  refine (touched.trans (recalled _)).trans ?_
  unfold physTouchRead
  dsimp only
  split
  · exact undisturbed_setCore (l1Read_lat ..)
  · exact .refl _

/-- The reads of an engine. -/
theorem undisturbed_engineTouch (s : State) (acc : Accessor) (core ctx : Nat) (rs : List (Nat × Nat)) (cls : BitVec 2) :
    Undisturbed s (engineTouch s acc core ctx rs cls) := by
  refine List.foldlRecOn (motive := fun r => Undisturbed s r) _ _ (.refl s) fun r hr k _ => hr.trans ?_
  refine (undisturbed_xlateFill r core ctx (64 * k)).trans ?_
  dsimp only
  split
  · exact undisturbed_physTouchRead ..
  · exact .refl _

/-- The caches after a K step's fetch, and an answer that is no longer refused. -/
theorem undisturbed_fetch (s : State) (core ctx node : Nat) (a b : TileSrc) (step : Nat) (who : Requester) :
    Undisturbed s (forgetRefused (touchStep s core ctx node a b step) who) := by
  have one : ∀ (r : State) (x : TileSrc) (isA : Bool), Undisturbed r (if x.scratch then r else
      engineTouch r { node := some node } core ctx (x.ranges isA step (virtNat r core ctx)) x.cls) := fun r x isA => by
    split
    · exact .refl r
    · exact undisturbed_engineTouch ..
  exact ((one s a true).trans (one _ b false)).trans ⟨rfl, fun _ => rfl, rfl⟩

/-! ### The steps of a running MTILE (R182, R458) -/

section Mtile
variable {s : State} {c w : Nat} {t : Team} {cmd : LatCmd} {rest : List LatCmd} {m ks tile : Nat} {a b : TileSrc} {o : KOperands}
  (hrun : (s.core c).lat.run = some (.team w)) (ht : s.team? w = some t) (hlat : t.lat = cmd :: rest)
  (hop : cmd.op = .mtile m a b ks tile)

section
include ht hlat hop

/-- The next step of an MTILE follows those that have landed and those still to land. -/
theorem nextStep_mtile : nextStep s c (.team w) =
    ((s.core c).tile tile).progress + ((s.core c).lat.landing.filter fun y => sameItem y.item (.team w)).length := by
  cases cmd
  cases hop
  simp only [nextStep, oldestCommand_eq ht hlat]

end

/-- What a K step starts with is the step that was asked for. -/
theorem fetchStep_step {ctx n : Nat} {who : Requester} {u : Option Team} (h : fetchStep s c ctx who u a b m n = .ok o) : o.step = n := by
  unfold fetchStep at h
  split at h <;> cases h <;> rfl

include hrun ht hlat hop

/-- A fetch that completes puts its step into the operand buffer. -/
theorem operandFetch_fetches (hstarted : cmd.started = true) (hn : nextStep s c (.team w) < ks)
    (hfresh : ∀ x ∈ (s.core c).lat.buf, x.step ≠ nextStep s c (.team w))
    (hfetch : fetchStep s c t.info.ctx (.engine c (w % 16) 0) (some t) a b m (nextStep s c (.team w)) = .ok o) :
    operandFetch s c = (forgetRefused (touchStep s c t.info.ctx t.info.node a b (nextStep s c (.team w))) (.engine c (w % 16) 0)).setLat c
      { (s.core c).lat with buf := (s.core c).lat.buf ++ [o] } := by
  have waits : ¬(ks ≤ nextStep s c (.team w) ∨ (s.core c).lat.buf.any fun x => x.step = nextStep s c (.team w)) := by
    simp only [List.any_eq_true, decide_eq_true_eq, not_or, Nat.not_le, not_exists, not_and]
    exact ⟨hn, hfresh⟩
  cases cmd
  cases hop
  cases hstarted
  simp only [operandFetch, hrun, ht, oldestCommand_eq ht hlat, if_neg waits, hfetch]

/-- A fetched step of operands in memory enters the array. -/
theorem kStep_streams (hstarted : cmd.started = true) (hb : (s.core c).lat.boundary = false)
    (hfetched : (s.core c).lat.buf.find? (fun x => x.step = nextStep s c (.team w)) = some o) (hcause : o.cause = none)
    (ha : a.scratch = false) (hbs : b.scratch = false) :
    kStep s c = s.setLat c (startStep (s.core c).lat (.team w) m tile ks o) := by
  cases cmd
  cases hop
  cases hstarted
  simp only [kStep, hb, hrun, kStepTeam, ht, oldestCommand_eq ht hlat, hfetched, hcause, ha, hbs, Bool.false_eq_true, if_false]
  rfl

end Mtile

/-- A command that is complete leaves the sequence of its team. -/
theorem finishCommand_eq {s : State} {w : Nat} {t : Team} (ht : s.team? w = some t) :
    finishCommand s w = s.setTeam w { t with lat := t.lat.tail } := modTeam_eq _ ht

/-- A command other than MTILE that has run is complete. -/
theorem latticeCompletion_finishes {s : State} {c w : Nat} {t : Team} {cmd : LatCmd} {rest : List LatCmd}
    (hrun : (s.core c).lat.run = some (.team w)) (ht : s.team? w = some t) (hlat : t.lat = cmd :: rest) (hstarted : cmd.started = true)
    (hop : ∀ m a b ks tile, cmd.op ≠ .mtile m a b ks tile) (hland : (s.core c).lat.landing = []) :
    latticeCompletion s c = (s.setLat c { (s.core c).lat with run := none }).setTeam w { t with lat := rest } := by
  have finished := finishCommand_eq (s := s.setLat c { (s.core c).lat with run := none }) ht
  rw [hlat, List.tail_cons] at finished
  simp only [latticeCompletion, hrun, oldestCommand_eq ht hlat]
  split
  next heq => cases heq.symm.trans hland
  next =>
    split
    next heq =>
      cases heq
      exact absurd rfl (hop _ _ _ _ _)
    next heq =>
      cases heq
      exact (if_pos hstarted).trans finished
    next heq => cases heq

/-- The K steps of the running command, and its end. -/
theorem kSteps : Claims.KSteps := by
  intro s c w t cmd rest harg hrun ht hlat hstarted
  dsimp only
  refine ⟨fun m a b ks tile hop => ⟨nextStep_mtile ht hlat hop, fun o hn hfresh hfetch => ?_, fun o hb hfetched hcause ha hbs => ?_⟩,
    fun hop hland => ?_⟩
  · have kept := undisturbed_fetch s c t.info.ctx t.info.node a b (nextStep s c (.team w)) (.engine c (w % 16) 0)
    rw [exec_operandFetch, harg, operandFetch_fetches hrun ht hlat hop hstarted hn hfresh hfetch]
    exact ⟨_, rfl, fun k => congrArg (memGet · k) kept.mem, congrArg Core.lat (State.setLat_core_same ..), fetchStep_step hfetch⟩
  · have hstep : o.step = nextStep s c (.team w) := by simpa using List.find?_some hfetched
    rw [exec_kStep, harg, kStep_streams hrun ht hlat hop hstarted hb hfetched hcause ha hbs, startStep, hstep]
    rfl
  · rw [exec_latticeCommandCompletion, harg, latticeCompletion_finishes hrun ht hlat hstarted hop hland]
    rfl

/-! ### Sums that land (R170, R182) -/

/-- A core whose oldest landing sums `x` have gone into their tile, with the tile's progress and the sums that are left. -/
def landedCore (k : Core) (x : Landing) (progress : Nat) (rest : List Landing) : Core :=
  let k' := k.setTile x.tile { k.tile x.tile with data := (addRows x (k.tile x.tile).data).1, progress := progress }
  { k' with lat := { k'.lat with landing := rest } }

/-- The progress of the tile once the sums have landed. -/
def landedProgress (k : Core) (x : Landing) : Nat :=
  match x.step with
  | some n => if x.last then 0 else n + 1
  | none => (k.tile x.tile).progress

section Land
variable {s : State} {c w : Nat} {t : Team} {x : Landing} {rest : List Landing}

/-- The team once its sums have landed. -/
def Team.landed (t : Team) (k : Core) (x : Landing) : Team := { t with fstat := t.fstat ||| (addRows x (k.tile x.tile).data).2 }

/-- The sums of a team go into their tile, and their flags into its FSTAT. -/
theorem land_team (ht : s.team? w = some t) (hitem : x.item = .team w) : (land s c x rest).1 =
    (s.setCore c (landedCore (s.core c) x (landedProgress (s.core c) x) rest)).setTeam w (t.landed (s.core c) x) := by
  have landed := modTeam_eq (s := s.setCore c (landedCore (s.core c) x (landedProgress (s.core c) x) rest))
    (fun t => t.landed (s.core c) x) ht
  rw [← landed]
  simp only [land, hitem]
  rfl

/-- With its last sums a command is complete. -/
theorem finish_landed (k : Core) : finishCommand ((s.setCore c k).setTeam w (t.landed (s.core c) x)) w =
    (s.setCore c k).setTeam w { t.landed (s.core c) x with lat := t.lat.tail } := by
  rw [finishCommand_eq (State.setTeam_team?_same ..), State.setTeam_setTeam]
  rfl

end Land

/-- Sums land. -/
theorem sumsLand : Claims.SumsLand := by
  intro s c w t x rest harg hland hitem ht
  dsimp only
  have landed := land_team (c := c) (rest := rest) ht hitem
  refine ⟨fun n hstep hlast => ?_, fun n hstep hlast => ?_, fun hstep => ?_⟩
  · rw [exec_kStepSumsLanded, harg]
    simp only [kStepLanded, hland, hstep, landStep, hitem, hlast, landed, landedProgress]
    rfl
  · rw [exec_kStepSumsLanded, harg]
    simp only [kStepLanded, hland, hstep, landStep, hitem, hlast, landed, landedProgress, finish_landed]
    rfl
  · rw [exec_latticeCommandCompletion, harg]
    simp only [latticeCompletion, hland, hstep, hitem, landed, landedProgress, finish_landed]
    rfl

end Sys2Proof.Machine

/-! ## Staging of tile tasks -/

namespace Sys2Proof.Machine

theorem exec_stagingFetch (s : State) : exec .stagingFetch s = .next (stagingFetch s (s.argN 0)) := rfl

@[simp] theorem State.setLeaf_leaf_same (s : State) (id : Nat) (l : PifoLeaf) : (s.setLeaf id l).leaf id = l :=
  tabGetD_tabSetD_same ..

/-- A tile task as the Lattice sees it in its leaf: with the rank and the push number of its item. -/
def placedTask (x : LeafItem) (y : TileTask) : TileTask := { y with rank := x.rank, stamp := x.stamp }

section Lone
variable {s : State} {c n : Nat} {x : LeafItem} {y : TileTask} (hrun : (s.core c).lat.run = none) (hheld : (s.core c).lat.held = [])
  (hitems : (s.leaf (leafId 1 c)).items = [x]) (hwork : x.work = .tile y)

section
variable (hparent : (s.leaf (leafId 1 c)).parent = some n) (hdepth : (s.region n).depth ≠ 0)
include hheld hitems hwork hparent hdepth

/-- A tile task that is alone in its leaf stands in the window. -/
theorem stagingWindow_lone : stagingWindow s c = [.task (placedTask x y)] := by
  obtain ⟨d, hd⟩ := Nat.exists_eq_succ_of_ne_zero hdepth
  simp only [stagingWindow, hheld, hitems, hwork, hparent, hd, Option.elim_some, List.nil_append, List.filterMap_cons, List.filterMap_nil,
    List.foldl_cons, List.foldl_nil, List.takeWhile_nil, List.drop_nil, List.take_succ_cons, List.take_nil]
  rfl

include hrun

/-- It is first to stage. -/
theorem stagingOrder_lone : stagingOrder s c = [placedTask x y] := by
  rw [stagingOrder, hrun, stagingWindow_lone hheld hitems hwork hparent hdepth]
  rfl

/-- No staged step is released. -/
theorem stagingFetch_lone : stagingFetch s c = stageFirst s c ((s.core c).stage * 4096) (s.region n).depth none [placedTask x y] := by
  have order := stagingOrder_lone hrun hheld hitems hwork hparent hdepth
  have kept : (([x].map (·.stamp)).filter fun n => !([placedTask x y].map (·.stamp)).contains n) = [] := by simp [placedTask]
  unfold stagingFetch
  dsimp only
  rw [hheld, List.filterMap_nil, List.append_nil, hitems, order, kept, List.foldl_nil, order, hrun, hparent]
  rfl

end

end Lone

/-- The step of a tile task that is staged next. -/
def nextStaged (s : State) (c : Nat) (t : TileTask) : Nat :=
  t.progress + ((s.core c).lat.landing.filter fun z => sameItem z.item (.task t)).length + t.staged.length

/-- The one task that may stage fetches its next step. -/
theorem stageFirst_stages {s : State} {c area depth : Nat} {t : TileTask} {a b : TileSrc} {o : KOperands}
    (horder : stagingOrder s c = [t]) (hsteps : nextStaged s c t < t.steps) (hmay : mayStage area depth false 0 t = true)
    (hsrc : taskSources s c t = .ok (a, b))
    (hfetch : fetchStep s c t.ctx (stager c t.stamp) none a b t.mode (nextStaged s c t) = .ok o) :
    stageFirst s c area depth none [t] = modTileTask
      (forgetRefused (touchStep s c t.ctx t.node a b (nextStaged s c t)) (stager c t.stamp)) c t.stamp
      fun t => { t with staged := t.staged ++ [o] } := by
  have alone : ((stagingOrder s c).filter fun u => u.stamp ≠ t.stamp) = [] := by simp [horder]
  have idle : (none == some t.stamp) = false := rfl
  have step : nextStep s c (.task t) + t.staged.length = nextStaged s c t := rfl
  have goes : ¬(t.steps ≤ nextStaged s c t ∨ (!mayStage area depth false 0 t) = true) := by simp [hmay, hsteps]
  simp only [stageFirst, alone, idle, step, List.map_nil, List.sum_nil, if_neg goes, hsrc, hfetch]

/-- A change of the one task of a leaf. -/
theorem modTileTask_lone {s : State} {c : Nat} {x : LeafItem} {y : TileTask} (f : TileTask → TileTask)
    (hitems : (s.leaf (leafId 1 c)).items = [x]) (hwork : x.work = .tile y) :
    ((modTileTask s c x.stamp f).leaf (leafId 1 c)).items = [{ x with work := .tile (f (placedTask x y)) }] := by
  have items : ((s.setLat c ((s.core c).lat.modTask x.stamp f)).leaf (leafId 1 c)).items = [x] := hitems
  simp only [modTileTask, State.setLeaf_leaf_same, items, List.map_cons, List.map_nil, hwork, if_true]
  rfl

/-- A change of a task leaves memory alone. -/
theorem modTileTask_mem (s : State) (c stamp : Nat) (f : TileTask → TileTask) : (modTileTask s c stamp f).mem = s.mem := rfl

/-- A tile task alone in its leaf stages its next step. -/
theorem stagingFetched : Claims.StagingFetched := by
  intro s c n x y a b o harg hrun hheld leaf t hitems hwork hparent hdepth step hsteps hmay hsrc hfetch
  have staged := (stagingFetch_lone hrun hheld hitems hwork hparent hdepth).trans
    (stageFirst_stages (stagingOrder_lone hrun hheld hitems hwork hparent hdepth) hsteps hmay hsrc hfetch)
  have kept := undisturbed_fetch s c y.ctx y.node a b step (stager c x.stamp)
  have items : ((forgetRefused (touchStep s c y.ctx y.node a b step) (stager c x.stamp)).leaf (leafId 1 c)).items = [x] := by
    rw [State.leaf, kept.leaves]
    exact hitems
  refine ⟨_, (exec_stagingFetch s).trans (congrArg _ ((congrArg _ harg).trans staged)), fun k => congrArg (memGet · k) kept.mem, ?_⟩
  exact modTileTask_lone _ items hwork

/-- Settles O50: the sums, the commands, the decisions, the K steps and the staging of the Lattice. -/
theorem latticeSteps : Obligations.LatticeSteps := ⟨landedSums, commandExecutes, sequencerDecides, kSteps, sumsLand, stagingFetched⟩

end Sys2Proof.Machine

/-! ## Branches, calls and returns of the compute stream -/

namespace Sys2Proof.Machine

theorem exec_brE (c : BitVec 3) (o : BitVec 22) : exec (.brE c o) = branchE (.brE c o) c o true := rfl
theorem exec_brnE (c : BitVec 3) (o : BitVec 22) : exec (.brnE c o) = branchE (.brnE c o) c o false := rfl
theorem exec_callE (c : BitVec 3) (o : BitVec 22) : exec (.callE c o) = execCallE c o := rfl
theorem exec_calliE (a : BitVec 7) : exec (.calliE a) = execCalliE a := rfl

/-! ### The fragment that issues -/

/-- An instruction that the A-stream may not issue is issued by a fragment (Table 4-7). -/
theorem Issuing.byFragment {x : Instr} {s : State} {i : Issue} {t : Team} (h : Issuing x s i t) (hx : majorInA (majorOf x) = false) :
    i.stream = .e i.frag := by
  cases hs : i.stream with
  | e n => rw [Issue.frag, hs]
  | a =>
    have refused : (!majorIn false (majorOf x)) = true := by rw [majorIn, if_neg Bool.false_ne_true, hx, Bool.not_false]
    have raised : issueCause false i.hint (issueChain i t) x = some 0x007 := if_pos refused
    have legal := h.legal
    rw [Issue.estr_of_a hs, raised] at legal
    cases legal

/-- A fragment that issues stands at the next word. -/
theorem Issuing.pc_eq {x : Instr} {s : State} {i : Issue} {t : Team} {f : Frag} (h : Issuing x s i t) (he : i.stream = .e i.frag)
    (hf : tabGet (atIssue i t).frags i.frag = some f) : f.pc = i.pc + 4 := by
  have turn := h.turn
  -- Only the last branch of `issueOf` answers with a fragment's issue.
  unfold issueOf at turn
  split at turn
  · cases turn
  split at turn
  · cases turn
  split at turn
  case isFalse => cases turn
  split at turn
  · cases turn
    cases he
  split at turn
  · cases turn
  rename_i n _ g hg
  cases turn
  simp only [atIssue, Team.advance, Team.modFrag_frags, Issue.frag, tabGet_tabMod_same, hg, Option.map_some, Option.some.injEq] at hf
  rw [← hf]

/-- The issue of an instruction leaves the trap state. -/
theorem atIssue_trap (i : Issue) (t : Team) : (atIssue i t).trap = t.trap := t.advance_trap _

/-- A flag register reads at the instruction as it stood before. -/
theorem readF_atIssue (i : Issue) (t : Team) (n : Nat) : readF (atIssue i t) n = readF t n := by
  rw [readF, atIssue, Team.advance_f, readF]

/-- The program counter of a fragment that goes elsewhere. -/
theorem setPc_frag {i : Issue} (he : i.stream = .e i.frag) (u : Team) (pc : DWord) :
    u.setPc i.stream pc = u.modFrag i.frag fun f => { f with pc := pc } := by
  rw [he]
  rfl

/-! ### Lanes that detach (R197) -/

/-- Lanes detach as the lowest free fragment. -/
theorem detach_fragment {s : State} {wid n : Nat} {t : Team} (f : Frag) (h : freeFragment s wid t = some n) :
    detach s wid t f = { t with frags := tabSet t.frags n f } := by
  simp only [detach, h]

/-- With no fragment free, lanes park behind the sets parked before. -/
theorem detach_parks {s : State} {wid : Nat} {t : Team} (f : Frag) (h : freeFragment s wid t = none) :
    detach s wid t f = { t with parked := t.parked ++ [{ seq := t.parkSeq, frag := f }], parkSeq := t.parkSeq + 1 } := by
  simp only [detach, h]

/-- A free key of a table is the lowest below the limit that is not listed. -/
theorem tabFree_lowest {α : Type} {t : Tab α} {m n : Nat} (h : tabFree t m = some n) :
    n < m ∧ tabGet t n = none ∧ ∀ k, k < n → (tabGet t k).isSome := by
  obtain ⟨hfree, hmem, hlow⟩ := List.find?_range_eq_some.1 h
  exact ⟨List.mem_range.1 hmem, Option.isNone_iff_eq_none.1 hfree, fun k hk => by simpa using hlow k hk⟩

/-- The number of a new fragment is the lowest that no fragment of the team has. -/
theorem freeFragment_lowest {s : State} {wid n : Nat} {t : Team} (h : freeFragment s wid t = some n) :
    n < 32 ∧ tabGet t.frags n = none ∧ ∀ k, k < n → (tabGet t.frags k).isSome := by
  unfold freeFragment at h
  split at h
  · exact tabFree_lowest h
  · cases h

/-- Lanes that detach. -/
theorem lanesDetach : Claims.Detach := fun _ _ _ f =>
  ⟨fun _ h => ⟨detach_fragment f h, freeFragment_lowest h⟩, fun h => detach_parks f h⟩

/-! ### Branches (R198) -/

section Branch
variable {x : Instr} {s : State} {i : Issue} {t : Team} {f : Frag} {c : BitVec 3} {o : BitVec 22} {want : Bool} {m : Mask}

/-- The lanes that a branch takes: those whose flag has the value. -/
def takenLanes (t : Team) (f : Frag) (c : BitVec 3) (want : Bool) : Mask :=
  f.mask &&& if want then readF t c.toNat else ~~~readF t c.toNat

/-- A fragment that divides without a change of its window. -/
theorem divide_eq {there here : DWord} (hf : tabGet (atIssue i t).frags i.frag = some f) (htrap : t.trap.stream = none) :
    divide (s.setTeam i.wid (atIssue i t)) i (atIssue i t) f m there here = .ok (Claims.divided s i t f f m there here) := by
  have outside : raiseIf (atIssue i t).trap.stream.isSome 0x022 = .ok () := by rw [atIssue_trap, htrap]; rfl
  have window : tabMod (atIssue i t).frags i.frag (fun g => { g with mask := m, pc := there, win := f.win }) =
      tabMod (atIssue i t).frags i.frag fun g => { g with mask := m, pc := there } := tabMod_congr hf rfl
  unfold divide Claims.divided
  by_cases hsmall : popMask m ≤ popMask (f.mask &&& ~~~m)
  · simp only [outside, if_pos hsmall, bind, Except.bind]
    rfl
  · simp only [outside, if_neg hsmall, window, bind, Except.bind]
    rfl

/-- In trap mode a division is cause 0x022. -/
theorem divide_nested {u : Team} {there here : DWord} (htrap : u.trap.stream.isSome) :
    divide s i u f m there here = raise 0x022 := by
  simp only [divide, htrap, raiseIf_true, raise, bind, Except.bind]

variable (h : Issuing x s i t) (hf : tabGet (atIssue i t).frags i.frag = some f) (hm : takenLanes t f c want = m)
include h hf hm

/-- A branch that no lane takes. -/
theorem branchE_passes (hzero : m = 0) : branchE x c o want s = .next (doneWith s i (atIssue i t)) := by
  refine issue_team plain h ?_
  rw [takenLanes, ← readF_atIssue i] at hm
  simp only [hf, hm, if_pos hzero]

/-- A branch that all lanes take. -/
theorem branchE_goes (he : i.stream = .e i.frag) (hsome : m ≠ 0) (hall : m = f.mask) : branchE x c o want s =
    .next (doneWith s i { atIssue i t with
      frags := tabMod (atIssue i t).frags i.frag fun f => { f with pc := i.pc + 4 * o.signExtend 64 } }) := by
  refine issue_team plain h ?_
  rw [takenLanes, ← readF_atIssue i] at hm
  simp only [hf, hm, if_neg hsome, if_pos hall, jumpTarget_eq, setPc_frag he, State.setTeam_setTeam]
  rfl

/-- A branch that some lanes take divides their fragment. -/
theorem branchE_divides (hsome : m ≠ 0) (hpart : m ≠ f.mask) (htrap : t.trap.stream = none) : branchE x c o want s =
    .next (doneWith s i (Claims.divided s i t f f m (i.pc + 4 * o.signExtend 64) (i.pc + 4))) := by
  refine issue_team plain h ?_
  rw [takenLanes, ← readF_atIssue i] at hm
  simp only [hf, hm, if_neg hsome, if_neg hpart, jumpTarget_eq, divide_eq hf htrap, State.setTeam_setTeam, bind, Except.bind]

/-- In trap mode such a branch is cause 0x022. -/
theorem branchE_nested (hx : valueOfA i t (coreWord s i.core) x = 0) (hsome : m ≠ 0) (hpart : m ≠ f.mask) (htrap : t.trap.stream.isSome) :
    branchE x c o want s = .next (settle s i t {} (raise 0x022)) := by
  rw [branchE, issue_trap (c := 0x022) (v := none) plain h, hx]
  · rfl
  rw [takenLanes, ← readF_atIssue i] at hm
  rw [← atIssue_trap i] at htrap
  simp only [hf, hm, if_neg hsome, if_neg hpart, divide_nested htrap, raise, bind, Except.bind]

end Branch

/-- BR and BRN of the E-stream. -/
theorem laneBranches : Claims.LaneBranches := by
  rintro x s i t f c o m h hf hx u target
  obtain ⟨want, hexec, hm, hmajor, hvalue⟩ : ∃ want, exec x = branchE x c o want ∧ takenLanes t f c want = m ∧
      majorInA (majorOf x) = false ∧ valueOfA i t (coreWord s i.core) x = 0 := by
    rcases hx with ⟨rfl, rfl⟩ | ⟨rfl, rfl⟩
    · exact ⟨true, exec_brE c o, rfl, rfl, rfl⟩
    · exact ⟨false, exec_brnE c o, rfl, rfl, rfl⟩
  rw [hexec]
  exact ⟨branchE_passes h hf hm, branchE_goes h hf hm (h.byFragment hmajor), branchE_divides h hf hm, branchE_nested h hf hm hvalue⟩

/-! ### Calls (R47, R199) -/

/-- A slide of a fragment's window to a new frame that fits changes the window alone. -/
theorem slideE_of_fits (s : State) (i : Issue) {u : Team} {w : Window} (mask : Mask) {c : Nat} (link : DWord) (trap : Bool)
    (h : Claims.fits w u.info.vphys c) : slideE s i u w mask c link trap = .ok (s, u, Claims.pushed w u.info.vphys c link trap) := by
  have probe : probeRanges s i u [] true = .ok () := rfl
  simp [slideE, spillPlan_of_fits h, raiseIf, probe, bind, Except.bind, Claims.pushed]

/-- A slide back to a frame whose caller is resident, or that has none, changes the window alone. -/
theorem slideBackE_of_resident (s : State) (i : Issue) (u : Team) {w : Window} (mask : Mask)
    (h : w.frames.tail.length = 1 → w.depth ≤ 1) : slideBackE s i u w mask =
      .ok (u, { base := (w.base + 64 * u.info.vphys - w.size) % u.info.vphys, depth := w.depth - 1, frames := w.frames.tail }) := by
  have resident : ¬ (w.frames.tail.length = 1 ∧ 1 < w.depth) := fun ⟨h1, h2⟩ => absurd (h h1) (by omega)
  simp only [slideBackE, if_neg resident]

/-- The call table of the team, as a lane instruction finds it. -/
theorem callTargetE_atIssue (i : Issue) (t : Team) (off : Nat) : callTarget (atIssue i t) true off = callTarget t true off := by
  rw [callTarget, atIssue_info, callTarget]

/-- The window of a fragment in the callee that a call table's entry describes. -/
def calleeWindow (i : Issue) (t : Team) (f : Frag) (e : CallEntry) : Window := Claims.pushed f.win t.info.vphys e.fv (i.pc + 4) false

/-- Lanes of a fragment may call an entry without a spill. -/
def Enters (t : Team) (f : Frag) (e : CallEntry) : Prop := f.win.depth < 65535 ∧ Claims.fits f.win t.info.vphys e.fv

/-- Lanes that enter a callee without a spill slide their window and change nothing else. -/
theorem enterCallee_of_fits (s : State) {i : Issue} {t : Team} {f : Frag} (m : Mask) {e : CallEntry} (h : Enters t f e) :
    enterCallee s i (atIssue i t) f m e = .ok (s, atIssue i t, calleeWindow i t f e) := by
  obtain ⟨hdepth, hfits⟩ := h
  have shallow : raiseIf (f.win.depth = 65535) 0x01A = .ok () := if_neg (by simpa using hdepth.ne)
  rw [← atIssue_info i] at hfits
  simp only [enterCallee, shallow, slideE_of_fits _ i m _ _ hfits, bind, Except.bind, calleeWindow, atIssue_info]

section Call
variable {s : State} {i : Issue} {t : Team} {f : Frag} {c : BitVec 3} {o : BitVec 22} {m : Mask}

/-- A listed key is changed to the change of its value. -/
theorem tabMod_eq {α : Type} {d : Tab α} {n : Nat} {y : α} (g : α → α) (hy : tabGet d n = some y) : tabMod d n g = tabSet d n (g y) := by
  simp only [tabMod, hy]

/-- A fragment that divides at a call: the calling side has the window `w`. -/
theorem divided_call {w : Window} {there : DWord} (hf : tabGet (atIssue i t).frags i.frag = some f) (hpc : f.pc = i.pc + 4) :
    Claims.divided s i t f { f with win := w } m there (i.pc + 4) =
      let n := f.mask &&& ~~~m
      if popMask m ≤ popMask n then
        detach (s.setTeam i.wid (atIssue i t)) i.wid ((atIssue i t).modFrag i.frag fun x => { x with mask := n }) { f.side m there with win := w }
      else
        detach (s.setTeam i.wid (atIssue i t)) i.wid
          ((atIssue i t).modFrag i.frag fun x => { x with mask := m, pc := there, win := w }) (f.side n (i.pc + 4)) := by
  have stays : tabMod (atIssue i t).frags i.frag (fun x => { x with mask := f.mask &&& ~~~m, pc := i.pc + 4 }) =
      tabMod (atIssue i t).frags i.frag fun x => { x with mask := f.mask &&& ~~~m } := tabMod_congr hf (by rw [← hpc])
  unfold Claims.divided
  by_cases hsmall : popMask m ≤ popMask (f.mask &&& ~~~m)
  · simp only [if_pos hsmall, stays]
    rfl
  · simp only [if_neg hsmall]
    rfl

variable (h : Issuing (.callE c o) s i t) (hf : tabGet (atIssue i t).frags i.frag = some f) (hm : f.mask &&& readF t c.toNat = m)
include h hf hm

/-- CALL that no lane takes. -/
theorem callE_passes (hzero : m = 0) : exec (.callE c o) s = .next (doneWith s i (atIssue i t)) := by
  rw [exec_callE]
  refine issue_team plain h ?_
  simp only [hf, readF_atIssue, hm, if_pos hzero]

/-- CALL to a target that the table does not list. -/
theorem callE_unlisted (hsome : m ≠ 0)
    (he : callTarget t true (i.pc + 4 * o.signExtend 64 - BitVec.ofNat 64 t.info.kernel.code).toNat = none) :
    exec (.callE c o) s = .next (settle s i t {} (raiseWith 0x019 { lane := lowLane m })) := by
  rw [exec_callE, execCallE, issue_trap (c := 0x019) (v := some { lane := lowLane m }) plain h]
  · rfl
  · simp only [hf, readF_atIssue, hm, if_neg hsome, jumpTarget_eq, codeOffset, atIssue_code, callTargetE_atIssue, he, raiseWith]

variable {e : CallEntry} (he : callTarget t true (i.pc + 4 * o.signExtend 64 - BitVec.ofNat 64 t.info.kernel.code).toNat = some e)
  (henter : Enters t f e) (hsome : m ≠ 0)
include he henter hsome

/-- CALL that all lanes take. -/
theorem callE_enters (hall : m = f.mask) : exec (.callE c o) s = .next (doneWith s i { atIssue i t with
    frags := tabMod (atIssue i t).frags i.frag fun _ => { f with win := calleeWindow i t f e, pc := i.pc + 4 * o.signExtend 64 } }) := by
  rw [exec_callE]
  refine issue_team plain h ?_
  simp only [hf, readF_atIssue, hm, if_neg hsome, jumpTarget_eq, codeOffset, atIssue_code, callTargetE_atIssue, he,
    enterCallee_of_fits _ m henter, if_pos hall, setPc_frag (h.byFragment rfl), State.setTeam_setTeam, bind, Except.bind,
    Team.modFrag, tabMod_eq _ hf, tabMod_tabSet_same]

/-- CALL that some lanes take divides their fragment. -/
theorem callE_divides (hpart : m ≠ f.mask) (htrap : t.trap.stream = none) : exec (.callE c o) s =
    .next (doneWith s i (Claims.divided s i t f { f with win := calleeWindow i t f e } m (i.pc + 4 * o.signExtend 64) (i.pc + 4))) := by
  have outside : raiseIf (atIssue i t).trap.stream.isSome 0x022 = .ok () := by rw [atIssue_trap, htrap]; rfl
  rw [exec_callE, divided_call hf (h.pc_eq (h.byFragment rfl) hf)]
  refine issue_team plain h ?_
  simp only [hf, readF_atIssue, hm, if_neg hsome, jumpTarget_eq, codeOffset, atIssue_code, callTargetE_atIssue, he,
    enterCallee_of_fits _ m henter, if_neg hpart, outside, State.setTeam_setTeam, bind, Except.bind]
  split <;> rfl

end Call

/-! ### Groups of lanes with one target (R199) -/

/-- The groups of lanes by target, joined by a lane with the target `x`. -/
def joinGroup (gs : List (Nat × List Nat)) (x l : Nat) : List (Nat × List Nat) := tabSet gs x (tabGetD [] gs x ++ [l])

theorem targetGroups_eq (o : ELanes) : targetGroups o = o.lanes.foldl (fun gs l => joinGroup gs (o.arg 0 l).toNat l) [] := rfl

/-- The targets of the groups rise. -/
theorem targetGroups_sorted (o : ELanes) : tabSorted (targetGroups o) = true :=
  List.foldlRecOn (motive := fun gs => tabSorted gs = true) o.lanes _ rfl fun gs hgs _ _ => tabSorted_tabSet gs _ _ hgs

/-- The target of a group is that of a lane. -/
theorem targetGroups_target (o : ELanes) : ∀ g ∈ targetGroups o, ∃ l ∈ o.lanes, (o.arg 0 l).toNat = g.1 := by
  refine List.foldlRecOn (motive := fun gs : List (Nat × List Nat) => ∀ g ∈ gs, ∃ l ∈ o.lanes, (o.arg 0 l).toNat = g.1) o.lanes _ nofun ?_
  intro gs hgs l hl g hg
  rcases mem_tabSet gs _ _ hg with rfl | hg
  · exact ⟨l, hl, rfl⟩
  · exact hgs g hg

/-- Lanes that all name one target form one group. -/
theorem targetGroups_single {o : ELanes} {off : Word} (hsome : o.lanes ≠ []) (hsame : ∀ l ∈ o.lanes, o.arg 0 l = off) :
    targetGroups o = [(off.toNat, o.lanes)] := by
  have joins : ∀ ls : List Nat, (∀ l ∈ ls, o.arg 0 l = off) → ∀ pre,
      ls.foldl (fun gs l => joinGroup gs (o.arg 0 l).toNat l) [(off.toNat, pre)] = [(off.toNat, pre ++ ls)] := by
    intro ls
    induction ls with
    | nil => simp
    | cons l ls ih =>
      intro hls pre
      obtain ⟨hl, hls⟩ := List.forall_mem_cons.1 hls
      have joined : joinGroup [(off.toNat, pre)] off.toNat l = [(off.toNat, pre ++ [l])] := by simp [joinGroup, tabSet, tabGetD, tabGet]
      rw [List.foldl_cons, hl, joined, ih hls, List.append_assoc, List.singleton_append]
  rw [targetGroups_eq]
  cases hlanes : o.lanes with
  | nil => exact absurd hlanes hsome
  | cons l ls =>
    rw [hlanes] at hsame
    obtain ⟨hl, hls⟩ := List.forall_mem_cons.1 hsame
    rw [List.foldl_cons, hl]
    exact joins ls hls [l]

/-- The group `g` has at most as many lanes as `b`, and where it has as many, no lower target. -/
def Outranks (b g : Nat × List Nat) : Prop := g.2.length < b.2.length ∨ (g.2.length = b.2.length ∧ b.1 ≤ g.1)

theorem Outranks.refl (b : Nat × List Nat) : Outranks b b := .inr ⟨rfl, le_rfl⟩

theorem Outranks.trans {a b c : Nat × List Nat} (h : Outranks a b) (k : Outranks b c) : Outranks a c := by
  unfold Outranks at *
  omega

/-- A fold that takes a group over where it has more lanes gives one that outranks all. -/
theorem foldl_outranks : ∀ (gs : List (Nat × List Nat)) (b : Nat × List Nat), tabSorted (b :: gs) = true → ∀ g ∈ b :: gs,
    Outranks (gs.foldl (fun b x => if b.2.length < x.2.length then x else b) b) g
  | [], b, _, g, hg => List.mem_singleton.1 hg ▸ Outranks.refl b
  | x :: gs, b, hsorted, g, hg => by
    have tail := tabSorted_tail hsorted
    have below := tabSorted_all _ hsorted
    obtain ⟨hbx, hbgs⟩ := List.forall_mem_cons.1 below
    rw [List.foldl_cons]
    by_cases hlen : b.2.length < x.2.length
    · rw [if_pos hlen]
      have best := foldl_outranks gs x tail
      rcases List.mem_cons.1 hg with rfl | hg
      · exact (best x List.mem_cons_self).trans (.inl hlen)
      · exact best g hg
    · rw [if_neg hlen]
      have best := foldl_outranks gs b (tabSorted_cons (fun q hq => hbgs q (List.mem_of_mem_head? hq)) (tabSorted_tail tail))
      rcases List.mem_cons.1 hg with rfl | hg
      · exact best _ List.mem_cons_self
      rcases List.mem_cons.1 hg with rfl | hg
      · refine (best b List.mem_cons_self).trans ?_
        unfold Outranks
        omega
      · exact best g (List.mem_cons_of_mem b hg)

/-- The largest of groups whose targets rise outranks them all. -/
theorem largestGroup_outranks {big : Nat × List Nat} : ∀ {gs : List (Nat × List Nat)}, tabSorted gs = true → largestGroup gs = some big →
    ∀ g ∈ gs, Outranks big g
  | b :: gs, hsorted, h, g, hg => by
    cases h
    exact foldl_outranks gs b hsorted g hg

/-- The largest group is one of the groups. -/
theorem largestGroup_mem {big : Nat × List Nat} : ∀ {gs : List (Nat × List Nat)}, largestGroup gs = some big → big ∈ gs
  | b :: gs, h => by
    cases h
    refine List.foldlRecOn (motive := fun x => x ∈ b :: gs) gs _ List.mem_cons_self fun x hx g hg => ?_
    split
    · exact List.mem_cons_of_mem b hg
    · exact hx

/-! ### CALLI (R199) -/

/-- The end of a lane instruction leaves the launch. -/
theorem eFinish_info (u : Team) (o : ELanes) (own : Bool) (fl : FpFlags) : (eFinish u o own fl).info = u.info := by
  obtain ⟨q, f, h⟩ := eFinish_eq u o own fl
  rw [h]

/-- The address of an offset from CODE at the end of a lane instruction. -/
theorem codeAddr_eFinish (i : Issue) (t : Team) (o : ELanes) (own : Bool) (fl : FpFlags) (off : Nat) :
    codeAddr (eFinish (atIssue i t) o own fl) off = BitVec.ofNat 64 (t.info.kernel.code + off) := by
  rw [codeAddr, eFinish_info, atIssue_info]

/-- The end of a lane instruction leaves the fragment that a later change finds. -/
theorem eFinish_modFrag {u : Team} {n : Nat} {f : Frag} (hf : tabGet u.frags n = some f) (o : ELanes) (own : Bool) (fl : FpFlags)
    (g : Frag → Frag) : (eFinish u o own fl).modFrag n g = { eFinish u o own fl with frags := tabSet u.frags n (g f) } := by
  have frags : (eFinish u o own fl).frags = u.frags := by
    obtain ⟨q, k, h⟩ := eFinish_eq u o own fl
    rw [h]
  rw [Team.modFrag, frags, tabMod_eq g hf]

section CallI
variable {s : State} {i : Issue} {t : Team} {a : BitVec 7} {o : ELanes}

/-- The team after a CALLI of the fragment `f` whose lanes in `big` call, with the other groups of `gs` detached at the CALLI. -/
def calledGroups (s : State) (i : Issue) (t : Team) (f : Frag) (o : ELanes) (gs : List (Nat × List Nat)) (big : Nat × List Nat)
    (e : CallEntry) : Team :=
  (gs.filter fun g => g.1 ≠ big.1).foldl
    (fun w g => detach (s.setTeam i.wid (atIssue i t)) i.wid w (Claims.path f (lanesMask g.2) i.pc))
    { eFinish (atIssue i t) { o with frag := { f with mask := lanesMask big.2 } } false 0 with
      frags := tabSet (atIssue i t).frags i.frag { f with
        mask := lanesMask big.2, pc := BitVec.ofNat 64 (t.info.kernel.code + big.1), win := calleeWindow i t f e } }

variable (h : Issuing (.calliE a) s i t) (ho : eOperands i (atIssue i t) (coreWord s i.core) [(a, .int)] none = .ok o)
include h ho

/-- CALLI of a lane whose target the table does not list. -/
theorem calliE_unlisted {l : Nat} (hl : o.lanes.find? (fun l => (callTarget t true (o.arg 0 l).toNat).isNone) = some l) :
    exec (.calliE a) s = .next (settle s i t {} (raiseWith 0x019 { lane := some l, value := o.arg 1 l ++ o.arg 0 l })) := by
  rw [exec_calliE, execCalliE, issue_trap (c := 0x019) (v := some { lane := some l, value := o.arg 1 l ++ o.arg 0 l }) plain h]
  · rfl
  · simp only [coreWord_setTeam, ho, callTargetE_atIssue, laneCause_raises 0x019 hl, raiseWith, bind, Except.bind]

/-- CALLI whose lanes all call listed entries without a spill. -/
theorem calliE_calls {f : Frag} {e : Nat → CallEntry} {big : Nat × List Nat} (hf : tabGet (atIssue i t).frags i.frag = some f)
    (hcalls : ∀ l ∈ o.lanes, callTarget t true (o.arg 0 l).toNat = some (e (o.arg 0 l).toNat) ∧ Enters t f (e (o.arg 0 l).toNat))
    (hbig : largestGroup (targetGroups o) = some big) (hone : (targetGroups o).length ≤ 1 ∨ t.trap.stream = none) :
    exec (.calliE a) s = .next (doneWith s i (calledGroups s i t f o (targetGroups o) big (e big.1))) := by
  have hfrag : o.frag = f := Option.some.inj ((eOperands_inv ho).1.symm.trans hf)
  have listed : laneCause o 0x019 (fun l => (callTarget t true (o.arg 0 l).toNat).isNone) = .ok () :=
    laneCause_ok 0x019 fun l hl => by rw [(hcalls l hl).1]; rfl
  have group : ∀ g ∈ targetGroups o, callTarget t true g.1 = some (e g.1) ∧ Enters t f (e g.1) := by
    intro g hg
    obtain ⟨l, hl, htarget⟩ := targetGroups_target o g hg
    exact htarget ▸ hcalls l hl
  have enters : ∀ g ∈ targetGroups o, ∀ s', enterCallee s' i (atIssue i t) f (lanesMask g.2)
      ((callTarget t true g.1).getD { off := g.1, fs := 1, fv := 1, estr := true }) = .ok (s', atIssue i t, calleeWindow i t f (e g.1)) := by
    intro g hg s'
    obtain ⟨hlisted, henter⟩ := group g hg
    rw [hlisted, Option.getD_some, enterCallee_of_fits s' _ henter]
  have outside : raiseIf (decide (1 < (targetGroups o).length) && (atIssue i t).trap.stream.isSome) 0x022 = .ok () := by
    rcases hone with hone | htrap
    · rw [decide_eq_false (by omega), Bool.false_and, raiseIf_false]
    · rw [atIssue_trap, htrap, Option.isSome_none, Bool.and_false, raiseIf_false]
  rw [exec_calliE]
  refine issue_team plain h ?_
  simp only [coreWord_setTeam, ho, hfrag, callTargetE_atIssue, listed, mapM_ok fun g hg => enters g hg _, hbig, outside,
    enters big (largestGroup_mem hbig), eFinish_modFrag hf, codeAddr_eFinish, State.setTeam_setTeam, bind, Except.bind]
  rfl

end CallI

/-- CALLI of lanes that all name one listed target and call without a spill. -/
theorem calliE_all {s : State} {i : Issue} {t : Team} {a : BitVec 7} {o : ELanes} {f : Frag} {e : CallEntry} {off : Word}
    (h : Issuing (.calliE a) s i t) (ho : eOperands i (atIssue i t) (coreWord s i.core) [(a, .int)] none = .ok o)
    (hf : tabGet (atIssue i t).frags i.frag = some f) (hsome : o.lanes ≠ []) (hsame : ∀ l ∈ o.lanes, o.arg 0 l = off)
    (he : callTarget t true off.toNat = some e) (henter : Enters t f e) (hall : lanesMask o.lanes = f.mask) :
    exec (.calliE a) s = .next (doneWith s i { eFinish (atIssue i t) o false 0 with frags := tabMod (atIssue i t).frags i.frag fun _ =>
      { f with win := calleeWindow i t f e, pc := BitVec.ofNat 64 (t.info.kernel.code + off.toNat) } }) := by
  have single := targetGroups_single hsome hsame
  have hbig : largestGroup (targetGroups o) = some (off.toNat, o.lanes) := by rw [single]; rfl
  have calls : ∀ l ∈ o.lanes, callTarget t true (o.arg 0 l).toNat = some e ∧ Enters t f e := fun l hl => by
    rw [hsame l hl]
    exact ⟨he, henter⟩
  have same : { o with frag := { f with mask := lanesMask o.lanes } } = o := by
    rw [hall, ← Option.some.inj ((eOperands_inv ho).1.symm.trans hf)]
  have others : ([(off.toNat, o.lanes)].filter fun g => g.1 ≠ off.toNat) = [] := by simp
  rw [calliE_calls (e := fun _ => e) h ho hf calls hbig (.inl (by rw [single]; exact le_rfl)), calledGroups, single, others, List.foldl_nil,
    same, hall, tabMod_eq _ hf]

/-! ### RET (R199) -/

/-- RET to a frame whose caller is resident, or that has none, changes the window and the program counter alone. -/
theorem retE_of_resident {s : State} {i : Issue} {t : Team} {f : Frag} {g k : Frame} {fs : List Frame}
    (hf : tabGet (atIssue i t).frags i.frag = some f) (h : Issuing .retE s i t) (hdepth : f.win.depth ≠ 0) (hframes : f.win.frames = g :: k :: fs)
    (htrap : g.trap = false) (hresident : fs ≠ [] ∨ f.win.depth = 1) :
    let w : Window := { base := (f.win.base + 64 * t.info.vphys - g.size) % t.info.vphys, depth := f.win.depth - 1, frames := k :: fs }
    exec .retE s = .next (doneWith s i { atIssue i t with
      frags := tabMod (atIssue i t).frags i.frag fun f => { f with pc := g.link, win := w } }) := by
  intro w
  have he := h.byFragment rfl
  have outside : inTrapFrame (atIssue i t) i.stream = false := by
    rw [he]
    simp [inTrapFrame, hf, hframes, htrap]
  have resident : f.win.frames.tail.length = 1 → f.win.depth ≤ 1 := by
    rw [hframes]
    intro h1
    have alone : fs = [] := List.length_eq_zero_iff.1 (Nat.succ.inj h1)
    exact (hresident.resolve_left (absurd alone)).le
  have size : f.win.size = g.size := by simp [Window.size, hframes]
  rw [exec_retE]
  refine issue_team plain h ?_
  simp only [hf, if_neg hdepth, outside, raiseIf_false, slideBackE_of_resident _ i _ f.mask resident, size, hframes, atIssue_info,
    setPc_frag he, State.setTeam_setTeam, Team.modFrag, tabMod_eq _ hf, tabMod_tabSet_same, bind, Except.bind]
  rfl

/-! ### The statements of calls -/

/-- CALL, CALLI to one target and RET of the E-stream. -/
theorem laneCalls : Claims.LaneCalls := by
  intro s i t f hf u code g enters
  refine ⟨?_, ?_, ?_⟩
  · intro c off h m target
    refine ⟨callE_passes h hf rfl, fun e hsome he henter => ⟨?_, ?_⟩, callE_unlisted h hf rfl⟩
    · exact callE_enters h hf rfl he henter hsome
    · exact callE_divides h hf rfl he henter hsome
  · exact fun a o off e h ho hsome hsame he henter hall => calliE_all h ho hf hsome hsame he henter hall
  · exact fun _ _ _ h hdepth hframes htrap hresident => retE_of_resident hf h hdepth hframes htrap hresident

/-- CALLI of the E-stream with several targets; only the lanes that stay pop the operand's queue (assumption 16). -/
theorem laneCallGroups : Claims.LaneCallGroups := by
  intro s i t f a o e big hf h ho
  refine ⟨fun l hl => calliE_unlisted h ho hl, fun hcalls htrap hbig => ⟨?_, ?_⟩⟩
  · exact largestGroup_outranks (targetGroups_sorted o) hbig
  · rw [tabMod_eq _ hf]
    exact calliE_calls h ho hf hcalls hbig (.inr htrap)

/-- Settles O36: lanes that detach, branches, calls and returns of the E-stream. -/
theorem laneControlFlow : Obligations.LaneControlFlow := ⟨lanesDetach, laneBranches, laneCalls, laneCallGroups⟩
end Sys2Proof.Machine

/-! ## Route tags -/

namespace Sys2Proof.Machine

/-! ### Operands of BARJ and BAR (Table 9-5) -/

/-- The operands of BARJ and BAR leave the launch. -/
theorem barOperands_info {s : State} {i : Issue} {t u : Team} {fs : List (BitVec 7)} {vs : List Nat}
    (h : barOperands s i t fs = .ok (vs, u)) : u.info = t.info := by
  unfold barOperands at h
  split at h
  · obtain ⟨o, -, h⟩ := act_bind_ok h
    cases h
    exact eFinish_info t o false 0
  · obtain ⟨ws, -, h⟩ := act_bind_ok h
    cases h
    rfl

/-- The operand of BAR of the A-stream. -/
theorem barOperands_a {s : State} {i : Issue} {t : Team} {a : BitVec 7} {v : DWord} (ha : i.stream = .a)
    (hv : sourceA i t (coreWord s i.core) a = .ok v) : barOperands s i t [a] = .ok ([v.toNat], t) := by
  have operands : ([a].mapM fun f => sourceA i t (coreWord s i.core) f) = .ok [v] := by
    rw [List.mapM_cons, hv]
    rfl
  rw [barOperands, Issue.estr_of_a ha, if_neg Bool.false_ne_true, operands]
  rfl

/-! ### BARJ (R210) -/

section Join
variable {s : State} {i : Issue} {t u : Team} {a b : BitVec 7} {tag c : Nat}

/-- A count that BARJ takes: from 1 to 4096, and that of a tag which has members, but is not full. -/
def JoinFits (r : RouteTag) (c : Nat) : Prop := 1 ≤ c ∧ c ≤ 4096 ∧ (r.members ≠ [] → c = r.count ∧ r.members.length ≠ c)

/-- A count is out of range. -/
def countOutside (c : Nat) : Bool := c = 0 || decide (4096 < c)

/-- A tag with members has another count, or is full. -/
def countRefused (r : RouteTag) (c : Nat) : Bool := !r.members.isEmpty && (c != r.count || decide (r.members.length = r.count))

/-- A count fits where neither check of BARJ refuses it. -/
theorem joinFits_iff (r : RouteTag) (c : Nat) : JoinFits r c ↔ countOutside c = false ∧ countRefused r c = false := by
  have range : countOutside c = false ↔ 1 ≤ c ∧ c ≤ 4096 := by
    simp only [countOutside, Bool.or_eq_false_iff, decide_eq_false_iff_not]
    omega
  have agrees : countRefused r c = false ↔ (r.members ≠ [] → c = r.count ∧ r.members.length ≠ c) := by
    simp only [countRefused, Bool.and_eq_false_imp, Bool.not_eq_true', List.isEmpty_eq_false_iff, Bool.or_eq_false_iff, bne_eq_false_iff_eq,
      decide_eq_false_iff_not]
    exact imp_congr_right fun _ => and_congr_right fun hc => by rw [hc]
  rw [JoinFits, range, agrees, and_assoc]

/-- The state in which the launch `seq` has joined the tag with its A-stream or its E-stream. -/
def joinedState (s : State) (i : Issue) (u : Team) (tag c seq : Nat) : State :=
  let r := tabGetD {} s.dev.routeTags tag
  ({ s with dev := { s.dev with
    routeTags := tabSetD {} s.dev.routeTags tag { r with count := c, members := r.members ++ [(seq, i.estr)] } } }).setTeam i.wid u

/-- The joined state does not keep the team that stood in the slot. -/
theorem joinedState_setTeam (s : State) (i : Issue) (t u : Team) (tag c seq : Nat) :
    joinedState (s.setTeam i.wid t) i u tag c seq = joinedState s i u tag c seq :=
  State.setTeam_setTeam { s with dev := (joinedState s i u tag c seq).dev } i.wid t u

/-- BARJ once its operands are read: the checks one after another, and the launch joins. -/
def joining (s : State) (i : Issue) (u : Team) (tag c seq : Nat) : Act State := do
  let r := tabGetD {} s.dev.routeTags tag
  raiseIf (decide (7 < tag)) 0x01D
  raiseIf (Claims.joined2 r seq) 0x01C
  raiseIf (countOutside c) 0x01E
  raiseIf (countRefused r c) 0x01E
  .ok (joinedState s i u tag c seq)

/-- A tag above 7 is refused. -/
theorem joining_far (s : State) (i : Issue) (u : Team) (c seq : Nat) (hfar : 7 < tag) : joining s i u tag c seq = raise 0x01D := by
  simp only [joining, decide_eq_true hfar, raiseIf_true, raise, bind, Except.bind]

variable {seq : Nat} (hnear : tag ≤ 7)
include hnear

/-- A launch that has joined the tag is refused. -/
theorem joining_again (hin : Claims.joined2 (tabGetD {} s.dev.routeTags tag) seq) : joining s i u tag c seq = raise 0x01C := by
  simp only [joining, decide_eq_false hnear.not_gt, hin, raiseIf_false, raiseIf_true, raise, bind, Except.bind]

variable (hnew : Claims.joined2 (tabGetD {} s.dev.routeTags tag) seq = false)
include hnew

/-- A launch whose count fits joins. -/
theorem joining_fits (hfits : JoinFits (tabGetD {} s.dev.routeTags tag) c) : joining s i u tag c seq = .ok (joinedState s i u tag c seq) := by
  obtain ⟨range, agrees⟩ := (joinFits_iff _ _).1 hfits
  simp only [joining, decide_eq_false hnear.not_gt, hnew, range, agrees, raiseIf_false, bind, Except.bind]

/-- A count that does not fit is refused. -/
theorem joining_unfit (hfits : ¬JoinFits (tabGetD {} s.dev.routeTags tag) c) : joining s i u tag c seq = raise 0x01E := by
  cases range : countOutside c with
  | true => simp only [joining, decide_eq_false hnear.not_gt, hnew, range, raiseIf_false, raiseIf_true, raise, bind, Except.bind]
  | false =>
    have refused : countRefused (tabGetD {} s.dev.routeTags tag) c = true :=
      (Bool.eq_false_or_eq_true _).resolve_right fun agrees => hfits ((joinFits_iff _ _).2 ⟨range, agrees⟩)
    simp only [joining, decide_eq_false hnear.not_gt, hnew, range, refused, raiseIf_false, raiseIf_true, raise, bind, Except.bind]

end Join

theorem exec_barj (a b : BitVec 7) (s : State) : exec (.barj a b) s = issue (.barj a b) plain s fun i t s => (do
    let (vs, u) ← barOperands s i t [a, b]
    joining s i u (vs.getD 0 0) (vs.getD 1 0) u.info.seq.toNat) := rfl

/-- BARJ. -/
theorem barrierJoin : Claims.BarrierJoin := by
  intro s i t u a b tag c h ho r seq d
  have hseq : u.info.seq.toNat = seq := congrArg (·.seq.toNat) ((barOperands_info ho).trans (atIssue_info i t))
  have stops : ∀ k, joining (s.setTeam i.wid (atIssue i t)) i u tag c seq = raise k → exec (.barj a b) s = .next (settle s i t d (raise k)) := by
    intro k hk
    rw [exec_barj]
    refine issue_trap plain h ?_
    simp only [ho, List.getD_cons_zero, List.getD_cons_succ, hseq, hk, raise, bind, Except.bind]
  refine ⟨fun hfar => stops 0x01D (joining_far _ i u c seq hfar), fun hnear hin => stops 0x01C (joining_again hnear hin), ?_⟩
  intro hnear hnew fits
  refine ⟨fun hfits => stops 0x01E (joining_unfit hnear hnew hfits), fun hfits => ?_⟩
  have joins := joining_fits (s := s.setTeam i.wid (atIssue i t)) (i := i) (u := u) hnear hnew hfits
  rw [joinedState_setTeam] at joins
  rw [exec_barj]
  refine issue_next plain h ?_
  simp only [ho, List.getD_cons_zero, List.getD_cons_succ, hseq, joins, bind, Except.bind]
  rfl

/-! ### What a release leaves of the route tags -/

theorem advanceGen_routeTags (s : State) (wid : Nat) : (advanceGen s wid).dev.routeTags = s.dev.routeTags := by
  unfold advanceGen
  dsimp only
  split <;> rfl

theorem l2Touch_routeTags (s : State) (node : Option Nat) (pa : Nat) (attr : PageAttr) (cls : BitVec 2) :
    (l2Touch s node pa attr cls).dev.routeTags = s.dev.routeTags := by
  unfold l2Touch
  split
  · generalize l2Place _ _ _ _ = x
    rfl
  · rfl

theorem recallStash_routeTags (s : State) (keep : Option Nat) (line : Nat) (write : Bool) :
    (recallStash s keep line write).dev.routeTags = s.dev.routeTags := by
  unfold recallStash
  split <;> rfl

theorem dropRelease_routeTags (s : State) (pa : Nat) : (dropRelease s pa).dev.routeTags = s.dev.routeTags := by
  unfold dropRelease
  rfl

theorem writeTag_routeTags (s : State) (pa n : Nat) (k : TagWrite) : (writeTag s pa n k).dev.routeTags = s.dev.routeTags := by
  unfold writeTag
  split <;> rfl

theorem testWatches_routeTags (s : State) (pa n : Nat) : (testWatches s pa n).dev.routeTags = s.dev.routeTags := by
  unfold testWatches
  split <;> rfl

/-- A physical write leaves the route tags. -/
theorem physWrite_routeTags (s : State) (acc : Accessor) (pa : Nat) (bs : List Byte) (attr : PageAttr) (cls : BitVec 2) (k : TagWrite) :
    (physWrite s acc pa bs attr cls k).dev.routeTags = s.dev.routeTags := by
  unfold physWrite
  rw [testWatches_routeTags]
  refine (writeTag_routeTags ..).trans ((dropRelease_routeTags ..).trans ((recallStash_routeTags ..).trans ?_))
  exact l2Touch_routeTags ..

/-- The frames of saved members take the release; the route tags and the teams, but for their stashes, stay. -/
theorem frameRelease_leaves (ps : List (Nat × Saved)) (s : State) : (ps.foldl frameRelease s).dev.routeTags = s.dev.routeTags ∧
    ∀ w, (ps.foldl frameRelease s).bareTeam w = s.bareTeam w := by
  refine List.foldlRecOn (motive := fun r : State => r.dev.routeTags = s.dev.routeTags ∧ ∀ w, r.bareTeam w = s.bareTeam w)
    ps _ ⟨rfl, fun _ => rfl⟩ fun r hr p _ => ?_
  obtain ⟨tags, teams⟩ := hr
  exact ⟨(physWrite_routeTags ..).trans tags, fun w => (physWrite_bareTeam ..).trans (teams w)⟩

/-! ### The release of a tag (R211) -/

/-- A team that the release of a tag lets go on where it is a member. -/
def Team.releasedAt (t : Team) (tag : Nat) (members : List (Nat × Bool)) : Team :=
  if members.any fun m => m.1 = t.info.seq.toNat then t.freeBar tag else t

/-- A release frees the streams of the members and leaves the route tags. -/
theorem releaseTag_leaves (s : State) (tag : Nat) (members : List (Nat × Bool)) (all : List Arrival) :
    (releaseTag s tag members all).dev.routeTags = s.dev.routeTags ∧
      ∀ w, (releaseTag s tag members all).bareTeam w = (s.bareTeam w).map fun t => t.releasedAt tag members := by
  unfold releaseTag
  obtain ⟨tags, teams⟩ := frameRelease_leaves _ _
  refine ⟨tags, fun w => (teams w).trans (State.bareTeam_map rfl (fun p => ?_) (fun p => ?_) w)⟩
  · split <;> rfl
  · rw [Team.releasedAt]
    by_cases hmine : (members.any fun m => m.1 = p.2.bare.info.seq.toNat) = true
    · rw [if_pos hmine]
      exact congrArg (·.2.bare) (if_pos (α := Nat × Team) hmine)
    · rw [if_neg hmine]
      exact congrArg (·.2.bare) (if_neg (α := Nat × Team) hmine)

/-- No stream of the team waits at the tag. -/
def Team.FreeOf (t : Team) (tag : Nat) : Prop := t.a.bar ≠ some tag ∧ ∀ p ∈ t.frags, p.2.bar ≠ some tag

/-- A release leaves the launch. -/
theorem Team.releasedAt_info (t : Team) (tag : Nat) (members : List (Nat × Bool)) : (t.releasedAt tag members).info = t.info := by
  unfold Team.releasedAt
  split <;> rfl

/-- A team that a tag frees waits at it with no stream. -/
theorem Team.freeBar_freeOf (t : Team) (tag : Nat) : (t.freeBar tag).FreeOf tag := by
  have freed : ∀ b : Option Nat, (if b = some tag then none else b) ≠ some tag := fun b => by
    split
    · exact nofun
    · assumption
  refine ⟨freed _, fun p hp => ?_⟩
  obtain ⟨q, -, rfl⟩ := List.mem_map.1 hp
  exact freed _

/-- A member is released by its tag. -/
theorem Team.releasedAt_member {t : Team} (tag : Nat) {members : List (Nat × Bool)} {e : Bool} (h : (t.info.seq.toNat, e) ∈ members) :
    t.releasedAt tag members = t.freeBar tag := if_pos (List.any_eq_true.2 ⟨_, h, decide_eq_true rfl⟩)

/-! ### An arrival at a tag (R211, R252) -/

/-- The tag of a number. -/
def State.routeTag (s : State) (tag : Nat) : RouteTag := tabGetD {} s.dev.routeTags tag

/-- The arrivals at a tag, with one of the launch `seq` in the slot `wid`. -/
def arrivalsWith (s : State) (tag seq wid : Nat) : List Arrival :=
  (s.routeTag tag).arrived ++ [{ seq := seq, wid := wid, gen := (genOf s wid).cur.toNat }]

/-- The state in which the arrivals of a tag are `next`. -/
def State.withArrived (s : State) (tag : Nat) (next : List Arrival) : State :=
  { s with dev := { s.dev with routeTags := tabSetD {} s.dev.routeTags tag { s.routeTag tag with arrived := next } } }

@[simp] theorem State.withArrived_routeTag (s : State) (tag : Nat) (next : List Arrival) :
    (s.withArrived tag next).routeTag tag = { s.routeTag tag with arrived := next } := tabGetD_tabSetD_same ..

theorem State.withArrived_bareTeam (s : State) (tag : Nat) (next : List Arrival) (w : Nat) :
    (s.withArrived tag next).bareTeam w = s.bareTeam w := State.bareTeam_of_teams rfl w

@[simp] theorem advanceGen_routeTag (s : State) (wid tag : Nat) : (advanceGen s wid).routeTag tag = s.routeTag tag := by
  rw [State.routeTag, advanceGen_routeTags, State.routeTag]

section Arrival
variable {s : State} {tag seq wid : Nat}

/-- An arrival, once its generation has advanced: the last one releases the tag. -/
theorem arriveAt_eq (s : State) (tag seq wid : Nat) : arriveAt s tag seq wid =
    let s1 := advanceGen s wid
    let here := arrivalsWith s1 tag seq wid
    if here.length = (s1.routeTag tag).count then releaseTag (s1.withArrived tag []) tag (s1.routeTag tag).members here
    else s1.withArrived tag here := by
  unfold arriveAt
  dsimp only
  by_cases hlast : (arrivalsWith (advanceGen s wid) tag seq wid).length = ((advanceGen s wid).routeTag tag).count
  · rw [if_pos hlast]
    unfold arrivalsWith State.routeTag at hlast
    simp only [if_pos hlast]
    rfl
  · rw [if_neg hlast]
    unfold arrivalsWith State.routeTag at hlast
    simp only [if_neg hlast]
    rfl

theorem arrivalsWith_length (s : State) (tag seq wid : Nat) :
    (arrivalsWith (advanceGen s wid) tag seq wid).length = (s.routeTag tag).arrived.length + 1 := by
  rw [arrivalsWith, advanceGen_routeTag, List.length_append, List.length_singleton]

/-- An arrival before the last is noted, and no stream goes on. -/
theorem arriveAt_waits (h : (s.routeTag tag).arrived.length + 1 ≠ (s.routeTag tag).count) :
    ((arriveAt s tag seq wid).routeTag tag).arrived.map (·.seq) = (s.routeTag tag).arrived.map (·.seq) ++ [seq] ∧
      ∀ w, (arriveAt s tag seq wid).bareTeam w = s.bareTeam w := by
  rw [arriveAt_eq]
  simp only [arrivalsWith_length, advanceGen_routeTag, if_neg h, State.withArrived_routeTag]
  rw [arrivalsWith, advanceGen_routeTag]
  exact ⟨List.map_append, fun w => (State.withArrived_bareTeam ..).trans (advanceGen_bareTeam s wid w)⟩

/-- The last arrival releases every member, and a new round begins. -/
theorem arriveAt_releases (h : (s.routeTag tag).arrived.length + 1 = (s.routeTag tag).count) :
    ((arriveAt s tag seq wid).routeTag tag).arrived = [] ∧
      ∀ w, (arriveAt s tag seq wid).bareTeam w = (s.bareTeam w).map fun t => t.releasedAt tag (s.routeTag tag).members := by
  rw [arriveAt_eq]
  simp only [arrivalsWith_length, advanceGen_routeTag, if_pos h]
  obtain ⟨tags, teams⟩ := releaseTag_leaves ((advanceGen s wid).withArrived tag []) tag (s.routeTag tag).members
    (arrivalsWith (advanceGen s wid) tag seq wid)
  refine ⟨?_, fun w => ?_⟩
  · rw [State.routeTag, tags]
    exact congrArg RouteTag.arrived (State.withArrived_routeTag ..)
  · rw [teams, State.withArrived_bareTeam, advanceGen_bareTeam]

/-- The last arrival leaves no member with a stream that waits at the tag. -/
theorem arriveAt_frees (h : (s.routeTag tag).arrived.length + 1 = (s.routeTag tag).count) {w : Nat} {k : Team} {e : Bool}
    (hk : (arriveAt s tag seq wid).team? w = some k) (hmem : (k.info.seq.toNat, e) ∈ (s.routeTag tag).members) : k.FreeOf tag := by
  have bare : (arriveAt s tag seq wid).bareTeam w = some k.bare := congrArg (Option.map Team.bare) hk
  rw [(arriveAt_releases h).2 w] at bare
  obtain ⟨t, -, ht⟩ := Option.map_eq_some_iff.1 bare
  have info : k.info = t.info := (congrArg Team.info ht).symm.trans (t.releasedAt_info tag _)
  rw [Team.releasedAt_member tag (info ▸ hmem)] at ht
  have free := t.freeBar_freeOf tag
  rw [ht] at free
  exact free

end Arrival

/-! ### BAR (R211, R255) -/

/-- The A-stream of a team waits at a tag. -/
def Team.waitsA (u : Team) (tag : Nat) : Team := u.modA fun a => { a with bar := some tag, wait := some (.barrier tag) }

/-- A fragment of a team waits at a tag. -/
def Team.waitsE (u : Team) (n tag : Nat) : Team := u.modFrag n fun f => { f with bar := some tag, wait := some (.barrier tag) }

/-- BAR once its operand is read: the stream has joined the tag, waits, and may be the last to arrive. -/
def barrier (s : State) (i : Issue) (u : Team) (tag : Nat) : Act State := do
  raiseIf (decide (7 < tag) || !(s.routeTag tag).members.contains (u.info.seq.toNat, i.estr)) 0x01D
  match i.stream with
  | .a => .ok (arriveAt (s.setTeam i.wid (u.waitsA tag)) tag u.info.seq.toNat i.wid)
  | .e n => .ok (checkArrivals (s.setTeam i.wid (u.waitsE n tag)) i.wid)

theorem exec_bar (a : BitVec 7) (s : State) : exec (.bar a) s = issue (.bar a) plain s fun i t s => (do
    let (vs, u) ← barOperands s i t [a]
    barrier s i u (vs.getD 0 0)) := rfl

section Barrier
variable {s : State} {i : Issue} {t u : Team} {a : BitVec 7} {tag : Nat}

/-- A tag that the stream has not joined is refused. -/
theorem barrier_refused (h : 7 < tag ∨ (u.info.seq.toNat, i.estr) ∉ (s.routeTag tag).members) : barrier s i u tag = raise 0x01D := by
  have refused : (decide (7 < tag) || !(s.routeTag tag).members.contains (u.info.seq.toNat, i.estr)) = true := by simpa using h
  simp only [barrier, refused, raiseIf_true, raise, bind, Except.bind]

/-- A stream that has joined passes the check of BAR. -/
theorem barrier_passes (hnear : tag ≤ 7) (hin : (u.info.seq.toNat, i.estr) ∈ (s.routeTag tag).members) :
    raiseIf (decide (7 < tag) || !(s.routeTag tag).members.contains (u.info.seq.toNat, i.estr)) 0x01D = .ok () :=
  if_neg (by simp [hin, hnear])

/-- The A-stream arrives. -/
theorem barrier_a (hnear : tag ≤ 7) (hin : (u.info.seq.toNat, i.estr) ∈ (s.routeTag tag).members) (ha : i.stream = .a) :
    barrier s i u tag = .ok (arriveAt (s.setTeam i.wid (u.waitsA tag)) tag u.info.seq.toNat i.wid) := by
  rw [barrier, barrier_passes hnear hin, ha]
  rfl

/-- A fragment arrives, and the launch with the last of its fragments. -/
theorem barrier_e (hnear : tag ≤ 7) (hin : (u.info.seq.toNat, i.estr) ∈ (s.routeTag tag).members) {n : Nat} (he : i.stream = .e n) :
    barrier s i u tag = .ok (checkArrivals (s.setTeam i.wid (u.waitsE n tag)) i.wid) := by
  rw [barrier, barrier_passes hnear hin, he]
  rfl

/-- The route tags do not depend on the teams. -/
@[simp] theorem State.setTeam_routeTag (s : State) (w : Nat) (t : Team) (tag : Nat) : (s.setTeam w t).routeTag tag = s.routeTag tag := rfl

/-- A launch whose E-stream has arrived at no tag arrives at none. -/
theorem checkArrivals_none (ht : s.team? i.wid = some t) (hnot : ∀ k, k < 8 → allAtBar t k = false) : checkArrivals s i.wid = s := by
  simp only [checkArrivals, ht]
  refine List.foldlRecOn (motive := fun r : State => r = s) _ _ rfl fun r hr k hk => ?_
  rw [hnot k (List.mem_range.1 hk), Bool.and_false, if_neg Bool.false_ne_true, hr]

/-- The end of an instruction of the A-stream leaves the launch, the A-stream and the fragments of the team in each slot. -/
theorem doneAs_streams (ha : i.stream = .a) {w : Nat} {k : Team} (h : (doneAs s i).team? w = some k) :
    ∃ y, s.team? w = some y ∧ k.info = y.info ∧ k.a = y.a ∧ k.frags = y.frags := by
  by_cases hw : w = i.wid
  · subst hw
    rw [doneAs, State.modTeam_team?_same] at h
    obtain ⟨y, hy, rfl⟩ := Option.map_eq_some_iff.1 h
    exact ⟨y, hy, y.issued_info _, y.issued_a _, by rw [ha]; rfl⟩
  · rw [doneAs, State.modTeam_team?_other _ _ hw] at h
    exact ⟨k, h, rfl, rfl, rfl⟩

/-- A slot whose team is known bare holds a team after the instruction. -/
theorem doneAs_team_of_bare {y : Team} (h : s.bareTeam i.wid = some y) : ∃ v, (doneAs s i).team? i.wid = some v ∧ v.a = y.a := by
  obtain ⟨z, hz, rfl⟩ := State.bareTeam_some h
  exact ⟨z.issued i.stream, by rw [doneAs, State.modTeam_team?_same, hz, Option.map_some], z.issued_a _⟩

/-- The launch that arrives last goes on: its A-stream waits no longer. -/
theorem lastArrival_goes {y : Team} {seq : Nat} {e : Bool} (hown : s.bareTeam i.wid = some y) (hwaits : y.a.bar = some tag)
    (hin : (y.info.seq.toNat, e) ∈ (s.routeTag tag).members) (hlast : (s.routeTag tag).arrived.length + 1 = (s.routeTag tag).count) :
    ∃ v, (doneAs (arriveAt s tag seq i.wid) i).team? i.wid = some v ∧ v.a.bar = none := by
  obtain ⟨-, teams⟩ := arriveAt_releases (seq := seq) (wid := i.wid) hlast
  have own := teams i.wid
  rw [hown, Option.map_some, Team.releasedAt_member tag hin] at own
  obtain ⟨v, hteam, hv⟩ := doneAs_team_of_bare own
  exact ⟨v, hteam, by rw [hv]; exact if_pos hwaits⟩

/-- A launch that arrives before the last waits on. -/
theorem earlyArrival_waits {y : Team} {seq : Nat} (hown : s.bareTeam i.wid = some y) (hwaits : y.a.bar = some tag)
    (hmore : (s.routeTag tag).arrived.length + 1 ≠ (s.routeTag tag).count) :
    ∃ v, (doneAs (arriveAt s tag seq i.wid) i).team? i.wid = some v ∧ v.a.bar = some tag := by
  obtain ⟨-, teams⟩ := arriveAt_waits (seq := seq) (wid := i.wid) hmore
  obtain ⟨v, hteam, hv⟩ := doneAs_team_of_bare ((teams i.wid).trans hown)
  exact ⟨v, hteam, by rw [hv, hwaits]⟩

/-- After the last arrival no member has a stream that waits at the tag. -/
theorem lastArrival_frees {seq : Nat} (ha : i.stream = .a) (hlast : (s.routeTag tag).arrived.length + 1 = (s.routeTag tag).count)
    {w : Nat} {k : Team} {e : Bool} (hk : (doneAs (arriveAt s tag seq i.wid) i).team? w = some k)
    (hmem : (k.info.seq.toNat, e) ∈ (s.routeTag tag).members) : k.FreeOf tag := by
  obtain ⟨y, hy, hinfo, hstream, hfrags⟩ := doneAs_streams ha hk
  rw [hinfo] at hmem
  rw [Team.FreeOf, hstream, hfrags]
  exact arriveAt_frees hlast hy hmem

variable {v : DWord} (h : Issuing (.bar a) s i t) (ha : i.stream = .a) (hv : sourceA i (atIssue i t) (coreWord s i.core) a = .ok v)
include h ha hv

/-- BAR of the A-stream at a tag that it has not joined raises 0x01D. -/
theorem barA_refused (hout : 7 < v.toNat ∨ (t.info.seq.toNat, false) ∉ (s.routeTag v.toNat).members) :
    exec (.bar a) s = .next (settle s i t { value := valueOfA i t (coreWord s i.core) (.bar a) } (raise 0x01D)) := by
  have ho : barOperands (s.setTeam i.wid (atIssue i t)) i (atIssue i t) [a] = .ok ([v.toNat], atIssue i t) := barOperands_a ha hv
  rw [← Issue.estr_of_a ha, ← atIssue_info i] at hout
  have refused := barrier_refused (s := s.setTeam i.wid (atIssue i t)) hout
  rw [exec_bar]
  refine issue_trap plain h ?_
  simp only [ho, List.getD_cons_zero, refused, raise, bind, Except.bind]

/-- BAR of the A-stream at a tag that it has joined: the launch arrives, and the stream waits. -/
theorem barA_arrives (hnear : v.toNat ≤ 7) (hin : (t.info.seq.toNat, false) ∈ (s.routeTag v.toNat).members) : exec (.bar a) s =
    .next (doneAs (arriveAt (s.setTeam i.wid ((atIssue i t).waitsA v.toNat)) v.toNat t.info.seq.toNat i.wid) i) := by
  have ho : barOperands (s.setTeam i.wid (atIssue i t)) i (atIssue i t) [a] = .ok ([v.toNat], atIssue i t) := barOperands_a ha hv
  rw [← Issue.estr_of_a ha, ← atIssue_info i] at hin
  have arrives := barrier_a (s := s.setTeam i.wid (atIssue i t)) hnear hin ha
  rw [State.setTeam_setTeam, atIssue_info] at arrives
  rw [exec_bar]
  refine issue_next plain h ?_
  simp only [ho, List.getD_cons_zero, arrives, bind, Except.bind]

end Barrier

/-- BAR of the A-stream. -/
theorem barrierWait : Claims.BarrierWait := by
  intro s i t a tag h ha hv r seq
  refine ⟨barA_refused h ha hv, fun hnear hin => ?_⟩
  have arrives := barA_arrives h ha hv hnear hin
  generalize hw : (atIssue i t).waitsA tag.toNat = w at arrives
  have own : (s.setTeam i.wid w).bareTeam i.wid = some w.bare := congrArg (Option.map Team.bare) (State.setTeam_team?_same ..)
  have waits : w.bare.a.bar = some tag.toNat := by rw [← hw]; rfl
  have member : (w.bare.info.seq.toNat, false) ∈ r.members := by
    have launch : w.bare.info = t.info := by rw [← hw]; exact atIssue_info i t
    rwa [launch]
  by_cases hlast : r.arrived.length + 1 = r.count
  · obtain ⟨v, hteam, hbar⟩ := lastArrival_goes (seq := seq) own waits member hlast
    obtain ⟨round, -⟩ := arriveAt_releases (s := s.setTeam i.wid w) (seq := seq) (wid := i.wid) hlast
    refine ⟨_, v, arrives, hteam, fun hmore => absurd hlast hmore, fun _ => ⟨hbar, round, fun _ _ hk ⟨_, hmem⟩ => ?_⟩⟩
    exact lastArrival_frees (s := s.setTeam i.wid w) ha hlast hk hmem
  · obtain ⟨v, hteam, hbar⟩ := earlyArrival_waits (seq := seq) own waits hlast
    obtain ⟨noted, -⟩ := arriveAt_waits (s := s.setTeam i.wid w) (seq := seq) (wid := i.wid) hlast
    exact ⟨_, v, arrives, hteam, fun _ => ⟨hbar, noted⟩, fun h => absurd h hlast⟩

/-- BAR of the E-stream. -/
theorem laneBarrier : Claims.LaneBarrier := by
  intro s i t u n a tag h he ho hnear hin w
  have member : (u.info.seq.toNat, i.estr) = (t.info.seq.toNat, true) := by rw [barOperands_info ho, atIssue_info, Issue.estr_of_e he]
  have arrives := barrier_e (s := s.setTeam i.wid (atIssue i t)) hnear (member ▸ hin) he
  have completes : exec (.bar a) s = .next (doneAs (checkArrivals (s.setTeam i.wid w) i.wid) i) := by
    rw [exec_bar]
    refine issue_next plain h ?_
    simp only [ho, List.getD_cons_zero, arrives, State.setTeam_setTeam, bind, Except.bind]
    rfl
  refine ⟨completes, fun hnot => ?_⟩
  rw [completes, checkArrivals_none (State.setTeam_team?_same ..) hnot, doneAs_setTeam]

/-- Settles O38: BARJ, and BAR of both streams. -/
theorem routeTags : Obligations.RouteTags := ⟨barrierJoin, barrierWait, laneBarrier⟩

end Sys2Proof.Machine

/-!
## Memory stays in its canonical form

The cells of memory rise by address and hold no zero byte: `Memory.wf`. Bytes are written by `physWrite` alone, and a cold reset drops
cells. So a function of the model has one of two lemmas here: `f_mem`, it leaves memory alone, or `f_wf`, it keeps memory canonical. Each
is proved once, in the order of the model's own definitions, from those of the functions that it calls.
-/

namespace Sys2Proof.Machine

/-! ### Choices and folds over states -/

@[simp] theorem State.mem_ite (c : Prop) [Decidable c] (a b : State) : (if c then a else b).mem = if c then a.mem else b.mem :=
  apply_ite State.mem c a b

@[simp] theorem Memory.wf_ite (c : Prop) [Decidable c] (a b : List Host.Cell) :
    Memory.wf (if c then a else b) = true ↔ if c then Memory.wf a else Memory.wf b := by
  split <;> rfl

/-- A fold of steps that leave memory alone leaves it alone. -/
theorem foldl_mem {α : Type} {f : State → α → State} {s : State} (l : List α) (step : ∀ r a, (f r a).mem = r.mem) :
    (l.foldl f s).mem = s.mem :=
  List.foldlRecOn (motive := fun r : State => r.mem = s.mem) l f rfl fun r hr a _ => (step r a).trans hr

/-- A fold of steps that keep memory canonical keeps it canonical. -/
theorem foldl_wf {α : Type} {f : State → α → State} {s : State} (h : Memory.wf s.mem) (l : List α)
    (step : ∀ r a, Memory.wf r.mem → Memory.wf (f r a).mem) : Memory.wf (l.foldl f s).mem :=
  List.foldlRecOn (motive := fun r : State => Memory.wf r.mem) l f h fun r hr a _ => step r a hr

/-! ### Translation, the caches and the tables of physical memory -/

section MemorySystem
variable {s : State}

@[simp] theorem xlateFill_mem (core ctx va : Nat) : (xlateFill s core ctx va).mem = s.mem := (undisturbed_xlateFill ..).mem
@[simp] theorem recordRelease_mem (pa wid : Nat) : (recordRelease s pa wid).mem = s.mem := rfl
@[simp] theorem countEvent_mem (dom : Nat) : (countEvent s dom).mem = s.mem := rfl
@[simp] theorem forgetRefused_mem (who : Requester) : (forgetRefused s who).mem = s.mem := rfl
@[simp] theorem leaveFilters_mem (wid : Nat) : (leaveFilters s wid).mem = s.mem := rfl

@[simp] theorem physTouchRead_mem (acc : Accessor) (pa : Nat) (attr : PageAttr) (cls : BitVec 2) (l1 : Bool) :
    (physTouchRead s acc pa attr cls l1).mem = s.mem := (undisturbed_physTouchRead ..).mem

@[simp] theorem engineTouch_mem (acc : Accessor) (core ctx : Nat) (rs : List (Nat × Nat)) (cls : BitVec 2) :
    (engineTouch s acc core ctx rs cls).mem = s.mem := (undisturbed_engineTouch ..).mem

@[simp] theorem acquire_mem (wid pa : Nat) : (acquire s wid pa).mem = s.mem := by
  unfold acquire
  dsimp only
  split <;> simp

@[simp] theorem noteDeclined_mem (page : Nat) (who : Requester) : (noteDeclined page s who).mem = s.mem := by
  cases who <;> rfl

@[simp] theorem answerPage_mem (ctx page : Nat) (granted : Bool) : (answerPage s ctx page granted).mem = s.mem := by
  unfold answerPage
  dsimp only
  split
  · rfl
  · exact foldl_mem _ fun _ _ => noteDeclined_mem ..

end MemorySystem

/-! ### Writes of memory, fault records and page requests -/

section Writes
variable {s : State} (h : Memory.wf s.mem)
include h

@[simp] theorem physWrite_wf (acc : Accessor) (pa : Nat) (bs : List Byte) (attr : PageAttr) (cls : BitVec 2) (k : TagWrite) :
    Memory.wf (physWrite s acc pa bs attr cls k).mem := by
  rw [physWrite_mem]
  exact memWrite_wf bs _ pa h

@[simp] theorem apexWrite_wf (pa : Nat) (bs : List Byte) : Memory.wf (apexWrite s pa bs).mem := physWrite_wf h ..

omit h in
theorem apexWriteAll_wf (fuel : Nat) : ∀ {s : State} (pa : Nat) (bs : List Byte),
    Memory.wf s.mem → Memory.wf (apexWriteAll fuel s pa bs).mem := by
  induction fuel with
  | zero => exact fun _ _ h => h
  | succ fuel ih =>
    intro s pa bs h
    unfold apexWriteAll
    split
    · exact h
    · exact ih _ _ (apexWrite_wf h ..)

@[simp] theorem writeFaultSlot_wf (dom : Nat) (bs : List Byte) : Memory.wf (writeFaultSlot s dom bs).mem := by
  unfold writeFaultSlot
  dsimp only
  split <;> simp [h]

@[simp] theorem faultRecord_wf (node : Option Nat) (cause source core teamId : Nat) (bodies : List (List RecField)) :
    Memory.wf (faultRecord s node cause source core teamId bodies).mem :=
  foldl_wf h _ fun _ _ hr => writeFaultSlot_wf hr ..

@[simp] theorem postRecord_wf (e : FilterEntry) : Memory.wf (postRecord s e).1.mem := by
  unfold postRecord
  dsimp only
  split <;> simp [h]

@[simp] theorem clusterRequest_wf (core : Nat) (e : FilterEntry) : Memory.wf (clusterRequest s core e).mem := by
  unfold clusterRequest
  dsimp only
  split
  · split <;> simp [h]
  · split <;> simp [h]

@[simp] theorem requestPage_wf (core ctx node : Nat) (who : Requester) (n : PageNeed) :
    Memory.wf (requestPage s core ctx node who n).mem := by
  unfold requestPage
  dsimp only
  split
  · exact h
  · split
    · split <;> simp [h]
    · split <;> simp [h]

@[simp] theorem requestApex_wf (ctx node id : Nat) (n : PageNeed) : Memory.wf (requestApex s ctx node id n).mem := by
  unfold requestApex
  dsimp only
  split
  · exact h
  · split
    · split <;> simp [h]
    · split <;> simp [h]

@[simp] theorem writeVirt_wf (acc : Accessor) (core ctx va : Nat) (bs : List Byte) (cls : BitVec 2) (k : TagWrite) (shadow : Bool) :
    Memory.wf (writeVirt s acc core ctx va bs cls k shadow).mem := by
  refine foldl_wf h _ fun r p hr => ?_
  split
  · exact physWrite_wf hr ..
  · exact hr

end Writes

/-! ### What an effect ensures where it completes -/

/-- If an effect completes, its result has the property. -/
def Act.Ensures {α : Type} (P : α → Prop) : Act α → Prop
  | .ok a => P a
  | .error _ => True

@[simp] theorem Act.ensures_ok {α : Type} {P : α → Prop} {a : α} : Act.Ensures P (.ok a) ↔ P a := .rfl
@[simp] theorem Act.ensures_error {α : Type} {P : α → Prop} {e : Stop} : Act.Ensures P (.error e) := trivial
@[simp] theorem Act.ensures_raise {α : Type} {P : α → Prop} {c : Nat} : Act.Ensures P (raise c) := trivial
@[simp] theorem Act.ensures_raiseWith {α : Type} {P : α → Prop} {c : Nat} {v : TrapValue} : Act.Ensures P (raiseWith c v) := trivial
@[simp] theorem Act.ensures_waitOn {α : Type} {P : α → Prop} {w : Wait} : Act.Ensures P (waitOn w) := trivial

/-- One effect after another ensures what the second does after the first has completed. -/
@[simp] theorem Act.ensures_bind {α β : Type} {P : β → Prop} {x : Act α} {f : α → Act β} :
    Act.Ensures P (x >>= f) ↔ ∀ a, x = .ok a → Act.Ensures P (f a) := by
  cases x with
  | ok a => simp [bind, Except.bind]
  | error e => simp [bind, Except.bind]

@[simp] theorem raiseWith_eq_ok {α : Type} (c : Nat) (v : TrapValue) (a : α) : (raiseWith c v : Act α) = .ok a ↔ False := by
  simp [raiseWith]

theorem Act.Ensures.of_ok {α : Type} {P : α → Prop} {x : Act α} {a : α} (h : Act.Ensures P x) (hx : x = .ok a) : P a := by
  rwa [hx] at h

@[simp] theorem Act.ensures_ite {α : Type} {P : α → Prop} {c : Prop} [Decidable c] {x y : Act α} :
    Act.Ensures P (if c then x else y) ↔ if c then Act.Ensures P x else Act.Ensures P y := by
  split <;> rfl

/-- An effect, where it completes, leaves memory in its canonical form. -/
abbrev Act.Wf (x : Act State) : Prop := Act.Ensures (fun r => Memory.wf r.mem) x

theorem Act.Wf.of_mem {s : State} (h : Memory.wf s.mem) {x : Act State} (hx : Act.Ensures (fun r => r.mem = s.mem) x) : x.Wf := by
  cases x with
  | ok r =>
    have kept : r.mem = s.mem := hx
    rwa [← kept] at h
  | error e => trivial

/-! ### Traps, waits and the end of an instruction -/

section Traps
variable {s : State} (h : Memory.wf s.mem)
include h

theorem slideA_wf (i : Issue) (t : Team) (c : Nat) (link : DWord) (trap : Bool) :
    Act.Ensures (fun r => Memory.wf r.1.mem) (slideA s i t c link trap) := by
  simp [slideA, h]

theorem slideE_wf (i : Issue) (t : Team) (w : Window) (mask : Mask) (c : Nat) (link : DWord) (trap : Bool) :
    Act.Ensures (fun r => Memory.wf r.1.mem) (slideE s i t w mask c link trap) := by
  simp only [slideE, Act.ensures_bind, Act.ensures_ok]
  intros
  split
  · exact h
  · exact foldl_wf h _ fun r l hr => writeVirt_wf hr ..

@[simp] theorem terminate_wf (wid : Nat) (t : Team) (cause pc : DWord) (v : TrapValue) : Memory.wf (terminate s wid t cause pc v).mem := by
  simp [terminate, h]

theorem enterTrap_wf (i : Issue) (t : Team) (cause : Nat) (imp : Bool) (v : TrapValue) : Act.Wf (enterTrap s i t cause imp v) := by
  unfold enterTrap
  extract_lets word en off stop
  have stopped : ∀ c, Act.Wf (.ok (stop c)) := fun _ => terminate_wf h ..
  split
  · exact terminate_wf h ..
  · split
    · exact terminate_wf h ..
    · split
      · exact stopped _
      · split
        · split
          · exact stopped _
          · split
            · exact (slideA_wf h ..).of_ok ‹_›
            · trivial
            · exact stopped _
        · split
          · exact h
          · split
            · exact stopped _
            · split
              · exact (slideE_wf h ..).of_ok ‹_›
              · trivial
              · exact stopped _

theorem returnTrap_wf (i : Issue) (t : Team) : Act.Wf (returnTrap s i t) := by
  simp only [returnTrap, Act.ensures_bind]
  intros
  split
  · simp [h]
  · split <;> simp [h]

@[simp] theorem noteWait_wf (i : Issue) (w : Wait) (needs : List PageNeed) : Memory.wf (noteWait s i w needs).mem := by
  unfold noteWait
  dsimp only
  split
  · exact h
  · refine foldl_wf ?_ _ fun r n hr => requestPage_wf hr ..
    exact h

theorem settle_wf (i : Issue) (t : Team) (dflt : TrapValue) {r : Act State} (hr : Act.Wf r) : Memory.wf (settle s i t dflt r).mem := by
  unfold settle
  split
  · exact hr
  · exact noteWait_wf h ..
  · dsimp only
    split
    · exact (enterTrap_wf h ..).of_ok ‹_›
    · exact noteWait_wf h ..
    · exact h

end Traps

/-! ### The issue of an instruction -/

/-- An outcome whose next state, if there is one, is sound. -/
def SoundNext : Host.Outcome State Fault Refusal → Prop
  | .next s => s.Sound
  | _ => True

/-- An instruction keeps memory canonical if its effect does. -/
theorem issue_sound {x : Instr} {may : Issue → Team → PendCause → Bool} {s : State} {body : Issue → Team → State → Act State}
    (h : Memory.wf s.mem) (hb : ∀ i t r, Memory.wf r.mem → Act.Wf (body i t r)) : SoundNext (issue x may s body) := by
  unfold issue
  split
  · trivial
  · refine settle_wf h _ _ _ (Act.ensures_bind.2 fun _ _ => ?_)
    split
    · split <;> trivial
    · exact Act.ensures_bind.2 fun _ _ => Act.ensures_bind.2 fun r hr =>
        show Memory.wf r.mem from (hb _ _ (s.setTeam _ _) h).of_ok hr

theorem execNotAnInstruction_sound (cause : Nat) (w : BitVec 32) {s : State} (h : Memory.wf s.mem) :
    SoundNext (execNotAnInstruction cause w s) := by
  unfold execNotAnInstruction
  split
  · trivial
  · refine settle_wf h _ _ _ ?_
    simp

/-! ### Accesses of a team -/

section Accesses
variable {s : State}

@[simp] theorem fillFor_mem (core ctx : Nat) (r : TReg) (va size : Nat) : (fillFor s core ctx r va size).mem = s.mem := by
  simp [fillFor]

@[simp] theorem performRead_mem (wid : Nat) (t : Team) (r : TReg) (l : Located) (size : Nat) (cls ord : BitVec 2) (scope : Nat) :
    (performRead s wid t r l size cls ord scope).mem = s.mem := by
  have touched : ∀ q : State, (if (stashMapOf t l.va).isSome then q.modTeam wid fun t => touchStash t l.va false
      else physTouchRead q (teamAccess t wid) l.pa l.attr cls true).mem = q.mem := fun q => by simp
  unfold performRead
  dsimp only
  split
  · exact (acquire_mem ..).trans ((touched _).trans (fillFor_mem ..))
  · exact (touched _).trans (fillFor_mem ..)

@[simp] theorem atomicSees_mem (wid pa : Nat) (ord : BitVec 2) (scope : Nat) : (atomicSees s wid pa ord scope).mem = s.mem := by
  simp [atomicSees]

@[simp] theorem handGather_mem (wid q : Nat) (e : QEntry) : (handGather s wid q e).mem = s.mem := rfl

@[simp] theorem atomicRelease_mem (i : Issue) : (atomicRelease s i).mem = s.mem := by
  simp [atomicRelease, advanceGen_mem]

theorem queueLoad_mem (i : Issue) (t : Team) (r : TReg) (as : Addressed) (size : Nat) (cls : BitVec 2) :
    Act.Ensures (fun x => x.1.mem = s.mem) (queueLoad s i t r as size cls) := by
  simp [queueLoad, foldl_mem]

/-! ### Leaves, trigger counters and acorns -/

@[simp] theorem State.setLeaf_mem (id : Nat) (l : PifoLeaf) : (s.setLeaf id l).mem = s.mem := rfl
@[simp] theorem State.setRegion_mem (n : Nat) (r : Region) : (s.setRegion n r).mem = s.mem := rfl
@[simp] theorem State.setCtr_mem (core n : Nat) (v : DWord) : (s.setCtr core n v).mem = s.mem := rfl
@[simp] theorem State.modAcorn_mem (core n : Nat) (f : Acorn → Acorn) : (s.modAcorn core n f).mem = s.mem := rfl
@[simp] theorem State.freeAcorn_mem (core n : Nat) : (s.freeAcorn core n).mem = s.mem := rfl
@[simp] theorem reenterLeaf_mem (id : Nat) (x : LeafItem) : (reenterLeaf s id x).mem = s.mem := rfl

@[simp] theorem comparePush_mem (id : Nat) (x : LeafItem) : (comparePush s id x).mem = s.mem := by
  unfold comparePush
  dsimp only
  split
  · rfl
  · split <;> rfl

@[simp] theorem directPush_mem (id rank : Nat) (w : Work) : (directPush s id rank w).mem = s.mem := by
  simp [directPush, enterLeaf_mem]

@[simp] theorem takeItem_mem (id : Nat) (x : LeafItem) : (takeItem s id x).mem = s.mem := by
  unfold takeItem
  dsimp only
  split <;> simp

@[simp] theorem startOp_mem (o : FabOp) (rank : Nat) : (startOp s o rank).mem = s.mem := by
  unfold startOp
  dsimp only
  split
  · rfl
  · refine foldl_mem _ fun r p => ?_
    split
    · simp
    · split <;> simp

@[simp] theorem testAcorn_mem (core n : Nat) : (testAcorn s core n).mem = s.mem := by
  unfold testAcorn
  split <;> simp

@[simp] theorem testAcorns_mem (core ctr : Nat) : (testAcorns s core ctr).mem = s.mem :=
  foldl_mem _ fun r n => by simp

@[simp] theorem raiseCtr_mem (core n : Nat) (amount : DWord) : (raiseCtr s core n amount).mem = s.mem := by simp [raiseCtr]

@[simp] theorem raiseCounter_mem (pa v : Nat) : (raiseCounter s pa v).mem = s.mem := by simp [raiseCounter]

end Accesses

/-! ### Stores and atomics -/

section Stores
variable {s : State} (h : Memory.wf s.mem)
include h

@[simp] theorem performWrite_wf (wid : Nat) (t : Team) (r : TReg) (l : Located) (bs : List Byte) (cls : BitVec 2) (release : Bool) :
    Memory.wf (performWrite s wid t r l bs cls release).mem := by
  simp [performWrite, h]

@[simp] theorem performAtomic_wf (wid : Nat) (t : Team) (r : TReg) (l : Located) (size : Nat) (new : Option Nat) (cls ord : BitVec 2)
    (scope : Nat) : Memory.wf (performAtomic s wid t r l size new cls ord scope).mem := by
  have seen (f : Team → Team) :
      Memory.wf (atomicSees ((fillFor s (coreOf wid) t.info.ctx r l.va size).modTeam wid f) wid l.pa ord scope).mem := by
    rwa [atomicSees_mem, State.modTeam_mem, fillFor_mem]
  unfold performAtomic
  cases new with
  | none =>
    dsimp only
    rw [physTouchRead_mem]
    exact seen _
  | some v =>
    dsimp only
    rw [State.mem_ite, recordRelease_mem, ite_self]
    exact physWrite_wf (seen _) ..

@[simp] theorem storeAt_wf (i : Issue) (t : Team) (r : TReg) (l : Located) (size v : Nat) (cls : BitVec 2) (release : Bool) :
    Memory.wf (storeAt s i t r l size v cls release).mem := by
  unfold storeAt
  split <;> simp [h, advanceGen_mem]

@[simp] theorem storeLanes_wf (i : Issue) (t : Team) (r : TReg) (ls : List Located) (size : Nat) (data : QEntry) (cls : BitVec 2) :
    Memory.wf (storeLanes s i t r ls size data cls).mem :=
  foldl_wf h _ fun _ _ hr => storeAt_wf hr ..

@[simp] theorem atomicAt_wf (i : Issue) (t : Team) (r : TReg) (l : Located) (size fn v c : Nat) :
    Memory.wf (atomicAt s i t r l size fn v c).1.mem := by
  unfold atomicAt
  split <;> simp [h, advanceGen_mem]

@[simp] theorem atomicLanes_wf (i : Issue) (t : Team) (r : TReg) (ls : List Located) (fn : Nat) (v c : QEntry) :
    Memory.wf (atomicLanes s i t r ls fn v c).1.mem :=
  List.foldlRecOn (motive := fun x : State × Tab DWord => Memory.wf x.1.mem) _ _ h fun _ hx _ _ => atomicAt_wf hx ..

@[simp] theorem engineWait_wf (core ctx node : Nat) (who : Requester) (needs : List PageNeed) :
    Memory.wf (engineWait s core ctx node who needs).mem :=
  foldl_wf h _ fun _ _ hr => requestPage_wf hr ..

end Stores

/-! ### The Lattice -/

section Lattice
variable {s : State}

@[simp] theorem State.setLat_mem (c : Nat) (l : Lattice) : (s.setLat c l).mem = s.mem := rfl
@[simp] theorem finishCommand_mem (wid : Nat) : (finishCommand s wid).mem = s.mem := rfl
@[simp] theorem releaseStaged_mem (core stamp : Nat) : (releaseStaged s core stamp).mem = s.mem := rfl
@[simp] theorem endTask_mem (core : Nat) (t : TileTask) (cause : Nat) : (endTask s core t cause).mem = s.mem := rfl

@[simp] theorem takeLatItem_mem (core : Nat) (x : LatItem) : (takeLatItem s core x).mem = s.mem := by
  unfold takeLatItem
  dsimp only
  split
  · split <;> simp
  · rfl

@[simp] theorem sequencerDecision_mem (core : Nat) : (sequencerDecision s core).mem = s.mem := by
  unfold sequencerDecision
  dsimp only
  split
  · split <;> simp
  · split
    · rfl
    · split
      · rfl
      · split <;> simp

@[simp] theorem land_mem (core : Nat) (x : Landing) (rest : List Landing) : (land s core x rest).1.mem = s.mem := by
  unfold land
  dsimp only
  split <;> rfl

@[simp] theorem latticeCompletion_mem (core : Nat) : (latticeCompletion s core).mem = s.mem := by
  unfold latticeCompletion
  dsimp only
  split
  · split <;> simp
  · split
    · split
      · rfl
      · split <;> rfl
      · rfl
    · rfl

@[simp] theorem touchStep_mem (core ctx node : Nat) (a b : TileSrc) (step : Nat) : (touchStep s core ctx node a b step).mem = s.mem := by
  simp [touchStep]

theorem makeRoom_mem (core area : Nat) (run : TileTask) (ts : List TileTask) :
    ∀ s : State, (makeRoom s core area run ts).mem = s.mem := by
  induction ts with
  | nil => exact fun _ => rfl
  | cons t ts ih =>
    intro s
    unfold makeRoom
    dsimp only
    split
    · rfl
    · exact ih _

variable (h : Memory.wf s.mem)
include h

@[simp] theorem commandCause_wf (core wid : Nat) (cmd : LatCmd) (steps : Nat) (c : OperandCause) :
    Memory.wf (commandCause s core wid cmd steps c).mem := by
  unfold commandCause
  split <;> simp [h]

@[simp] theorem latticeExecute_wf (core : Nat) : Memory.wf (latticeExecute s core).mem := by
  unfold latticeExecute
  dsimp only
  split
  · split
    · exact h
    · split
      · exact h
      · split
        · exact h
        · split <;> simp [h]
  · exact h

@[simp] theorem operandFetch_wf (core : Nat) : Memory.wf (operandFetch s core).mem := by
  unfold operandFetch
  dsimp only
  split
  · split
    · split
      · exact h
      · split <;> simp [h]
    · exact h
  · exact h

omit h in
theorem stageFirst_wf (core area depth : Nat) (running : Option Nat) (ts : List TileTask) :
    ∀ {s : State}, Memory.wf s.mem → Memory.wf (stageFirst s core area depth running ts).mem := by
  induction ts with
  | nil => exact fun h => h
  | cons t ts ih =>
    intro s h
    unfold stageFirst
    dsimp only
    split
    · exact ih h
    · split
      · exact ih (engineWait_wf h ..)
      · exact ih h
      · split
        · exact ih (engineWait_wf h ..)
        · simp [modTileTask_mem, h]

@[simp] theorem stagingFetch_wf (core : Nat) : Memory.wf (stagingFetch s core).mem := by
  have released : ∀ l : List Nat, (l.foldl (fun s n => releaseStaged s core n) s).mem = s.mem := fun l => foldl_mem l fun _ _ => rfl
  unfold stagingFetch
  dsimp only
  split
  · refine stageFirst_wf _ _ _ _ _ ?_
    simp only [State.mem_ite, makeRoom_mem, ite_self, released, h]
  · exact stageFirst_wf _ _ _ _ _ (by rwa [released])

@[simp] theorem kStepTeam_wf (core w : Nat) : Memory.wf (kStepTeam s core w).mem := by
  unfold kStepTeam
  dsimp only
  split
  · split
    · split
      · exact h
      · split
        · simp [h]
        · exact h
    · exact h
  · exact h

@[simp] theorem kStepTask_wf (core : Nat) (t : TileTask) : Memory.wf (kStepTask s core t).mem := by
  unfold kStepTask
  dsimp only
  split
  · split <;> simp [modTileTask_mem, h]
  · split
    · exact h
    · split <;> simp [h]

@[simp] theorem kStep_wf (core : Nat) : Memory.wf (kStep s core).mem := by
  unfold kStep
  dsimp only
  split
  · exact h
  · split <;> simp [h]

end Lattice

/-! ### Command records, copies and stream records -/

section Copies
variable {s : State}

@[simp] theorem State.modPacket_mem (key : Nat) (f : Packet → Packet) : (s.modPacket key f).mem = s.mem := rfl
@[simp] theorem State.setCmdQueue_mem (q : Nat) (x : CmdQueue) : (s.setCmdQueue q x).mem = s.mem := rfl
@[simp] theorem State.modCopy_mem (id : Nat) (f : Copy → Copy) : (s.modCopy id f).mem = s.mem := rfl
@[simp] theorem packetPart_mem (key : Nat) : (packetPart s key).mem = s.mem := rfl
@[simp] theorem stopEngine_mem (leaf : Nat) : (stopEngine s leaf).mem = s.mem := rfl

@[simp] theorem modOwner_mem (seq : Nat) (f : Team → Team) : (modOwner s seq f).mem = s.mem := by
  unfold modOwner
  split <;> rfl

@[simp] theorem checkSeals_mem : (checkSeals s).mem = s.mem := by
  unfold checkSeals
  exact foldl_mem _ fun r x => raiseCtr_mem ..

@[simp] theorem retireCopy_mem (id : Nat) (c : Copy) (ok : Bool) : (retireCopy s id c ok).mem = s.mem := by
  unfold retireCopy
  rw [checkSeals_mem]
  split <;> split <;> simp

@[simp] theorem clearBad_mem (core ctx va n : Nat) : (clearBad s core ctx va n).mem = s.mem := by
  unfold clearBad
  split
  · rfl
  · refine foldl_mem _ fun r p => ?_
    split
    · rfl
    · split <;> rfl

@[simp] theorem copySectorArrival_mem (n : Nat) : (copySectorArrival s n).mem = s.mem := by
  unfold copySectorArrival
  dsimp only
  split
  · rfl
  · split <;> simp

variable (h : Memory.wf s.mem)
include h

@[simp] theorem commandRecord_wf (p : Packet) (cause ordinal : Nat) (more : List (List RecField)) :
    Memory.wf (commandRecord s p cause ordinal more).mem := faultRecord_wf h ..

@[simp] theorem commandFault_wf (key : Nat) (p : Packet) (cause ordinal : Nat) (more : List (List RecField)) :
    Memory.wf (commandFault s key p cause ordinal more).mem := by
  simp [commandFault, h]

@[simp] theorem failCopy_wf (id : Nat) (c : Copy) (cause : Nat) (pecan : Option (Nat × Nat × Nat)) :
    Memory.wf (failCopy s id c cause pecan).mem := by
  unfold failCopy
  dsimp only
  rw [retireCopy_mem]
  split <;> simp [h]

@[simp] theorem engineWrite_wf (node core ctx va : Nat) (bs : List Byte) (cls : BitVec 2) (shadow : Bool) :
    Memory.wf (engineWrite s node core ctx va bs cls shadow).mem := by
  unfold engineWrite
  rw [clearBad_mem]
  refine writeVirt_wf ?_ ..
  rwa [foldl_mem _ fun _ _ => xlateFill_mem ..]

@[simp] theorem moveSector_wf (id : Nat) (c : Copy) (n : Nat) : Memory.wf (moveSector s id c n).mem := by
  unfold moveSector
  dsimp only
  split
  · simp [h]
  · split <;> simp [h]
  · simp [h]

@[simp] theorem copySegment_wf (leaf : Nat) : Memory.wf (copySegment s leaf).mem := by
  unfold copySegment
  dsimp only
  split
  · exact h
  · split
    · split
      · exact h
      · split
        · exact h
        · split
          · exact h
          · split <;> simp [h]
    · exact h

end Copies

/-! ### The fabric -/

section Fabric
variable {s : State}

@[simp] theorem performScratch_mem (f : Flit) : (performScratch s f).state.mem = s.mem := by
  unfold performScratch
  dsimp only
  split
  · split <;> rfl
  · rfl

@[simp] theorem finishColl_mem (id : Nat) (c : Coll) : (finishColl s id c).mem = s.mem := by
  simp [finishColl]

@[simp] theorem releaseAcorn_mem (core n status : Nat) : (releaseAcorn s core n status).mem = s.mem :=
  foldl_mem _ fun _ _ => rfl

@[simp] theorem bufferAt_mem (p n : Nat) : (bufferAt s p n).mem = s.mem := by
  unfold bufferAt
  split
  · rfl
  · simp

@[simp] theorem collReply_mem (id : Nat) : (collReply s id).mem = s.mem := by
  unfold collReply
  split <;> simp

@[simp] theorem noteChunk_mem (group chunk : Nat) : (noteChunk s group chunk).mem = s.mem := rfl
@[simp] theorem modChunk_mem (group chunk : Nat) (f : ChunkRec → ChunkRec) : (modChunk s group chunk f).mem = s.mem := rfl

variable (h : Memory.wf s.mem)
include h

theorem performMemory_wf (f : Flit) (pa : Nat) (attr : PageAttr) : Memory.wf (performMemory s f pa attr).state.mem := by
  have read : Memory.wf (physTouchRead s apexAccess pa attr 0 false).mem := by rwa [physTouchRead_mem]
  unfold performMemory
  dsimp only
  split
  · exact h
  · refine List.foldlRecOn (motive := fun x : State × Tab Nat => Memory.wf x.1.mem) _ _ read fun x hx w _ => ?_
    dsimp only
    split
    · exact hx
    · exact physWrite_wf hx ..

theorem performFlit_wf {src : Nat} {f : Flit} {r : Performed} (hr : performFlit s src f = some r) : Memory.wf r.state.mem := by
  unfold performFlit at hr
  split at hr
  · obtain rfl := Option.some.inj hr
    split <;> simp [h]
  · split at hr
    · obtain rfl := Option.some.inj hr
      simp [h]
    · split at hr
      · cases hr
      · obtain rfl := Option.some.inj hr
        exact h
      · obtain rfl := Option.some.inj hr
        exact performMemory_wf h ..

@[simp] theorem refuseTeam_wf (seq node core cause port addr batch : Nat) (v : DWord) :
    Memory.wf (refuseTeam s seq node core cause port addr batch v).mem := by
  simp [refuseTeam, h]

@[simp] theorem collAck_wf (id n : Nat) (o : OutFlit) (cause : Nat) (stale : Bool) (words : Tab Nat) :
    Memory.wf (collAck s id n o cause stale words).mem := by
  unfold collAck
  split
  · exact h
  · simp [h]

@[simp] theorem opRecord_wf (o : FabOp) : Memory.wf (opRecord s o).mem := by
  simp [opRecord, h]

@[simp] theorem settleOp_wf (id : Nat) : Memory.wf (settleOp s id).mem := by
  unfold settleOp
  split
  · exact h
  · split
    · exact h
    · dsimp only
      split
      · split <;> split <;> simp [h]
      · split
        · split <;> simp [h]
        · exact h

@[simp] theorem opAck_wf (id : Nat) (o : OutFlit) (cause : Nat) (words : Tab Nat) : Memory.wf (opAck s id o cause words).mem := by
  unfold opAck
  split
  · exact h
  · refine settleOp_wf ?_ ..
    dsimp only
    split
    · exact foldl_wf h _ fun _ _ hr => engineWrite_wf hr ..
    · exact h

@[simp] theorem completeFlit_wf (n cause : Nat) (stale : Bool) (words : Tab Nat) : Memory.wf (completeFlit s n cause stale words).mem := by
  unfold completeFlit
  dsimp only
  split
  · exact h
  · split
    · split <;> simp [h]
    · split <;> simp [h]
    · split <;> simp [h]
    · split <;> split <;> simp [h]

@[simp] theorem bufferFlit_wf (n : Nat) : Memory.wf (bufferFlit s n).mem := by
  unfold bufferFlit
  split
  · exact h
  · split <;> simp [h]

@[simp] theorem pumpPorts_wf : Memory.wf (pumpPorts s).mem :=
  foldl_wf h _ fun _ _ hr => bufferFlit_wf hr _

@[simp] theorem sendFlit_wf (o : OutFlit) : Memory.wf (sendFlit s o).mem := by
  unfold sendFlit
  dsimp only
  split <;> simp [h]

@[simp] theorem collFlitHome_wf (n : Nat) : Memory.wf (collFlitHome s n).mem := by
  unfold collFlitHome
  split
  · split
    · exact h
    · split
      · exact h
      · exact completeFlit_wf (performFlit_wf h ‹_›) ..
  · exact h

/-! ### The reduction root -/

theorem apexVirtWrite_wf {ctx va : Nat} {bs : List Byte} {r : State} (hr : apexVirtWrite s ctx va bs = some r) : Memory.wf r.mem := by
  unfold apexVirtWrite at hr
  split at hr
  · split at hr
    · cases hr
    · obtain rfl := Option.some.inj hr
      exact physWrite_wf h ..
  · cases hr

@[simp] theorem finishChunk_wf (group chunk : Nat) : Memory.wf (finishChunk s group chunk).mem := by
  unfold finishChunk
  split
  · exact h
  · split
    · exact h
    · dsimp only
      rw [State.mem_ite, raiseCtr_mem, ite_self]
      split
      · exact h
      · split
        · rename_i r hr
          refine apexVirtWrite_wf ?_ hr
          exact h
        · refine faultRecord_wf ?_ ..
          exact h

@[simp] theorem finishUnit_wf (u : RootUnit) : Memory.wf (finishUnit s u).mem := by
  unfold finishUnit
  refine finishChunk_wf ?_ ..
  refine List.foldlRecOn (motive := fun x : State × BitVec 7 => Memory.wf x.1.mem) _ _ h fun x hx p _ => ?_
  cases hw : apexVirtWrite x.1 u.ctx (64 * u.unit + 4 * p.1) (natLe 4 (p.2.deliver u.fields.w).1) with
  | none => simpa [hw] using hx
  | some r => simpa [hw] using apexVirtWrite_wf hx hw

@[simp] theorem answerRoot_wf (x : RootFlit) (cause : Nat) : Memory.wf (answerRoot s x cause).mem := by
  unfold answerRoot
  split <;> simp [h]

@[simp] theorem joinUnit_wf (x : RootFlit) (u : RootUnit) : Memory.wf (joinUnit s x u).mem := by
  unfold joinUnit
  dsimp only
  split <;> simp [h]

@[simp] theorem rootFlit_wf (n : Nat) : Memory.wf (rootFlit s n).mem := by
  unfold rootFlit
  dsimp only
  split
  · exact h
  · split
    · exact h
    · exact h
    · simp [h]
    · split <;> simp [h]

@[simp] theorem unitAbandon_wf (n : Nat) : Memory.wf (unitAbandon s n).mem := by
  unfold unitAbandon
  split
  · exact h
  · simp [h]

end Fabric

/-! ### Task queues -/

section Tasks
variable {s : State}

@[simp] theorem State.modCensus_mem (stamp : Nat) (f : Census → Census) : (s.modCensus stamp f).mem = s.mem := rfl

@[simp] theorem endResponder_mem (core stamp : Nat) (value : Option DWord) (failed : Bool) :
    (endResponder s core stamp value failed).mem = s.mem := rfl

@[simp] theorem noteHead_mem (core : Nat) : (noteHead s core).mem = s.mem := by
  simp [noteHead]

@[simp] theorem enterTask_mem (core : Nat) (ws : List Word) : (enterTask s core ws).mem = s.mem := by
  simp [enterTask]

@[simp] theorem endHeld_mem (wid : Nat) (failed : Bool) : (endHeld s wid failed).mem = s.mem := by
  unfold endHeld
  split
  · rfl
  · split
    · rfl
    · dsimp only
      split <;> rfl

theorem takeTask_mem (i : Issue) (t : Team) (d : Nat) (x : LeafItem) (ws : List Word) :
    Act.Ensures (fun r => r.mem = s.mem) (takeTask s i t d x ws) := by
  simp [takeTask]

variable (h : Memory.wf s.mem)
include h

@[simp] theorem setRingWord_wf (core k v : Nat) : Memory.wf (setRingWord s core k v).mem := apexWrite_wf h ..
@[simp] theorem setSlotState_wf (core k v : Nat) : Memory.wf (setSlotState s core k v).mem := apexWrite_wf h ..

theorem pushTask_wf {core : Nat} {ws : List Word} {r : State} (hr : pushTask s core ws = some r) : Memory.wf r.mem := by
  unfold pushTask at hr
  dsimp only at hr
  split at hr
  · obtain rfl := Option.some.inj hr
    simp [h]
  · split at hr
    · cases hr
    · obtain rfl := Option.some.inj hr
      exact setRingWord_wf (setRingWord_wf (apexWrite_wf h ..) ..) ..

omit h in
theorem placeSpawns_wf (core n : Nat) : ∀ {s : State}, Memory.wf s.mem → Memory.wf (placeSpawns core n s).mem := by
  induction n with
  | zero => exact fun h => h
  | succ n ih =>
    intro s h
    unfold placeSpawns
    split
    · exact h
    · split
      · exact h
      · rename_i r hr
        exact ih (show Memory.wf r.mem from pushTask_wf h hr)

@[simp] theorem refillTask_wf (core : Nat) : Memory.wf (refillTask s core).mem := by
  have freed : ∀ head count : Nat, Memory.wf
      (setRingWord (setRingWord (setSlotState s core head 0) core 0 ((head + 1) % 4096)) core 2 (count - 1)).mem :=
    fun _ _ => setRingWord_wf (setRingWord_wf (setSlotState_wf h ..) ..) ..
  unfold refillTask
  refine placeSpawns_wf _ _ ?_
  split
  · exact h
  · split
    · rw [enterTask_mem]
      exact freed ..
    · exact freed ..
    · exact h

@[simp] theorem lendTask_wf (wid : Nat) : Memory.wf (lendTask s wid).mem := by
  unfold lendTask
  dsimp only
  split
  · exact h
  · split
    · split
      · exact h
      · split <;> simp [h]
    · exact h

@[simp] theorem commitTask_wf (wid : Nat) : Memory.wf (commitTask s wid).mem := by
  unfold commitTask
  dsimp only
  split
  · exact h
  · split
    · exact h
    · split <;> simp [h]

@[simp] theorem expireLease_wf (core : Nat) : Memory.wf (expireLease s core).mem := by
  unfold expireLease
  dsimp only
  split
  · exact h
  · split <;> simp [h]

@[simp] theorem headWatchdog_wf (core : Nat) : Memory.wf (headWatchdog s core).mem := by
  unfold headWatchdog
  dsimp only
  split
  · split
    · simp [h]
    · simp [h]
  · exact h

@[simp] theorem taskLimit_wf (wid : Nat) : Memory.wf (taskLimit s wid).mem := by
  unfold taskLimit
  split
  · exact h
  · split
    · exact h
    · simp [h]

end Tasks

/-! ### Tile directories and censuses -/

section Censuses
variable {s : State}

@[simp] theorem State.setDir_mem (core : Nat) (f : Tab DirEntry → Tab DirEntry) : (s.setDir core f).mem = s.mem := rfl
@[simp] theorem broadcast_mem (b : Broadcast) : (broadcast s b).mem = s.mem := rfl

@[simp] theorem moveRequest_mem (wid : Nat) : (moveRequest s wid).mem = s.mem := by
  unfold moveRequest
  dsimp only
  split
  · rfl
  · split
    · split
      · rfl
      · split <;> rfl
    · rfl

@[simp] theorem dropBroadcast_mem (stamp : Nat) : (dropBroadcast s stamp).mem = s.mem := by
  simp [dropBroadcast]

@[simp] theorem nextStamp_mem (core : Nat) : (nextStamp s core).mem = s.mem := by
  simp [nextStamp]

@[simp] theorem undoMoves_mem (core : Nat) (tickets : List Nat) : (undoMoves s core tickets).mem = s.mem := by
  refine foldl_mem _ fun r v => ?_
  split
  · split <;> rfl
  · rfl

@[simp] theorem settleCensus_mem (stamp : Nat) (c : Census) : (settleCensus s stamp c).mem = s.mem := by
  simp [settleCensus]

theorem takeCensus_mem (i : Issue) (t : Team) (d stamp : Nat) (c : Census) :
    Act.Ensures (fun r => r.mem = s.mem) (takeCensus s i t d stamp c) := by
  simp [takeCensus]

variable (h : Memory.wf s.mem)
include h

@[simp] theorem deliverSolicit_wf (core : Nat) : Memory.wf (deliverSolicit s core).mem := by
  have placed := fun n => placeSpawns_wf core n h
  unfold deliverSolicit
  dsimp only
  split
  · split
    · exact placed _
    · split
      · simp [placed]
      · rw [nextStamp_mem]
        exact placeSpawns_wf _ _ (placed _)
  · exact placed _

@[simp] theorem deliverCommit_wf (core : Nat) : Memory.wf (deliverCommit s core).mem := by
  have placed := fun n => placeSpawns_wf core n h
  unfold deliverCommit
  dsimp only
  split
  · split <;> simp [placed]
  · exact placed _

@[simp] theorem censusUnwritable_wf (stamp : Nat) (c : Census) : Memory.wf (censusUnwritable s stamp c).mem := faultRecord_wf h ..

@[simp] theorem finishCensus_wf (stamp : Nat) (c : Census) : Memory.wf (finishCensus s stamp c).mem := by
  unfold finishCensus
  dsimp only
  split
  · simp [h]
  · split
    · exact h
    · split <;> simp [h]
    · split
      · rw [settleCensus_mem]
        exact apexVirtWrite_wf h ‹_›
      · simp [h]

@[simp] theorem answerCore_wf (core stamp : Nat) : Memory.wf (answerCore s core stamp).mem := by
  unfold answerCore
  dsimp only
  split
  · exact h
  · split
    · exact h
    · split
      · exact finishCensus_wf h ..
      · split
        · exact h
        · split
          · exact h
          · split
            · refine finishCensus_wf ?_ ..
              exact h
            · exact h

end Censuses

/-! ### Copies, calls, barriers and the ends of streams -/

section Streams
variable {s : State}

@[simp] theorem addCopy_mem (c : Copy) : (addCopy s c).1.mem = s.mem := rfl
@[simp] theorem chainAbandon_mem (wid frag : Nat) : (chainAbandon s wid frag).mem = s.mem := rfl
@[simp] theorem gatherPush_mem (wid q : Nat) : (gatherPush s wid q).mem = s.mem := rfl

theorem issueCopy_mem (i : Issue) (t : Team) (d : BitVec 6) (tn : BitVec 4) (x : BitVec 7) (off : Int) (kind fn size : Nat)
    (more : Act (Option LatOp)) : Act.Ensures (fun r => r.mem = s.mem) (issueCopy s i t d tn x off kind fn size more) := by
  simp only [issueCopy, Act.ensures_bind]
  intros
  split <;> simp [addCopy_mem, pushSegments_mem]

theorem endA_mem (i : Issue) (t : Team) : Act.Ensures (fun r => r.mem = s.mem) (endA s i t) := by
  simp [endA]

variable (h : Memory.wf s.mem)
include h

theorem callA_wf (i : Issue) (t : Team) (off : Nat) : Act.Wf (callA s i t off) := by
  unfold callA
  split
  · trivial
  · simp only [Act.ensures_bind]
    intro _ _ _ _ r hr
    exact (slideA_wf h ..).of_ok hr

theorem enterCallee_wf (i : Issue) (t : Team) (f : Frag) (m : Mask) (e : CallEntry) :
    Act.Ensures (fun r => Memory.wf r.1.mem) (enterCallee s i t f m e) :=
  Act.ensures_bind.2 fun _ _ => slideE_wf h ..

@[simp] theorem frameRelease_wf (p : Nat × Saved) : Memory.wf (frameRelease s p).mem := apexWrite_wf h ..

@[simp] theorem releaseTag_wf (tag : Nat) (members : List (Nat × Bool)) (all : List Arrival) :
    Memory.wf (releaseTag s tag members all).mem := by
  unfold releaseTag
  refine foldl_wf ?_ _ fun _ _ hr => frameRelease_wf hr _
  exact h

@[simp] theorem arriveAt_wf (tag seq wid : Nat) : Memory.wf (arriveAt s tag seq wid).mem := by
  simp [arriveAt, advanceGen_mem, h]

@[simp] theorem checkArrivals_wf (wid : Nat) : Memory.wf (checkArrivals s wid).mem := by
  unfold checkArrivals
  split
  · exact h
  · refine foldl_wf h _ fun r tag hr => ?_
    dsimp only
    split
    · exact arriveAt_wf hr ..
    · exact hr

theorem endE_wf (i : Issue) (t : Team) : Act.Wf (endE s i t) := by
  unfold endE
  split
  · trivial
  · exact checkArrivals_wf (s := s.setTeam ..) h _

end Streams

/-! ### The firmware's memory and its queues -/

/-- A parse that begins the work of a packet leaves memory in its canonical form. -/
def Parsed.Wf : Parsed → Prop
  | .done s => Memory.wf s.mem
  | _ => True

@[simp] theorem Parsed.wf_done (s : State) : (Parsed.done s).Wf ↔ Memory.wf s.mem := .rfl
@[simp] theorem Parsed.wf_wait (ctx : Option Nat) (node : Nat) (needs : List PageNeed) : (Parsed.wait ctx node needs).Wf := trivial
@[simp] theorem Parsed.wf_fault (cause ordinal : Nat) (more : List (List RecField)) : (Parsed.fault cause ordinal more).Wf := trivial
@[simp] theorem Parsed.wf_bad (cause : Nat) : (Parsed.bad cause).Wf := trivial

@[simp] theorem Parsed.wf_ite (c : Prop) [Decidable c] (x y : Parsed) : (if c then x else y).Wf ↔ if c then x.Wf else y.Wf := by
  split <;> rfl

theorem Parsed.Wf.of_done {x : Parsed} {r : State} (h : x.Wf) (hx : x = .done r) : Memory.wf r.mem := by
  rwa [hx] at h

section Firmware
variable {s : State}

@[simp] theorem leaveRound_mem (qn : Nat) : (leaveRound s qn).mem = s.mem := rfl
@[simp] theorem endWait_mem (key qn : Nat) : (endWait s key qn).mem = s.mem := rfl

@[simp] theorem fwTouch_mem (ctx : Option Nat) (va n : Nat) : (fwTouch s ctx va n).mem = s.mem :=
  foldl_mem _ fun _ _ => physTouchRead_mem ..

@[simp] theorem openRound_mem : (openRound s).mem = s.mem := by
  simp [openRound]

@[simp] theorem advanceQueue_mem (qn slots : Nat) : (advanceQueue s qn slots).mem = s.mem := by
  unfold advanceQueue
  dsimp only
  split <;> rfl

@[simp] theorem closeLevels_mem (qn n : Nat) : ∀ s : State, (closeLevels qn n s).mem = s.mem := by
  induction n with
  | zero => exact fun _ => rfl
  | succ n ih =>
    intro s
    unfold closeLevels
    dsimp only
    split
    · split
      · exact ih _
      · rfl
    · rfl

variable (h : Memory.wf s.mem)
include h

@[simp] theorem fwWrite_wf (ctx : Option Nat) (va : Nat) (bs : List Byte) : Memory.wf (fwWrite s ctx va bs).mem :=
  foldl_wf h _ fun _ _ hr => physWrite_wf hr ..

@[simp] theorem fwWait_wf (ctx : Option Nat) (node who : Nat) (needs : List PageNeed) : Memory.wf (fwWait s ctx node who needs).mem := by
  unfold fwWait
  split
  · exact h
  · exact foldl_wf h _ fun _ _ hr => requestApex_wf hr ..

/-- A packet keeps memory canonical if the work that its parse begins does. -/
theorem parsePacket_wf (qn : Nat) (mine : Nat → List Byte → Bool) {act : State → Nat → Packet → List Byte → Parsed}
    (begins : ∀ r key p bs, Memory.wf r.mem → (act r key p bs).Wf) : Memory.wf (parsePacket s qn mine act).mem := by
  have turned : Memory.wf (leaveRound (openRound s) qn).mem := by simpa using h
  unfold parsePacket
  dsimp only
  split
  · exact h
  · split
    · split <;> simp [h]
    · split
      · rw [forgetRefused_mem]
        split <;> simp [h]
      · exact h
    · split
      · exact h
      · split
        · simp [h]
        · split
          · simp [h]
          · rw [forgetRefused_mem]
            split <;> simp [h]
          · split
            · simp [h]
            · split
              · simp [h]
              · simp [h]
              · rename_i r hr
                rw [forgetRefused_mem, closeLevels_mem]
                refine (begins _ _ _ _ ?_).of_done hr
                rwa [advanceQueue_mem]

@[simp] theorem writeSignal_wf (p : Packet) : Memory.wf (writeSignal s p).mem := fwWrite_wf h ..

@[simp] theorem completePacket_wf (key : Nat) : Memory.wf (completePacket s key).mem := by
  unfold completePacket
  dsimp only
  split
  · exact h
  · split
    · exact h
    · split
      · simp [h]
      · split <;> simp [h]

end Firmware

/-! ### The rank tree and regions -/

section Regions
variable {s : State}

@[simp] theorem firmwarePush_mem (entry leaf : Nat) (path : List Nat) (fields : List Word) (w : Work) :
    (firmwarePush s entry leaf path fields w).mem = s.mem := rfl

@[simp] theorem arriveAll_mem (d : Descent) (ws : List Work) : (arriveAll s d ws).mem = s.mem :=
  foldl_mem _ fun _ _ => enterLeaf_mem ..

@[simp] theorem arrive_mem (d : Descent) : (arrive s d).mem = s.mem := by
  unfold arrive
  split
  · split <;> simp
  · simp
  · split <;> simp
  · simp
  · simp

@[simp] theorem descend_mem (d : Descent) : (descend s d).mem = s.mem := by
  unfold descend
  split <;> simp

@[simp] theorem pushStep_mem (node : Nat) : (pushStep s node).mem = s.mem := by
  unfold pushStep
  dsimp only
  split
  · rfl
  · split <;> simp

@[simp] theorem calendarRelease_mem (node : Nat) : (calendarRelease s node).mem = s.mem := by
  unfold calendarRelease
  dsimp only
  split <;> simp

@[simp] theorem linkLeaves_mem (node : Nat) (old new : List Nat) (cal : Bool) : (linkLeaves s node old new cal).mem = s.mem := by
  unfold linkLeaves
  refine (foldl_mem _ ?_).trans (foldl_mem _ ?_)
  · exact fun _ _ => rfl
  · exact fun _ _ => rfl

@[simp] theorem declinePosted_mem (node : Nat) : (declinePosted s node).mem = s.mem :=
  foldl_mem _ fun _ _ => answerPage_mem ..

theorem regionBody_wf (bs : List Byte) {k : Nat → List Byte → Parsed} (hk : ∀ a b, (k a b).Wf) : (regionBody s bs k).Wf := by
  simp [regionBody, hk]

variable (h : Memory.wf s.mem)
include h

@[simp] theorem fullLeafWatchdog_wf (id : Nat) : Memory.wf (fullLeafWatchdog s id).mem := by
  unfold fullLeafWatchdog
  dsimp only
  split
  · exact h
  · split <;> simp [h]

@[simp] theorem regionLoad_wf (q : Nat) : Memory.wf (regionLoad s q).mem :=
  parsePacket_wf h _ _ fun r key p bs hr => regionBody_wf _ fun a b => by simp [hr]

@[simp] theorem dissolvePins_wf (f : L2Way → Bool) : Memory.wf (dissolvePins s f).mem := by
  unfold dissolvePins
  exact foldl_wf h _ fun _ _ hr => faultRecord_wf hr ..

@[simp] theorem tearDown_wf (node : Nat) : Memory.wf (tearDown s node).mem := by
  simp [tearDown, h]

@[simp] theorem regionFree_wf (q : Nat) : Memory.wf (regionFree s q).mem :=
  parsePacket_wf h _ _ fun r key p bs hr => regionBody_wf _ fun a b => by simp [hr]

@[simp] theorem scriptPacket_wf (q : Nat) : Memory.wf (scriptPacket s q).mem :=
  parsePacket_wf h _ _ fun r key p bs hr => by simp [hr]

@[simp] theorem partPacket_wf (q : Nat) : Memory.wf (partPacket s q).mem :=
  parsePacket_wf h _ _ fun r key p bs hr => by simp [hr]

@[simp] theorem pageansPacket_wf (q : Nat) : Memory.wf (pageansPacket s q).mem :=
  parsePacket_wf h _ _ fun r key p bs hr => by simp [hr]

end Regions

/-! ### The packets of command queues -/

section Packets
variable {s : State}

@[simp] theorem numberLaunch_mem (core : Nat) (origin : Option Nat) (l : Launch) : (numberLaunch s core origin l).1.mem = s.mem := rfl

@[simp] theorem pushLaunches_mem (entry key : Nat) (each : List (Nat × Launch)) : (pushLaunches s entry key each).mem = s.mem := by
  unfold pushLaunches
  exact foldl_mem _ fun _ _ => rfl

@[simp] theorem fwRead_wf (p : Packet) (rs : List (Nat × Nat)) {k : Unit → Parsed} (hk : (k ()).Wf) : (fwRead s p rs k).Wf := by
  unfold fwRead
  split
  · trivial
  · trivial
  · exact hk

theorem Parsed.wf_bad_else {c : Prop} [Decidable c] {k : Nat} {x : Parsed} (hx : x.Wf) : (if c then .bad k else x).Wf := by
  split
  · trivial
  · exact hx

theorem withRecord_wf (p : Packet) (at_ : Nat) {k : List Byte → Parsed} (hk : ∀ bs, (k bs).Wf) : (withRecord s p at_ k).Wf := by
  unfold withRecord
  split
  · trivial
  · trivial
  · exact hk _

variable (h : Memory.wf s.mem)
include h

theorem launchPacket_wf (key : Nat) (p : Packet) (c : LaunchCheck) : (launchPacket s key p c).Wf := by
  cases c <;> simp [launchPacket, h]

theorem pushPacket_wf (key : Nat) (p : Packet) (leaf parts : Nat) (fields : List Word) (w : Work) :
    (pushPacket s key p leaf parts fields w).Wf := by
  unfold pushPacket
  split
  · trivial
  · exact h

theorem fabricOperation_wf (key : Nat) (p : Packet) (bs : List Byte) : (fabricOperation s key p bs).Wf := by
  unfold fabricOperation
  dsimp only
  split
  · trivial
  · split
    · trivial
    · split
      · exact settleOp_wf (s := { s.modPacket key _ with fab := _ }) h _
      · refine pushPacket_wf ?_ ..
        exact h

theorem gangPacket_wf (key : Nat) (p : Packet) (bs : List Byte) (resume : Bool) (number : Nat) :
    (gangPacket s key p bs resume number).Wf := by
  unfold gangPacket
  refine fwRead_wf _ _ ?_
  simp [h]

@[simp] theorem parseLaunch_wf (q : Nat) : Memory.wf (parseLaunch s q).mem :=
  parsePacket_wf h _ _ fun r key p bs hr => by
    dsimp only
    split
    · trivial
    · exact withRecord_wf _ _ fun _ => launchPacket_wf hr ..

@[simp] theorem parseLaunchi_wf (q : Nat) : Memory.wf (parseLaunchi s q).mem :=
  parsePacket_wf h _ _ fun r key p bs hr => by
    dsimp only
    split
    · trivial
    · split
      · trivial
      · refine withRecord_wf _ _ fun _ => ?_
        split
        · trivial
        · exact hr
        · exact launchPacket_wf hr ..

@[simp] theorem parseTiletask_wf (q : Nat) : Memory.wf (parseTiletask s q).mem :=
  parsePacket_wf h _ _ fun r key p bs hr => by
    dsimp only
    split
    · trivial
    · refine fwRead_wf _ _ (fwRead_wf _ _ ?_)
      split
      · trivial
      · split
        · exact hr
        · trivial

@[simp] theorem parseSignal_wf (q : Nat) : Memory.wf (parseSignal s q).mem :=
  parsePacket_wf h _ _ fun r key p bs hr => by simp [hr]

@[simp] theorem parseNop_wf (q : Nat) : Memory.wf (parseNop s q).mem :=
  parsePacket_wf h _ _ fun r key p bs hr => by simp [hr]

@[simp] theorem parseIndirect_wf (q : Nat) : Memory.wf (parseIndirect s q).mem :=
  parsePacket_wf h _ _ fun r key p bs hr => by simp [hr]

@[simp] theorem parseWait_wf (q : Nat) : Memory.wf (parseWait s q).mem :=
  parsePacket_wf h _ _ fun r key p bs hr => by
    refine Parsed.wf_bad_else (fwRead_wf _ _ ?_)
    split
    · trivial
    · simp [hr]

@[simp] theorem parseCopy_wf (q : Nat) : Memory.wf (parseCopy s q).mem :=
  parsePacket_wf h _ _ fun r key p bs hr => by
    dsimp only
    split
    · trivial
    · split
      · split
        · trivial
        · split
          · trivial
          · split
            · trivial
            · exact pushPacket_wf (s := (addCopy r _).1) hr ..
      · trivial

@[simp] theorem parseStreamPacket_wf (q : Nat) : Memory.wf (parseStreamPacket s q).mem :=
  parsePacket_wf h _ _ fun r key p bs hr => by
    dsimp only
    split
    · trivial
    · split
      · trivial
      · split
        · trivial
        · split
          · trivial
          · refine fwRead_wf _ _ ?_
            split
            · trivial
            · trivial
            · split
              · trivial
              · exact pushPacket_wf (by simp [hr]) ..

@[simp] theorem fabricPutPacket_wf (q : Nat) : Memory.wf (fabricPutPacket s q).mem :=
  parsePacket_wf h _ _ fun _ _ _ _ hr => fabricOperation_wf hr ..

@[simp] theorem fabricGetPacket_wf (q : Nat) : Memory.wf (fabricGetPacket s q).mem :=
  parsePacket_wf h _ _ fun _ _ _ _ hr => fabricOperation_wf hr ..

@[simp] theorem fabricCtraddPacket_wf (q : Nat) : Memory.wf (fabricCtraddPacket s q).mem :=
  parsePacket_wf h _ _ fun _ _ _ _ hr => fabricOperation_wf hr ..

@[simp] theorem parseHostxfer_wf (q : Nat) : Memory.wf (parseHostxfer s q).mem :=
  parsePacket_wf h _ _ fun r key p bs hr => by
    dsimp only
    split
    · trivial
    · split
      · trivial
      · exact pushPacket_wf hr ..

@[simp] theorem unknownOpcode_wf (q : Nat) : Memory.wf (unknownOpcode s q).mem :=
  parsePacket_wf h _ _ fun _ _ _ _ _ => trivial

@[simp] theorem fabricPausePacket_wf (q : Nat) : Memory.wf (fabricPausePacket s q).mem :=
  parsePacket_wf h _ _ fun r key p bs hr => by
    split
    · trivial
    · refine gangPacket_wf ?_ ..
      exact hr

@[simp] theorem fabricResumePacket_wf (q : Nat) : Memory.wf (fabricResumePacket s q).mem :=
  parsePacket_wf h _ _ fun r key p bs hr => by
    dsimp only
    split
    · trivial
    · split
      · trivial
      · refine gangPacket_wf ?_ ..
        exact hr

end Packets

/-! ### Fired operations and the links -/

section Operations
variable {s : State}

@[simp] theorem State.modOp_mem (id : Nat) (f : FabOp → FabOp) : (s.modOp id f).mem = s.mem := rfl
@[simp] theorem State.setPort_mem (p : Nat) (q : Port) : (s.setPort p q).mem = s.mem := rfl

@[simp] theorem acornDone_mem (core n : Nat) : (acornDone s core n).mem = s.mem := by
  unfold acornDone
  dsimp only
  split <;> simp

@[simp] theorem countInbound_mem (src : Nat) (f : Flit) : (countInbound s src f).mem = s.mem := by
  simp [countInbound]

@[simp] theorem leaveBuffer_mem (p n : Nat) : (leaveBuffer s p n).mem = s.mem := by
  unfold leaveBuffer
  dsimp only
  split <;> rfl

variable (h : Memory.wf s.mem)
include h

@[simp] theorem dropPiece_wf (id : Nat) (o : FabOp) : Memory.wf (dropPiece s id o).mem := by
  simp [dropPiece, h]

@[simp] theorem sendPiece_wf (leaf id : Nat) (o : FabOp) (src dst : Nat) (fs : List Flit) :
    Memory.wf (sendPiece s leaf id o src dst fs).mem := by
  unfold sendPiece
  dsimp only
  split
  · refine foldl_wf ?_ _ fun _ _ hr => sendFlit_wf hr _
    exact h
  · split
    · simp [h]
    · refine iteInduction (motive := fun r : State => Memory.wf r.mem) (fun _ => h) fun _ => foldl_wf ?_ _ fun r f hr => ?_
      · exact h
      · split <;> simp [hr]

@[simp] theorem runPiece_wf (leaf : Nat) : Memory.wf (runPiece s leaf).mem := by
  unfold runPiece
  dsimp only
  split
  · split
    · simp [h]
    · split
      · simp [h]
      · split
        · simp [h]
        · simp [h]
        · refine sendPiece_wf ?_ ..
          simp [h]
  · exact h

@[simp] theorem runLaunch_wf (id : Nat) : Memory.wf (runLaunch s id).mem := by
  unfold runLaunch
  dsimp only
  split
  · exact h
  · split
    · split
      · exact h
      · split
        · simp [h]
        · split
          · simp [h]
          · simp [h]
          · split
            · simp [h]
            · simp [h]
            · split
              · simp [h]
              · rw [forgetRefused_mem]
                exact foldl_wf h _ fun r p hr => by simp [hr]
    · exact h

@[simp] theorem acornOperation_wf (kind n : Nat) : Memory.wf (acornOperation s kind n).mem := by
  simp [acornOperation, h]

@[simp] theorem acornLocal_wf (id : Nat) : Memory.wf (acornLocal s id).mem := by
  unfold acornLocal
  dsimp only
  split
  · exact h
  · split
    · simp [h]
    · split
      · exact h
      · refine settleOp_wf ?_ _
        split <;> simp [h]

theorem takeFlit_wf {src num : Nat} {f : Flit} {r : State} : takeFlit s src num f = some r → Memory.wf r.mem := by
  fun_cases takeFlit s src num f
  · rintro ⟨⟩
    simp [h]
  · exact nofun
  · rintro ⟨⟩
    exact h
  · rintro ⟨⟩
    exact h
  · intro hr
    obtain ⟨x, hx, rfl⟩ := Option.map_eq_some_iff.1 hr
    have performed := performFlit_wf h hx
    dsimp only
    split
    · rwa [countInbound_mem]
    · exact performed

@[simp] theorem flitReceive_wf (xs : List Nat) : Memory.wf (flitReceive s xs).mem := by
  unfold flitReceive
  dsimp only
  split
  · exact h
  · split
    · exact h
    · rename_i r hr
      rw [State.setPort_mem]
      exact takeFlit_wf h hr

@[simp] theorem linkAck_wf (p seq : Nat) : Memory.wf (linkAck s p seq).mem := by
  unfold linkAck
  split <;> simp [h]

@[simp] theorem linkDown_wf (p : Nat) : Memory.wf (linkDown s p).mem := by
  unfold linkDown
  dsimp only
  split
  · exact h
  · refine foldl_wf ?_ _ fun _ _ hr => bufferFlit_wf hr _
    exact h

@[simp] theorem linkReplay_wf (p seq : Nat) : Memory.wf (linkReplay s p seq).mem := by
  unfold linkReplay
  split
  · exact h
  · split <;> simp [h]

@[simp] theorem remoteCompletion_wf (xs : List Nat) : Memory.wf (remoteCompletion s xs).mem := by
  unfold remoteCompletion
  dsimp only
  split
  · exact h
  · split
    · exact h
    · exact h
    · refine pumpPorts_wf (completeFlit_wf ?_ ..)
      rwa [leaveBuffer_mem]

end Operations

/-! ### Tile tasks and gang pauses -/

section TasksAndGangs
variable {s : State}

@[simp] theorem landStep_mem (core n : Nat) (x : Landing) (rest : List Landing) : (landStep s core n x rest).mem = s.mem := by
  unfold landStep
  dsimp only
  split
  · split <;> simp
  · split <;> simp [modTileTask_mem]

@[simp] theorem taskOver_mem (core : Nat) (t : TileTask) : (taskOver s core t).mem = s.mem := by
  unfold taskOver
  dsimp only
  split <;> simp

@[simp] theorem setFinishing_mem (core : Nat) (t : TileTask) (cause : Nat) : (setFinishing s core t cause).mem = s.mem := rfl
@[simp] theorem modGang_mem (number : Nat) (f : Gang → Gang) : (modGang s number f).mem = s.mem := rfl
@[simp] theorem dropGang_mem (number : Nat) : (dropGang s number).mem = s.mem := rfl
@[simp] theorem gangReply_mem (dev number cause : Nat) (words : Tab Nat) : (gangReply s dev number cause words).mem = s.mem := rfl

@[simp] theorem testGroup_mem (group : Nat) : (testGroup s group).mem = s.mem := by
  refine foldl_mem _ fun _ _ => foldl_mem _ fun _ _ => ?_
  split <;> simp

@[simp] theorem setPause_mem (group : Nat) (p : Option Pause) : (setPause s group p).mem = s.mem := by
  cases p <;> simp [setPause]

@[simp] theorem cancelStep_mem (init number group : Nat) : (cancelStep s init number group).mem = s.mem := by
  unfold cancelStep
  split <;> simp

@[simp] theorem pauseStep_mem (init number group limit node : Nat) : (pauseStep s init number group limit node).mem = s.mem := by
  unfold pauseStep
  dsimp only
  split
  · rfl
  · split <;> split <;> simp

@[simp] theorem gangReport_mem (number dev : Nat) : (gangReport s number dev).mem = s.mem := by
  unfold gangReport
  dsimp only
  split <;> simp

@[simp] theorem quiescenceReport_mem (kind n dev : Nat) : (quiescenceReport s kind n dev).mem = s.mem := by
  unfold quiescenceReport
  dsimp only
  split
  · simp
  · split <;> simp

@[simp] theorem resumeAck_mem (number dev : Nat) : (resumeAck s number dev).mem = s.mem := by
  unfold resumeAck
  split <;> simp

@[simp] theorem resumeAcknowledged_mem (number dev : Nat) : (resumeAcknowledged s number dev).mem = s.mem := by
  simp [resumeAcknowledged]

@[simp] theorem gangResumeStep_mem (init number group : Nat) : (gangResumeStep s init number group).mem = s.mem := by
  simp [gangResumeStep]

variable (h : Memory.wf s.mem)
include h

@[simp] theorem writeTaskRecord_wf (core : Nat) (t : TileTask) (cause : Nat) : Memory.wf (writeTaskRecord s core t cause).mem := by
  unfold writeTaskRecord
  split <;> simp [h]

@[simp] theorem finishTask_wf (core : Nat) (t : TileTask) (cause : Nat) : Memory.wf (finishTask s core t cause).mem := by
  unfold finishTask
  split
  · simp [h]
  · split
    · simp [h]
    · simp [h]
    · rw [setFinishing_mem, State.setCore_mem]
      exact engineWrite_wf h ..

@[simp] theorem kStepLanded_wf (core : Nat) : Memory.wf (kStepLanded s core).mem := by
  unfold kStepLanded
  dsimp only
  split
  · split <;> simp [h]
  · simp [h]
  · exact h

@[simp] theorem failGang_wf (g : Gang) : Memory.wf (failGang s g).mem := by
  unfold failGang
  dsimp only
  split <;> simp [h]

@[simp] theorem gangAnswer_wf (number dev : Nat) (busy : Bool) (top : Nat) : Memory.wf (gangAnswer s number dev busy top).mem := by
  unfold gangAnswer
  dsimp only
  split <;> simp [h]

@[simp] theorem proposeAnswer_wf (number dev busy top : Nat) : Memory.wf (proposeAnswer s number dev busy top).mem := by
  simp [proposeAnswer, h]

@[simp] theorem proposeStep_wf (init number group : Nat) : Memory.wf (proposeStep s init number group).mem := by
  simp [proposeStep, h]

@[simp] theorem gangTimeout_wf (number : Nat) : Memory.wf (gangTimeout s number).mem := by
  unfold gangTimeout
  dsimp only
  split <;> simp [h]

end TasksAndGangs

/-! ### Streams of rings, host transfers and pops -/

section StreamEngine
variable {s : State}

@[simp] theorem stopStream_mem (core e : Nat) : (stopStream s core e).mem = s.mem := rfl

@[simp] theorem yieldStream_mem (core e : Nat) (r : EngineRun) : (yieldStream s core e r).mem = s.mem := by
  simp [yieldStream]

@[simp] theorem afterPop_mem (id : Nat) (l : PifoLeaf) : (afterPop s id l).mem = s.mem := by
  unfold afterPop
  split <;> simp

@[simp] theorem popEngine_mem (id : Nat) (x : LeafItem) : (popEngine s id x).mem = s.mem := by
  simp [popEngine]

@[simp] theorem popStream_mem (id : Nat) (x : LeafItem) (copy : Nat) : (popStream s id x copy).mem = s.mem := by
  unfold popStream
  dsimp only
  split <;> simp

variable (h : Memory.wf s.mem)
include h

@[simp] theorem endRecord_wf (core e id : Nat) (c : Copy) (who : Requester) (x : Option OperandCause) :
    Memory.wf (endRecord s core e id c who x).mem := by
  unfold endRecord
  dsimp only
  split <;> simp [h]

@[simp] theorem beginFill_wf (core e id wid : Nat) (r : EngineRun) (c : Copy) (x : StreamRec) (g : Ring) :
    Memory.wf (beginFill s core e id wid r c x g).mem := by
  unfold beginFill
  dsimp only
  split
  · simp [h]
  · split
    · simp [h]
    · split <;> simp [h]

@[simp] theorem finishFill_wf (core e id wid : Nat) (c : Copy) (x : StreamRec) (g : Ring) :
    Memory.wf (finishFill s core e id wid c x g).mem := by
  unfold finishFill
  dsimp only
  split <;> simp [h]

@[simp] theorem streamFill_wf (core e : Nat) : Memory.wf (streamFill s core e).mem := by
  unfold streamFill
  split
  · exact h
  · split
    · exact h
    · split
      · simp [h]
      · split <;> simp [h]

omit h in
theorem drainParts_wf (c : Copy) (who : Requester) (ps : List (Nat × Nat)) : ∀ {s : State} (bs : List Byte),
    Memory.wf s.mem → Memory.wf (drainParts s c who ps bs).1.mem := by
  induction ps with
  | nil => exact fun _ h => h
  | cons p ps ih =>
    intro s bs h
    unfold drainParts
    split
    · exact ih _ (engineWrite_wf h ..)
    · exact h

theorem drained_wf {c : Copy} {who : Requester} {ps : List (Nat × Nat)} {bs : List Byte} {r : State} {p : Option Probe}
    (hd : drainParts s c who ps bs = (r, p)) : Memory.wf r.mem := by
  have written := drainParts_wf c who ps bs h
  rwa [hd] at written

@[simp] theorem streamDrain_wf (core e : Nat) : Memory.wf (streamDrain s core e).mem := by
  unfold streamDrain
  dsimp only
  split
  · exact h
  · split
    · exact h
    · split
      · simp [h]
      · split
        · simp [h]
        · split
          · simp [h]
          · split
            · simp [h]
            · split <;> rename_i hd
              · exact endRecord_wf (drained_wf h hd) ..
              · exact drained_wf h hd
              · simp [drained_wf h hd]

theorem hostTransfer_wf (x : HostXfer) : Memory.wf (hostTransfer s x).1.mem := by
  unfold hostTransfer
  dsimp only
  split
  · simp [h]
  · split <;> simp [h]
  · simp [h]

@[simp] theorem leafPop_wf (id : Nat) : Memory.wf (leafPop s id).mem := by
  unfold leafPop
  dsimp only
  split
  · exact h
  · split
    · simp [h]
    · simp [h]
    · simp [h]
    · simp [h]
    · simp [hostTransfer_wf, h]
    · exact h

end StreamEngine

/-! ### Teams come, go and are saved -/

/-- Stated alone, so that the kernel compares the updated record field by field and does not evaluate what it is updated from. -/
theorem withFw_wf {s : State} (h : Memory.wf s.mem) (fw : Firmware) : Memory.wf { s with fw := fw }.mem := h

section TeamLife
variable {s : State}

@[simp] theorem leaveTags_mem (seq : Nat) : (leaveTags s seq).mem = s.mem := rfl
@[simp] theorem leaveLattice_mem (core wid : Nat) : (leaveLattice s core wid).mem = s.mem := rfl
@[simp] theorem State.dropTeam_mem (wid : Nat) : (s.dropTeam wid).mem = s.mem := rfl
@[simp] theorem releaseItem_mem (core wid : Nat) : (releaseItem s core wid).mem = s.mem := rfl
@[simp] theorem startCopies_mem (seq : Nat) : (startCopies s seq).mem = s.mem := rfl

@[simp] theorem teamAdmission_mem (core : Nat) : (teamAdmission s core).mem = s.mem := by
  unfold teamAdmission
  dsimp only
  split
  · rfl
  · split <;> simp

@[simp] theorem orphanCensus_mem (stamps : List Nat) : (orphanCensus s stamps).mem = s.mem :=
  foldl_mem _ fun r n => by
    split
    · rfl
    · split <;> rfl

@[simp] theorem teamRetirement_mem (wid : Nat) : (teamRetirement s wid).mem = s.mem := by
  unfold teamRetirement
  dsimp only
  split
  · rfl
  · split
    · rfl
    · split <;> simp [advanceGen_mem]

@[simp] theorem coalescerMessage_mem (dom : Nat) : (coalescerMessage s dom).mem = s.mem := by
  simp [coalescerMessage]

@[simp] theorem stopCopies_mem (core seq : Nat) : (stopCopies s core seq).mem = s.mem := by
  refine (foldl_mem _ fun _ _ => ?_).trans (foldl_mem _ fun _ _ => ?_)
  · simp
  · simp

variable (h : Memory.wf s.mem)
include h

@[simp] theorem residencyLimit_wf (wid : Nat) : Memory.wf (residencyLimit s wid).mem := by
  unfold residencyLimit
  dsimp only
  split
  · exact h
  · split <;> simp [h]

@[simp] theorem regionWatchdog_wf (wid : Nat) : Memory.wf (regionWatchdog s wid).mem := by
  unfold regionWatchdog
  dsimp only
  split
  · exact h
  · split <;> simp [h]

@[simp] theorem writeFrame_wf (wid frame : Nat) (t : Team) (reason : SaveReason) :
    Memory.wf (writeFrame s wid frame t reason).mem :=
  apexWrite_wf (foldl_wf h _ fun _ _ hr => apexWriteAll_wf _ _ _ hr) ..

@[simp] theorem saveTeam_wf (wid frame : Nat) (reason : SaveReason) : Memory.wf (saveTeam s wid frame reason).mem := by
  unfold saveTeam
  split
  · exact h
  · rw [reenterLeaf_mem]
    refine withFw_wf ?_ _
    rw [State.dropTeam_mem, leaveLattice_mem]
    refine writeFrame_wf ?_ ..
    rwa [advanceGen_mem, State.setTeam_mem, releaseItem_mem, stopCopies_mem, leaveFilters_mem]

@[simp] theorem teamSave_wf (wid : Nat) : Memory.wf (teamSave s wid).mem := by
  unfold teamSave
  split
  · exact h
  · split
    · exact h
    · split <;> simp [h]

@[simp] theorem amDeadlock_wf (core : Nat) : Memory.wf (amDeadlock s core).mem := by
  unfold amDeadlock
  dsimp only
  split
  · exact h
  · split
    · simp [h]
    · split
      · exact settle_wf h _ _ _ trivial
      · exact h
    · exact h

@[simp] theorem teamResume_wf (core : Nat) : Memory.wf (teamResume s core).mem := by
  unfold teamResume
  dsimp only
  split
  · exact h
  · split
    · split
      · exact h
      · split
        · exact h
        · rw [startCopies_mem]
          refine apexWrite_wf ?_ ..
          dsimp only
          rwa [State.setTeam_mem, State.setCore_mem, takeItem_mem]
    · exact h

end TeamLife

/-! ### Shootdowns and modes -/

section Shootdowns
variable {s : State}

@[simp] theorem stopCovered_mem (d : Shootdown) : (stopCovered s d).mem = s.mem := rfl
@[simp] theorem stopEngines_mem : (stopEngines s).mem = s.mem := rfl

@[simp] theorem shootGo_mem : (shootGo s).mem = s.mem := by
  simp [shootGo]

@[simp] theorem modeWrite_mem (v : Nat) : (modeWrite s v).mem = s.mem := by
  simp [modeWrite]

@[simp] theorem shootStaged_mem (d : Shootdown) (core : Nat) : (shootStaged s d core).mem = s.mem :=
  foldl_mem _ fun _ _ => modTileTask_mem ..

variable (h : Memory.wf s.mem)
include h

@[simp] theorem shootPins_wf (d : Shootdown) : Memory.wf (shootPins s d).mem := by
  unfold shootPins
  dsimp only
  split <;> simp [h]

@[simp] theorem shootDone_wf : Memory.wf (shootDone s).mem := by
  unfold shootDone
  dsimp only
  split
  · exact h
  · exact foldl_wf (shootPins_wf h _) _ fun r c hr => by simp [hr]

@[simp] theorem modeDone_wf : Memory.wf (modeDone s).mem := by
  unfold modeDone
  dsimp only
  split
  · exact h
  · split
    · exact h
    · dsimp only
      exact dissolvePins_wf h _

end Shootdowns

/-! ### Resets, registers and power -/

theorem tabSorted_filter {α : Type} (keep : Nat × α → Bool) {t : Tab α} (h : tabSorted t = true) :
    tabSorted (t.filter keep) = true := by
  induction t with
  | nil => rfl
  | cons p t ih =>
    have rest := ih (tabSorted_tail h)
    rw [List.filter_cons]
    split
    · exact tabSorted_cons (fun q hq => tabSorted_all t h q (List.mem_of_mem_filter (List.mem_of_mem_head? hq))) rest
    · exact rest

section Host
variable {s : State}

@[simp] theorem warmReset_mem : (warmReset s).mem = s.mem := rfl
@[simp] theorem bootStep_mem : (bootStep s).mem = s.mem := rfl
@[simp] theorem hostLinkDown_mem (port : Nat) : (hostLinkDown s port).mem = s.mem := rfl
@[simp] theorem healSectors_mem (pa n : Nat) : (healSectors s pa n).mem = s.mem := rfl
@[simp] theorem State.setIsland_mem (n : Nat) (i : Island) : (s.setIsland n i).mem = s.mem := rfl
@[simp] theorem scrubPass_mem : (scrubPass s).mem = s.mem := rfl

@[simp] theorem startDevice_mem : (startDevice s).mem = s.mem := by
  unfold startDevice
  dsimp only
  split
  · rfl
  · split <;> rfl

@[simp] theorem writeBringUp_mem (off v : Nat) : (writeBringUp s off v).mem = s.mem := by
  simp [writeBringUp]

@[simp] theorem writeQueueReg_mem (n off v : Nat) : (writeQueueReg s n off v).mem = s.mem := by
  simp [writeQueueReg]

@[simp] theorem writeShoot_mem (off v : Nat) : (writeShoot s off v).mem = s.mem := by
  simp [writeShoot]

@[simp] theorem writeAttest_mem (off v : Nat) : (writeAttest s off v).mem = s.mem := by
  simp [writeAttest]

@[simp] theorem writeIsland_mem (n off v : Nat) : (writeIsland s n off v).mem = s.mem := by
  simp [writeIsland]

@[simp] theorem registerWrite_mem (off v : Nat) : (registerWrite s off v).mem = s.mem := by
  simp [registerWrite]

@[simp] theorem doorbell_mem (n v agent peer : Nat) : (doorbell s n v agent peer).mem = s.mem := by
  simp [doorbell]

@[simp] theorem restartQueue_mem (n : Nat) : (restartQueue s n).mem = s.mem := by
  simp [restartQueue]

@[simp] theorem semaphoreRead_mem (n who : Nat) : (semaphoreRead s n who).mem = s.mem := by
  simp [semaphoreRead]

@[simp] theorem semaphoreFree_mem (n port : Nat) : (semaphoreFree s n port).mem = s.mem := by
  simp [semaphoreFree]

@[simp] theorem islandDown_mem (n power : Nat) : (islandDown s n power).mem = s.mem := by
  simp [islandDown]

@[simp] theorem islandUp_mem (n power : Nat) : (islandUp s n power).mem = s.mem := by
  simp [islandUp]

@[simp] theorem clusterGate_mem (n : Nat) : (clusterGate s n).mem = s.mem := by
  unfold clusterGate
  dsimp only
  split
  · rfl
  · refine (foldl_mem _ fun _ _ => ?_).trans (foldl_mem _ fun _ _ => ?_)
    · simp
    · simp

@[simp] theorem clusterUngate_mem (n : Nat) : (clusterUngate s n).mem = s.mem := by
  unfold clusterUngate
  split
  · exact foldl_mem _ fun _ _ => by simp
  · rfl

@[simp] theorem scrubTag_mem (sector : Nat) : (scrubTag s sector).mem = s.mem := by
  simp [scrubTag]

@[simp] theorem huskvalidClear_mem : (huskvalidClear s).mem = s.mem := by
  simp [huskvalidClear]

@[simp] theorem missFill_mem (core line : Nat) : (missFill s core line).mem = s.mem := by
  unfold missFill
  dsimp only
  split <;> simp

@[simp] theorem tableWalk_mem (core ctx va : Nat) : (tableWalk s core ctx va).mem = s.mem := xlateFill_mem ..

variable (h : Memory.wf s.mem)
include h

/-- A cold reset keeps the cells of host memory, in their order. -/
@[simp] theorem coldReset_wf : Memory.wf (coldReset s).mem := by
  obtain ⟨sorted, nonzero⟩ := Bool.and_eq_true_iff.1 h
  refine Bool.and_eq_true_iff.2 ⟨tabSorted_filter _ sorted, List.all_eq_true.2 fun c hc => ?_⟩
  exact List.all_eq_true.1 nonzero c (List.mem_of_mem_filter hc)

@[simp] theorem hostAccess_wf (write : Bool) (pa n v : Nat) : Memory.wf (hostAccess s write pa n v).mem := by
  unfold hostAccess
  dsimp only
  split
  · exact h
  · split
    · exact foldl_wf h _ fun _ _ hr => apexWrite_wf hr ..
    · exact foldl_wf h _ fun _ _ hr => by simp [hr]

@[simp] theorem correctedError_wf (code place flags syndrome address : Nat) (node : Option Nat) :
    Memory.wf (correctedError s code place flags syndrome address node).mem := by
  unfold correctedError
  dsimp only
  split <;> simp [h]

@[simp] theorem lostEntry_wf (code place index : Nat) (node : Option Nat) : Memory.wf (lostEntry s code place index node).mem :=
  faultRecord_wf h ..

@[simp] theorem teamStorageLost_wf (wid launch : Nat) : Memory.wf (teamStorageLost s wid launch).mem := by
  unfold teamStorageLost
  dsimp only
  split
  · simp [h]
  · split <;> simp [h]

@[simp] theorem counterLost_wf (core n : Nat) (node : Option Nat) : Memory.wf (counterLost s core n node).mem := by
  simp [counterLost, h]

@[simp] theorem acornLost_wf (core n : Nat) : Memory.wf (acornLost s core n).mem := by
  unfold acornLost
  split <;> simp [h]

@[simp] theorem dirLost_wf (core n : Nat) : Memory.wf (dirLost s core n).mem := by
  unfold dirLost
  split <;> simp [h]

@[simp] theorem watchLost_wf (key : Nat) : Memory.wf (watchLost s key).mem := by
  unfold watchLost
  dsimp only
  split <;> simp [h]

@[simp] theorem accessError_wf (a b found syndrome code place node : Nat) :
    Memory.wf (accessError s a b found syndrome code place node).mem := by
  simp [accessError, h]

@[simp] theorem scrub_wf (pa found syndrome : Nat) : Memory.wf (scrub s pa found syndrome).mem := by
  simp [scrub, h]

/-! The husk is thousands of writes: `State.Sound` and not `Memory.wf` of the memory is what these lemmas speak of, so that the kernel compares
the states and does not evaluate the writes. -/

omit h in
theorem withHost_sound (h : s.Sound) (host : HostSide) : { s with host := host }.Sound := h

omit h in
theorem apexWriteAll_sound (h : s.Sound) (fuel pa : Nat) (bs : List Byte) : (apexWriteAll fuel s pa bs).Sound := apexWriteAll_wf _ _ _ h

@[simp] theorem fatalError_wf (index : Nat) (failed : Bool) : Memory.wf (fatalError s index failed).mem := by
  have recorded {r : State} (hr : r.Sound) : (if r.host.bring.ready then
      faultRecord r none 0x0C5 7 0xFFF 0 [errorBody 7 1 0 (tabGetD 0 r.host.errors (errorKey 7 placeApex)) index] else r).Sound := by
    split
    · exact faultRecord_wf hr ..
    · exact hr
  change (fatalError s index failed).Sound
  unfold fatalError
  split
  · exact h
  · split
    · exact recorded (withHost_sound (withHost_sound h _) _)
    · exact recorded (withHost_sound (apexWriteAll_sound (apexWriteAll_sound (withHost_sound h _) ..) ..) _)

@[simp] theorem attestGo_wf (finish : Bool) : Memory.wf (attestGo s finish).mem := by
  unfold attestGo
  dsimp only
  split
  · split
    · exact h
    · split <;> exact h
  · split
    · exact h
    · exact apexWriteAll_wf _ _ _ h

end Host

/-! ### Turns -/

section Turns
variable {s : State}

@[simp] theorem passTime_mem : (passTime s).mem = s.mem := rfl
@[simp] theorem noteIssue_mem (c : Cur) : (noteIssue c s).mem = s.mem := State.modTeam_mem ..

@[simp] theorem endTurn_mem (c : Option Cur) : (endTurn c s).mem = s.mem := by
  cases c <;> simp [endTurn]

variable (h : Memory.wf s.mem)
include h

@[simp] theorem fetchState_wf (i : Issue) (t : Team) (x : FetchedWord) : Memory.wf (fetchState s i t x).mem := by
  cases x <;> simp [fetchState, noteWait_wf, h]

variable {t : State} (ht : Memory.wf t.mem)
include ht

@[simp] theorem unlessFatal_wf : Memory.wf (unlessFatal s t).mem := by
  simp [unlessFatal, h, ht]

@[simp] theorem unlessGated_wf (core : Nat) : Memory.wf (unlessGated s core t).mem := by
  simp [unlessGated, h, ht]

end Turns

/-! ### Instructions that share an effect -/

section SharedEffects
variable {s : State} (h : Memory.wf s.mem)
include h

theorem onTeam_sound {x : Instr} (f : Issue → Team → Act Team) : SoundNext (issue x plain s (onTeam f)) :=
  issue_sound h fun i t r hr => by simp [hr, onTeam]

theorem binA_sound (x d a b f) : SoundNext (binA x d a b f s) :=
  issue_sound h fun i t r hr => by simp [hr]

theorem unA_sound (x d a f) : SoundNext (unA x d a f s) :=
  issue_sound h fun i t r hr => by simp [hr]

theorem funnelA_sound (x d a b sgn y) : SoundNext (funnelA x d a b sgn y s) :=
  issue_sound h fun i t r hr => by simp [hr]

theorem vOp_sound (x n d fs third pipe f) : SoundNext (vOp x n d fs third pipe f s) :=
  issue_sound h fun i t r hr => by simp [hr]

theorem fOp_sound (x d fs f) : SoundNext (fOp x d fs f s) :=
  issue_sound h fun i t r hr => by simp [hr]

theorem branchE_sound (x c o want) : SoundNext (branchE x c o want s) :=
  issue_sound h fun i t r hr => by
    split <;> simp [hr]

theorem laneStores_sound (x d a b l sp) : SoundNext (laneStores x d a b l sp s) := by
  unfold laneStores
  exact issue_sound h fun i t r hr => by simp [hr]

theorem aggregate_sound (x d tn y sz one) : SoundNext (aggregate x d tn y sz one s) :=
  issue_sound h fun i t r hr => by
    simp only [Act.ensures_bind]
    intros
    split <;> simp [hr]

theorem amCopy_sound (x a b op) : SoundNext (amCopy x a b op s) :=
  issue_sound h fun i t r hr => by simp [hr]

theorem typedA_sound (x d a b ty f) : SoundNext (typedA x d a b ty f s) := binA_sound h ..
theorem shiftA_sound (x op d a b w) : SoundNext (shiftA x op d a b w s) := binA_sound h ..
theorem shiftImmA_sound (x op d a w m) : SoundNext (shiftImmA x op d a w m s) := unA_sound h ..
theorem abOp_sound (x n d a b f) : SoundNext (abOp x n d a b f s) := vOp_sound h ..
theorem aOp_sound (x n d a third f) : SoundNext (aOp x n d a third f s) := vOp_sound h ..
theorem typedE_sound (x n d a b sg w third pipe f) : SoundNext (typedE x n d a b sg w third pipe f s) := vOp_sound h ..
theorem funnelE_sound (x n d a b sg y) : SoundNext (funnelE x n d a b sg y s) := vOp_sound h ..
theorem fpE_sound (x n d a b third pipe op mode) : SoundNext (fpE x n d a b third pipe op mode s) := vOp_sound h ..
theorem packedE_sound (x n d a b third op f) : SoundNext (packedE x n d a b third op f s) := vOp_sound h ..
theorem packedCmp_sound (x n d a b f c) : SoundNext (packedCmp x n d a b f c s) := vOp_sound h ..
theorem seedE_sound (x n d a f) : SoundNext (seedE x n d a f s) := vOp_sound h ..
theorem laneLoad_sound (x n d a b sg l sp) : SoundNext (laneLoad x n d a b sg l sp s) := vOp_sound h ..
theorem holdHint_sound (x hint) : SoundNext (holdHint x hint s) := onTeam_sound h _

end SharedEffects

/-! ### Instructions that access memory -/

section MemoryInstructions
variable {s : State} (h : Memory.wf s.mem)
include h

theorem execLds_sound (d tn x sz off) : SoundNext (execLds d tn x sz off s) :=
  issue_sound h fun i t r hr => by
    simp only [Act.ensures_bind]
    intros
    split <;> simp [hr]

theorem execSts_sound (d tn x sz off) : SoundNext (execSts d tn x sz off s) :=
  issue_sound h fun i t r hr => by
    simp only [Act.ensures_bind]
    intros
    split <;> split <;> simp [hr, advanceGen_mem]

theorem execLdq_sound (d tn x sz off) : SoundNext (execLdq d tn x sz off s) :=
  issue_sound h fun i t r hr => by
    simp only [Act.ensures_bind]
    intro _ _ _ _ q hq _ _
    simp [(queueLoad_mem ..).of_ok hq, hr]

theorem execGathq_sound (d tn x sz off) : SoundNext (execGathq d tn x sz off s) :=
  issue_sound h fun i t r hr => by
    simp only [Act.ensures_bind]
    intro _ _ _ _ _ _ q hq _ _
    simp [(queueLoad_mem ..).of_ok hq, hr]

theorem execAtom_sound (d tn x sz f) : SoundNext (execAtom d tn x sz f s) :=
  issue_sound h fun i t r hr => by
    simp only [Act.ensures_bind, Act.ensures_ite]
    intros
    split
    all_goals
      intros
      split
      · exact hr
      · split <;> simp [hr]

theorem execStashMap_sound (d a b) : SoundNext (execStashMap d a b s) :=
  issue_sound h fun i t r hr => by
    simp only [Act.ensures_bind]
    intros
    split
    · trivial
    · simp only [Act.ensures_bind, Act.ensures_ite]
      split
      · simp
      · split <;> simp [hr]

@[simp] theorem flipObject_wf (ctx : Nat) (d : Double) : Memory.wf (flipObject s ctx d).mem := apexWrite_wf h ..

@[simp] theorem writePublication_wf (wid : Nat) (t : Team) (d : Double) : Memory.wf (writePublication s wid t d).mem :=
  physWrite_wf h ..

theorem execPublish_sound (d a) : SoundNext (execPublish d a s) :=
  issue_sound h fun i t r hr => by
    simp only [Act.ensures_bind]
    intros
    split <;> simp [hr, advanceGen_mem]

theorem execTxl_sound (tn a) : SoundNext (execTxl tn a s) :=
  issue_sound h fun i t r hr => by
    simp only [Act.ensures_bind, Act.ensures_ite]
    intros
    split
    · simp
    · split <;> simp [hr]

theorem execPgreq_sound (p a) : SoundNext (execPgreq p a s) :=
  issue_sound h fun i t r hr => by
    simp only [Act.ensures_bind, Act.ensures_ite]
    intros
    split
    · simp
    · split <;> simp [hr]

end MemoryInstructions

/-! ### Instructions of the control flow -/

section ControlInstructions
variable {s : State} (h : Memory.wf s.mem)
include h

theorem execCallA_sound (c o) : SoundNext (execCallA c o s) :=
  issue_sound h fun i t r hr => by
    split
    · exact callA_wf hr ..
    · exact hr

theorem execCalliA_sound (a) : SoundNext (execCalliA a s) :=
  issue_sound h fun _ _ _ hr => Act.ensures_bind.2 fun _ _ => callA_wf hr ..

theorem execRetA_sound : SoundNext (execRetA s) :=
  issue_sound h fun i t r hr => by
    split
    · exact .of_mem hr (endA_mem ..)
    · simp [hr]

theorem execCallE_sound (c o) : SoundNext (execCallE c o s) :=
  issue_sound h fun i t r hr => by
    split
    · trivial
    · dsimp only
      split
      · exact hr
      · split
        · trivial
        · refine Act.ensures_bind.2 fun x hx => ?_
          have entered := (enterCallee_wf hr ..).of_ok hx
          split
          · exact entered
          · simp [entered]

theorem execCalliE_sound (a) : SoundNext (execCalliE a s) :=
  issue_sound h fun i t r hr => by
    simp only [Act.ensures_bind]
    intros
    split
    · exact hr
    · simp only [Act.ensures_bind]
      intro _ _ x hx
      have entered := (enterCallee_wf hr ..).of_ok hx
      exact entered

theorem execRetE_sound : SoundNext (execRetE s) :=
  issue_sound h fun i t r hr => by
    split
    · trivial
    · split
      · exact endE_wf hr ..
      · simp [hr]

theorem execMerge_sound (n) : SoundNext (execMerge n s) :=
  issue_sound h fun i t r hr => by
    split
    · trivial
    · split
      · trivial
      · simp only [Act.ensures_bind, Act.ensures_ite]
        intros
        split
        · exact hr
        · split
          · trivial
          · exact hr

theorem execMergeArm_sound (n) : SoundNext (execMergeArm n s) :=
  issue_sound h fun i t r hr => by
    split <;> simp [hr]

theorem execBar_sound (a) : SoundNext (execBar a s) :=
  issue_sound h fun i t r hr => by
    simp only [Act.ensures_bind]
    intros
    split <;> simp [hr]

theorem execEndS_sound : SoundNext (execEndS s) :=
  issue_sound h fun i t r hr => by
    split
    · exact endE_wf hr ..
    · exact .of_mem hr (endA_mem ..)

theorem execTret_sound : SoundNext (execTret s) :=
  issue_sound h fun _ _ _ hr => returnTrap_wf hr ..

theorem execLiKQ6_sound (k p) : SoundNext (execLiKQ6 k p s) :=
  issue_sound h fun i t r hr => by
    split <;> simp [hr]

end ControlInstructions

/-! ### Instructions that start or await work -/

section WorkInstructions
variable {s : State} (h : Memory.wf s.mem)
include h

theorem execCpy_sound (d tn x sz off) : SoundNext (execCpy d tn x sz off s) :=
  issue_sound h fun _ _ _ hr => .of_mem hr (issueCopy_mem ..)

theorem execCpym_sound (d tn x sz off) : SoundNext (execCpym d tn x sz off s) :=
  issue_sound h fun _ _ _ hr => Act.ensures_bind.2 fun _ _ => Act.Wf.of_mem hr (issueCopy_mem ..)

theorem execCpyr_sound (d tn x sz f) : SoundNext (execCpyr d tn x sz f s) :=
  issue_sound h fun _ _ _ hr => .of_mem hr (issueCopy_mem ..)

theorem execStrm_sound (a) : SoundNext (execStrm a s) :=
  issue_sound h fun i t r hr => by
    simp only [Act.ensures_bind, Act.ensures_ite]
    intros
    split
    · simp
    · intros
      split
      · simp
      · simp only [Act.ensures_bind]
        intros
        split
        · simp
        · split <;> simp [hr]

theorem execMtile_sound (d a b m) : SoundNext (execMtile d a b m s) :=
  issue_sound h fun i t r hr => by
    simp only [Act.ensures_bind]
    intros
    split <;> simp [hr]

theorem execAmalloc_sound (d) : SoundNext (execAmalloc d s) :=
  issue_sound h fun i t r hr => by
    simp only [Act.ensures_bind]
    intros
    split <;> simp [hr]

theorem execAmrd_sound (n d a b r) : SoundNext (execAmrd n d a b r s) := by
  unfold execAmrd vOp
  exact issue_sound h fun i t r hr => by simp [hr]

theorem execRingStat_sound (d a) : SoundNext (execRingStat d a s) :=
  issue_sound h fun i t r hr => by
    simp only [Act.ensures_bind]
    intros
    split <;> simp [hr]

theorem execColl_sound (d a b k) : SoundNext (execColl d a b k s) :=
  issue_sound h fun i t r hr => by
    simp only [Act.ensures_bind, Act.ensures_ite]
    intros
    split
    · simp
    · intros
      refine foldl_wf ?_ _ fun _ _ hq => sendFlit_wf hq _
      simp [hr]

theorem execTrgpost_sound (d a) : SoundNext (execTrgpost d a s) :=
  issue_sound h fun i t r hr => by
    simp only [Act.ensures_bind]
    intros
    split
    · simp
    · simp only [Act.ensures_bind]
      intros
      split
      · trivial
      · simp only [Act.ensures_bind]
        intros
        simp [hr, advanceGen_mem]

theorem execTrgcancel_sound (d a) : SoundNext (execTrgcancel d a s) :=
  issue_sound h fun i t r hr => by
    simp only [Act.ensures_bind]
    intros
    split
    · simp [hr]
    · split <;> simp [hr]

end WorkInstructions

/-! ### Instructions of tasks and censuses -/

section TaskInstructions
variable {s : State} (h : Memory.wf s.mem)
include h

theorem execTaskadd_sound (d a) : SoundNext (execTaskadd d a s) :=
  issue_sound h fun i t r hr => by
    simp only [Act.ensures_bind]
    intros
    split
    · trivial
    · rename_i hq
      refine pushTask_wf ?_ hq
      rw [advanceGen_mem]
      exact hr

theorem execTaskget_sound (d) : SoundNext (execTaskget d s) :=
  issue_sound h fun i t r hr => by
    simp only [Act.ensures_bind]
    intros
    split
    · trivial
    · exact Act.ensures_bind.2 fun _ _ => Act.Wf.of_mem hr (takeTask_mem ..)

theorem execTaskgetPoll_sound (d) : SoundNext (execTaskgetPoll d s) :=
  issue_sound h fun i t r hr => by
    simp only [Act.ensures_bind]
    intros
    split
    · exact Act.Wf.of_mem hr (takeTask_mem ..)
    · simp [hr]

theorem execTasksteal_sound (d a) : SoundNext (execTasksteal d a s) :=
  issue_sound h fun i t r hr => by
    simp only [Act.ensures_bind]
    intros
    split <;> simp [hr]

theorem execSolicitIns_sound (d a b) : SoundNext (execSolicitIns d a b s) :=
  issue_sound h fun i t r hr => by
    simp only [Act.ensures_bind]
    intros
    split <;> simp [hr]

theorem execSolicitMove_sound (d a b) : SoundNext (execSolicitMove d a b s) :=
  issue_sound h fun i t r hr => by
    simp only [Act.ensures_bind]
    intros
    split <;> simp [hr]

theorem execRespond_sound (a) : SoundNext (execRespond a s) :=
  issue_sound h fun i t r hr => by
    simp only [Act.ensures_bind]
    intros
    split <;> simp [hr, advanceGen_mem]

theorem execCensusWait_sound (d a) : SoundNext (execCensusWait d a s) :=
  issue_sound h fun i t r hr => by
    simp only [Act.ensures_bind]
    intros
    exact Act.Wf.of_mem hr (takeCensus_mem ..)

theorem execCensusPoll_sound (d a) : SoundNext (execCensusPoll d a s) :=
  issue_sound h fun i t r hr => by
    simp only [Act.ensures_bind, Act.ensures_ite]
    intros
    split
    · exact Act.Wf.of_mem hr (takeCensus_mem ..)
    · simp [hr]

end TaskInstructions

/-! ### Every instruction and every step -/

theorem next_sound {s : State} (h : Memory.wf s.mem) : SoundNext (.next s) := h

theorem exec_sound {s : State} (h : Memory.wf s.mem) (x : Instr) : SoundNext (exec x s) := by
  unfold exec
  cases x with
  | notAnInstruction => exact execNotAnInstruction_sound _ _ h
  | addA | subA | mulA | mulhA | minA | maxA =>
    exact typedA_sound h ..
  | divs | andA | orA | xorA | andnA =>
    exact binA_sound h ..
  | shlA | shrA | sarA | rotA =>
    exact shiftA_sound h ..
  | addImmA | andImm | orImm | xorImm | bfxSA | bfxZA | bfiA | clzA | popcA =>
    exact unA_sound h ..
  | shlImmA | shrImmA | sarImmA | rotImmA =>
    exact shiftImmA_sound h ..
  | fshlA | fshrA =>
    exact funnelA_sound h ..
  | liA | liHiA | brA | brnA | loop | txclr | txclrAll | liKImm | chain =>
    exact onTeam_sound h _
  | imm | mod | ext | sched =>
    exact holdHint_sound h ..
  | selE | liE | liFromK | liHiFromK | fsgn | cvt | cvtd | cvtmx | vote | shfl | reds | scan | argm | votet | shflt | redt =>
    exact vOp_sound h ..
  | andE | orE | xorE | andnE | shlE | shrE | sarE | rotE =>
    exact abOp_sound h ..
  | addImmE | shlImmE | shrImmE | sarImmE | rotImmE | bfxSE | bfxZE | bfiE | clzE | popcE =>
    exact aOp_sound h ..
  | addE | subE | mulE | mulhE | mad | minE | maxE =>
    exact typedE_sound h ..
  | fshlE | fshrE =>
    exact funnelE_sound h ..
  | fadd | fsub | fmul | ffma | ffms | fmin | fmax =>
    exact fpE_sound h ..
  | hadd | hsub | hmul | hmin | hmax | hfma | hfms | f8add | f8sub | f8mul | f8min | f8max | f8fma | f8fms =>
    exact packedE_sound h ..
  | hcmp | f8cmp =>
    exact packedCmp_sound h ..
  | rcps | rsqs | exps | logs | sins | coss =>
    exact seedE_sound h ..
  | ldc | ldx | ldxRing =>
    exact laneLoad_sound h ..
  | cmpE | fcmp =>
    exact fOp_sound h ..
  | brE | brnE =>
    exact branchE_sound h ..
  | stx | stxRing =>
    exact laneStores_sound h ..
  | aggadd | aggaddOne =>
    exact aggregate_sound h ..
  | amld | amst =>
    exact amCopy_sound h ..
  | divz | cmpA | selA | stq | scatq | atomq | qpushA | qpushE | cvtf | mls | mflip | mstream | amfree | amclr | mwait | cpseal |
  cpwait | ringClaim | ringSig | ringWait | ringFree | stashUnmap | stashClean | l2ctlOcc | l2ctlMask | l2ctlSetmask | solicit |
  solicitDel | solicitCommit | solicitReg | ctradd | ctrwait | ctrwaitPoll | ctrset | ctrseal | taskend | barj | srr | srw | fence
  | trap | nop =>
    exact issue_sound h fun i t r hr => by simp [hr, advanceGen_mem]
  | callA => exact execCallA_sound h ..
  | calliA => exact execCalliA_sound h ..
  | retA => exact execRetA_sound h
  | txl => exact execTxl_sound h ..
  | pgreq => exact execPgreq_sound h ..
  | callE => exact execCallE_sound h ..
  | calliE => exact execCalliE_sound h ..
  | retE => exact execRetE_sound h
  | merge => exact execMerge_sound h ..
  | mergeArm => exact execMergeArm_sound h ..
  | lds => exact execLds_sound h ..
  | sts => exact execSts_sound h ..
  | ldq => exact execLdq_sound h ..
  | gathq => exact execGathq_sound h ..
  | atom => exact execAtom_sound h ..
  | cpy => exact execCpy_sound h ..
  | cpym => exact execCpym_sound h ..
  | cpyr => exact execCpyr_sound h ..
  | liKQ6 => exact execLiKQ6_sound h ..
  | mtile => exact execMtile_sound h ..
  | amalloc => exact execAmalloc_sound h ..
  | amrd => exact execAmrd_sound h ..
  | strm => exact execStrm_sound h ..
  | ringStat => exact execRingStat_sound h ..
  | stashMap => exact execStashMap_sound h ..
  | publish => exact execPublish_sound h ..
  | coll => exact execColl_sound h ..
  | solicitIns => exact execSolicitIns_sound h ..
  | solicitMove => exact execSolicitMove_sound h ..
  | respond => exact execRespond_sound h ..
  | censusWait => exact execCensusWait_sound h ..
  | censusPoll => exact execCensusPoll_sound h ..
  | trgpost => exact execTrgpost_sound h ..
  | trgcancel => exact execTrgcancel_sound h ..
  | taskadd => exact execTaskadd_sound h ..
  | taskget => exact execTaskget_sound h ..
  | taskgetPoll => exact execTaskgetPoll_sound h ..
  | tasksteal => exact execTasksteal_sound h ..
  | bar => exact execBar_sound h ..
  | endS => exact execEndS_sound h
  | tret => exact execTret_sound h
  | chainAbandon | gatherEnginePush | collReply | collFlitHome | rootFlit | unitAbandon | solicitDelivery | commitDelivery |
  coreAnswer | latticeCommandExecute | sequencerDecision | kStep | kStepSumsLanded | operandFetch | stagingFetch | amDeadlock |
  regionWatchdog | teamAdmission | teamRetirement | teamSave | teamResume | missFill | tableWalk | copySegment | copySectorArrival
  | streamFill | streamDrain | pushItem | calendarRelease | leafPop | fullLeafWatchdog | regionLoad | regionFree | scriptPkt |
  partPkt | pageansPkt | waitPkt | signalPkt | indirectPkt | launchPkt | launchiPkt | tiletaskPkt | copyPkt | streamPkt |
  fabricPut | fabricGet | fabricCtradd | fabricPause | fabricResume | hostxferPkt | nopPacket | packetCompletion |
  coalescerMessage | teamResidencyLimit | taskRefill | taskHeadWatchdog | taskCycleLimit | taskLend | taskCommit | leaseExpiry |
  propose | pause | cancel | gangResume | gangPauseTimeout | sdgo | shootdownComplete | l2ModeWrite | l2ModeSwitchDone |
  acornOperation | acornLocalCompletion | flitReceive | linkAck | linkReplay | linkDown | remoteCompletion | scrub | fatalError |
  attestGo | huskvalidClear | coldReset | warm | start | doorbell | restart | semaphoreRead | semaphoreFree | hostLinkDown |
  hostInboundAccess | registerWrite | islandClockDown | islandClockUp | clusterGate | clusterUngate | opcodeNotInTable |
  latticeCommandCompletion | moveRequest | proposeAnswer | quiescenceReport | resumeAcknowledgement =>
    exact next_sound (by simp [h])

/-- A stage that leaves memory alone keeps an outcome's state sound. -/
theorem onNext_sound {f : State → State} (hf : ∀ r, (f r).mem = r.mem) {o : Host.Outcome State Fault Refusal} (ho : SoundNext o) :
    SoundNext (onNext f o) := by
  cases o with
  | next r =>
    show Memory.wf (f r).mem
    rwa [hf]
  | fault _ => trivial
  | refused _ => trivial

section Steps
variable {s : State} (h : Memory.wf s.mem)
include h

theorem issueTurn_sound (c : Cur) : SoundNext (issueTurn s c) := by
  unfold issueTurn
  dsimp only
  split
  · exact h
  · split
    · refine next_sound (fetchState_wf ?_ ..)
      exact h
    · refine exec_sound (fetchState_wf ?_ ..) _
      exact h

theorem eventTurn_sound (x : Instr) (arg : List Nat) : SoundNext (eventTurn s x arg) := by
  unfold eventTurn
  split
  · refine exec_sound ?_ x
    exact h
  · exact h

theorem step_sound : SoundNext (step s) := by
  unfold step
  dsimp only
  split
  · refine onNext_sound (fun _ => endTurn_mem _) (issueTurn_sound ?_ _)
    exact h
  · refine onNext_sound (fun _ => endTurn_mem _) (eventTurn_sound ?_ ..)
    exact h

end Steps

/-- Settles O9: memory changes only where bytes are written and at a cold reset, and both keep it sorted by address without zero bytes;
so every instruction and every event, and with them every turn of a step, keeps its canonical form. -/
theorem soundKept : Obligations.SoundKept := by
  unfold Obligations.SoundKept
  intro s s' sound taken
  have next : SoundNext (step s) := step_sound sound
  rwa [taken] at next

end Sys2Proof.Machine

/-! ## Scrubbing, fatal errors, attestation and resets -/

namespace Sys2Proof.Machine

theorem exec_scrub_sector {s : State} (h : s.argN 1 < 4) : exec .scrub s = .next (scrub s (s.argN 0) (s.argN 1) (s.argN 2)) :=
  congrArg Host.Outcome.next (if_pos h)

theorem exec_scrub_access {s : State} (h : 4 ≤ s.argN 1) :
    exec .scrub s = .next (accessError s (s.argN 0) (s.argN 6) (s.argN 1) (s.argN 2) (s.argN 3) (s.argN 4) (s.argN 5)) :=
  congrArg Host.Outcome.next (if_neg (Nat.not_lt.2 h))

theorem exec_fatalError (s : State) : exec .fatalError s = .next (fatalError s (s.argN 0) (s.argN 1 == 1)) := rfl
theorem exec_attestGo (s : State) : exec .attestGo s = .next (attestGo s (s.argN 0 == 1)) := rfl
theorem exec_huskvalidClear (s : State) : exec .huskvalidClear s = .next (huskvalidClear s) := rfl
theorem exec_coldReset (s : State) : exec .coldReset s = .next (coldReset s) := rfl
theorem exec_warm (s : State) : exec .warm s = .next (warmReset s) := rfl

/-! ### What a report leaves (R437, R445)

A fault record is bytes in memory. The write passes through the caches, the race tags, the watches and the stashes, and counts an event at
the coalescer; what errors and attestation speak of stays. -/

/-- The parts of a state that a write of the Apex die, or a fault record, leaves as they are. -/
structure Reported (s r : State) : Prop where
  bring : r.host.bring = s.host.bring
  attest : r.host.attest = s.host.attest
  errors : r.host.errors = s.host.errors
  fatal : r.host.fatal = s.host.fatal
  bad : r.dev.bad = s.dev.bad
  ctrs : ∀ c, (r.core c).ctrs = (s.core c).ctrs
  acorns : ∀ c, (r.core c).acorns = (s.core c).acorns
  dir : ∀ c, (r.core c).dir = (s.core c).dir
  teams : ∀ w, r.bareTeam w = s.bareTeam w

theorem Reported.refl (s : State) : Reported s s :=
  ⟨rfl, rfl, rfl, rfl, rfl, fun _ => rfl, fun _ => rfl, fun _ => rfl, fun _ => rfl⟩

/-- One report after another. -/
theorem Reported.trans {s r q : State} (h : Reported s r) (k : Reported r q) : Reported s q where
  bring := k.bring.trans h.bring
  attest := k.attest.trans h.attest
  errors := k.errors.trans h.errors
  fatal := k.fatal.trans h.fatal
  bad := k.bad.trans h.bad
  ctrs c := (k.ctrs c).trans (h.ctrs c)
  acorns c := (k.acorns c).trans (h.acorns c)
  dir c := (k.dir c).trans (h.dir c)
  teams w := (k.teams w).trans (h.teams w)

/-- A change that leaves the host's side, the uncorrectable sectors, the cores and the teams alone. -/
theorem Reported.of_parts {s r : State} (host : r.host = s.host) (bad : r.dev.bad = s.dev.bad) (cores : r.cores = s.cores)
    (teams : ∀ w, r.bareTeam w = s.bareTeam w) : Reported s r := by
  have core (c : Nat) : r.core c = s.core c := by rw [State.core, cores, State.core]
  refine ⟨?_, ?_, ?_, ?_, bad, fun c => ?_, fun c => ?_, fun c => ?_, teams⟩
  · rw [host]
  · rw [host]
  · rw [host]
  · rw [host]
  · rw [core]
  · rw [core]
  · rw [core]

theorem reported_l2Touch (s : State) (node : Option Nat) (pa : Nat) (attr : PageAttr) (cls : BitVec 2) :
    Reported s (l2Touch s node pa attr cls) := by
  unfold l2Touch
  split
  · generalize l2Place _ _ _ _ = x
    exact .of_parts rfl rfl rfl fun _ => rfl
  · exact .refl s

/-- A core after a write of others has other L1 lines and fills, and is else as before. -/
theorem invalidateOthers_core (s : State) (keep : Option Nat) (line c : Nat) :
    ∃ l1 fills, (invalidateOthers s keep line).core c = { s.core c with l1 := l1, fills := fills } := by
  have key : ∀ p : Nat × Core, (if some p.1 = keep then p else (p.1, l1Drop line p.2)).1 = p.1 := fun p => by
    split <;> rfl
  unfold invalidateOthers State.core tabGetD
  rw [tabGet_map key]
  cases tabGet s.cores c with
  | none => exact ⟨_, _, rfl⟩
  | some x =>
    rw [Option.map_some, Option.getD_some, Option.getD_some]
    split
    · exact ⟨x.l1, x.fills, rfl⟩
    · exact ⟨_, _, rfl⟩

theorem reported_invalidateOthers (s : State) (keep : Option Nat) (line : Nat) : Reported s (invalidateOthers s keep line) := by
  refine ⟨rfl, rfl, rfl, rfl, rfl, fun c => ?_, fun c => ?_, fun c => ?_, fun _ => rfl⟩
  all_goals
    obtain ⟨l1, fills, core⟩ := invalidateOthers_core s keep line c
    rw [core]

theorem reported_recallStash (s : State) (keep : Option Nat) (line : Nat) (write : Bool) : Reported s (recallStash s keep line write) := by
  refine .of_parts ?_ ?_ ?_ (recallStash_bareTeam s keep line write)
  all_goals
    unfold recallStash
    split <;> rfl

theorem reported_writeTag (s : State) (pa n : Nat) (k : TagWrite) : Reported s (writeTag s pa n k) := by
  unfold writeTag
  split
  · exact .of_parts rfl rfl rfl fun _ => rfl
  · exact .refl s

theorem reported_testWatches (s : State) (pa n : Nat) : Reported s (testWatches s pa n) := by
  unfold testWatches
  split
  · exact .of_parts rfl rfl rfl fun _ => rfl
  · exact .refl s

theorem reported_physWrite (s : State) (acc : Accessor) (pa : Nat) (bs : List Byte) (attr : PageAttr) (cls : BitVec 2) (k : TagWrite) :
    Reported s (physWrite s acc pa bs attr cls k) := by
  have recalled := ((reported_l2Touch s acc.node pa attr cls).trans (reported_invalidateOthers _ acc.core (pa / 128))).trans
    (reported_recallStash _ acc.wid (pa / 128) true)
  have dropped (r : State) : Reported r (dropRelease r pa) := .of_parts rfl rfl rfl fun _ => rfl
  have written (r : State) (m : List Host.Cell) : Reported r { r with mem := m } := .of_parts rfl rfl rfl fun _ => rfl
  exact (((recalled.trans (dropped _)).trans (reported_writeTag _ pa bs.length k)).trans (written _ _)).trans (reported_testWatches ..)

theorem reported_apexWrite (s : State) (pa : Nat) (bs : List Byte) : Reported s (apexWrite s pa bs) := reported_physWrite ..

theorem reported_apexWriteAll (fuel : Nat) : ∀ (s : State) (pa : Nat) (bs : List Byte), Reported s (apexWriteAll fuel s pa bs) := by
  induction fuel with
  | zero => exact fun s _ _ => .refl s
  | succ fuel ih =>
    intro s pa bs
    unfold apexWriteAll
    split
    · exact .refl s
    · exact (reported_apexWrite ..).trans (ih ..)

theorem reported_writeFaultSlot (s : State) (dom : Nat) (bs : List Byte) : Reported s (writeFaultSlot s dom bs) := by
  have logged (faults : List (List Byte)) : Reported s { s with host := { s.host with lastFaults := faults } } :=
    ⟨rfl, rfl, rfl, rfl, rfl, fun _ => rfl, fun _ => rfl, fun _ => rfl, fun _ => rfl⟩
  have counted (r : State) : Reported r (countEvent r dom) := .of_parts rfl rfl rfl fun _ => rfl
  unfold writeFaultSlot
  refine ((logged ((s.host.lastFaults ++ [bs]).drop (s.host.lastFaults.length - 255))).trans ?_).trans (counted _)
  dsimp only
  split
  · exact reported_apexWrite ..
  · exact (reported_apexWrite ..).trans (reported_apexWrite ..)

theorem reported_faultRecord (s : State) (node : Option Nat) (cause source core teamId : Nat) (bodies : List (List RecField)) :
    Reported s (faultRecord s node cause source core teamId bodies) :=
  List.foldlRecOn (motive := fun r => Reported s r) _ _ (.refl s) fun _ hr _ _ => hr.trans (reported_writeFaultSlot ..)

/-! ### Corrected errors and uncorrectable sectors (R441, R443, R445) -/

/-- A corrected error is counted, up to 2³² − 1, whether or not its record is withheld. -/
theorem correctedError_errors (s : State) (code place flags syndrome address : Nat) (node : Option Nat) :
    tabGetD 0 (correctedError s code place flags syndrome address node).host.errors (errorKey code place) =
      min (tabGetD 0 s.host.errors (errorKey code place) + 1) (2 ^ 32 - 1) := by
  have counted : ∀ n, tabGetD 0 (tabSetD 0 s.host.errors (errorKey code place) n) (errorKey code place) = n := fun n => tabGetD_tabSetD_same ..
  unfold correctedError
  dsimp only
  split
  · exact counted _
  · rw [(reported_faultRecord ..).errors]
    exact counted _

theorem scrubTag_current {s : State} {a : Nat} (h : (genOf s (tagAt s a).wid.toNat).lap = false) : scrubTag s (a / 64) = s := by
  have sector : tagAt s (64 * (a / 64)) = tagAt s a := by simp [tagAt]
  unfold scrubTag
  dsimp only
  rw [sector, h]
  rfl

theorem scrubTag_wrapped {s : State} {a : Nat} (h : (genOf s (tagAt s a).wid.toNat).lap = true) :
    tagAt (scrubTag s (a / 64)) a = { tagAt s a with mask := 0 } := by
  have sector : tagAt s (64 * (a / 64)) = tagAt s a := by simp [tagAt]
  unfold scrubTag
  dsimp only
  rw [sector, if_pos h]
  exact tabGetD_tabSetD_same ..

theorem scrubTag_host (s : State) (sector : Nat) : (scrubTag s sector).host = s.host := by
  unfold scrubTag
  dsimp only
  split <;> rfl

/-- The scrubber at a sector of HBM where it finds nothing only sees to its tag. -/
theorem scrub_clean (s : State) {a : Nat} (syndrome : Nat) (h : isHbm a = true) : scrub s a 0 syndrome = scrubTag s (a / 64) := by
  unfold scrub
  rw [h]
  rfl

theorem scrub_corrects (s : State) {a : Nat} (syndrome : Nat) (h : isHbm a = true) :
    scrub s a 1 syndrome = correctedError (scrubTag s (a / 64)) 6 (relSlice a) 2 syndrome (64 * (a / 64)) none := by
  unfold scrub
  rw [h]
  rfl

/-- An uncorrectable sector is noted, whether or not the device is READY and a record is written. -/
theorem scrub_notes (s : State) {a : Nat} (syndrome : Nat) (h : isHbm a = true) : a / 64 ∈ (scrub s a 2 syndrome).dev.bad := by
  have noted (l : List Nat) : a / 64 ∈ if l.contains (a / 64) then l else a / 64 :: l := by
    split
    · rename_i listed
      exact List.contains_iff_mem.1 listed
    · exact List.mem_cons_self
  unfold scrub
  simp only [h, Bool.not_true, Bool.false_eq_true, ↓reduceIte, Nat.reduceEqDiff]
  split
  · exact noted _
  · rw [(reported_faultRecord ..).bad]
    exact noted _

/-! ### The end of a pass of the scrubber (R252) -/

/-- A fold that writes values with a property for some of its elements: a key that had the property, or that is written, has it then. -/
theorem tabGetD_foldl_writes {α β : Type} [DecidableEq α] {d : α} {f : Tab α → β → Tab α} {key : β → Nat} {writes : β → Bool} {val : β → α}
    {P : α → Prop} {k : Nat} (hf : ∀ t x, f t x = if writes x then tabSetD d t (key x) (val x) else t) (hval : ∀ x, P (val x)) :
    ∀ (l : List β) (t : Tab α), P (tabGetD d t k) ∨ (∃ x ∈ l, key x = k ∧ writes x = true) → P (tabGetD d (l.foldl f t) k)
  | [], _, h => h.elim id fun ⟨_, hx, _⟩ => absurd hx List.not_mem_nil
  | x :: l, t, h => by
    refine tabGetD_foldl_writes hf hval l _ ?_
    rw [hf]
    by_cases hx : key x = k ∧ writes x = true
    · obtain ⟨rfl, hw⟩ := hx
      rw [if_pos hw, tabGetD_tabSetD_same]
      exact .inl (hval x)
    · refine h.imp (fun old => ?_) fun ⟨y, hy, hyk⟩ => ?_
      · split
        · rename_i hw
          rwa [tabGetD_tabSetD_other _ _ _ fun e => hx ⟨e.symm, hw⟩]
        · exact old
      · rcases List.mem_cons.1 hy with rfl | hy
        · exact absurd hyk hx
        · exact ⟨y, hy, hyk⟩

/-- The end of a pass clears the MASK of every sector of a wrapped writer. -/
theorem scrubPass_mask {s : State} {k : Nat} (h : (genOf s (tabGetD {} s.dev.tags k).wid.toNat).lap = true) :
    (tabGetD {} (scrubPass s).dev.tags k).mask = 0 := by
  refine tabGetD_foldl_writes (P := fun t : RaceTag => t.mask = 0) (key := Prod.fst) (fun _ _ => rfl) (fun _ => rfl) _ _ ?_
  cases hk : tabGet s.dev.tags k with
  | none =>
    rw [tabGetD, hk]
    exact .inl rfl
  | some t =>
    rw [tabGetD, hk] at h
    exact .inr ⟨(k, t), mem_of_tabGet hk, rfl, h⟩

/-- The end of a pass clears LAP of a writer that has not wrapped since the pass began. -/
theorem scrubPass_lap {s : State} {w : Nat} (h : w ∉ s.dev.scrubWraps) : (genOf (scrubPass s) w).lap = false := by
  refine tabGetD_foldl_writes (P := fun g : GenEntry => g.lap = false) (key := Prod.fst) (writes := fun p => !s.dev.scrubWraps.contains p.1)
    (val := fun p => { p.2 with lap := false }) (fun t p => ?_) (fun _ => rfl) _ _ ?_
  · cases s.dev.scrubWraps.contains p.1 <;> rfl
  · cases hw : tabGet s.dev.gens w with
    | none =>
      rw [tabGetD, hw]
      exact .inl rfl
    | some g => exact .inr ⟨(w, g), mem_of_tabGet hw, rfl, by simpa using h⟩

/-! ### Uncorrectable entries and storage (Table 26-2) -/

/-- A team whose storage is lost is terminated. -/
theorem teamStorageLost_terminates {s : State} {w : Nat} {t : Team} (h : s.team? w = some t) (launch : Nat) :
    ∃ u, (teamStorageLost s w launch).team? w = some u ∧ u.terminated = true := by
  have bare : (teamStorageLost s w launch).bareTeam w =
      some { t with terminated := true, pend := [], trap := { t.trap with stream := none } }.bare := by
    unfold teamStorageLost
    rw [h]
    exact ((reported_faultRecord ..).teams w).trans (by rw [State.bareTeam, State.setTeam_team?_same, Option.map_some])
  obtain ⟨u, hu, hbare⟩ := State.bareTeam_some bare
  exact ⟨u, hu, congrArg Team.terminated hbare⟩

/-- A lost counter takes a free value (assumption 24). -/
theorem counterLost_ctr (s : State) (core n : Nat) (node : Option Nat) : (counterLost s core n node).ctr core n = Config.lostCounter s.tick := by
  rw [State.ctr, counterLost, lostEntry, (reported_faultRecord ..).ctrs, State.setCtr, State.setCore_core_same]
  exact tabGetD_tabSetD_same ..

theorem acornLost_frees (s : State) (core n : Nat) : tabGet ((acornLost s core n).core core).acorns n = none := by
  unfold acornLost
  split
  · assumption
  · rw [lostEntry, (reported_faultRecord ..).acorns, State.freeAcorn, State.setCore_core_same]
    exact tabGet_tabDel_same ..

theorem dirLost_frees (s : State) (core n : Nat) : tabGet ((dirLost s core n).core core).dir n = none := by
  unfold dirLost
  split
  · assumption
  · rw [lostEntry, (reported_faultRecord ..).dir, State.setCore_core_same]
    exact tabGet_tabDel_same ..

/-- The scrubber, and what an access finds. -/
theorem scrubbing : Claims.Scrubbing := by
  intro s a found ha hfound
  have sector (n : Nat) (h : found = n) (hn : n < 4) : exec .scrub s = .next (scrub s a n (s.argN 2)) := by
    rw [exec_scrub_sector (by omega), ha, hfound, h]
  have access (n : Nat) (h : found = n) (hn : 4 ≤ n) : exec .scrub s =
      .next (accessError s a (s.argN 6) n (s.argN 2) (s.argN 3) (s.argN 4) (s.argN 5)) := by
    rw [exec_scrub_access (by omega), ha, hfound, h]
  refine ⟨fun h hbm lap => ?_, fun h hbm lap => ?_, fun h hbm => ?_, fun h hbm => ?_, fun h => ?_, fun ready h => ?_, fun t ready h ht => ?_,
    fun ready h => ?_, fun ready h => ?_, fun ready h => ?_⟩
  · rw [sector 0 h (by decide), scrub_clean s _ hbm, scrubTag_current lap]
  · refine ⟨_, sector 0 h (by decide), ?_⟩
    rw [scrub_clean s _ hbm]
    exact ⟨fun k => by rw [scrubTag_mem], scrubTag_wrapped lap⟩
  · refine ⟨_, sector 1 h (by decide), ?_⟩
    rw [scrub_corrects s _ hbm, ← scrubTag_host s (a / 64)]
    exact correctedError_errors ..
  · exact ⟨_, sector 2 h (by decide), scrub_notes s _ hbm⟩
  · exact ⟨scrubPass s, sector 3 h (by decide), fun k => by rw [scrubPass_mem], fun w hw => scrubPass_lap hw, rfl, fun k => scrubPass_mask⟩
  · refine ⟨_, access 4 h (by decide), ?_⟩
    rw [accessError, ready]
    exact correctedError_errors ..
  · obtain ⟨u, hu, ended⟩ := teamStorageLost_terminates ht (s.argN 6)
    refine ⟨_, u, access 5 h (by decide), ?_, ended⟩
    rw [accessError, ready]
    exact hu
  · refine ⟨_, access 6 h (by decide), ?_⟩
    rw [accessError, ready]
    exact counterLost_ctr ..
  · refine ⟨_, access 7 h (by decide), ?_⟩
    rw [accessError, ready]
    exact acornLost_frees ..
  · refine ⟨_, access 8 h (by decide), ?_⟩
    rw [accessError, ready]
    exact dirLost_frees ..

/-! ### Bytes that the Apex die writes sector by sector -/

theorem memWrite_append (xs ys : List Byte) : ∀ (m : List Host.Cell) (a : Nat),
    memWrite m a (xs ++ ys) = memWrite (memWrite m a xs) (a + xs.length) ys := by
  induction xs with
  | nil => exact fun _ _ => rfl
  | cons x xs ih =>
    intro m a
    rw [List.cons_append, memWrite, memWrite, ih, List.length_cons, Nat.add_right_comm, Nat.add_assoc]

/-- The bytes just written, read by their number. -/
theorem memBytes_memWrite_of_length {bs : List Byte} {n : Nat} (h : bs.length = n) (m : List Host.Cell) (a : Nat) :
    memBytes (memWrite m a bs) a n = bs := by
  rw [← h, memBytes_memWrite]

/-- Sector by sector, as many bytes are written as the sectors hold. -/
theorem apexWriteAll_mem (fuel : Nat) : ∀ (s : State) (pa : Nat) (bs : List Byte),
    (apexWriteAll fuel s pa bs).mem = memWrite s.mem pa (bs.take (64 * fuel - pa % 64)) := by
  induction fuel with
  | zero =>
    intro s pa bs
    rw [Nat.mul_zero, Nat.zero_sub, List.take_zero]
    rfl
  | succ fuel ih =>
    intro s pa bs
    rw [apexWriteAll]
    split
    · rename_i none_left
      rw [List.isEmpty_iff.1 none_left, List.take_nil]
      rfl
    · have aligned : (pa + (64 - pa % 64)) % 64 = 0 := by omega
      have room : 64 * (fuel + 1) - pa % 64 = (64 - pa % 64) + 64 * fuel := by omega
      rw [ih, apexWrite, physWrite_mem, aligned, Nat.sub_zero, room, List.take_add, memWrite_append, List.length_take]
      rcases Nat.le_total (64 - pa % 64) bs.length with full | short
      · rw [Nat.min_eq_left full]
      · rw [List.drop_eq_nil_of_le short, List.take_nil]
        rfl

/-- Bytes for which there are sectors enough are all written. -/
theorem apexWriteAll_mem_all {fuel pa : Nat} {bs : List Byte} (s : State) (h : bs.length + 63 ≤ 64 * fuel) :
    (apexWriteAll fuel s pa bs).mem = memWrite s.mem pa bs := by
  rw [apexWriteAll_mem, List.take_of_length_le (by omega)]

theorem natLe_length (n x : Nat) : (natLe n x).length = n := by
  rw [natLe_eq, List.length_map, List.length_range]

theorem recordBytes_length (n : Nat) (fs : List RecField) : (recordBytes n fs).length = n := by
  rw [recordBytes, List.length_map, List.length_range]

/-- Lists of `k` bytes for each of the numbers below `n`. -/
theorem length_flatMap_range {n k : Nat} {f : Nat → List Byte} (h : ∀ i, (f i).length = k) : ((List.range n).flatMap f).length = n * k := by
  rw [List.length_flatMap, List.map_congr_left fun i _ => h i, List.map_const', List.sum_replicate, List.length_range, smul_eq_mul]

/-! ### The husk (R446, Table 26-4) -/

theorem huskCore_length (s : State) (core : Nat) : (huskCore s core).length = 1024 := by
  unfold huskCore
  simp only [List.length_append, natLe_length]
  rw [length_flatMap_range (k := 48)]
  intro n
  split
  · exact natLe_length ..
  · simp only [List.length_append, natLe_length]

/-- The husk fills its part of the reserved range, however few faults have been recorded. -/
theorem huskBytes_length (s : State) (index : Nat) : 0x55800 ≤ (huskBytes s index).length := by
  have header : (huskHeader s index).length = 4096 := recordBytes_length ..
  have cores : ((List.range 256).flatMap (huskCore s)).length = 256 * 1024 := length_flatMap_range (huskCore_length s)
  have nodes : ((List.range 1024).flatMap (huskNodeBytes s)).length = 1024 * 64 := length_flatMap_range fun _ => natLe_length ..
  have queues : ((List.range 32).flatMap (huskQueueBytes s)).length = 32 * 64 := length_flatMap_range fun _ => natLe_length ..
  unfold huskBytes
  simp only [List.length_append, List.length_replicate, header, cores, nodes, queues]
  omega

/-- The husk's bytes and, last, their signature are written. -/
def huskWritten (s : State) (bytes : List Byte) : State :=
  apexWriteAll 40 (apexWriteAll 5600 s s.host.bring.husk bytes) (s.host.bring.husk + 0x55800) (natLe 1280 (Config.signature bytes))

/-- The record of a fatal error, once the device is READY. -/
def fatalRecord (index : Nat) (s : State) : State :=
  if s.host.bring.ready then faultRecord s none 0x0C5 7 0xFFF 0 [errorBody 7 1 0 (tabGetD 0 s.host.errors (errorKey 7 placeApex)) index]
  else s

/-- The state with another attestation block. -/
def State.withAttest (s : State) (a : Attest) : State := { s with host := { s.host with attest := a } }

/-- HUSKVALID is set. -/
def State.huskSealed (s : State) : State := s.withAttest { s.host.attest with huskValid := true }

/-- The device has met a fatal error. -/
def State.halted (s : State) : State := { s with host := { s.host with fatal := true } }

@[simp] theorem State.huskSealed_mem (s : State) : s.huskSealed.mem = s.mem := rfl
@[simp] theorem State.huskSealed_bring (s : State) : s.huskSealed.host.bring = s.host.bring := rfl
@[simp] theorem State.huskSealed_attest (s : State) : s.huskSealed.host.attest = { s.host.attest with huskValid := true } := rfl
@[simp] theorem State.huskSealed_fatal (s : State) : s.huskSealed.host.fatal = s.host.fatal := rfl

theorem fatalError_again {s : State} (h : s.host.fatal = true) (index : Nat) (failed : Bool) : fatalError s index failed = s := if_pos h

/-! The next two proofs name the branches and do not simplify the states: the husk is thousands of writes, which the kernel is to compare and
not to evaluate. -/

theorem fatalError_fails {s : State} (h : s.host.fatal = false) (index : Nat) : fatalError s index true =
    fatalRecord index (s.halted.withAttest { s.host.attest with huskErr := true }) :=
  (if_neg (by rw [h]; decide)).trans (if_pos rfl)

theorem fatalError_writes {s : State} (h : s.host.fatal = false) (index : Nat) : fatalError s index false =
    fatalRecord index (huskWritten s.halted (huskBytes s.halted index)).huskSealed :=
  (if_neg (by rw [h]; decide)).trans (if_neg Bool.false_ne_true)

theorem reported_fatalRecord (index : Nat) (s : State) : Reported s (fatalRecord index s) := by
  unfold fatalRecord
  split
  · exact reported_faultRecord ..
  · exact .refl s

/-- Before the device is READY no record is written. -/
theorem fatalRecord_silent {s : State} (h : s.host.bring.ready = false) (index : Nat) : fatalRecord index s = s :=
  if_neg (by rw [h]; decide)

theorem reported_huskWritten (s : State) (bytes : List Byte) : Reported s (huskWritten s bytes) :=
  (reported_apexWriteAll ..).trans (reported_apexWriteAll ..)

/-- What the husk's range holds: the bytes, and after them the signature. -/
theorem huskWritten_mem (s : State) {bytes : List Byte} (h : 0x55800 ≤ bytes.length) :
    (∀ k, k < 0x55800 → memGet (huskWritten s bytes).mem (s.host.bring.husk + k) = bytes.getD k 0) ∧
    memBytes (huskWritten s bytes).mem (s.host.bring.husk + 0x55800) 1280 = natLe 1280 (Config.signature bytes) := by
  have signed : (natLe 1280 (Config.signature bytes)).length = 1280 := natLe_length ..
  have written : (huskWritten s bytes).mem = memWrite (memWrite s.mem s.host.bring.husk (bytes.take (64 * 5600 - s.host.bring.husk % 64)))
      (s.host.bring.husk + 0x55800) (natLe 1280 (Config.signature bytes)) := by
    rw [huskWritten, apexWriteAll_mem_all _ (by omega), apexWriteAll_mem]
  rw [written]
  refine ⟨fun k hk => ?_, ?_⟩
  · rw [memGet_memWrite_outside _ _ _ _ (.inl (by omega)), memGet_memWrite_inside _ _ _ k (by rw [List.length_take]; omega), List.getElem_take,
      List.getD_eq_getElem _ _ (by omega)]
  · exact memBytes_memWrite_of_length signed ..

/-- A fatal error. -/
theorem fatal : Claims.Fatal := by
  intro s
  refine ⟨fun h => ?_, fun h written => ?_, fun h failed => ?_⟩
  · rw [exec_fatalError, fatalError_again h]
  · have husk := reported_huskWritten s.halted (huskBytes s.halted (s.argN 0))
    refine ⟨_, exec_fatalError s, ?_⟩
    rw [beq_false_of_ne written, fatalError_writes h]
    rw [(reported_fatalRecord ..).fatal, (reported_fatalRecord ..).attest, State.huskSealed_fatal, State.huskSealed_attest, husk.fatal, husk.attest]
    refine ⟨rfl, rfl, fun ready => ?_⟩
    rw [fatalRecord_silent, State.huskSealed_mem]
    · exact huskWritten_mem s.halted (huskBytes_length ..)
    · rw [State.huskSealed_bring, husk.bring]
      exact ready
  · refine ⟨_, exec_fatalError s, ?_⟩
    rw [failed, beq_self_eq_true, fatalError_fails h]
    exact ⟨(reported_fatalRecord ..).fatal, (reported_fatalRecord ..).attest⟩

/-! ### Attestation (R448) -/

theorem attestGo_starts {s : State} (ready : s.host.bring.ready = true) (idle : s.host.attest.busy = false) :
    attestGo s false = s.withAttest { s.host.attest with busy := true, done := false } := by
  simp [attestGo, ready, idle, State.withAttest]

theorem attestGo_rejects {s : State} (ready : s.host.bring.ready = true) (busy : s.host.attest.busy = true) :
    attestGo s false = s.withAttest { s.host.attest with rejected := true } := by
  simp [attestGo, ready, busy, State.withAttest]

theorem attestGo_idle {s : State} (idle : s.host.attest.busy = false) : attestGo s true = s := by
  simp [attestGo, idle]

/-- The report is written, its signature last; then DONE is set. -/
theorem attestGo_finishes {s : State} (busy : s.host.attest.busy = true) : attestGo s true =
    (apexWriteAll 32 s (2 ^ 51 + s.host.attest.report % 2 ^ 51) (reportBody s ++ natLe 1280 (Config.signature (reportBody s)))).withAttest
      { s.host.attest with busy := false, done := true, count := s.host.attest.count + 1 } := by
  simp [attestGo, busy, State.withAttest]

theorem signedReport_length (s : State) : (reportBody s ++ natLe 1280 (Config.signature (reportBody s))).length = 1472 := by
  rw [List.length_append, natLe_length, reportBody, recordBytes_length]

/-- The write of GO, the report, and the write that clears HUSKVALID. -/
theorem attestation : Claims.Attestation := by
  intro s
  have unfinished {n : Nat} (h : n ≠ 1) : (n == 1) = false := beq_false_of_ne h
  refine ⟨fun ready h idle => ?_, fun ready h busy => ?_, fun h busy => ?_, fun h idle => ?_, fun ready => ?_, fun ready => ?_⟩
  · rw [exec_attestGo, unfinished h, attestGo_starts ready idle]
    rfl
  · rw [exec_attestGo, unfinished h, attestGo_rejects ready busy]
    rfl
  · refine ⟨_, exec_attestGo s, ?_⟩
    rw [h, beq_self_eq_true, attestGo_finishes busy]
    refine ⟨rfl, ?_⟩
    have written := apexWriteAll_mem_all (fuel := 32) (pa := 2 ^ 51 + s.host.attest.report % 2 ^ 51)
      (bs := reportBody s ++ natLe 1280 (Config.signature (reportBody s))) s (by rw [signedReport_length]; decide)
    exact (congrArg (memBytes · _ 1472) written).trans (memBytes_memWrite_of_length (signedReport_length s) ..)
  · rw [exec_attestGo, h, beq_self_eq_true, attestGo_idle idle]
  · rw [exec_huskvalidClear, huskvalidClear, ready]
    rfl
  · rw [exec_huskvalidClear, huskvalidClear, ready]
    rfl

/-! ### Resets (R453) -/

/-- A key of a table that keeps some of its keys. -/
theorem tabGet_filter {α : Type} (keep : Nat → Bool) (n : Nat) : ∀ t : Tab α,
    tabGet (t.filter fun p => keep p.1) n = if keep n then tabGet t n else none
  | [] => by split <;> rfl
  | (k, x) :: t => by
    rw [List.filter_cons, tabGet]
    by_cases hk : k = n
    · subst hk
      rw [if_pos rfl]
      by_cases kept : keep k = true
      · rw [if_pos kept, if_pos kept, tabGet, if_pos rfl]
      · rw [if_neg kept, if_neg kept, tabGet_filter keep k t, if_neg kept]
    · rw [if_neg hk, ← tabGet_filter keep n t]
      split
      · rw [tabGet, if_neg hk]
      · rfl

/-- A cold reset leaves the bytes of host memory, and the others read as at first. -/
theorem coldReset_memGet (s : State) (k : Nat) : memGet (coldReset s).mem k = if isHost k then memGet s.mem k else memGet [] k := by
  rw [memGet, tabGetD, coldReset, tabGet_filter]
  split <;> rfl

/-- The two resets (assumption 69). -/
theorem resets : Claims.Resets := fun s =>
  ⟨⟨_, exec_coldReset s, ⟨rfl, rfl, rfl, rfl, rfl, rfl, rfl⟩, rfl, rfl, coldReset_memGet s⟩,
    ⟨_, exec_warm s, ⟨rfl, rfl, rfl, rfl, rfl, rfl, rfl⟩, rfl, fun _ => rfl, rfl⟩⟩

/-- Settles O59: a fault record leaves the error counts, the attestation block, the noted sectors, the cores' tables and the teams' being
terminated as they are, so what an error does stands behind its record; the husk and the report are read back as they were written. -/
theorem reliability : Obligations.Reliability := ⟨scrubbing, fatal, attestation, resets⟩

end Sys2Proof.Machine

/-! ## Batches and stream records -/

namespace Sys2Proof.Machine

theorem exec_cpseal (d : BitVec 6) (s : State) : exec (.cpseal d) s = execCpseal d s := rfl
theorem exec_cpwait (d : BitVec 6) (n : BitVec 11) (s : State) : exec (.cpwait d n) s = execCpwait d n s := rfl
theorem exec_strm (a : BitVec 7) (s : State) : exec (.strm a) s = execStrm a s := rfl

/-! ### The batches of a team as it issues (R268) -/

section BatchCounts
variable (s : State) (i : Issue) (t : Team)

theorem batchAge_atIssue (b : Nat) : batchAge (atIssue i t) b = batchAge t b := by
  rw [batchAge, atIssue, Team.advance_batch, batchAge]

theorem unfinished_atIssue : unfinished (s.setTeam i.wid (atIssue i t)) (atIssue i t) = unfinished s t := by
  have pending : pendingBatches (s.setTeam i.wid (atIssue i t)) (atIssue i t).seqNo = pendingBatches s t.seqNo := by
    rw [Team.seqNo, atIssue, Team.advance_info]
    rfl
  simp only [unfinished, pending, batchAge_atIssue]

theorem oldestBatch_atIssue : oldestBatch (s.setTeam i.wid (atIssue i t)) (atIssue i t) = oldestBatch s t := by
  rw [oldestBatch, unfinished_atIssue, atIssue, Team.advance_batch, oldestBatch]

/-- A batch that has finished: a sealed one that lies further back than the unfinished ones (R269). -/
abbrev batchFinished (b : Nat) : Prop := b ≠ t.batch ∧ unfinished s t < batchAge t b

theorem staleFinished_atIssue (b : Nat) :
    staleFinished (s.setTeam i.wid (atIssue i t)) (atIssue i t) b = decide (batchFinished s t b) := by
  rw [staleFinished, unfinished_atIssue, batchAge_atIssue, atIssue, Team.advance_batch, Bool.decide_and, decide_not]
  rfl

end BatchCounts

/-! ### CPSEAL and CPWAIT (R268, R269) -/

section BatchInstructions
variable {s : State} {i : Issue} {t : Team} {d : BitVec 6} {n : BitVec 11} {p : Nat} (hp : (atIssue i t).a.win.reg 256 d.toNat = .ok p)
include hp

/-- CPSEAL with fewer than 64 sealed batches unfinished. -/
theorem cpseal_seals (h : Issuing (.cpseal d) s i t) (hroom : unfinished s t < 64) : exec (.cpseal d) s = .next (doneWith s i
    (Claims.setS { atIssue i t with batch := ((atIssue i t).batch + 1) % 2 ^ 32 } p (BitVec.ofNat 64 (atIssue i t).batch))) := by
  have room : decide (64 ≤ unfinished s t) = false := decide_eq_false (Nat.not_le.2 hroom)
  have written := writeS_eq (u := { atIssue i t with batch := ((atIssue i t).batch + 1) % 2 ^ 32 }) (BitVec.ofNat 64 (atIssue i t).batch) hp
  rw [exec_cpseal]
  refine issue_team _ h ?_
  simp only [hp, sealBatch, unfinished_atIssue, room, waitWhile_false, written, State.setTeam_setTeam, bind, Except.bind]

/-- CPSEAL with 64 sealed batches unfinished. -/
theorem cpseal_waits (h : Issuing (.cpseal d) s i t) (hfull : 64 ≤ unfinished s t) :
    exec (.cpseal d) s = .next (noteWait s i (.other 0) []) := by
  rw [exec_cpseal]
  refine issue_wait _ h ?_
  simp only [hp, sealBatch, unfinished_atIssue, decide_eq_true hfull, waitWhile_true, waitOn, bind, Except.bind]

/-- CPWAIT with few enough sealed batches unfinished. -/
theorem cpwait_gives (h : Issuing (.cpwait d n) s i t) (hfew : unfinished s t ≤ (rawImm i.hint n).toNat) :
    exec (.cpwait d n) s = .next (doneWith s i (Claims.setS
      { atIssue i t with stale := (atIssue i t).stale.filter fun b => ¬batchFinished s t b } p
      (BitVec.ofNat 64 (oldestBatch s t + if ∃ b ∈ t.stale, batchFinished s t b then 2 ^ 32 else 0)))) := by
  have few : decide ((rawImm i.hint n).toNat < unfinished s t) = false := decide_eq_false (Nat.not_lt.2 hfew)
  have stale : (atIssue i t).stale = t.stale := t.advance_stale _
  have written := fun v => writeS_eq (u := { atIssue i t with stale := t.stale.filter fun b => !decide (batchFinished s t b) }) v hp
  rw [exec_cpwait]
  refine issue_team _ h ?_
  simp only [hp, unfinished_atIssue, oldestBatch_atIssue, staleFinished_atIssue, stale, few, waitWhile_false, written, List.any_eq_true,
    decide_eq_true_eq, decide_not, State.setTeam_setTeam, bind, Except.bind]

/-- CPWAIT with more sealed batches unfinished. -/
theorem cpwait_waits (h : Issuing (.cpwait d n) s i t) (hmore : (rawImm i.hint n).toNat < unfinished s t) :
    exec (.cpwait d n) s = .next (noteWait s i (.other (oldestBatch s t)) []) := by
  rw [exec_cpwait]
  refine issue_wait _ h ?_
  simp only [hp, unfinished_atIssue, oldestBatch_atIssue, decide_eq_true hmore, waitWhile_true, waitOn, bind, Except.bind]

end BatchInstructions

/-- CPSEAL and CPWAIT act so. -/
theorem batches : Claims.Batches := fun _ _ _ _ _ _ _ hp =>
  ⟨fun h => ⟨cpseal_seals hp h, cpseal_waits hp h⟩, fun h => ⟨cpwait_gives hp h, cpwait_waits hp h⟩⟩

/-! ### What an engine's reads leave alone (R225, R230) -/

/-- A read changes the buffers, the caches and the stashes, not the engines' tables, the host's side or anything else of a team. -/
structure ReadOnly (s r : State) : Prop where
  eng : r.eng = s.eng
  host : r.host = s.host
  teams : ∀ w, r.bareTeam w = s.bareTeam w

theorem ReadOnly.refl (s : State) : ReadOnly s s := ⟨rfl, rfl, fun _ => rfl⟩

/-- One read after another. -/
theorem ReadOnly.trans {s r q : State} (h : ReadOnly s r) (k : ReadOnly r q) : ReadOnly s q :=
  ⟨k.eng.trans h.eng, k.host.trans h.host, fun w => (k.teams w).trans (h.teams w)⟩

theorem readOnly_xlateFill (s : State) (core ctx va : Nat) : ReadOnly s (xlateFill s core ctx va) := by
  unfold xlateFill
  split
  · split
    · exact .refl s
    · split
      · exact ⟨rfl, rfl, fun _ => rfl⟩
      · exact .refl s
  · exact .refl s

theorem readOnly_l2Touch (s : State) (node : Option Nat) (pa : Nat) (attr : PageAttr) (cls : BitVec 2) :
    ReadOnly s (l2Touch s node pa attr cls) := by
  unfold l2Touch
  split
  · generalize l2Place _ _ _ _ = x
    exact ⟨rfl, rfl, fun _ => rfl⟩
  · exact .refl s

theorem readOnly_recallStash (s : State) (keep : Option Nat) (line : Nat) (write : Bool) : ReadOnly s (recallStash s keep line write) := by
  refine ⟨?_, ?_, recallStash_bareTeam s keep line write⟩
  all_goals
    unfold recallStash
    split <;> rfl

theorem readOnly_physTouchRead (s : State) (acc : Accessor) (pa : Nat) (attr : PageAttr) (cls : BitVec 2) (l1 : Bool) :
    ReadOnly s (physTouchRead s acc pa attr cls l1) := by
  refine ((readOnly_l2Touch s acc.node pa attr cls).trans (readOnly_recallStash _ acc.wid (pa / 128) false)).trans ?_
  unfold physTouchRead
  dsimp only
  split
  · exact ⟨rfl, rfl, fun _ => rfl⟩
  · exact .refl _

theorem readOnly_engineTouch (s : State) (acc : Accessor) (core ctx : Nat) (rs : List (Nat × Nat)) (cls : BitVec 2) :
    ReadOnly s (engineTouch s acc core ctx rs cls) := by
  refine List.foldlRecOn (motive := fun r => ReadOnly s r) _ _ (.refl s) fun r hr k _ => hr.trans ?_
  refine (readOnly_xlateFill r core ctx (64 * k)).trans ?_
  dsimp only
  split
  · exact readOnly_physTouchRead ..
  · exact .refl _

/-! ### An item that enters a leaf (R313, R318, R321) -/

/-- An item placed in order is there. -/
theorem mem_insertItem (x : LeafItem) : ∀ l, x ∈ insertItem x l
  | [] => List.mem_singleton_self x
  | y :: ys => by
    rw [insertItem]
    split
    · exact List.mem_cons_self
    · exact List.mem_cons_of_mem y (mem_insertItem x ys)

/-- The comparison with the running work may stop it, and changes neither the leaves, the copy table nor the teams. -/
theorem comparePush_keeps (s : State) (id : Nat) (x : LeafItem) :
    (comparePush s id x).dev = s.dev ∧ (comparePush s id x).eng.copies = s.eng.copies ∧ (comparePush s id x).teams = s.teams := by
  unfold comparePush
  dsimp only
  split
  · exact ⟨rfl, rfl, rfl⟩
  · split <;> exact ⟨rfl, rfl, rfl⟩

/-- A push leaves the copy table and the teams alone. -/
theorem directPush_keeps (s : State) (id rank : Nat) (w : Work) :
    (directPush s id rank w).eng.copies = s.eng.copies ∧ (directPush s id rank w).teams = s.teams := by
  unfold directPush enterLeaf
  dsimp only
  split
  · exact ⟨rfl, rfl⟩
  · split
    · exact (comparePush_keeps ..).2
    · exact ⟨rfl, rfl⟩

/-- Unless a fatal error has stopped the pushes, the work that was pushed is in the leaf, or waits for it. -/
theorem directPush_holds {s : State} (id rank : Nat) (w : Work) (hfatal : s.host.fatal = false) :
    ∃ y, (y ∈ ((directPush s id rank w).leaf id).items ∨ y ∈ ((directPush s id rank w).leaf id).waiting) ∧
      y.rank = rank % 2 ^ 32 ∧ y.work = w := by
  have placed : ∀ (r : State) (x : LeafItem), (comparePush r id x).leaf id = r.leaf id := fun r x => by
    rw [State.leaf, (comparePush_keeps r id x).1, State.leaf]
  unfold directPush enterLeaf
  simp only [hfatal, Bool.false_eq_true, if_false]
  split
  · rw [placed, State.setLeaf_leaf_same]
    exact ⟨_, .inl (mem_insertItem _ _), rfl, rfl⟩
  · rw [State.setLeaf_leaf_same]
    exact ⟨_, .inr (List.mem_append_right _ (List.mem_singleton_self _)), rfl, rfl⟩

/-! ### STRM (R271) -/

theorem readVirt_setTeam (s : State) (w : Nat) (t : Team) (core ctx va n : Nat) :
    readVirt (s.setTeam w t) core ctx va n = readVirt s core ctx va n := by
  simp only [readVirt, xlate_setTeam, State.setTeam_mem]

/-- A team knows its rings as it did before it issued. -/
theorem streamSide_atIssue (i : Issue) (t : Team) (r : StreamRec) : streamSide (atIssue i t) r = streamSide t r := by
  rw [streamSide, atIssue, Team.advance_rings, streamSide]

/-- The default trap value of STRM is the value of its source. -/
theorem valueOfA_strm {i : Issue} {t : Team} {core : Nat} {a : BitVec 7} {v : DWord} (ha : i.stream = .a)
    (hv : sourceA i (atIssue i t) core a = .ok v) : valueOfA i t core (.strm a) = v := by
  have fields : sourceFields (.strm a) = [a] := rfl
  have other : (majorOf (.strm a) == 0x79 || (decide (0x20 ≤ majorOf (.strm a)) && decide (majorOf (.strm a) ≤ 0x2B))) = false := rfl
  rw [sourceA_atIssue ha] at hv
  simp only [valueOfA, other, fields, Issue.estr_of_a ha, hv, Bool.false_eq_true, if_false]

/-- The state once a record of 128 bytes from `va` has taken entry `n` of the copy table and entered the core's stream leaf. -/
def recordEntered (s : State) (i : Issue) (u : Team) (va : Nat) (r : StreamRec) (e n : Nat) : State :=
  directPush (engineTouch (addCopy (s.setTeam i.wid u) (ownCopy i u n (streamCopy r e))).1
    { core := some i.core, node := some u.info.node } i.core u.info.ctx [(va, 128)] 0) (leafId 3 i.core) u.info.rank (.stream s.eng.copySeq)

/-- What STRM does with the record that it has read. -/
def takeRecord (s : State) (i : Issue) (u : Team) (va : Nat) : Option StreamRec → Act State
  | none => raise 0x110
  | some r => (streamSide u r).elim (raise 0x111) fun e => (awaitEntry s u).map (recordEntered s i u va r e)

/-- A record of a ring that an engine faces takes the entry. -/
theorem takeRecord_enters {s : State} {i : Issue} {u : Team} {va e n : Nat} {r : StreamRec} (hside : streamSide u r = some e)
    (hentry : awaitEntry s u = .ok n) : takeRecord s i u va (some r) = .ok (recordEntered s i u va r e n) := by
  rw [takeRecord, hside, Option.elim_some, hentry]
  rfl

section RecordEntered
variable (s : State) (i : Issue) (u : Team) (va : Nat) (r : StreamRec) (e n : Nat)

theorem recordEntered_mem : (recordEntered s i u va r e n).mem = s.mem := by
  rw [recordEntered, directPush_mem, engineTouch_mem]
  rfl

/-- The record is in the copy table. -/
theorem recordEntered_copies :
    tabGet (recordEntered s i u va r e n).eng.copies s.eng.copySeq = some (ownCopy i u n (streamCopy r e)) := by
  rw [recordEntered, (directPush_keeps ..).1, (readOnly_engineTouch ..).eng]
  exact tabGet_tabSet_same ..

/-- Of the team only the stash and the acquired-from table may have changed. -/
theorem recordEntered_bareTeam : (recordEntered s i u va r e n).bareTeam i.wid = some u.bare := by
  rw [recordEntered, State.bareTeam_of_teams (directPush_keeps ..).2, (readOnly_engineTouch ..).teams]
  exact congrArg (Option.map Team.bare) (State.setTeam_team?_same s i.wid u)

/-- The record is in the stream leaf of the core, or waits for it. -/
theorem recordEntered_leaf (hfatal : s.host.fatal = false) :
    ∃ y, (y ∈ ((recordEntered s i u va r e n).leaf (leafId 3 i.core)).items ∨
      y ∈ ((recordEntered s i u va r e n).leaf (leafId 3 i.core)).waiting) ∧
      y.rank = u.info.rank % 2 ^ 32 ∧ y.work = .stream s.eng.copySeq :=
  directPush_holds _ _ _ ((congrArg HostSide.fatal (readOnly_engineTouch ..).host).trans hfatal)

end RecordEntered

/-- A team that an effect leaves bare as `u` has issued as `u`. -/
theorem leaves_of_bare {s : State} {i : Issue} {u : Team} (h : s.bareTeam i.wid = some u.bare) : Claims.leaves (doneAs s i) i u := by
  obtain ⟨w, hw, hbare⟩ := State.bareTeam_some h
  refine ⟨w.issued i.stream, by rw [doneAs, State.modTeam_team?_same, hw, Option.map_some], ?_⟩
  have issued : (w.issued i.stream).bare = (u.issued i.stream).bare := by rw [Team.issued_bare, Team.issued_bare, hbare]
  exact congrArg (fun x : Team => { x with seen := none }) issued

section Strm
variable {s : State} {i : Issue} {t : Team} {a : BitVec 7} {v : DWord} (ha : i.stream = .a)
  (hv : sourceA i (atIssue i t) (coreWord s i.core) a = .ok v) (hva : v.toNat < 2 ^ 57)
include hv hva

/-- STRM of a misaligned record. -/
theorem strm_misaligned (hodd : v.toNat % 128 ≠ 0) : ∃ body, exec (.strm a) s = issue (.strm a) copyRaises s body ∧
    body i (atIssue i t) (s.setTeam i.wid (atIssue i t)) = raise 0x110 := by
  rw [exec_strm]
  refine ⟨_, rfl, ?_⟩
  simp only [coreWord_setTeam, hv, if_neg (Nat.not_le.2 hva), decide_eq_true hodd, raiseIf_true, raise, bind, Except.bind]

/-- STRM of an aligned record, all of which can be read. -/
theorem strm_takes (haligned : v.toNat % 128 = 0) (hprobe : probeRange s i.core t.info.ctx v.toNat 128 false 1 = (none, [])) :
    ∃ body, exec (.strm a) s = issue (.strm a) copyRaises s body ∧
      body i (atIssue i t) (s.setTeam i.wid (atIssue i t)) = takeRecord (s.setTeam i.wid (atIssue i t)) i (atIssue i t) v.toNat
        (parseStream v.toNat (readVirt s i.core t.info.ctx v.toNat 128)) := by
  have aligned : decide (v.toNat % 128 ≠ 0) = false := decide_eq_false (not_not.2 haligned)
  have hinfo : (atIssue i t).info = t.info := t.advance_info _
  have resident : awaitPages (atIssue i t) i.stream [v.toNat] [] = .ok () := rfl
  rw [exec_strm]
  refine ⟨_, rfl, ?_⟩
  simp only [coreWord_setTeam, hv, if_neg (Nat.not_le.2 hva), aligned, raiseIf_false, hinfo, probeRange_setTeam, hprobe, resident,
    readVirt_setTeam, bind, Except.bind]
  cases parseStream v.toNat (readVirt s i.core t.info.ctx v.toNat 128) with
  | none => rfl
  | some r =>
    simp only [takeRecord]
    cases streamSide (atIssue i t) r with
    | none => rfl
    | some e =>
      cases awaitEntry (s.setTeam i.wid (atIssue i t)) (atIssue i t) with
      | error stop => rfl
      | ok n => simp only [Option.elim, Except.map, recordEntered, addCopy, hinfo, State.setTeam_setTeam]

end Strm

/-- STRM acts so. -/
theorem streamRecords : Claims.StreamRecords := by
  intro s i t a v h ha hv hva bytes stops
  have stop {body : Issue → Team → State → Act State} {c : Nat} (hexec : exec (.strm a) s = issue (.strm a) copyRaises s body)
      (hbody : body i (atIssue i t) (s.setTeam i.wid (atIssue i t)) = raise c) : stops c := by
    refine hexec.trans ((issue_trap copyRaises h hbody).trans ?_)
    rw [valueOfA_strm ha hv]
    rfl
  refine ⟨fun hodd => ?_, fun haligned hprobe => ?_⟩
  · obtain ⟨body, hexec, hbody⟩ := strm_misaligned hv hva hodd
    exact stop hexec hbody
  · obtain ⟨body, hexec, hbody⟩ := strm_takes hv hva haligned hprobe
    refine ⟨fun hbad => ?_, fun r hr hside => ?_, fun r e n hr hside hlow => ?_⟩
    · exact stop hexec (hbody.trans (congrArg (takeRecord _ _ _ _) hbad))
    · refine stop hexec (hbody.trans ((congrArg (takeRecord _ _ _ _) hr).trans ?_))
      rw [takeRecord, streamSide_atIssue, hside, Option.elim_none]
    · have hentry : awaitEntry (s.setTeam i.wid (atIssue i t)) (atIssue i t) = .ok n := by
        obtain ⟨l, hl⟩ := List.head?_eq_some_iff.1 (awaitEntry_lowest hlow)
        simp only [awaitEntry, copyEntries_atIssue, hl]
      have hbody := hbody.trans ((congrArg (takeRecord _ _ _ _) hr).trans (takeRecord_enters ((streamSide_atIssue i t r).trans hside) hentry))
      refine ⟨_, hexec.trans (issue_next copyRaises h hbody), fun k => ?_, leaves_of_bare (recordEntered_bareTeam ..),
        recordEntered_copies .., fun hfatal => ?_⟩
      · exact congrArg (memGet · k) (recordEntered_mem (s.setTeam i.wid (atIssue i t)) ..)
      · have placed := recordEntered_leaf (s.setTeam i.wid (atIssue i t)) i (atIssue i t) v.toNat r e n hfatal
        rw [show (atIssue i t).info = t.info from t.advance_info _] at placed
        exact placed

/-- Settles O45: a team's batches count alike before and after it has moved on, so CPSEAL and CPWAIT are their checks and one write; what STRM adds
to the state, a read by an engine and a push into a leaf, leaves the copy table and the team but for its stash and acquired-from table. -/
theorem batchesAndStreams : Obligations.BatchesAndStreams := ⟨batches, streamRecords⟩

end Sys2Proof.Machine

/-! ## The machine after a reset -/

namespace Sys2Proof.Machine

/-- The register at 0x33000 is the time base (R451). -/
theorem registerRead_time (s : State) : registerRead s 0x33000 = timeBase s := rfl

/-- The time base reads 0 while no cycle has been counted. -/
theorem registerRead_time_zero {s : State} (h : s.dev.time = 0) : registerRead s 0x33000 = 0 := by
  simp [registerRead_time, timeBase, h]

/-- The state after power-on: memory and every table are empty, so what is read from them is their default. -/
theorem resetState_claim : Claims.ResetState :=
  ⟨rfl, fun _ _ => rfl, fun _ => rfl, fun _ => rfl, registerRead_time_zero rfl, fun _ => rfl, rfl, rfl, rfl⟩

/-- The time base is the count of Apex cycles over 128, and both resets put the count back to 0. -/
theorem timeBase_claim : Claims.TimeBase := fun s =>
  ⟨registerRead_time s, rfl, ⟨coldReset s, exec_coldReset s, registerRead_time_zero rfl⟩,
    ⟨warmReset s, exec_warm s, registerRead_time_zero rfl⟩⟩

/-- Settles O8: what a reset state reads as, and the time base. -/
theorem resetState : Obligations.ResetState := ⟨resetState_claim, timeBase_claim⟩

end Sys2Proof.Machine

/-! ## Traps -/

namespace Sys2Proof.Machine

/-! ### Taking a cause (R432) -/

/-- The handler that TVEC names for the stream is enabled. -/
theorem handlerOn_eq (i : Issue) (tvec : DWord) : (if i.estr then bit tvec 32 else bit tvec 0) = Claims.handlerOn i tvec := rfl

/-- The offset that TVEC names for the stream. -/
theorem handlerOffset_eq (i : Issue) (tvec : DWord) :
    (if i.estr then (tvec.extractLsb' 34 30).toNat * 4 else (tvec.extractLsb' 2 30).toNat * 4) = Claims.handlerOffset i tvec := by
  rw [Claims.handlerOffset]
  split <;> exact Nat.mul_comm ..

/-- A precise or imprecise cause is taken by the team that raises it. -/
theorem settle_trap (s : State) (i : Issue) (t : Team) (d : TrapValue) (c : Nat) (v : TrapValue) (imp : Bool) {r : State}
    (h : enterTrap s i (Claims.raising i t c v imp) c imp v = .ok r) : settle s i t d (.error (.trap c (some v) imp)) = r := by
  unfold Claims.raising at h
  simp only [settle, Option.some.injEq, Option.getD_some, h]

section Entry
variable {s : State} {i : Issue} {t : Team} {e : CallEntry} (c : Nat) (v : TrapValue) (imp : Bool)

/-- The trap registers once the stream has taken the cause. -/
def takenTrap (i : Issue) (t : Team) (c : Nat) (v : TrapValue) (imp : Bool) : TrapRegs :=
  { cause := causeWord i c imp v, pc := i.trapPc, value := v.value, tvec := t.trap.tvec, stream := some i.stream }

variable (hfree : t.trap.stream = none) (hon : Claims.handlerOn i t.trap.tvec)
  (hlisted : callTarget t i.estr (Claims.handlerOffset i t.trap.tvec) = some e)
include hfree hon hlisted

/-- The A-stream enters a handler whose frame fits. -/
theorem enterTrap_a (ha : i.stream = .a) (hdepth : t.a.win.depth < 65535) (hfits : Claims.fits t.a.win 256 e.fs) :
    enterTrap s i t c imp v = .ok (s.setTeam i.wid { t.rollback with
      trap := takenTrap i t c v imp,
      a := { t.a.rollback with pc := BitVec.ofNat 64 (t.info.kernel.code + Claims.handlerOffset i t.trap.tvec),
                               win := Claims.pushed t.a.win 256 e.fs 0 true } }) := by
  have slides := slideA_of_fits s i (t := { t.rollback with trap := takenTrap i t c v imp }) 0 true hfits
  unfold takenTrap at slides
  simp only [enterTrap, hfree, handlerOn_eq, hon, handlerOffset_eq, hlisted, ha, if_neg (Nat.ne_of_lt hdepth), Option.isSome_none,
    Bool.false_eq_true, Bool.not_true, if_false] at slides ⊢
  simp only [slides, takenTrap, ha]
  rfl

/-- The stream of a fragment enters a handler whose frame fits. -/
theorem enterTrap_e {n : Nat} {f : Frag} (he : i.stream = .e n) (hf : tabGet t.frags n = some f) (hdepth : f.win.depth < 65535)
    (hfits : Claims.fits f.win t.info.vphys e.fv) :
    enterTrap s i t c imp v = .ok (s.setTeam i.wid { t.rollback with
      trap := takenTrap i t c v imp,
      frags := tabMod t.rollback.frags n fun f => { f with
        pc := BitVec.ofNat 64 (t.info.kernel.code + Claims.handlerOffset i t.trap.tvec),
        win := Claims.pushed f.win t.info.vphys e.fv 0 true } }) := by
  have hback : tabGet t.rollback.frags n = some f.rollback :=
    (tabGet_map (f := fun p : Nat × Frag => (p.1, p.2.rollback)) (fun _ => rfl) n t.frags).trans (by rw [hf, Option.map_some])
  have slides := slideE_of_fits s i (u := { t.rollback with trap := takenTrap i t c v imp }) f.rollback.mask 0 true hfits
  unfold takenTrap at slides
  simp only [enterTrap, hfree, handlerOn_eq, hon, handlerOffset_eq, hlisted, he, hback, Option.isSome_none,
    Bool.false_eq_true, Bool.not_true, if_false] at slides ⊢
  have hwin : f.rollback.win = f.win := rfl
  simp only [hwin, if_neg (Nat.ne_of_lt hdepth), slides, takenTrap, he, Team.modFrag, Team.setPc, tabMod_eq _ hback, tabMod_tabSet_same]
  rfl

end Entry

/-- Taking a cause acts so. -/
theorem trapTaken_claim : Claims.TrapTaken := by
  intro s i t c v d imp e hfree hon hlisted h t1 trap
  have listed : callTarget (Claims.raising i t c v imp) i.estr (Claims.handlerOffset i t.trap.tvec) = some e := hlisted
  refine ⟨fun ha hdepth hfits => ?_, fun n f he hf hdepth hfits => ?_⟩
  · exact settle_trap s i t d c v imp (enterTrap_a (t := Claims.raising i t c v imp) c v imp hfree hon listed ha hdepth hfits)
  · exact settle_trap s i t d c v imp (enterTrap_e (t := Claims.raising i t c v imp) c v imp hfree hon listed he hf hdepth hfits)

/-! ### The word of CAUSE (Table 25-2) -/

/-- The word of CAUSE, field by field. -/
theorem causeWord_eq (i : Issue) (c : Nat) (imp : Bool) (v : TrapValue) :
    causeWord i c imp v = BitVec.ofNat 64 (c + imp.toNat * 2 ^ 9 + i.estr.toNat * 2 ^ 10 + i.frag * 2 ^ 11 + 2 ^ 16 +
      v.lane.getD 0 * 2 ^ 17 + v.lane.isSome.toNat * 2 ^ 27 + v.detail.toNat * 2 ^ 32) := by
  rw [causeWord]
  cases imp <;> cases i.estr <;> cases v.lane <;> simp [Nat.add_assoc]

/-- A field of a word that is given by its value. -/
theorem extractLsb'_ofNat_eq {n start len x : Nat} (h : n % 2 ^ 64 / 2 ^ start % 2 ^ len = x % 2 ^ len) :
    (BitVec.ofNat 64 n).extractLsb' start len = BitVec.ofNat len x := by
  apply BitVec.eq_of_toNat_eq
  rw [BitVec.extractLsb'_toNat, BitVec.toNat_ofNat, BitVec.toNat_ofNat, Nat.shiftRight_eq_div_pow, h]

/-- A bit of a word that is given by its value. -/
theorem getLsbD_ofNat_eq {n k : Nat} {b : Bool} (hk : k < 64) (h : n / 2 ^ k % 2 = b.toNat) : (BitVec.ofNat 64 n).getLsbD k = b := by
  rw [BitVec.getLsbD_ofNat, Nat.testBit_eq_decide_div_mod_eq, h]
  cases b <;> simp [hk]

/-- Each field stands above those before it, which do not reach it. -/
theorem causeFields : Claims.CauseFields := by
  intro i c imp v hc hfrag hlane w
  have hl : v.lane.getD 0 < 1024 := by
    cases h : v.lane with
    | none => exact Nat.succ_pos _
    | some l => exact hlane l h
  have hd : v.detail.toNat < 2 ^ 32 := v.detail.isLt
  have hi := imp.toNat_lt
  have he := i.estr.toNat_lt
  have hs := v.lane.isSome.toNat_lt
  have hw : w = _ := causeWord_eq i c imp v
  rw [hw]
  refine ⟨extractLsb'_ofNat_eq (by omega), getLsbD_ofNat_eq (by decide) (by omega), getLsbD_ofNat_eq (by decide) (by omega),
    extractLsb'_ofNat_eq (by omega), getLsbD_ofNat_eq (by decide) ?_, extractLsb'_ofNat_eq (by omega),
    getLsbD_ofNat_eq (by decide) (by omega), extractLsb'_ofNat_eq (x := 0) (by omega), ?_⟩
  · rw [Bool.toNat_true]
    omega
  · rw [extractLsb'_ofNat_eq (x := v.detail.toNat) (by omega), BitVec.ofNat_toNat, BitVec.setWidth_eq]

/-- Settles O17: a cause enters the handler by one slide of the stream's window, and CAUSE takes its fields. -/
theorem trapTaken : Obligations.TrapTaken := ⟨trapTaken_claim, causeFields⟩

/-! ### TRAP (R436) -/

theorem exec_trap (a : BitVec 7) (s : State) : exec (.trap a) s = execTrap a s := rfl
theorem exec_tret (s : State) : exec .tret s = execTret s := rfl

/-- The operand of TRAP in the E-stream: the value of the lowest active lane. -/
theorem barOperands_e {s : State} {i : Issue} {t : Team} {a : BitVec 7} {n l : Nat} {o : ELanes} (he : i.stream = .e n)
    (ho : eOperands i t (coreWord s i.core) [(a, .int)] none = .ok o) (hl : o.lanes.head? = some l) :
    barOperands s i t [a] = .ok ([(o.arg 0 l).toNat], eFinish t o false 0) := by
  simp only [barOperands, Issue.estr_of_e he, if_true, List.map_cons, List.map_nil, ho, hl, Option.getD_some, bind, Except.bind]
  rfl

/-- TRAP raises 0x021 with the first operand that BAR would take. -/
theorem trap_raises {s : State} {i : Issue} {t u : Team} {a : BitVec 7} {x : Nat} (h : Issuing (.trap a) s i t)
    (hx : barOperands s i (atIssue i t) [a] = .ok ([x], u)) (d : TrapValue) :
    exec (.trap a) s = .next (settle s i t d (raiseWith 0x021 { value := BitVec.ofNat 64 x })) := by
  have operand : barOperands (s.setTeam i.wid (atIssue i t)) i (atIssue i t) [a] = .ok ([x], u) := hx
  rw [exec_trap]
  refine (issue_trap plain h (c := 0x021) (v := some { value := BitVec.ofNat 64 x }) ?_).trans rfl
  simp only [operand, List.getD_cons_zero, raiseWith, bind, Except.bind]

/-- TRAP acts so. -/
theorem trapInstruction : Claims.TrapInstruction := by
  intro s i t a h
  refine ⟨fun v ha hv d => ?_, fun n o l he ho hl d => ?_⟩
  · rw [trap_raises h (barOperands_a ha hv) d, BitVec.ofNat_toNat, BitVec.setWidth_eq]
  · rw [trap_raises h (barOperands_e he ho hl) d, BitVec.ofNat_toNat]

/-! ### TRET (R436) -/

/-- A stream's top frame does not change as it moves on. -/
theorem inTrapFrame_advanced (i : Issue) (t : Team) : inTrapFrame (atIssue i t) i.stream = inTrapFrame t i.stream := by
  cases hs : i.stream with
  | a => simp only [inTrapFrame, atIssue, Team.advance_win]
  | e n =>
    simp only [inTrapFrame, atIssue, hs, Team.advance, Team.modFrag_frags, tabGet_tabMod_same]
    cases tabGet t.frags n <;> rfl

/-- A slide back of the A-stream leaves the trap registers. -/
theorem slideBackA_trap {s : State} {i : Issue} {t v : Team} (h : slideBackA s i t = .ok v) : v.trap = t.trap := by
  simp only [slideBackA] at h
  split at h
  · obtain ⟨_, -, h⟩ := act_bind_ok h
    cases h
    rfl
  · cases h
    rfl

/-- A slide back of a fragment leaves the trap registers. -/
theorem slideBackE_trap {s : State} {i : Issue} {t v : Team} {w x : Window} {m : Mask} (h : slideBackE s i t w m = .ok (v, x)) :
    v.trap = t.trap := by
  simp only [slideBackE] at h
  split at h
  · obtain ⟨_, -, h⟩ := act_bind_ok h
    cases h
    rfl
  · cases h
    rfl

/-- Two changes of one entry are one. -/
theorem tabMod_tabMod {α : Type} (d : Tab α) (n : Nat) (f g : α → α) : tabMod (tabMod d n f) n g = tabMod d n fun x => g (f x) := by
  cases h : tabGet d n with
  | none => simp [tabMod, h]
  | some x => rw [tabMod_eq f h, tabMod_tabSet_same, tabMod_eq _ h]

section TrapReturn
variable {s : State} {i : Issue} {t v : Team} (h : Issuing .tret s i t)
include h

/-- TRET outside a trap frame. -/
theorem tret_outside (hout : inTrapFrame t i.stream = false) : exec .tret s = .next (settle s i t {} (raise 0x022)) := by
  rw [exec_tret]
  refine (issue_trap plain h (c := 0x022) (v := none) ?_).trans rfl
  simp only [returnTrap, inTrapFrame_advanced, hout, Bool.not_false, raiseIf_true, raise, bind, Except.bind]

/-- The trap registers after TRET. -/
def leftTrap (t : Team) : TrapRegs := { t.trap with cause := t.trap.cause &&& ~~~(1#64 <<< 16), stream := none }

/-- TRET of the A-stream in the trap frame. -/
theorem tret_a (hin : inTrapFrame t i.stream = true) (ha : i.stream = .a)
    (hback : slideBackA (s.setTeam i.wid (atIssue i t)) i (atIssue i t) = .ok v) :
    exec .tret s = .next (doneWith s i { v with trap := leftTrap t, a := { v.a with pc := t.trap.pc } }) := by
  have htrap : v.trap = t.trap := (slideBackA_trap hback).trans (atIssue_trap i t)
  rw [exec_tret]
  refine issue_team plain h ?_
  have inside : inTrapFrame (atIssue i t) .a = true := by rw [← ha, inTrapFrame_advanced, hin]
  simp only [returnTrap, ha, inside, Bool.not_true, raiseIf_false, hback, atIssue_trap, State.setTeam_setTeam, bind, Except.bind]
  rw [show v.trap.pc = t.trap.pc from congrArg TrapRegs.pc htrap]
  rfl

/-- TRET of a fragment in the trap frame. -/
theorem tret_e {n : Nat} {f : Frag} {w : Window} (hin : inTrapFrame t i.stream = true) (he : i.stream = .e n)
    (hf : tabGet (atIssue i t).frags n = some f)
    (hback : slideBackE (s.setTeam i.wid (atIssue i t)) i (atIssue i t) f.win f.mask = .ok (v, w)) :
    exec .tret s = .next (doneWith s i
      { v with trap := leftTrap t, frags := tabMod v.frags n fun f => { f with pc := t.trap.pc, win := w } }) := by
  have htrap : v.trap = t.trap := (slideBackE_trap hback).trans (atIssue_trap i t)
  rw [exec_tret]
  refine issue_team plain h ?_
  have inside : inTrapFrame (atIssue i t) (.e n) = true := by rw [← he, inTrapFrame_advanced, hin]
  simp only [returnTrap, he, inside, hf, Bool.not_true, raiseIf_false, hback, atIssue_trap, State.setTeam_setTeam, bind, Except.bind]
  rw [show v.trap.pc = t.trap.pc from congrArg TrapRegs.pc htrap]
  simp only [Team.setPc, Team.modFrag, tabMod_tabMod]
  rfl

end TrapReturn

/-- TRET acts so. -/
theorem trapReturn_claim : Claims.TrapReturn := by
  intro s i t h u trap s1
  exact ⟨tret_outside h, fun v hin ha hback => tret_a h hin ha hback, fun n f v w hin he hf hback => tret_e h hin he hf hback⟩

/-- Settles O19: TRAP is its operand and one cause, and TRET a slide back that leaves the trap registers. -/
theorem trapReturn : Obligations.TrapReturn := ⟨trapInstruction, trapReturn_claim⟩

end Sys2Proof.Machine

/-! ## What writes of the Apex die and fault records leave alone -/

namespace Sys2Proof.Machine

/-- `r` is `s` but for memory, the L2 and its tables, L1 lines and fills, stashes and acquired-from tables, the watches' hits, the events that a
coalescer counts and the last faults: what a write of memory, a read through the caches, or a fault record may change. -/
structure Wrote (s r : State) : Prop where
  dev : r.dev = { s.dev with l2 := r.dev.l2, relRecords := r.dev.relRecords, tags := r.dev.tags, coalescers := r.dev.coalescers }
  fw : r.fw = { s.fw with watches := r.fw.watches }
  host : r.host = { s.host with lastFaults := r.host.lastFaults }
  eng : r.eng = s.eng
  fab : r.fab = s.fab
  clusters : r.clusters = s.clusters
  cores : ∀ c, r.core c = { s.core c with l1 := (r.core c).l1, fills := (r.core c).fills }
  teams : ∀ w, r.bareTeam w = s.bareTeam w

theorem Wrote.refl (s : State) : Wrote s s := ⟨rfl, rfl, rfl, rfl, rfl, rfl, fun _ => rfl, fun _ => rfl⟩

/-- One write after another. -/
theorem Wrote.trans {s r q : State} (h : Wrote s r) (k : Wrote r q) : Wrote s q where
  dev := k.dev.trans (by rw [h.dev])
  fw := k.fw.trans (by rw [h.fw])
  host := k.host.trans (by rw [h.host])
  eng := k.eng.trans h.eng
  fab := k.fab.trans h.fab
  clusters := k.clusters.trans h.clusters
  cores c := (k.cores c).trans (by rw [h.cores c])
  teams w := (k.teams w).trans (h.teams w)

section Leaves
variable {s r : State} (h : Wrote s r)
include h

theorem Wrote.leaves : r.dev.leaves = s.dev.leaves := by rw [h.dev]
theorem Wrote.nodes : r.dev.nodes = s.dev.nodes := by rw [h.dev]
theorem Wrote.descents : r.dev.descents = s.dev.descents := by rw [h.dev]
theorem Wrote.scripts : r.dev.scripts = s.dev.scripts := by rw [h.dev]
theorem Wrote.pushSeq : r.dev.pushSeq = s.dev.pushSeq := by rw [h.dev]
theorem Wrote.packets : r.fw.packets = s.fw.packets := by rw [h.fw]
theorem Wrote.packetSeq : r.fw.packetSeq = s.fw.packetSeq := by rw [h.fw]
theorem Wrote.round : r.fw.round = s.fw.round := by rw [h.fw]
theorem Wrote.queues : r.fw.queues = s.fw.queues := by rw [h.fw]
theorem Wrote.bring : r.host.bring = s.host.bring := by rw [h.host]
theorem Wrote.fatal : r.host.fatal = s.host.fatal := by rw [h.host]

theorem Wrote.leaf (id : Nat) : r.leaf id = s.leaf id := by rw [State.leaf, h.leaves, State.leaf]
theorem Wrote.region (n : Nat) : r.region n = s.region n := by rw [State.region, h.nodes, State.region]

end Leaves

/-- A change of none but the device's caches and tables of physical memory. -/
theorem Wrote.of_dev {s r : State} (dev : r.dev = { s.dev with
      l2 := r.dev.l2, relRecords := r.dev.relRecords, tags := r.dev.tags, coalescers := r.dev.coalescers })
    (fw : r.fw = s.fw) (host : r.host = s.host) (eng : r.eng = s.eng) (fab : r.fab = s.fab) (clusters : r.clusters = s.clusters)
    (cores : r.cores = s.cores) (teams : r.teams = s.teams) : Wrote s r where
  dev := dev
  fw := by rw [fw]
  host := by rw [host]
  eng := eng
  fab := fab
  clusters := clusters
  cores c := by rw [State.core, cores, State.core]
  teams := State.bareTeam_of_teams teams

theorem wrote_l2Touch (s : State) (node : Option Nat) (pa : Nat) (attr : PageAttr) (cls : BitVec 2) :
    Wrote s (l2Touch s node pa attr cls) := by
  unfold l2Touch
  split
  · generalize l2Place _ _ _ _ = x
    exact .of_dev rfl rfl rfl rfl rfl rfl rfl rfl
  · exact .refl s

theorem wrote_invalidateOthers (s : State) (keep : Option Nat) (line : Nat) : Wrote s (invalidateOthers s keep line) := by
  refine ⟨rfl, rfl, rfl, rfl, rfl, rfl, fun c => ?_, fun _ => rfl⟩
  obtain ⟨l1, fills, core⟩ := invalidateOthers_core s keep line c
  rw [core]

theorem wrote_recallStash (s : State) (keep : Option Nat) (line : Nat) (write : Bool) : Wrote s (recallStash s keep line write) := by
  suffices h : ∃ ts, recallStash s keep line write = { s with teams := ts } by
    obtain ⟨ts, hts⟩ := h
    have teams := recallStash_bareTeam s keep line write
    rw [hts] at teams ⊢
    exact ⟨rfl, rfl, rfl, rfl, rfl, rfl, fun _ => rfl, teams⟩
  unfold recallStash
  split <;> exact ⟨_, rfl⟩

theorem wrote_writeTag (s : State) (pa n : Nat) (k : TagWrite) : Wrote s (writeTag s pa n k) := by
  unfold writeTag
  split
  · exact .of_dev rfl rfl rfl rfl rfl rfl rfl rfl
  · exact .refl s

theorem wrote_testWatches (s : State) (pa n : Nat) : Wrote s (testWatches s pa n) := by
  unfold testWatches
  split
  · exact ⟨rfl, rfl, rfl, rfl, rfl, rfl, fun _ => rfl, fun _ => rfl⟩
  · exact .refl s

theorem wrote_physWrite (s : State) (acc : Accessor) (pa : Nat) (bs : List Byte) (attr : PageAttr) (cls : BitVec 2) (k : TagWrite) :
    Wrote s (physWrite s acc pa bs attr cls k) := by
  have recalled := ((wrote_l2Touch s acc.node pa attr cls).trans (wrote_invalidateOthers _ acc.core (pa / 128))).trans
    (wrote_recallStash _ acc.wid (pa / 128) true)
  have dropped (r : State) : Wrote r (dropRelease r pa) := .of_dev rfl rfl rfl rfl rfl rfl rfl rfl
  have written (r : State) (m : List Host.Cell) : Wrote r { r with mem := m } := .of_dev rfl rfl rfl rfl rfl rfl rfl rfl
  exact (((recalled.trans (dropped _)).trans (wrote_writeTag _ pa bs.length k)).trans (written _ _)).trans (wrote_testWatches ..)

theorem wrote_apexWrite (s : State) (pa : Nat) (bs : List Byte) : Wrote s (apexWrite s pa bs) := wrote_physWrite ..

theorem apexWrite_mem (s : State) (pa : Nat) (bs : List Byte) : (apexWrite s pa bs).mem = memWrite s.mem pa bs := physWrite_mem ..

theorem wrote_countEvent (s : State) (dom : Nat) : Wrote s (countEvent s dom) := .of_dev rfl rfl rfl rfl rfl rfl rfl rfl

theorem wrote_writeFaultSlot (s : State) (dom : Nat) (bs : List Byte) : Wrote s (writeFaultSlot s dom bs) := by
  have logged (faults : List (List Byte)) : Wrote s { s with host := { s.host with lastFaults := faults } } :=
    ⟨rfl, rfl, rfl, rfl, rfl, rfl, fun _ => rfl, fun _ => rfl⟩
  unfold writeFaultSlot
  refine ((logged ((s.host.lastFaults ++ [bs]).drop (s.host.lastFaults.length - 255))).trans ?_).trans (wrote_countEvent ..)
  dsimp only
  split
  · exact wrote_apexWrite ..
  · exact (wrote_apexWrite ..).trans (wrote_apexWrite ..)

theorem wrote_faultRecord (s : State) (node : Option Nat) (cause source core teamId : Nat) (bodies : List (List RecField)) :
    Wrote s (faultRecord s node cause source core teamId bodies) :=
  List.foldlRecOn (motive := fun r => Wrote s r) _ _ (.refl s) fun _ hr _ _ => hr.trans (wrote_writeFaultSlot ..)

/-- A read of the Apex die through the L2 alone. -/
theorem wrote_apexRead (s : State) (pa : Nat) (attr : PageAttr) (cls : BitVec 2) : Wrote s (physTouchRead s apexAccess pa attr cls false) := by
  have touched := (wrote_l2Touch s apexAccess.node pa attr cls).trans (wrote_recallStash _ apexAccess.wid (pa / 128) false)
  unfold physTouchRead
  exact touched

theorem wrote_fwTouch (s : State) (ctx : Option Nat) (va n : Nat) : Wrote s (fwTouch s ctx va n) :=
  List.foldlRecOn (motive := fun r => Wrote s r) _ _ (.refl s) fun _ hr _ _ => hr.trans (wrote_apexRead ..)

end Sys2Proof.Machine

/-! ## Causes and sources of the A-stream's instructions -/

namespace Sys2Proof.Machine

/-- The default trap value of an instruction of the majors 0x60 to 0x78 is the value of its first source. -/
theorem valueOfA_source {x : Instr} {i : Issue} {t : Team} {core : Nat} {a : BitVec 7} {v : DWord} (ha : i.stream = .a)
    (hmajor : (decide (0x60 ≤ majorOf x) && decide (majorOf x ≤ 0x78)) = true) (hfield : (sourceFields x).head? = some a)
    (hv : sourceA i (atIssue i t) core a = .ok v) : valueOfA i t core x = v := by
  obtain ⟨fs, hfs⟩ := List.head?_eq_some_iff.1 hfield
  have other : (majorOf x == 0x79 || (decide (0x20 ≤ majorOf x) && decide (majorOf x ≤ 0x2B))) = false := by
    simp only [Bool.and_eq_true, decide_eq_true_iff] at hmajor
    simp only [Bool.or_eq_false_iff, beq_eq_false_iff_ne, Bool.and_eq_false_iff, decide_eq_false_iff_not]
    omega
  rw [sourceA_atIssue ha] at hv
  simp only [valueOfA, other, hfs, Issue.estr_of_a ha, hv, Bool.false_eq_true, if_false]

/-- Such an instruction whose effect raises a cause without a trap value of its own. -/
theorem issue_raises_source {x : Instr} {s : State} {i : Issue} {t : Team} (may : Issue → Team → PendCause → Bool)
    {body : Issue → Team → State → Act State} {a : BitVec 7} {v : DWord} {c : Nat} (h : Issuing x s i t) (ha : i.stream = .a)
    (hmajor : (decide (0x60 ≤ majorOf x) && decide (majorOf x ≤ 0x78)) = true) (hfield : (sourceFields x).head? = some a)
    (hv : sourceA i (atIssue i t) (coreWord s i.core) a = .ok v)
    (hb : body i (atIssue i t) (s.setTeam i.wid (atIssue i t)) = raise c) :
    issue x may s body = .next (settle s i t { value := v } (raise c)) := by
  rw [issue_trap may h hb, valueOfA_source ha hmajor hfield hv]
  rfl

end Sys2Proof.Machine

/-! ## Micro-tasks -/

namespace Sys2Proof.Machine

theorem exec_taskadd (d : BitVec 6) (a : BitVec 7) (s : State) : exec (.taskadd d a) s = execTaskadd d a s := rfl
theorem exec_taskget (d : BitVec 6) (s : State) : exec (.taskget d) s = execTaskget d s := rfl
theorem exec_taskgetPoll (d : BitVec 6) (s : State) : exec (.taskgetPoll d) s = execTaskgetPoll d s := rfl
theorem exec_taskend (s : State) : exec .taskend s = execTaskend s := rfl
theorem exec_tasksteal (d : BitVec 6) (a : BitVec 7) (s : State) : exec (.tasksteal d a) s = execTasksteal d a s := rfl

/-! ### The four registers of a record (R362) -/

/-- The words of a register, low half first. -/
theorem halves_append (x y : Word) : (x ++ y : DWord).extractLsb' 0 32 = y ∧ (x ++ y : DWord).extractLsb' 32 32 = x := by
  constructor
  · rw [extract_low x y 0 32 (by decide), BitVec.extractLsb'_eq_self]
  · rw [extract_high x y 32 32 (by decide), Nat.sub_self, BitVec.extractLsb'_eq_self]

/-- A record of eight words, in pairs. -/
theorem wordPairs_eq : ∀ ws : List Word, ws.length = 8 → ((List.range 4).flatMap fun k => [ws.getD (2 * k) 0, ws.getD (2 * k + 1) 0]) = ws
  | [_, _, _, _, _, _, _, _], _ => rfl

/-- Reading registers one by one, whose values are known. -/
theorem mapM_readS {u : Team} {d : Nat} (value : Nat → DWord) : ∀ ks : List Nat, (∀ k ∈ ks, readS u (d + k) = .ok (value k)) →
    (ks.mapM fun k => readS u (d + k)) = .ok (ks.map value)
  | [], _ => rfl
  | k :: ks, h => by
    rw [List.mapM_cons, h k List.mem_cons_self, mapM_readS value ks fun j hj => h j (List.mem_cons_of_mem k hj)]
    rfl

/-- The words of a record are those that its registers hold. -/
theorem recordIn_eq {u : Team} {d : BitVec 6} {p : Nat → Nat} {ws : List Word} (h : Claims.recordAt u d p ws) :
    recordIn u d.toNat = .ok ws := by
  obtain ⟨places, length, values⟩ := h
  have read : ∀ k ∈ List.range 4, readS u (d.toNat + k) = .ok (ws.getD (2 * k + 1) 0 ++ ws.getD (2 * k) 0) := fun k hk => by
    have hk := List.mem_range.1 hk
    rw [readS_eq (places k hk), values k hk]
  rw [recordIn, mapM_readS _ _ read]
  simp only [bind, Except.bind, List.flatMap_map, halves_append, wordPairs_eq ws length]

/-- Writing registers one by one, whose places are known. -/
theorem foldlM_writeS {d : Nat} {p : Nat → Nat} (value : Nat → DWord) : ∀ (ks : List Nat) (u : Team),
    (∀ k ∈ ks, u.a.win.reg 256 (d + k) = .ok (p k)) →
    ks.foldlM (fun t k => writeS t (d + k) (value k)) u = .ok (ks.foldl (fun u k => Claims.setS u (p k) (value k)) u)
  | [], _, _ => rfl
  | k :: ks, u, h => by
    rw [List.foldlM_cons, writeS_eq _ (h k List.mem_cons_self)]
    exact foldlM_writeS value ks _ fun j hj => h j (List.mem_cons_of_mem k hj)

/-- A record is written to the registers at their places. -/
theorem recordOut_eq {u : Team} {d : BitVec 6} {p : Nat → Nat} (ws : List Word) (h : ∀ k, k < 4 → u.a.win.reg 256 (d.toNat + k) = .ok (p k)) :
    recordOut u d.toNat ws = .ok (Claims.setRecord u p ws) :=
  foldlM_writeS (fun k => ws.getD (2 * k + 1) 0 ++ ws.getD (2 * k) 0) (List.range 4) u fun k hk => h k (List.mem_range.1 hk)

/-- A write of a record changes scalar registers alone. -/
theorem setRecord_eq (u : Team) (p : Nat → Nat) (ws : List Word) :
    ∃ regs, Claims.setRecord u p ws = { u with a := { u.a with s := regs } } :=
  List.foldlRecOn (motive := fun w : Team => ∃ regs, w = { u with a := { u.a with s := regs } }) _ _ ⟨u.a.s, rfl⟩ fun w hw k _ => by
    obtain ⟨regs, rfl⟩ := hw
    exact ⟨_, rfl⟩

theorem setRecord_acq (u : Team) (p : Nat → Nat) (ws : List Word) : (Claims.setRecord u p ws).acq = u.acq := by
  obtain ⟨regs, h⟩ := setRecord_eq u p ws
  rw [h]

/-! ### Who may use a task queue (R362) -/

/-- The tree of regions does not look at the teams. -/
theorem nodeAbove_setTeam (s : State) (w : Nat) (t : Team) (top : Nat) : ∀ fuel n, nodeAbove (s.setTeam w t) top fuel n = nodeAbove s top fuel n
  | 0, _ => rfl
  | fuel + 1, n => by
    simp only [nodeAbove, State.setTeam_region, nodeAbove_setTeam s w t top fuel]

theorem State.setTeam_leaf (s : State) (w : Nat) (t : Team) (id : Nat) : (s.setTeam w t).leaf id = s.leaf id := rfl

/-- A team may use a task queue as it could before it moved on. -/
theorem taskAllowed_atIssue (s : State) (i : Issue) (t : Team) (core : Nat) :
    taskAllowed (s.setTeam i.wid (atIssue i t)) (atIssue i t) core = taskAllowed s t core := by
  simp only [taskAllowed, State.setTeam_leaf, nodeAbove_setTeam, atIssue_info]

/-- The queues that a team may use. -/
theorem taskAllowed_iff (s : State) (t : Team) (core : Nat) : taskAllowed s t core = true ↔ Claims.mayUse s t core := by
  unfold taskAllowed Claims.mayUse
  cases (s.leaf (taskLeaf core)).parent <;> simp

/-- The check of R362 passes. -/
theorem raiseIf_allowed {s : State} {i : Issue} {t : Team} {core : Nat} (h : Claims.mayUse s t core) :
    raiseIf (!taskAllowed (s.setTeam i.wid (atIssue i t)) (atIssue i t) core) 0x117 = .ok () := by
  rw [taskAllowed_atIssue, (taskAllowed_iff s t core).2 h]
  rfl

/-- The check of R362 fails. -/
theorem raiseIf_not_allowed {s : State} {i : Issue} {t : Team} {core : Nat} (h : ¬Claims.mayUse s t core) :
    raiseIf (!taskAllowed (s.setTeam i.wid (atIssue i t)) (atIssue i t) core) 0x117 = raise 0x117 := by
  rw [taskAllowed_atIssue, Bool.eq_false_iff.2 fun hyes => h ((taskAllowed_iff s t core).1 hyes)]
  rfl

/-! ### TASKADD (R363) -/

section TaskAdd
variable {s : State} {i : Issue} {t : Team} {d : BitVec 6} {a : BitVec 7} {v : DWord} {ws : List Word} {p : Nat → Nat}
  (h : Issuing (.taskadd d a) s i t) (hv : sourceA i (atIssue i t) (coreWord s i.core) a = .ok v)
  (hws : Claims.recordAt (atIssue i t) d p ws)

/-- The core whose queue TASKADD names. -/
def addedCore (i : Issue) (v : DWord) : Nat := if v.toNat < 256 then i.core else v.toNat % 256

/-- The reserved bits of a record's first word, and RESP, are 0. -/
def recordFits (w : Word) : Prop := w.extractLsb' 18 14 = 0 ∧ w.extractLsb' 12 4 = 0 ∧ w.getLsbD 16 = false

/-- The check of a record's first word. -/
theorem recordFits_iff (ws : List Word) : recordFits (ws.getD 0 0) ↔
    (bitsOf (ws.getD 0 0).toNat 31 18 != 0 || bitsOf (ws.getD 0 0).toNat 15 12 != 0 || recordResp ws) = false := by
  have high : bitsOf (ws.getD 0 0).toNat 31 18 = _ := bitsOf_toNat (ws.getD 0 0) (n := 14) rfl
  have low : bitsOf (ws.getD 0 0).toNat 15 12 = _ := bitsOf_toNat (ws.getD 0 0) (n := 4) rfl
  have zero {n : Nat} (x : BitVec n) : x.toNat = 0 ↔ x = 0 := by rw [← BitVec.toNat_inj]; rfl
  simp only [recordFits, recordResp, bit, high, low, Bool.or_eq_false_iff, bne_eq_false_iff_eq, zero, and_assoc]

/-- The effect of TASKADD once the record and the queue are known. -/
def addTask (s : State) (core : Nat) (ws : List Word) : Act State := (pushTask s core ws).elim (waitOn (.other (taskLeaf core))) .ok

include hv hws

/-- The effect of TASKADD: three checks, and the push. -/
theorem taskadd_body : ∃ body, exec (.taskadd d a) s = issue (.taskadd d a) plain s body ∧
    body i (atIssue i t) (s.setTeam i.wid (atIssue i t)) = (do
      raiseIf (decide (512 ≤ v.toNat)) 0x114
      raiseIf (!taskAllowed (s.setTeam i.wid (atIssue i t)) (atIssue i t) (addedCore i v)) 0x117
      raiseIf (bitsOf (ws.getD 0 0).toNat 31 18 != 0 || bitsOf (ws.getD 0 0).toNat 15 12 != 0 || recordResp ws) 0x115
      addTask (advanceGen (s.setTeam i.wid (atIssue i t)) i.wid) (addedCore i v) ws) := by
  rw [exec_taskadd]
  refine ⟨_, rfl, ?_⟩
  simp only [coreWord_setTeam, hv, recordIn_eq hws, addTask, addedCore, bind, Except.bind]
  generalize pushTask _ _ _ = pushed
  cases pushed <;> rfl

include h

/-- TASKADD of a core number of 512 or more. -/
theorem taskadd_far (ha : i.stream = .a) (hfar : 512 ≤ v.toNat) :
    exec (.taskadd d a) s = .next (settle s i t { value := v } (raise 0x114)) := by
  obtain ⟨body, hexec, hbody⟩ := taskadd_body hv hws
  refine hexec.trans (issue_raises_source plain h ha rfl rfl hv (hbody.trans ?_))
  rw [decide_eq_true hfar, raiseIf_true]
  rfl

variable (hnear : v.toNat < 512)
include hnear

/-- TASKADD to a queue that the team may not use. -/
theorem taskadd_not_allowed (ha : i.stream = .a) (hno : ¬Claims.mayUse s t (addedCore i v)) :
    exec (.taskadd d a) s = .next (settle s i t { value := v } (raise 0x117)) := by
  obtain ⟨body, hexec, hbody⟩ := taskadd_body hv hws
  refine hexec.trans (issue_raises_source plain h ha rfl rfl hv (hbody.trans ?_))
  rw [decide_eq_false (Nat.not_le.2 hnear), raiseIf_false, raiseIf_not_allowed hno]
  rfl

variable (hyes : Claims.mayUse s t (addedCore i v))
include hyes

/-- TASKADD of a record out of order. -/
theorem taskadd_unfit (ha : i.stream = .a) (hunfit : ¬recordFits (ws.getD 0 0)) :
    exec (.taskadd d a) s = .next (settle s i t { value := v } (raise 0x115)) := by
  obtain ⟨body, hexec, hbody⟩ := taskadd_body hv hws
  refine hexec.trans (issue_raises_source plain h ha rfl rfl hv (hbody.trans ?_))
  rw [decide_eq_false (Nat.not_le.2 hnear), raiseIf_false, raiseIf_allowed hyes,
    (Bool.not_eq_false _).mp fun hfit => hunfit ((recordFits_iff ws).2 hfit), raiseIf_true]
  rfl

variable (hfits : recordFits (ws.getD 0 0))
include hfits

omit h in
/-- The checks of TASKADD pass. -/
theorem taskadd_pushes : ∃ body, exec (.taskadd d a) s = issue (.taskadd d a) plain s body ∧
    body i (atIssue i t) (s.setTeam i.wid (atIssue i t)) =
      addTask (advanceGen (s.setTeam i.wid (atIssue i t)) i.wid) (addedCore i v) ws := by
  obtain ⟨body, hexec, hbody⟩ := taskadd_body hv hws
  refine ⟨body, hexec, hbody.trans ?_⟩
  rw [decide_eq_false (Nat.not_le.2 hnear), raiseIf_false, raiseIf_allowed hyes, (recordFits_iff ws).1 hfits, raiseIf_false]
  simp only [bind, Except.bind]

end TaskAdd

/-- TASKADD acts so. -/
theorem taskAdd : Claims.TaskAdd := by
  intro s i t d a v ws p h ha u hv hws stops core w inOrder
  refine ⟨taskadd_far h hv hws ha, fun hn hno => taskadd_not_allowed h hv hws hn ha hno,
    fun hn hyes hunfit => taskadd_unfit h hv hws hn hyes ha hunfit, fun hn hyes hfit => ?_⟩
  obtain ⟨body, hexec, hbody⟩ := taskadd_pushes hv hws hn hyes hfit
  refine ⟨fun hfull => ?_, fun s' hroom => ?_⟩
  · exact hexec.trans (issue_wait plain h (hbody.trans (congrArg (Option.elim · (waitOn (.other (taskLeaf core))) .ok) hfull)))
  · exact hexec.trans (issue_next plain h (hbody.trans (congrArg (Option.elim · (waitOn (.other (taskLeaf core))) .ok) hroom)))

/-! ### TASKGET and TASKGET.POLL (R362, R364) -/

/-- A filter that drops a key does not see a write for it. -/
theorem filter_tabSet {α : Type} {n : Nat} {x : α} {keep : Nat × α → Bool} (h : ∀ y, keep (n, y) = false) :
    ∀ t : Tab α, (tabSet t n x).filter keep = t.filter keep
  | [] => by simp [tabSet, h]
  | (k, y) :: t => by
    unfold tabSet
    split
    · next hk => simp [← hk, hk ▸ h y, hk ▸ h x]
    · split
      · rw [List.filter_cons, if_neg (by simp [h])]
      · rw [List.filter_cons, List.filter_cons, filter_tabSet h t]

/-- The teams that wait before this one do not count it. -/
theorem taskWaiters_setTeam (s : State) (w : Nat) (t : Team) (core : Nat) : taskWaiters (s.setTeam w t) core w = taskWaiters s core w := by
  unfold taskWaiters
  rw [show (s.setTeam w t).teams = tabSet s.teams w t from rfl, filter_tabSet fun y => by simp]

/-- The head of a task queue does not depend on the teams. -/
theorem taskHead_setTeam (s : State) (w : Nat) (t : Team) (core : Nat) : taskHead (s.setTeam w t) core = taskHead s core := rfl

/-- A team of `u` that has taken the record `ws` from the queue under `node`. -/
def tookTask (u : Team) (p : Nat → Nat) (ws : List Word) (node : Nat) : Team :=
  { Claims.setRecord u p ws with task := some (heldOf ws node), acq := [] }

/-- The state in which the team in the issuing slot has taken the item `x`, a record of `ws`. -/
def taskTaken (s : State) (i : Issue) (u : Team) (p : Nat → Nat) (x : LeafItem) (ws : List Word) : State :=
  noteHead ((takeItem s (taskLeaf i.core) x).setTeam i.wid (tookTask u p ws ((s.leaf (taskLeaf i.core)).parent.getD 0))) i.core

/-- A team takes a record. -/
theorem takeTask_eq (s : State) (i : Issue) {u : Team} {d : BitVec 6} {p : Nat → Nat} (x : LeafItem) (ws : List Word)
    (hp : ∀ k, k < 4 → u.a.win.reg 256 (d.toNat + k) = .ok (p k)) : takeTask s i u d.toNat x ws = .ok (taskTaken s i u p x ws) := by
  simp only [takeTask, recordOut_eq ws hp, bind, Except.bind]
  rfl

section TaskGet
variable {s : State} {i : Issue} {t : Team} {d : BitVec 6} {old : List Word} {p : Nat → Nat} (hold : Claims.recordAt (atIssue i t) d p old)
include hold

/-- TASKGET of a team that holds a task. -/
theorem taskget_held (h : Issuing (.taskget d) s i t) (htask : t.task ≠ none) :
    exec (.taskget d) s = .next (settle s i t {} (raise 0x116)) := by
  rw [exec_taskget]
  refine issue_trap plain h (c := 0x116) (v := none) ?_
  have held : (atIssue i t).task.isSome = true := by rw [atIssue, Team.advance_task, Option.isSome_iff_ne_none.2 htask]
  simp only [recordIn_eq hold, held, raiseIf_true, raise, bind, Except.bind]

/-- TASKGET.POLL of a team that holds a task. -/
theorem taskgetPoll_held (h : Issuing (.taskgetPoll d) s i t) (htask : t.task ≠ none) :
    exec (.taskgetPoll d) s = .next (settle s i t {} (raise 0x116)) := by
  rw [exec_taskgetPoll]
  refine issue_trap plain h (c := 0x116) (v := none) ?_
  have held : (atIssue i t).task.isSome = true := by rw [atIssue, Team.advance_task, Option.isSome_iff_ne_none.2 htask]
  simp only [recordIn_eq hold, held, raiseIf_true, raise, bind, Except.bind]

variable (htask : t.task = none)
include htask

omit hold in
theorem raiseIf_free : raiseIf (atIssue i t).task.isSome 0x116 = .ok () := by rw [atIssue, Team.advance_task, htask]; rfl

/-- TASKGET of a team that may not use the queue. -/
theorem taskget_not_allowed (h : Issuing (.taskget d) s i t) (hno : ¬Claims.mayUse s t i.core) :
    exec (.taskget d) s = .next (settle s i t {} (raise 0x117)) := by
  rw [exec_taskget]
  refine issue_trap plain h (c := 0x117) (v := none) ?_
  simp only [recordIn_eq hold, raiseIf_free htask, raiseIf_not_allowed hno, raise, bind, Except.bind]

variable (hyes : Claims.mayUse s t i.core)
include hyes

/-- TASKGET of an empty queue. -/
theorem taskget_waits (h : Issuing (.taskget d) s i t) (hempty : taskHead s i.core = none) :
    exec (.taskget d) s = .next (noteWait s i .task []) := by
  rw [exec_taskget]
  refine issue_wait plain h ?_
  simp only [recordIn_eq hold, raiseIf_free htask, raiseIf_allowed hyes, taskHead_setTeam, hempty, waitOn, bind, Except.bind]

/-- TASKGET of a queue with a record, for which no other team waits. -/
theorem taskget_takes {x : LeafItem} {ws : List Word} (h : Issuing (.taskget d) s i t) (hhead : taskHead s i.core = some (x, ws))
    (halone : taskWaiters s i.core i.wid = []) :
    exec (.taskget d) s = .next (doneAs (taskTaken (s.setTeam i.wid (atIssue i t)) i (atIssue i t) p x ws) i) := by
  rw [exec_taskget]
  refine issue_next plain h ?_
  simp only [recordIn_eq hold, raiseIf_free htask, raiseIf_allowed hyes, taskHead_setTeam, hhead, taskWaiters_setTeam, halone,
    List.any_nil, waitWhile_false, takeTask_eq _ i x ws hold.1, bind, Except.bind]

/-- TASKGET.POLL of an empty queue, or of one for which another team waits. -/
theorem taskgetPoll_none (h : Issuing (.taskgetPoll d) s i t) (hnone : taskHead s i.core = none ∨ taskWaiters s i.core i.wid ≠ []) :
    exec (.taskgetPoll d) s = .next (doneWith s i (Claims.setRecord (atIssue i t) p noRecord)) := by
  rw [exec_taskgetPoll]
  refine issue_team plain h ?_
  simp only [recordIn_eq hold, raiseIf_free htask, raiseIf_allowed hyes, taskHead_setTeam, taskWaiters_setTeam, bind, Except.bind]
  cases hhead : taskHead s i.core with
  | none => simp only [recordOut_eq noRecord hold.1, State.setTeam_setTeam]
  | some x =>
    cases hw : taskWaiters s i.core i.wid with
    | nil => simp [hhead, hw] at hnone
    | cons w ws => simp only [recordOut_eq noRecord hold.1, State.setTeam_setTeam]

/-- TASKGET.POLL of a queue with a record, for which no other team waits. -/
theorem taskgetPoll_takes {x : LeafItem} {ws : List Word} (h : Issuing (.taskgetPoll d) s i t)
    (hhead : taskHead s i.core = some (x, ws)) (halone : taskWaiters s i.core i.wid = []) :
    exec (.taskgetPoll d) s = .next (doneAs (taskTaken (s.setTeam i.wid (atIssue i t)) i (atIssue i t) p x ws) i) := by
  rw [exec_taskgetPoll]
  refine issue_next plain h ?_
  simp only [recordIn_eq hold, raiseIf_free htask, raiseIf_allowed hyes, taskHead_setTeam, hhead, taskWaiters_setTeam, halone,
    takeTask_eq _ i x ws hold.1, bind, Except.bind]

end TaskGet

/-- TASKGET and TASKGET.POLL act so. -/
theorem taskGet : Claims.TaskGet := by
  intro s i t d p old ha u hold leaf takes
  refine ⟨fun htask => ⟨fun h => taskget_held hold h htask, fun h => taskgetPoll_held hold h htask⟩,
    fun htask hno h => taskget_not_allowed hold htask h hno, fun htask hyes => ⟨fun h => ?_, fun h => ?_⟩⟩
  · exact ⟨taskget_waits hold htask hyes h, fun x ws => taskget_takes hold htask hyes h⟩
  · exact ⟨taskgetPoll_none hold htask hyes h, fun x ws => taskgetPoll_takes hold htask hyes h⟩

/-! ### TASKEND and TASKSTEAL (R365, R367) -/

/-- TASKEND of a team that holds no task. -/
theorem taskend_none {s : State} {i : Issue} {t : Team} (h : Issuing .taskend s i t) (htask : t.task = none) :
    exec .taskend s = .next (settle s i t {} (raise 0x116)) := by
  rw [exec_taskend]
  refine issue_trap plain h (c := 0x116) (v := none) ?_
  have free : (atIssue i t).task.isNone = true := by rw [atIssue, Team.advance_task, htask]; rfl
  simp only [free, raiseIf_true, raise, bind, Except.bind]

/-- TASKEND of a team that holds a task. -/
theorem taskend_ends {s : State} {i : Issue} {t : Team} {g : HeldTask} (h : Issuing .taskend s i t) (htask : t.task = some g) :
    exec .taskend s = .next (doneAs (g.resp.elim (s.setTeam i.wid { atIssue i t with task := none })
      fun stamp => endResponder (s.setTeam i.wid { atIssue i t with task := none }) (i.wid / 16) stamp g.given false) i) := by
  rw [exec_taskend]
  refine issue_next plain h ?_
  have held : (atIssue i t).task = some g := by rw [atIssue, Team.advance_task, htask]
  simp only [held, Option.isNone_some, raiseIf_false, endHeld, State.setTeam_team?_same, State.setTeam_setTeam, bind, Except.bind]
  cases g.resp <;> rfl

section Steal
variable {s : State} {i : Issue} {t : Team} {d : BitVec 6} {a : BitVec 7} {v : DWord} {p : Nat → Nat} {old : List Word}
  (h : Issuing (.tasksteal d a) s i t) (hv : sourceA i (atIssue i t) (coreWord s i.core) a = .ok v)
  (hold : Claims.recordAt (atIssue i t) d p old)
include h hv hold

/-- TASKSTEAL with its answer. -/
theorem tasksteal_answered {r : Option (List Word)} (hr : t.stolen = some r) : exec (.tasksteal d a) s = .next (doneWith s i
    { Claims.setRecord (atIssue i t) p (r.getD noRecord) with stolen := none, acq := if r.isSome then [] else (atIssue i t).acq }) := by
  rw [exec_tasksteal]
  refine issue_team plain h ?_
  have stolen : (atIssue i t).stolen = some r := by rw [atIssue, Team.advance_stolen, hr]
  simp only [coreWord_setTeam, hv, recordIn_eq hold, stolen, recordOut_eq _ hold.1, State.setTeam_setTeam, setRecord_acq, bind, Except.bind]

variable (hr : t.stolen = none)
include hr

omit h in
/-- The effect of TASKSTEAL without an answer: three checks, and a wait. -/
theorem tasksteal_body : ∃ body, exec (.tasksteal d a) s = issue (.tasksteal d a) plain s body ∧
    body i (atIssue i t) (s.setTeam i.wid (atIssue i t)) = (do
      raiseIf t.task.isSome 0x116
      raiseIf (decide (256 ≤ v.toNat) || v.toNat == i.core || clusterOf v.toNat != clusterOf i.core) 0x11A
      raiseIf (!taskAllowed (s.setTeam i.wid (atIssue i t)) (atIssue i t) v.toNat) 0x117
      waitOn (.steal v.toNat)) := by
  rw [exec_tasksteal]
  refine ⟨_, rfl, ?_⟩
  have stolen : (atIssue i t).stolen = none := by rw [atIssue, Team.advance_stolen, hr]
  have task : (atIssue i t).task = t.task := by rw [atIssue, Team.advance_task]
  simp only [coreWord_setTeam, hv, recordIn_eq hold, stolen, task, bind, Except.bind]

/-- TASKSTEAL of a team that holds a task. -/
theorem tasksteal_held (ha : i.stream = .a) (htask : t.task ≠ none) :
    exec (.tasksteal d a) s = .next (settle s i t { value := v } (raise 0x116)) := by
  obtain ⟨body, hexec, hbody⟩ := tasksteal_body hv hold hr
  refine hexec.trans (issue_raises_source plain h ha rfl rfl hv (hbody.trans ?_))
  rw [Option.isSome_iff_ne_none.2 htask, raiseIf_true]
  rfl

variable (htask : t.task = none)
include htask

/-- TASKSTEAL of a core that is no victim. -/
theorem tasksteal_no_victim (ha : i.stream = .a)
    (hno : (decide (256 ≤ v.toNat) || v.toNat == i.core || clusterOf v.toNat != clusterOf i.core) = true) :
    exec (.tasksteal d a) s = .next (settle s i t { value := v } (raise 0x11A)) := by
  obtain ⟨body, hexec, hbody⟩ := tasksteal_body hv hold hr
  refine hexec.trans (issue_raises_source plain h ha rfl rfl hv (hbody.trans ?_))
  rw [htask, Option.isSome_none, raiseIf_false, hno, raiseIf_true]
  rfl

variable (hvictim : (decide (256 ≤ v.toNat) || v.toNat == i.core || clusterOf v.toNat != clusterOf i.core) = false)
include hvictim

/-- TASKSTEAL of a victim whose queue the team may not use. -/
theorem tasksteal_not_allowed (ha : i.stream = .a) (hno : ¬Claims.mayUse s t v.toNat) :
    exec (.tasksteal d a) s = .next (settle s i t { value := v } (raise 0x117)) := by
  obtain ⟨body, hexec, hbody⟩ := tasksteal_body hv hold hr
  refine hexec.trans (issue_raises_source plain h ha rfl rfl hv (hbody.trans ?_))
  rw [htask, Option.isSome_none, raiseIf_false, hvictim, raiseIf_false, raiseIf_not_allowed hno]
  rfl

/-- TASKSTEAL asks the victim's engine and waits. -/
theorem tasksteal_waits (hyes : Claims.mayUse s t v.toNat) :
    exec (.tasksteal d a) s = .next (noteWait s i (.steal v.toNat) []) := by
  obtain ⟨body, hexec, hbody⟩ := tasksteal_body hv hold hr
  refine hexec.trans (issue_wait plain h (hbody.trans ?_))
  rw [htask, Option.isSome_none, raiseIf_false, hvictim, raiseIf_false, raiseIf_allowed hyes]
  rfl

end Steal

/-- TASKEND and TASKSTEAL act so. -/
theorem taskEnds : Claims.TaskEnds := by
  intro s i t ha u
  refine ⟨fun h => ⟨taskend_none h, fun g hg => ⟨fun hresp => ?_, fun stamp hresp => ?_⟩⟩, ?_⟩
  · rw [taskend_ends h hg, hresp, Option.elim_none, doneAs_setTeam]
  · rw [taskend_ends h hg, hresp, Option.elim_some]
  · intro d a v p old h hv hold stops
    refine ⟨fun ws hr => ?_, fun hr => ?_, fun hr => ?_⟩
    · rw [tasksteal_answered h hv hold hr, Option.isSome_some, if_pos rfl, Option.getD_some]
    · rw [tasksteal_answered h hv hold hr, Option.isSome_none, if_neg Bool.false_ne_true, ← setRecord_acq (atIssue i t) p noRecord]
      rfl
    · intro victim
      have test : (decide (256 ≤ v.toNat) || v.toNat == i.core || clusterOf v.toNat != clusterOf i.core) = true ↔ ¬victim := by
        simp only [victim, Bool.or_eq_true, decide_eq_true_eq, beq_iff_eq, bne_iff_ne]
        omega
      refine ⟨tasksteal_held h hv hold hr ha, fun htask hno => tasksteal_no_victim h hv hold hr htask ha (test.2 hno),
        fun htask hyes hno => ?_, fun htask hyes hmay => ?_⟩
      · exact tasksteal_not_allowed h hv hold hr htask (Bool.eq_false_iff.2 fun hx => test.1 hx hyes) ha hno
      · exact tasksteal_waits h hv hold hr htask (Bool.eq_false_iff.2 fun hx => test.1 hx hyes) hmay

/-! ### Numbers in memory -/

/-- A number written in `n` bytes is read back, cut to them. -/
theorem leNat_natLe : ∀ n x, leNat (natLe n x) = x % 256 ^ n
  | 0, x => by rw [Nat.pow_zero, Nat.mod_one]; rfl
  | n + 1, x => by
    rw [natLe, leNat, leNat_natLe n, BitVec.toNat_ofNat, show 256 ^ (n + 1) = 256 * 256 ^ n from Nat.pow_succ', Nat.mod_mul]

/-- A number that was just written. -/
theorem memNat_memWrite_same (m : List Host.Cell) (a : Nat) {n x : Nat} (h : x < 256 ^ n) : memNat (memWrite m a (natLe n x)) a n = x := by
  rw [memNat, memBytes_memWrite_of_length (natLe_length n x), leNat_natLe, Nat.mod_eq_of_lt h]

/-- A number beside a write. -/
theorem memNat_memWrite_outside (m : List Host.Cell) (a : Nat) {bs : List Byte} {c n : Nat} (h : c + n ≤ a ∨ a + bs.length ≤ c) :
    memNat (memWrite m a bs) c n = memNat m c n := by
  rw [memNat, memBytes_memWrite_outside bs m a n c h, memNat]

/-- The bytes of words. -/
def wordBytes (ws : List Word) : List Byte := ws.flatMap fun w => natLe 4 w.toNat

theorem wordBytes_length (ws : List Word) : (wordBytes ws).length = 4 * ws.length := by
  induction ws with
  | nil => rfl
  | cons w ws ih =>
    rw [wordBytes, List.flatMap_cons, List.length_append, natLe_length, ← wordBytes, ih, List.length_cons]
    omega

/-- Words that were written, whatever follows them, are read back. -/
theorem memNat_wordBytes (tail : List Byte) : ∀ (ws : List Word) (m : List Host.Cell) (a k : Nat), (hk : k < ws.length) →
    memNat (memWrite m a (wordBytes ws ++ tail)) (a + 4 * k) 4 = ws[k].toNat
  | w :: ws, m, a, k, hk => by
    have split : memWrite m a (wordBytes (w :: ws) ++ tail) = memWrite (memWrite m a (natLe 4 w.toNat)) (a + 4) (wordBytes ws ++ tail) := by
      rw [wordBytes, List.flatMap_cons, List.append_assoc, memWrite_append, natLe_length, ← wordBytes]
    rw [split]
    cases k with
    | zero =>
      rw [memNat_memWrite_outside _ _ (by omega), Nat.mul_zero, Nat.add_zero, memNat_memWrite_same _ _ w.isLt]
      rfl
    | succ k =>
      rw [show a + 4 * (k + 1) = a + 4 + 4 * k by omega, memNat_wordBytes tail ws _ _ k (Nat.lt_of_succ_lt_succ hk)]
      rfl

/-! ### A pushed record (R358, R359) -/

/-- What stands at the head of a queue is noted at the core alone. -/
theorem noteHead_dev (s : State) (core : Nat) : (noteHead s core).dev = s.dev := by
  unfold noteHead
  dsimp only
  split <;> rfl

/-- A record enters a leaf that has room. -/
theorem enterTask_leaf (s : State) (core : Nat) (ws : List Word) :
    ∃ x ∈ ((enterTask s core ws).leaf (taskLeaf core)).items, x.work = .task ws ∧ x.rank = (ws.getD 1 0).toNat := by
  unfold enterTask
  rw [State.leaf, noteHead_dev, ← State.leaf]
  simp only [reenterLeaf, State.setLeaf_leaf_same]
  exact ⟨_, mem_insertItem _ _, rfl, rfl⟩

/-- The bytes of a slot: the record, its state FULL, and the time. -/
def fullSlot (s : State) (ws : List Word) : List Byte := wordBytes ws ++ (natLe 8 1 ++ natLe 8 (s.dev.time % 2 ^ 64))

/-- The state in which a record has filled slot `k` of a core's ring, with the new TAIL and count. -/
def spilled (s : State) (core k tail count : Nat) (ws : List Word) : State :=
  setRingWord (setRingWord (apexWrite s (slotAddr s core k) (fullSlot s ws)) core 1 tail) core 2 count

/-- The ring stays in its place. -/
theorem Wrote.taskRing {s r : State} (h : Wrote s r) (core : Nat) : Machine.taskRing r core = Machine.taskRing s core := by
  rw [Machine.taskRing, h.bring, Machine.taskRing]

section Spilled
variable (s : State) (core k tail count : Nat) {ws : List Word} (hws : ws.length = 8)

theorem wrote_spilled (ws : List Word) : Wrote s (spilled s core k tail count ws) := by
  unfold spilled setRingWord
  exact ((wrote_apexWrite ..).trans (wrote_apexWrite ..)).trans (wrote_apexWrite ..)

/-- Memory after a spill: the slot, TAIL and the count. -/
theorem spilled_mem (ws : List Word) : (spilled s core k tail count ws).mem =
    memWrite (memWrite (memWrite s.mem (taskRing s core + 64 + 64 * k) (fullSlot s ws)) (taskRing s core + 4) (natLe 4 tail))
      (taskRing s core + 8) (natLe 4 count) := by
  have first : Wrote s (apexWrite s (slotAddr s core k) (fullSlot s ws)) := wrote_apexWrite ..
  have second := first.trans (wrote_apexWrite _ (taskRing s core + 4) (natLe 4 tail))
  simp only [spilled, setRingWord, first.taskRing, Nat.mul_one, second.taskRing, apexWrite_mem]
  rfl

theorem spilled_ring : taskRing (spilled s core k tail count ws) core = taskRing s core := (wrote_spilled ..).taskRing core

/-- The new TAIL is read back. -/
theorem spilled_tail (htail : tail < 2 ^ 32) : ringWord (spilled s core k tail count ws) core 1 = tail := by
  rw [ringWord, spilled_ring, spilled_mem, memNat_memWrite_outside _ _ (.inl (by omega)), Nat.mul_one, memNat_memWrite_same _ _ htail]

/-- The new count is read back. -/
theorem spilled_count (hcount : count < 2 ^ 32) : ringWord (spilled s core k tail count ws) core 2 = count := by
  rw [ringWord, spilled_ring, spilled_mem, memNat_memWrite_same _ _ hcount]

/-- TAIL and the count stand below the slots. -/
theorem spilled_slot_mem (ws : List Word) {c n : Nat} (hc : taskRing s core + 64 ≤ c) :
    memNat (spilled s core k tail count ws).mem c n = memNat (memWrite s.mem (taskRing s core + 64 + 64 * k) (fullSlot s ws)) c n := by
  rw [spilled_mem, memNat_memWrite_outside _ _ (.inr (by rw [natLe_length]; omega)),
    memNat_memWrite_outside _ _ (.inr (by rw [natLe_length]; omega))]

include hws

theorem fullSlot_length : (fullSlot s ws).length = 48 := by
  simp only [fullSlot, List.length_append, wordBytes_length, natLe_length, hws]

/-- The slot holds the record. -/
theorem spilled_slotWords : slotWords (spilled s core k tail count ws) core k = ws := by
  have words : slotWords (spilled s core k tail count ws) core k = (List.range 8).map fun j =>
      BitVec.ofNat 32 (memNat (spilled s core k tail count ws).mem (taskRing s core + 64 + 64 * k + 4 * j) 4) := by
    rw [slotWords, slotAddr, spilled_ring]
  rw [words]
  refine List.ext_getElem (by rw [List.length_map, List.length_range, hws]) fun j _ hj => ?_
  rw [List.getElem_map, List.getElem_range, spilled_slot_mem _ _ _ _ _ _ (by omega), fullSlot, memNat_wordBytes _ _ _ _ _ hj, BitVec.ofNat_toNat, BitVec.setWidth_eq]

/-- The slot is FULL. -/
theorem spilled_slotState : slotState (spilled s core k tail count ws) core k = 1 := by
  have bytes : fullSlot s ws = wordBytes ws ++ (natLe 1 1 ++ (natLe 7 0 ++ natLe 8 (s.dev.time % 2 ^ 64))) := rfl
  have at32 : 4 * ws.length = 32 := by rw [hws]
  rw [slotState, slotAddr, spilled_ring, spilled_slot_mem _ _ _ _ _ _ (by omega), bytes, memWrite_append, memWrite_append,
    wordBytes_length, at32, natLe_length, memNat_memWrite_outside _ _ (.inl (by omega)), memNat_memWrite_same _ _ (by decide)]

/-- No byte of memory changes but those of the slot, TAIL and the count. -/
theorem spilled_memGet {j : Nat} (hring : j < taskRing s core + 4 ∨ taskRing s core + 12 ≤ j)
    (hslot : j < slotAddr s core k ∨ slotAddr s core k + 48 ≤ j) : memGet (spilled s core k tail count ws).mem j = memGet s.mem j := by
  rw [spilled_mem, memGet_memWrite_outside _ _ _ _ (by rw [natLe_length]; omega),
    memGet_memWrite_outside _ _ _ _ (by rw [natLe_length]; omega),
    memGet_memWrite_outside _ _ _ _ (by rw [fullSlot_length s hws]; exact hslot)]

end Spilled

/-- What a pushed record does. -/
theorem taskPushed : Claims.TaskPushed := by
  intro s core ws hws hcore count tail direct
  have cap : leafCap (taskLeaf core) = 32 := by
    rw [leafCap, taskLeaf, leafId, if_pos (by omega)]
  refine ⟨fun hd => ?_, fun hd hfull => ?_, fun hd hroom => ?_⟩
  · obtain ⟨x, hx, hwork, hrank⟩ := enterTask_leaf s core ws
    refine ⟨enterTask s core ws, x, ?_, fun k => by rw [enterTask_mem], hx, hwork, hrank⟩
    rw [pushTask, cap]
    exact if_pos hd
  · rw [pushTask, cap]
    exact (if_neg hd).trans (if_pos hfull)
  · have bound : tail < 4096 := Nat.mod_lt _ (by decide)
    refine ⟨spilled s core tail ((tail + 1) % 4096) (count + 1) ws, ?_, (wrote_spilled ..).leaf _, spilled_slotWords s core _ _ _ hws,
      spilled_slotState s core _ _ _ hws, spilled_tail s core _ _ _ ?_, spilled_count s core _ _ _ ?_,
      fun k hring hslot => spilled_memGet s core _ _ _ hws hring hslot⟩
    · rw [pushTask, cap]
      refine (if_neg hd).trans ((if_neg (Nat.not_le.2 hroom)).trans ?_)
      simp only [List.append_assoc]
      rfl
    · omega
    · omega

/-- Settles O48: a pushed record enters the leaf or fills a slot of the ring, and each instruction is its checks and one move of a record. -/
theorem microTasks : Obligations.MicroTasks := ⟨taskPushed, taskAdd, taskGet, taskEnds⟩

end Sys2Proof.Machine

/-! ## Tile directories, solicits and the census -/

namespace Sys2Proof.Machine

theorem exec_solicitIns (d : BitVec 6) (a b : BitVec 7) (s : State) : exec (.solicitIns d a b) s = execSolicitIns d a b s := rfl
theorem exec_solicitDel (a : BitVec 7) (s : State) : exec (.solicitDel a) s = execSolicitDel a s := rfl
theorem exec_solicitReg (a b : BitVec 7) (s : State) : exec (.solicitReg a b) s = execSolicitReg a b s := rfl
theorem exec_solicitMove (d : BitVec 6) (a b : BitVec 7) (s : State) : exec (.solicitMove d a b) s = execSolicitMove d a b s := rfl
theorem exec_solicitCommit (d : BitVec 6) (a b : BitVec 7) (s : State) : exec (.solicitCommit d a b) s = execSolicitCommit d a b s := rfl
theorem exec_solicit (d : BitVec 6) (a b : BitVec 7) (o : BitVec 2) (s : State) : exec (.solicit d a b o) s = execSolicit d a b o s := rfl
theorem exec_respond (a : BitVec 7) (s : State) : exec (.respond a) s = execRespond a s := rfl
theorem exec_censusWait (d : BitVec 6) (a : BitVec 7) (s : State) : exec (.censusWait d a) s = execCensusWait d a s := rfl
theorem exec_censusPoll (d : BitVec 6) (a : BitVec 7) (s : State) : exec (.censusPoll d a) s = execCensusPoll d a s := rfl

/-- A release changes the generations, the release records and the wraps, and acquired-from tables. -/
theorem advanceGen_eq (s : State) (wid : Nat) : ∃ ts gens rel wraps, advanceGen s wid =
    { s with teams := ts, dev := { s.dev with gens := gens, relRecords := rel, scrubWraps := wraps } } := by
  unfold advanceGen
  dsimp only
  split <;> exact ⟨_, _, _, _, rfl⟩

@[simp] theorem advanceGen_fab (s : State) (wid : Nat) : (advanceGen s wid).fab = s.fab := by
  obtain ⟨ts, gens, rel, wraps, h⟩ := advanceGen_eq s wid
  rw [h]

/-- A core and a team are put in their places in either order. -/
theorem setCore_setTeam (s : State) (w : Nat) (t : Team) (c : Nat) (k : Core) :
    (s.setTeam w t).setCore c k = (s.setCore c k).setTeam w t := rfl

/-! ### SOLICIT.INS, DEL and REG (R296, R298) -/

section Directory
variable {s : State} {i : Issue} {t : Team} {d : BitVec 6} {a b : BitVec 7} {v w : DWord} {p : Nat}
  (hv : sourceA i (atIssue i t) (coreWord s i.core) a = .ok v)
include hv

section Insert
variable (h : Issuing (.solicitIns d a b) s i t) (hw : sourceA i (atIssue i t) (coreWord s i.core) b = .ok w)
  (hp : (atIssue i t).a.win.reg 256 d.toNat = .ok p)
include h hw hp

/-- INS into a full directory. -/
theorem solicitIns_full (ha : i.stream = .a) (hfull : tabFree (s.core i.core).dir 256 = none) :
    exec (.solicitIns d a b) s = .next (settle s i t { value := v } (raise 0x146)) := by
  rw [exec_solicitIns]
  refine issue_raises_source plain h ha rfl rfl hv ?_
  simp only [coreWord_setTeam, hv, hw, hp, State.setTeam_core, hfull, raise, bind, Except.bind]

/-- INS takes the lowest free entry. -/
theorem solicitIns_takes {n : Nat} (hfree : tabFree (s.core i.core).dir 256 = some n) :
    exec (.solicitIns d a b) s = .next (doneAs ((s.setCore i.core { s.core i.core with
      dir := tabSet (s.core i.core).dir n { key := v, handle := w, state := .live, node := t.info.node } }).setTeam i.wid
      (Claims.setS (atIssue i t) p (BitVec.ofNat 64 n))) i) := by
  rw [exec_solicitIns]
  refine issue_next plain h ?_
  have node : (Claims.setS (atIssue i t) p (BitVec.ofNat 64 n)).info.node = t.info.node := congrArg TeamInfo.node (atIssue_info i t)
  simp only [coreWord_setTeam, hv, hw, hp, State.setTeam_core, hfree, writeS_eq _ hp, node, State.setDir, setCore_setTeam,
    State.setTeam_setTeam, bind, Except.bind]

end Insert

/-- DEL frees a live entry. -/
theorem solicitDel_frees (h : Issuing (.solicitDel a) s i t) {e : DirEntry} (hlow : v.toNat < 256)
    (he : tabGet (s.core i.core).dir v.toNat = some e) (hlive : e.state = .live) :
    exec (.solicitDel a) s = .next (doneAs ((s.setTeam i.wid (atIssue i t)).setCore i.core
      { s.core i.core with dir := tabDel (s.core i.core).dir v.toNat }) i) := by
  rw [exec_solicitDel]
  refine issue_next plain h ?_
  simp only [coreWord_setTeam, hv, liveEntry, State.setTeam_core, Nat.mod_eq_of_lt hlow, he, if_pos (And.intro hlow hlive), State.setDir,
    bind, Except.bind]

/-- DEL of a free entry. -/
theorem solicitDel_free (ha : i.stream = .a) (h : Issuing (.solicitDel a) s i t) (he : tabGet (s.core i.core).dir (v.toNat % 256) = none) :
    exec (.solicitDel a) s = .next (settle s i t { value := v } (raise 0x147)) := by
  rw [exec_solicitDel]
  refine issue_raises_source plain h ha rfl rfl hv ?_
  simp only [coreWord_setTeam, hv, liveEntry, State.setTeam_core, he, raise, bind, Except.bind]

section Register
variable (h : Issuing (.solicitReg a b) s i t) (hw : sourceA i (atIssue i t) (coreWord s i.core) b = .ok w)
include h hw

/-- REG of a handler above 15. -/
theorem solicitReg_outside (ha : i.stream = .a) (hhigh : 15 < v.toNat) :
    exec (.solicitReg a b) s = .next (settle s i t { value := v } (raise 0x009)) := by
  rw [exec_solicitReg]
  refine issue_raises_source plain h ha rfl rfl hv ?_
  simp only [coreWord_setTeam, hv, hw, decide_eq_true hhigh, raiseIf_true, raise, bind, Except.bind]

/-- REG sets or clears a handler. -/
theorem solicitReg_sets (hlow : v.toNat ≤ 15) : exec (.solicitReg a b) s = .next (doneAs ((s.setTeam i.wid (atIssue i t)).setCore i.core
    { s.core i.core with
      handlers :=
        if w = 0 then tabDel (s.core i.core).handlers v.toNat
        else tabSet (s.core i.core).handlers v.toNat
          { word0 := w.extractLsb' 0 32, rank := (w.extractLsb' 32 32).toNat, node := t.info.node } }) i) := by
  rw [exec_solicitReg]
  refine issue_next plain h ?_
  simp only [coreWord_setTeam, hv, hw, decide_eq_false (Nat.not_lt.2 hlow), raiseIf_false, State.setTeam_core, atIssue_info, bind, Except.bind]

end Register

end Directory

/-- INS, DEL and REG act so. -/
theorem directory : Claims.Directory := by
  intro s i t d a b v w p ha u c hv hw hp stops
  refine ⟨fun h => ⟨fun hfull => ?_, fun n hn hfree hbelow => ?_⟩, fun h => ⟨fun e hlow he hlive => ?_, fun he => ?_⟩,
    fun h => ⟨fun hhigh => ?_, fun hlow => ?_⟩⟩
  · exact solicitIns_full hv h hw hp ha (tabFree_eq_none hfull)
  · exact solicitIns_takes hv h hw hp (tabFree_eq_some hn hfree hbelow)
  · exact solicitDel_frees hv h hlow he hlive
  · exact solicitDel_free hv ha h he
  · exact solicitReg_outside hv h hw ha hhigh
  · exact solicitReg_sets hv h hw hlow

/-! ### SOLICIT.MOVE and COMMIT (R297) -/

theorem atIssue_moveReply (i : Issue) (t : Team) : (atIssue i t).moveReply = t.moveReply := t.advance_moveReply _
theorem atIssue_moves (i : Issue) (t : Team) : (atIssue i t).moves = t.moves := t.advance_moves _
theorem atIssue_solicits (i : Issue) (t : Team) : (atIssue i t).solicits = t.solicits := t.advance_solicits _

section Move
variable {s : State} {i : Issue} {t : Team} {d : BitVec 6} {a b : BitVec 7} {v w : DWord} {p : Nat}
  (hv : sourceA i (atIssue i t) (coreWord s i.core) a = .ok v) (hw : sourceA i (atIssue i t) (coreWord s i.core) b = .ok w)
  (hp : (atIssue i t).a.win.reg 256 d.toNat = .ok p)
include hv hw hp

section SolicitMove
variable (h : Issuing (.solicitMove d a b) s i t)
include h

/-- MOVE to a core above 255. -/
theorem solicitMove_far (ha : i.stream = .a) (hnone : t.moveReply = none) (hfar : 256 ≤ w.toNat) :
    exec (.solicitMove d a b) s = .next (settle s i t { value := v } (raise 0x147)) := by
  rw [exec_solicitMove]
  refine issue_raises_source plain h ha rfl rfl hv ?_
  simp only [coreWord_setTeam, hv, hw, hp, atIssue_moveReply, hnone, Option.filter_none, decide_eq_true hfar, raiseIf_true, raise,
    bind, Except.bind]

/-- MOVE of a live entry waits for the destination's reply. -/
theorem solicitMove_waits {e : DirEntry} (hnone : t.moveReply = none) (hnear : w.toNat < 256) (hlow : v.toNat < 256)
    (he : tabGet (s.core i.core).dir v.toNat = some e) (hlive : e.state = .live) :
    exec (.solicitMove d a b) s = .next (noteWait s i (.move v.toNat w.toNat) []) := by
  rw [exec_solicitMove]
  refine issue_wait plain h ?_
  simp only [coreWord_setTeam, hv, hw, hp, atIssue_moveReply, hnone, Option.filter_none, decide_eq_false (Nat.not_le.2 hnear),
    raiseIf_false, liveEntry, State.setTeam_core, Nat.mod_eq_of_lt hlow, he, if_pos (And.intro hlow hlive), waitOn, bind, Except.bind]

/-- MOVE that the destination refused. -/
theorem solicitMove_refused (ha : i.stream = .a) (hr : t.moveReply = some (v.toNat, w.toNat, none)) :
    exec (.solicitMove d a b) s = .next (settle s i t { value := v } (raise 0x146)) := by
  rw [exec_solicitMove]
  refine issue_raises_source plain h ha rfl rfl hv ?_
  simp only [coreWord_setTeam, hv, hw, hp, atIssue_moveReply, hr, Option.filter_some, and_self, decide_true, if_true, raise, bind, Except.bind]

/-- MOVE that the destination accepted. -/
theorem solicitMove_accepted {j : Nat} (hr : t.moveReply = some (v.toNat, w.toNat, some j)) :
    exec (.solicitMove d a b) s = .next (doneWith s i
      { Claims.setS (atIssue i t) p (BitVec.ofNat 64 (w.toNat + 2 ^ 8 * j + 2 ^ 16 * v.toNat)) with
        moveReply := none, moves := t.moves ++ [w.toNat + 2 ^ 8 * j + 2 ^ 16 * v.toNat] }) := by
  have ticket : w.toNat + j * 2 ^ 8 + v.toNat * 2 ^ 16 = w.toNat + 2 ^ 8 * j + 2 ^ 16 * v.toNat := by omega
  have moves (x : DWord) : (Claims.setS (atIssue i t) p x).moves = t.moves := atIssue_moves i t
  rw [exec_solicitMove]
  refine issue_team plain h ?_
  simp only [coreWord_setTeam, hv, hw, hp, atIssue_moveReply, hr, Option.filter_some, and_self, decide_true, if_true, ticket,
    writeS_eq _ hp, moves, State.setTeam_setTeam, bind, Except.bind]

end SolicitMove

section Commit
variable (h : Issuing (.solicitCommit d a b) s i t)
include h

/-- COMMIT of a ticket that is none of the team's. -/
theorem solicitCommit_unknown (ha : i.stream = .a) (hno : v.toNat ∉ t.moves) :
    exec (.solicitCommit d a b) s = .next (settle s i t { value := v } (raise 0x147)) := by
  rw [exec_solicitCommit]
  refine issue_raises_source plain h ha rfl rfl hv ?_
  have unlisted : t.moves.contains v.toNat = false := by simpa using hno
  simp only [coreWord_setTeam, hv, hw, hp, atIssue_moves, unlisted, Bool.not_false, raiseIf_true, raise, bind, Except.bind]

/-- COMMIT of a ticket of the team. -/
theorem solicitCommit_sends (hyes : v.toNat ∈ t.moves) : exec (.solicitCommit d a b) s = .next (doneAs (broadcast
    (s.setTeam i.wid (Claims.setS { atIssue i t with moves := t.moves.filter (· ≠ v.toNat) } p (BitVec.ofNat 64 s.fab.stamp)))
    (.commit i.core (v.extractLsb' 16 8).toNat (v.extractLsb' 0 8).toNat (v.extractLsb' 8 8).toNat w)) i) := by
  have listed : t.moves.contains v.toNat = true := by simpa using hyes
  have written := fun x : DWord => writeS_eq (u := { atIssue i t with moves := t.moves.filter fun y => decide (y ≠ v.toNat) }) x hp
  have src : bitsOf v.toNat 23 16 = (v.extractLsb' 16 8).toNat := bitsOf_toNat v rfl
  have dst : bitsOf v.toNat 7 0 = (v.extractLsb' 0 8).toNat := bitsOf_toNat v rfl
  have entry : bitsOf v.toNat 15 8 = (v.extractLsb' 8 8).toNat := bitsOf_toNat v rfl
  rw [exec_solicitCommit]
  refine issue_next plain h ?_
  simp only [coreWord_setTeam, hv, hw, hp, atIssue_moves, listed, Bool.not_true, raiseIf_false, written, State.setTeam_fab, src, dst, entry,
    State.setTeam_setTeam, bind, Except.bind]

end Commit

end Move

/-- MOVE and COMMIT act so. -/
theorem directoryMove : Claims.DirectoryMove := by
  intro s i t d a b v w p ha u hv hw hp stops
  refine ⟨fun h => ⟨fun hnone => ⟨fun hfar => ?_, fun e hnear hlow he hlive => ?_⟩, fun hr => ?_, fun j hr => ?_⟩,
    fun h => ⟨fun hno => ?_, fun hyes => ?_⟩⟩
  · exact solicitMove_far hv hw hp h ha hnone hfar
  · exact solicitMove_waits hv hw hp h hnone hnear hlow he hlive
  · exact solicitMove_refused hv hw hp h ha hr
  · exact solicitMove_accepted hv hw hp h hr
  · exact solicitCommit_unknown hv hw hp h ha hno
  · exact solicitCommit_sends hv hw hp h hyes

/-! ### SOLICIT.SUM, MIN, MAX and OR (R295) -/

section Solicit
variable {s : State} {i : Issue} {t : Team} {d : BitVec 6} {a b g e : BitVec 7} {o : BitVec 2} {key mask ctrl rec : DWord} {p : Nat}

/-- The census of a solicit, as it starts. -/
def newCensus (i : Issue) (t : Team) (o : BitVec 2) (key mask ctrl rec : DWord) : Census :=
  { owner := t.info.seq.toNat, core := i.core, node := t.info.node, ctx := t.info.ctx, op := o.toNat, key := key, mask := mask,
    arg := (ctrl.extractLsb' 0 32).toNat, ctrl := ctrl.toNat, recAddr := rec.toNat, acc := if o = 1 then BitVec.allOnes 64 else 0 }

/-- The state in which a solicit has been broadcast for the team `u` that has its stamp. -/
def solicited (s : State) (i : Issue) (u : Team) (c : Census) : State :=
  let r := broadcast (advanceGen (s.setTeam i.wid u) i.wid) .solicit
  { r with fab := { r.fab with census := tabSet r.fab.census s.fab.stamp c } }

/-- Time passing leaves memory and the fabric. -/
@[simp] theorem doneAs_mem (s : State) (i : Issue) : (doneAs s i).mem = s.mem := rfl

@[simp] theorem doneAs_fab (s : State) (i : Issue) : (doneAs s i).fab = s.fab := rfl

theorem solicited_mem (s : State) (i : Issue) (u : Team) (c : Census) : (solicited s i u c).mem = s.mem :=
  advanceGen_mem (s.setTeam i.wid u) i.wid

theorem solicited_bareTeam (s : State) (i : Issue) (u : Team) (c : Census) : (solicited s i u c).bareTeam i.wid = some u.bare := by
  have teams : (solicited s i u c).teams = (advanceGen (s.setTeam i.wid u) i.wid).teams := rfl
  rw [State.bareTeam_of_teams teams, advanceGen_bareTeam, State.bareTeam, State.setTeam_team?_same, Option.map_some]

theorem solicited_fab (s : State) (i : Issue) (u : Team) (c : Census) : (solicited s i u c).fab =
    { s.fab with stamp := (s.fab.stamp + 1) % 2 ^ 32, broadcasts := tabSet s.fab.broadcasts s.fab.stamp .solicit,
                 census := tabSet s.fab.census s.fab.stamp c } := by
  unfold solicited broadcast
  simp only [advanceGen_fab, State.setTeam_fab]

/-- A solicit's effect on its own team: the stamp is listed, and s_d takes it. -/
def stamped (u : Team) (p stamp : Nat) : Team := Claims.setS { u with solicits := u.solicits ++ [stamp] } p (BitVec.ofNat 64 stamp)

/-- A uniform access that passes its checks. -/
theorem uniformPage_located {s : State} {i : Issue} {t : Team} {va size : Nat} {k : AccessKind} {l : Located}
    (h : checkAccess s i.core t.info.ctx { valid := true } none va size k = .at_ l) : uniformPage s i t va size k = .ok () := by
  rw [uniformPage, h]

theorem censusIdentity_eq (o : BitVec 2) : censusIdentity o.toNat = if o = 1 then BitVec.allOnes 64 else 0 := by
  have one : o.toNat = 1 ↔ o = 1 := by rw [← BitVec.toNat_inj]; rfl
  simp only [censusIdentity, one]

variable (h : Issuing (.solicit d a b o) s i t) (hext : i.hint = some (.ext g e))
  (hkey : sourceA i (atIssue i t) (coreWord s i.core) a = .ok key) (hmask : sourceA i (atIssue i t) (coreWord s i.core) b = .ok mask)
  (hctrl : sourceA i (atIssue i t) (coreWord s i.core) e = .ok ctrl) (hrec : sourceA i (atIssue i t) (coreWord s i.core) g = .ok rec)
  (hp : (atIssue i t).a.win.reg 256 d.toNat = .ok p)
include hext hctrl hrec

/-- The sources that the EXT hint names. -/
theorem extSources_eq : extSources i (atIssue i t) (coreWord s i.core) = .ok (ctrl, rec) := by
  simp only [extSources, hext, hctrl, hrec, bind, Except.bind]

include h hkey hmask hp

/-- A solicit with a set reserved bit. -/
theorem solicit_reserved (ha : i.stream = .a) (hres : ctrl.extractLsb' 42 22 ≠ 0) :
    exec (.solicit d a b o) s = .next (settle s i t { value := key } (raise 0x14C)) := by
  rw [exec_solicit]
  refine issue_raises_source plain h ha rfl rfl hkey ?_
  have set : (ctrl.extractLsb' 42 22 != 0) = true := bne_iff_ne.2 hres
  simp only [coreWord_setTeam, hkey, hmask, extSources_eq hext hctrl hrec, hp, set, raiseIf_true, raise, bind, Except.bind]

variable (hres : ctrl.extractLsb' 42 22 = 0) {l : Located}
  (hpage : ctrl.getLsbD 41 = true → checkAccess s i.core t.info.ctx { valid := true } none rec.toNat 16 .write = .at_ l)
omit hext hctrl hrec h hkey hmask hp in
include hpage in
/-- The page of the record is there, where the solicit has a record. -/
theorem solicit_page (x : Act State) : (if bit ctrl 41 = true then
    (do uniformPage (s.setTeam i.wid (atIssue i t)) i (atIssue i t) rec.toNat 16 .write; x) else x) = x := by
  split
  · next hb => rw [uniformPage_located ((checkAccess_setTeam ..).trans (by rw [atIssue_info, hpage hb]))]; rfl
  · rfl

include hres hpage

/-- A solicit without a free census. -/
theorem solicit_waits (hfull : 64 ≤ s.fab.census.length ∨ 8 ≤ t.solicits.length) :
    exec (.solicit d a b o) s = .next (noteWait s i (.other 0) []) := by
  rw [exec_solicit]
  refine issue_wait plain h ?_
  have clear : (ctrl.extractLsb' 42 22 != 0) = false := bne_eq_false_iff_eq.2 hres
  have full : (decide (64 ≤ (s.setTeam i.wid (atIssue i t)).fab.census.length) || decide (8 ≤ (atIssue i t).solicits.length)) = true := by
    rw [atIssue_solicits, Bool.or_eq_true, decide_eq_true_eq, decide_eq_true_eq]
    exact hfull
  have page := fun x => solicit_page (i := i) hpage x
  simp only [bind, Except.bind] at page
  simp only [coreWord_setTeam, hkey, hmask, extSources_eq hext hctrl hrec, hp, clear, raiseIf_false, page, full, waitWhile_true, waitOn,
    bind, Except.bind]

/-- A solicit is broadcast, with its census. -/
theorem solicit_sends (hcensus : s.fab.census.length < 64) (hown : t.solicits.length < 8) :
    exec (.solicit d a b o) s = .next (doneAs (solicited s i (stamped (atIssue i t) p s.fab.stamp) (newCensus i t o key mask ctrl rec)) i) := by
  rw [exec_solicit]
  refine issue_next plain h ?_
  have clear : (ctrl.extractLsb' 42 22 != 0) = false := bne_eq_false_iff_eq.2 hres
  have room : (decide (64 ≤ (s.setTeam i.wid (atIssue i t)).fab.census.length) || decide (8 ≤ (atIssue i t).solicits.length)) = false := by
    rw [atIssue_solicits, State.setTeam_fab, decide_eq_false (Nat.not_le.2 hcensus), decide_eq_false (Nat.not_le.2 hown), Bool.or_false]
  have page := fun x => solicit_page (i := i) hpage x
  simp only [bind, Except.bind] at page
  have written := writeS_eq (u := { atIssue i t with solicits := (atIssue i t).solicits ++ [(s.setTeam i.wid (atIssue i t)).fab.stamp] })
    (BitVec.ofNat 64 (s.setTeam i.wid (atIssue i t)).fab.stamp) hp
  simp only [coreWord_setTeam, hkey, hmask, extSources_eq hext hctrl hrec, hp, clear, raiseIf_false, page, room, waitWhile_false, written,
    State.setTeam_setTeam, bind, Except.bind]
  unfold newCensus
  rw [← censusIdentity_eq, ← atIssue_info i t]
  rfl

end Solicit

/-- A release leaves a team but for what releases change. -/
theorem advanceGen_leaves (s : State) (i : Issue) (u : Team) : Claims.leaves (doneAs (advanceGen (s.setTeam i.wid u) i.wid) i) i u := by
  refine leaves_of_bare ?_
  rw [advanceGen_bareTeam, State.bareTeam, State.setTeam_team?_same, Option.map_some]

/-- SOLICIT acts so. -/
theorem solicitSent : Claims.SolicitSent := by
  intro s i t d a b g e o key mask ctrl rec p l x u src h ha hext hkey hmask hctrl hrec hp
  refine ⟨fun hres => solicit_reserved h hext hkey hmask hctrl hrec hp ha hres, fun hres hpage => ⟨fun hfull => ?_, fun hcensus hown => ?_⟩⟩
  · exact solicit_waits h hext hkey hmask hctrl hrec hp hres hpage hfull
  · have fab := solicited_fab s i (stamped (atIssue i t) p s.fab.stamp) (newCensus i t o key mask ctrl rec)
    refine ⟨_, solicit_sends h hext hkey hmask hctrl hrec hp hres hpage hcensus hown, fun k => ?_, ?_, ?_, ?_, ?_⟩
    · rw [doneAs_mem, solicited_mem]
    · rw [doneAs_fab, fab]
    · refine leaves_of_bare ((solicited_bareTeam ..).trans ?_)
      rw [stamped, atIssue_solicits]
    · rw [doneAs_fab, fab]
      exact tabGet_tabSet_same ..
    · rw [doneAs_fab, fab]
      exact tabGet_tabSet_same ..

/-! ### RESPOND, CENSUS.WAIT and CENSUS.POLL (R300, R302) -/

theorem atIssue_task (i : Issue) (t : Team) : (atIssue i t).task = t.task := t.advance_task _

section Respond
variable {s : State} {i : Issue} {t : Team} {a : BitVec 7} {v : DWord} (h : Issuing (.respond a) s i t)
  (hv : sourceA i (atIssue i t) (coreWord s i.core) a = .ok v)
include h hv

/-- RESPOND of a responder that has given nothing yet. -/
theorem respond_gives {g : HeldTask} (htask : t.task = some g) (hresp : g.resp ≠ none) (hgiven : g.given = none) :
    exec (.respond a) s = .next (doneAs (advanceGen (s.setTeam i.wid { atIssue i t with task := some { g with given := some v } }) i.wid) i) := by
  rw [exec_respond]
  refine issue_next plain h ?_
  have first : (g.resp.isNone || g.given.isSome) = false := by
    rw [Option.isNone_eq_false_iff.2 (Option.isSome_iff_ne_none.2 hresp), hgiven]
    rfl
  simp only [coreWord_setTeam, hv, atIssue_task, htask, first, raiseIf_false, State.setTeam_setTeam, bind, Except.bind]

/-- RESPOND of a team that is no responder, or of one that has given its contribution. -/
theorem respond_raises (ha : i.stream = .a) (hno : ∀ g, t.task = some g → g.resp = none ∨ g.given ≠ none) :
    exec (.respond a) s = .next (settle s i t { value := v } (raise 0x148)) := by
  rw [exec_respond]
  refine issue_raises_source plain h ha rfl rfl hv ?_
  cases htask : t.task with
  | none => simp only [coreWord_setTeam, hv, atIssue_task, htask, raise, bind, Except.bind]
  | some g =>
    have again : (g.resp.isNone || g.given.isSome) = true := by
      rw [Bool.or_eq_true, Option.isNone_iff_eq_none, Option.isSome_iff_ne_none]
      exact hno g htask
    simp only [coreWord_setTeam, hv, atIssue_task, htask, again, raiseIf_true, raise, bind, Except.bind]

end Respond

section TakeCensus
variable {s : State} {i : Issue} {t : Team} {d : BitVec 6} {a : BitVec 7} {v : DWord} {p q : Nat} {x : Instr} {c : Census}

/-- What CENSUS.WAIT and CENSUS.POLL do with the census that they name. -/
def censusEffect (x : Instr) (s : State) (i : Issue) (u : Team) (p q stamp : Nat) (c : Census) : Act State :=
  if c.complete then
    let w := Claims.setS (Claims.setS u p c.acc) q (BitVec.ofNat 64 (c.count % 2 ^ 32 + if c.failed then 2 ^ 32 else 0))
    let r := s.setTeam i.wid { w with solicits := u.solicits.filter (· ≠ stamp), acq := [] }
    .ok { r with fab := { r.fab with census := tabDel s.fab.census stamp } }
  else match x with
    | .censusPoll .. => .ok (s.setTeam i.wid (Claims.setS (Claims.setS u p 0) q (BitVec.ofNat 64 (2 ^ 63))))
    | _ => waitOn (.other stamp)

variable (hx : x = .censusWait d a ∨ x = .censusPoll d a) (hv : sourceA i (atIssue i t) (coreWord s i.core) a = .ok v)
  (hp : (atIssue i t).a.win.reg 256 d.toNat = .ok p) (hq : (atIssue i t).a.win.reg 256 (d.toNat + 1) = .ok q)
include hx hv hp hq

/-- Both instructions look for the census, and then use it. -/
theorem census_body : ∃ body, exec x s = issue x plain s body ∧ body i (atIssue i t) (s.setTeam i.wid (atIssue i t)) =
    (do let c ← ownCensus s (atIssue i t) v.toNat; censusEffect x s i (atIssue i t) p q v.toNat c) := by
  have second (y z : DWord) : writeS (Claims.setS (atIssue i t) p y) (d.toNat + 1) z = _ := writeS_eq z hq
  have own : ownCensus (s.setTeam i.wid (atIssue i t)) (atIssue i t) v.toNat = ownCensus s (atIssue i t) v.toNat := rfl
  obtain rfl | rfl := hx
  · rw [exec_censusWait]
    refine ⟨_, rfl, ?_⟩
    simp only [coreWord_setTeam, hv, hp, hq, own, bind, Except.bind]
    cases ownCensus s (atIssue i t) v.toNat with
    | error e => rfl
    | ok c =>
      cases hc : c.complete with
      | false => simp only [censusEffect, hc, Bool.not_false, waitWhile_true, waitOn, Bool.false_eq_true, if_false]
      | true =>
        simp only [censusEffect, hc, Bool.not_true, waitWhile_false, takeCensus, writeS_eq _ hp, second, if_true, State.setTeam_setTeam,
          bind, Except.bind]
        rfl
  · rw [exec_censusPoll]
    refine ⟨_, rfl, ?_⟩
    simp only [coreWord_setTeam, hv, hp, hq, own, bind, Except.bind]
    cases ownCensus s (atIssue i t) v.toNat with
    | error e => rfl
    | ok c =>
      cases hc : c.complete with
      | false => simp only [censusEffect, hc, writeS_eq _ hp, second, Bool.false_eq_true, if_false, State.setTeam_setTeam]
      | true =>
        simp only [censusEffect, hc, takeCensus, writeS_eq _ hp, second, if_true, State.setTeam_setTeam, bind, Except.bind]
        rfl

end TakeCensus

/-- A census of the team's own, that is there. -/
theorem ownCensus_ok {s : State} {i : Issue} {t : Team} {n : Nat} {c : Census} (hown : n ∈ t.solicits) (hc : tabGet s.fab.census n = some c) :
    ownCensus s (atIssue i t) n = .ok c := by
  have listed : t.solicits.contains n = true := by simpa using hown
  simp only [ownCensus, atIssue_solicits, listed, hc]

/-- A census of another team, or none. -/
theorem ownCensus_raises {s : State} {i : Issue} {t : Team} {n : Nat} (hno : n ∉ t.solicits ∨ tabGet s.fab.census n = none) :
    ownCensus s (atIssue i t) n = raise 0x149 := by
  rw [ownCensus, atIssue_solicits]
  split
  · next hown hc =>
    rcases hno with hno | hno
    · exact absurd (by simpa using hown) hno
    · rw [hno] at hc
      cases hc
  · rfl

/-- RESPOND, CENSUS.WAIT and CENSUS.POLL act so. -/
theorem censusTaken : Claims.CensusTaken := by
  intro s i t d a v p q ha u hv hp hq stops
  refine ⟨fun h => ⟨fun g htask hresp hgiven => ?_, fun hno => respond_raises h hv ha hno⟩, fun x hx h => ?_⟩
  · exact ⟨_, respond_gives h hv htask hresp hgiven, fun k => congrArg (memGet · k) (advanceGen_mem ..), advanceGen_leaves ..⟩
  · obtain ⟨body, hexec, hbody⟩ := census_body hx hv hp hq
    refine ⟨fun hno => ?_, fun c hown hc => ⟨fun hdone => ?_, fun hopen => ⟨fun hw => ?_, fun hpoll => ?_⟩⟩⟩
    · rw [ownCensus_raises hno] at hbody
      have hfield : (sourceFields x).head? = some a := by obtain rfl | rfl := hx <;> rfl
      have hmajor : (decide (0x60 ≤ majorOf x) && decide (majorOf x ≤ 0x78)) = true := by obtain rfl | rfl := hx <;> rfl
      exact hexec.trans (issue_raises_source plain h ha hmajor hfield hv hbody)
    · rw [ownCensus_ok hown hc] at hbody
      have effect : censusEffect x s i (atIssue i t) p q v.toNat c = _ := if_pos hdone
      rw [← atIssue_solicits i t]
      exact hexec.trans (issue_next plain h (hbody.trans effect))
    · rw [ownCensus_ok hown hc] at hbody
      have effect : censusEffect x s i (atIssue i t) p q v.toNat c = waitOn (.other v.toNat) := by
        subst hw
        exact if_neg (ne_true_of_eq_false hopen)
      exact hexec.trans (issue_wait plain h (hbody.trans effect))
    · rw [ownCensus_ok hown hc] at hbody
      have effect : censusEffect x s i (atIssue i t) p q v.toNat c =
          .ok (s.setTeam i.wid (Claims.setS (Claims.setS (atIssue i t) p 0) q (BitVec.ofNat 64 (2 ^ 63)))) := by
        subst hpoll
        exact if_neg (ne_true_of_eq_false hopen)
      exact hexec.trans (issue_team plain h (hbody.trans effect))

/-- Settles O49: each instruction is its checks and one change of a directory, of the team or of the censuses. -/
theorem solicits : Obligations.Solicits := ⟨directory, directoryMove, solicitSent, censusTaken⟩

end Sys2Proof.Machine

/-! ## What work that enters a leaf leaves alone, and the counters and acorns -/

namespace Sys2Proof.Machine

/-- `r` is `s` but for the leaves and the number of the next push, the running engine work that a push may stop, and the operations of the
fabric: what the entry of work in a leaf may change. -/
structure Entered (s r : State) : Prop where
  mem : r.mem = s.mem
  teams : r.teams = s.teams
  dev : r.dev = { s.dev with leaves := r.dev.leaves, pushSeq := r.dev.pushSeq }
  eng : r.eng = { s.eng with running := r.eng.running }
  fab : r.fab = { s.fab with ops := r.fab.ops, opSeq := r.fab.opSeq }
  fw : r.fw = s.fw
  host : r.host = s.host
  clusters : r.clusters = s.clusters
  cores : ∀ c, r.core c = { s.core c with streams := (r.core c).streams }

theorem Entered.refl (s : State) : Entered s s := ⟨rfl, rfl, rfl, rfl, rfl, rfl, rfl, rfl, fun _ => rfl⟩

/-- One entry after another. -/
theorem Entered.trans {s r q : State} (h : Entered s r) (k : Entered r q) : Entered s q where
  mem := k.mem.trans h.mem
  teams := k.teams.trans h.teams
  dev := k.dev.trans (by rw [h.dev])
  eng := k.eng.trans (by rw [h.eng])
  fab := k.fab.trans (by rw [h.fab])
  fw := k.fw.trans h.fw
  host := k.host.trans h.host
  clusters := k.clusters.trans h.clusters
  cores c := (k.cores c).trans (by rw [h.cores c])

section Leaves
variable {s r : State} (h : Entered s r)
include h

theorem Entered.ctr (c n : Nat) : r.ctr c n = s.ctr c n := by rw [State.ctr, h.cores, State.ctr]
theorem Entered.acorns (c : Nat) : (r.core c).acorns = (s.core c).acorns := by rw [h.cores]
theorem Entered.pauses : r.fab.pauses = s.fab.pauses := by rw [h.fab]
theorem Entered.seals : r.eng.seals = s.eng.seals := by rw [h.eng]
theorem Entered.copies : r.eng.copies = s.eng.copies := by rw [h.eng]
theorem Entered.colls : r.fab.colls = s.fab.colls := by rw [h.fab]

end Leaves

theorem entered_comparePush (s : State) (id : Nat) (x : LeafItem) : Entered s (comparePush s id x) := by
  have streams (c : Nat) (st : Tab EngineRun) : Entered s (s.setCore c { s.core c with streams := st }) := by
    refine ⟨rfl, rfl, rfl, rfl, rfl, rfl, rfl, rfl, fun d => ?_⟩
    by_cases hd : d = c
    · rw [hd, State.setCore_core_same]
    · rw [State.setCore_core_other s _ hd]
  unfold comparePush
  dsimp only
  split
  · exact .refl s
  · split
    · exact ⟨rfl, rfl, rfl, rfl, rfl, rfl, rfl, rfl, fun _ => rfl⟩
    · exact streams _ _
    · exact .refl s

theorem entered_enterLeaf (s : State) (id : Nat) (x : LeafItem) : Entered s (enterLeaf s id x) := by
  have placed (l : PifoLeaf) : Entered s (s.setLeaf id l) := ⟨rfl, rfl, rfl, rfl, rfl, rfl, rfl, rfl, fun _ => rfl⟩
  unfold enterLeaf
  dsimp only
  split
  · exact .refl s
  · split
    · exact (placed _).trans (entered_comparePush ..)
    · exact placed _

theorem entered_directPush (s : State) (id rank : Nat) (w : Work) : Entered s (directPush s id rank w) := by
  have counted : Entered s { s with dev := { s.dev with pushSeq := s.dev.pushSeq + 1 } } :=
    ⟨rfl, rfl, rfl, rfl, rfl, rfl, rfl, rfl, fun _ => rfl⟩
  exact counted.trans (entered_enterLeaf ..)

theorem entered_startOp (s : State) (o : FabOp) (rank : Nat) : Entered s (startOp s o rank) := by
  have listed (ops : Tab FabOp) : Entered s { s with fab := { s.fab with opSeq := s.fab.opSeq + 1, ops := ops } } :=
    ⟨rfl, rfl, rfl, rfl, rfl, rfl, rfl, rfl, fun _ => rfl⟩
  unfold startOp
  dsimp only
  split
  · exact listed _
  · refine List.foldlRecOn (motive := fun r => Entered s r) _ _ (listed _) fun r hr p _ => hr.trans ?_
    split
    · exact entered_directPush ..
    · split
      · exact entered_directPush ..
      · exact ⟨rfl, rfl, rfl, rfl, rfl, rfl, rfl, rfl, fun _ => rfl⟩

/-! ### The firing of acorns (R399) -/

/-- An acorn of a core once its counter has been tested. -/
def fired (s : State) (core : Nat) (a : Acorn) : Acorn :=
  { a with firing := a.firing || (!acornPaused s a.desc && decide (a.desc.thresh ≤ (s.ctr core a.desc.ctr).toNat)) }

/-- `r` is `s` but for the acorns of a core, of which those that `q` tells to have been tested, and for what the entry of work changes. -/
structure Tested (s r : State) (core : Nat) (q : Nat → Acorn → Bool) : Prop where
  mem : r.mem = s.mem
  teams : r.teams = s.teams
  eng : r.eng = { s.eng with running := r.eng.running }
  fab : r.fab = { s.fab with ops := r.fab.ops, opSeq := r.fab.opSeq }
  cores : ∀ c, r.core c = { s.core c with streams := (r.core c).streams, acorns := (r.core c).acorns }
  acorns : ∀ k, tabGet (r.core core).acorns k = (tabGet (s.core core).acorns k).map fun a => if q k a then fired s core a else a

theorem Tested.ctr {s r : State} {core : Nat} {q : Nat → Acorn → Bool} (h : Tested s r core q) (c n : Nat) : r.ctr c n = s.ctr c n := by
  rw [State.ctr, h.cores, State.ctr]

theorem Tested.refl (s : State) (core : Nat) {q : Nat → Acorn → Bool} (h : ∀ k a, tabGet (s.core core).acorns k = some a →
    q k a = true → fired s core a = a) : Tested s s core q := by
  refine ⟨rfl, rfl, rfl, rfl, fun _ => rfl, fun k => ?_⟩
  cases ha : tabGet (s.core core).acorns k with
  | none => rfl
  | some a =>
    refine congrArg some ?_
    dsimp only
    split
    · next hq => exact (h k a ha hq).symm
    · rfl

/-- What a test of an acorn reads does not change while acorns fire. -/
theorem Tested.fired {s r : State} {core : Nat} {q : Nat → Acorn → Bool} (h : Tested s r core q) (a : Acorn) :
    fired r core a = fired s core a := by
  rw [Machine.fired, h.ctr, acornPaused, paused, h.fab, Machine.fired, acornPaused, paused]

/-- Tests one after the other. -/
theorem Tested.trans {s r u : State} {core : Nat} {p q pq : Nat → Acorn → Bool} (h : Tested s r core p) (k : Tested r u core q)
    (hpq : ∀ n a, pq n a = (p n a || q n a)) (hq : ∀ n a b, q n { a with firing := b } = q n a) : Tested s u core pq where
  mem := k.mem.trans h.mem
  teams := k.teams.trans h.teams
  eng := k.eng.trans (by rw [h.eng])
  fab := k.fab.trans (by rw [h.fab])
  cores c := (k.cores c).trans (by rw [h.cores c])
  acorns n := by
    rw [k.acorns, h.acorns, Option.map_map]
    refine Option.map_congr fun a _ => ?_
    have again : Machine.fired s core (Machine.fired s core a) = Machine.fired s core a := by
      refine congrArg (fun b => { a with firing := b }) ?_
      exact (Bool.or_assoc ..).trans (congrArg (a.firing || ·) (Bool.or_self _))
    have kept : q n (Machine.fired s core a) = q n a := hq ..
    simp only [Function.comp_apply, h.fired, hpq]
    cases p n a <;> cases hqa : q n a <;> simp [kept, hqa, again]

/-- One acorn's test. -/
theorem tested_testAcorn (s : State) (core n : Nat) : Tested s (testAcorn s core n) core fun k _ => k == n := by
  unfold testAcorn
  split
  · next hnone =>
    refine .refl s core fun k a ha hk => ?_
    rw [beq_iff_eq.1 hk, hnone] at ha
    cases ha
  · next a ha =>
    split
    · next hstays =>
      refine .refl s core fun k b hb hk => ?_
      rw [beq_iff_eq.1 hk, ha] at hb
      cases hb
      have unfired : (a.firing || (!acornPaused s a.desc && decide (a.desc.thresh ≤ (s.ctr core a.desc.ctr).toNat))) = a.firing := by
        cases hf : a.firing with
        | true => rfl
        | false =>
          rw [hf, Bool.false_or, Bool.or_eq_true, decide_eq_true_eq] at hstays
          rcases hstays with hp | hlow
          · rw [hp]
            rfl
          · rw [decide_eq_false (Nat.not_le.2 hlow), Bool.and_false]
            rfl
      rw [fired, unfired]
    · next hfires =>
      rw [Bool.or_eq_true, Bool.or_eq_true, decide_eq_true_eq, not_or, not_or, Bool.not_eq_true, Bool.not_eq_true, Nat.not_lt] at hfires
      obtain ⟨⟨-, hrun⟩, hreach⟩ := hfires
      have e := entered_startOp (s.modAcorn core n fun a => { a with firing := true })
        { desc := a.desc, source := .acorn core n, core := core, node := a.node, ctx := a.ctx, owner := some a.owner } a.rank
      refine ⟨e.mem, e.teams, e.eng, e.fab, fun c => ?_, fun k => ?_⟩
      · rw [e.cores]
        by_cases hc : c = core
        · rw [hc, State.modAcorn, State.setCore_core_same]
        · rw [State.modAcorn, State.setCore_core_other s _ hc]
      · rw [e.acorns, State.modAcorn, State.setCore_core_same]
        by_cases hk : k = n
        · rw [hk, tabGet_tabMod_same, ha]
          simp [fired, hrun, hreach]
        · rw [tabGet_tabMod_other _ _ hk, beq_false_of_ne hk]
          exact Option.map_id'.symm

/-- The test of the acorns that watch a counter. -/
theorem tested_testAcorns (s : State) (core n : Nat) : Tested s (testAcorns s core n) core fun k a => decide (k < 64) && decide (a.desc.ctr = n) := by
  suffices h : ∀ (ls : List Nat) (r : State), Tested r (ls.foldl (fun s k =>
      if (tabGet (s.core core).acorns k).any fun a => a.desc.ctr = n then testAcorn s core k else s) r) core
      fun k a => ls.contains k && decide (a.desc.ctr = n) by
    have all := h (List.range 64) s
    simp only [List.contains_eq_mem, List.mem_range] at all
    exact all
  intro ls
  induction ls with
  | nil => exact fun r => .refl r core fun k a _ hk => by simp at hk
  | cons x ls ih =>
    intro r
    have one : Tested r (if (tabGet (r.core core).acorns x).any fun a => a.desc.ctr = n then testAcorn r core x else r) core
        fun k a => (k == x) && decide (a.desc.ctr = n) := by
      split
      · next hwatch =>
        obtain ⟨mem, teams, eng, fab, cores, acorns⟩ := tested_testAcorn r core x
        refine ⟨mem, teams, eng, fab, cores, fun k => (acorns k).trans (Option.map_congr fun a ha => ?_)⟩
        by_cases hk : k = x
        · have watches : a.desc.ctr = n := by
            rw [← hk, ha] at hwatch
            simpa using hwatch
          rw [watches, decide_eq_true rfl, Bool.and_true]
        · rw [beq_false_of_ne hk, Bool.false_and]
      · next hidle =>
        refine .refl r core fun k a ha hk => ?_
        rw [Bool.and_eq_true, beq_iff_eq, decide_eq_true_eq] at hk
        obtain ⟨rfl, hn⟩ := hk
        rw [ha] at hidle
        exact absurd (decide_eq_true hn) hidle
    refine one.trans (ih _) (fun k a => ?_) fun _ _ _ => rfl
    rw [← Bool.and_or_distrib_right, List.contains_cons]

end Sys2Proof.Machine

/-! ## Trigger counters and acorns -/

namespace Sys2Proof.Machine

theorem exec_ctradd (a b : BitVec 7) (s : State) : exec (.ctradd a b) s = execCtradd a b s := rfl
theorem exec_ctrwait (d : BitVec 6) (a b : BitVec 7) (s : State) : exec (.ctrwait d a b) s = execCtrwait d a b s := rfl
theorem exec_ctrwaitPoll (d : BitVec 6) (a : BitVec 7) (s : State) : exec (.ctrwaitPoll d a) s = execCtrwaitPoll d a s := rfl
theorem exec_ctrset (a b : BitVec 7) (s : State) : exec (.ctrset a b) s = execCtrset a b s := rfl
theorem exec_ctrseal (d : BitVec 6) (a : BitVec 7) (s : State) : exec (.ctrseal d a) s = execCtrseal d a s := rfl
theorem exec_trgpost (d : BitVec 6) (a : BitVec 7) (s : State) : exec (.trgpost d a) s = execTrgpost d a s := rfl
theorem exec_trgcancel (d : BitVec 6) (a : BitVec 7) (s : State) : exec (.trgcancel d a) s = execTrgcancel d a s := rfl

/-! ### The rise of a counter (R394, R396, R399) -/

theorem State.setCore_bareTeam (s : State) (c : Nat) (k : Core) (w : Nat) : (s.setCore c k).bareTeam w = s.bareTeam w := rfl

theorem State.setCtr_ctr_same (s : State) (core n : Nat) (v : DWord) : (s.setCtr core n v).ctr core n = v := by
  rw [State.ctr, State.setCtr, State.setCore_core_same, tabGetD_tabSetD_same]

theorem State.setCtr_ctr_other (s : State) {core n c k : Nat} (v : DWord) (h : c ≠ core ∨ k ≠ n) : (s.setCtr core n v).ctr c k = s.ctr c k := by
  by_cases hc : c = core
  · rw [State.ctr, State.setCtr, hc, State.setCore_core_same, tabGetD_tabSetD_other _ _ _ (h.resolve_left (absurd hc)), State.ctr]
  · rw [State.ctr, State.setCtr, State.setCore_core_other s _ hc, State.ctr]

theorem State.setCtr_acorns (s : State) (core n : Nat) (v : DWord) : ((s.setCtr core n v).core core).acorns = (s.core core).acorns := by
  rw [State.setCtr, State.setCore_core_same]

/-- A counter that is written, and its acorns tested, is raised. -/
theorem raised_testAcorns (s : State) (core n : Nat) (v : DWord) : Claims.raised s (testAcorns (s.setCtr core n v) core n) core n v := by
  have h := tested_testAcorns (s.setCtr core n v) core n
  refine ⟨(h.ctr ..).trans (s.setCtr_ctr_same ..), fun c k hne => (h.ctr ..).trans (s.setCtr_ctr_other v hne), fun k a hk ha hrun => ?_⟩
  have held : acornPaused (s.setCtr core n v) a.desc = false := hrun
  rw [h.acorns, State.setCtr_acorns, ha, Option.map_some, decide_eq_true hk, Bool.true_and]
  by_cases hn : a.desc.ctr = n
  · rw [fired, held, hn, State.setCtr_ctr_same]
    simp
  · simp [hn]

/-- What a rise is, is told by the cores and the fabric alone. -/
theorem raised_of_eq {s r s' : State} {core n : Nat} {v : DWord} (hcores : r.cores = s.cores) (hfab : r.fab = s.fab)
    (h : Claims.raised r s' core n v) : Claims.raised s s' core n v := by
  unfold Claims.raised State.ctr State.core acornPaused paused at h ⊢
  rw [hcores, hfab] at h
  exact h

/-- The issue of the instruction changes neither. -/
theorem raised_doneAs {s r : State} (i : Issue) {core n : Nat} {v : DWord} (h : Claims.raised s r core n v) :
    Claims.raised s (doneAs r i) core n v := h

/-- A counter that is raised, of a state with the cores and the fabric of `s`. -/
theorem raised_raiseCtr {s r : State} {core n : Nat} {amount : DWord} (hcores : r.cores = s.cores) (hfab : r.fab = s.fab) :
    Claims.raised s (raiseCtr r core n amount) core n (s.ctr core n + amount) := by
  have ctr : r.ctr core n = s.ctr core n := by rw [State.ctr, State.core, hcores, State.ctr, State.core]
  rw [raiseCtr, ctr]
  exact raised_of_eq hcores hfab (raised_testAcorns ..)

theorem advanceGen_cores (s : State) (wid : Nat) : (advanceGen s wid).cores = s.cores := by
  obtain ⟨ts, gens, rel, wraps, h⟩ := advanceGen_eq s wid
  rw [h]

theorem advanceGen_eng (s : State) (wid : Nat) : (advanceGen s wid).eng = s.eng := by
  obtain ⟨ts, gens, rel, wraps, h⟩ := advanceGen_eq s wid
  rw [h]

/-- Behind a release of a team, a counter is what it was. -/
theorem advanceGen_ctr (s : State) (i : Issue) (u : Team) (core n : Nat) : (advanceGen (s.setTeam i.wid u) i.wid).ctr core n = s.ctr core n := by
  rw [State.ctr, State.core, advanceGen_cores]
  rfl

section Raise
variable (s : State) (i : Issue) (u : Team) (core n : Nat) (v : DWord)

/-- The state in which an instruction of the team `u` has written a counter behind a release, and the counter's acorns have been tested. -/
def counted : State := testAcorns ((advanceGen (s.setTeam i.wid u) i.wid).setCtr core n v) core n

theorem counted_mem : (counted s i u core n v).mem = s.mem := (testAcorns_mem ..).trans (advanceGen_mem ..)

theorem counted_raised : Claims.raised s (counted s i u core n v) core n v :=
  raised_of_eq (r := advanceGen (s.setTeam i.wid u) i.wid) (advanceGen_cores (s.setTeam i.wid u) i.wid)
    (advanceGen_fab (s.setTeam i.wid u) i.wid) (raised_testAcorns ..)

theorem counted_bareTeam : (counted s i u core n v).bareTeam i.wid = some u.bare := by
  have teams := (tested_testAcorns ((advanceGen (s.setTeam i.wid u) i.wid).setCtr core n v) core n).teams
  rw [counted, State.bareTeam_of_teams teams, State.setCtr, State.setCore_bareTeam, advanceGen_bareTeam, State.bareTeam,
    State.setTeam_team?_same, Option.map_some]

theorem counted_leaves : Claims.leaves (doneAs (counted s i u core n v) i) i u := leaves_of_bare (counted_bareTeam ..)

end Raise

/-! ### CTRADD (R404) -/

/-- A reference that is read as the model reads it. -/
theorem reference_eq (s : State) (i : Issue) (v : DWord) : Claims.reference s i v = if referenceBad v.toNat then none
    else some (if bitsOf v.toNat 31 31 == 1 then s.dev.devId else bitsOf v.toNat 27 16,
      if bitsOf v.toNat 31 31 == 1 then i.core else bitsOf v.toNat 15 8, bitsOf v.toNat 7 0) := by
  have own : (bitsOf v.toNat 31 31 == 1) = v.getLsbD 31 := by
    rw [Bool.eq_iff_iff, beq_iff_eq]
    exact bitsOf_toNat_bit v 31
  have reserved (hi lo n : Nat) (h : hi - lo + 1 = n) : (bitsOf v.toNat hi lo != 0) = decide (v.extractLsb' lo n ≠ 0) := by
    rw [bitsOf_toNat v h, Bool.eq_iff_iff, bne_iff_ne, decide_eq_true_eq, ne_eq, ne_eq, ← BitVec.toNat_inj]
    rfl
  have upper : decide (2 ^ 32 ≤ v.toNat) = decide (v.extractLsb' 32 32 ≠ 0) := by
    rw [decide_eq_decide, ne_eq, ← BitVec.toNat_inj, BitVec.extractLsb'_toNat, Nat.shiftRight_eq_div_pow]
    change _ ↔ ¬v.toNat / 2 ^ 32 % 2 ^ 32 = 0
    have := v.isLt
    omega
  have low : bitsOf v.toNat 7 0 = v.toNat % 256 := congrArg (· % 256) (Nat.shiftRight_zero ..)
  have bad : referenceBad v.toNat = true ↔ (v.extractLsb' 28 3 ≠ 0 ∨ v.extractLsb' 32 32 ≠ 0 ∨ (v.getLsbD 31 = true ∧ v.extractLsb' 8 20 ≠ 0)) := by
    rw [referenceBad, own, reserved 30 28 3 rfl, reserved 27 8 20 rfl, upper, Bool.or_eq_true, Bool.or_eq_true, Bool.and_eq_true,
      decide_eq_true_eq, decide_eq_true_eq, decide_eq_true_eq, or_assoc]
  simp only [Claims.reference, ← bad, own, low, bitsOf_toNat v (show 27 - 16 + 1 = 12 from rfl), bitsOf_toNat v (show 15 - 8 + 1 = 8 from rfl)]
  cases v.getLsbD 31 <;> rfl

section CounterAdd
variable {s : State} {i : Issue} {t : Team} {a b : BitVec 7} {v w : DWord} (h : Issuing (.ctradd a b) s i t)
  (hv : sourceA i (atIssue i t) (coreWord s i.core) a = .ok v) (hw : sourceA i (atIssue i t) (coreWord s i.core) b = .ok w)
include h hv hw

/-- CTRADD of a malformed reference. -/
theorem ctradd_malformed (ha : i.stream = .a) (hbad : Claims.reference s i v = none) :
    exec (.ctradd a b) s = .next (settle s i t { value := v } (raise 0x154)) := by
  have bad : referenceBad v.toNat = true := by
    by_contra hgood
    rw [reference_eq, if_neg hgood] at hbad
    cases hbad
  rw [exec_ctradd]
  refine issue_raises_source plain h ha rfl rfl hv ?_
  simp only [coreWord_setTeam, hv, hw, bad, raiseIf_true, raise, bind, Except.bind]

variable {dev core n : Nat} (href : Claims.reference s i v = some (dev, core, n))
include href

omit h in
/-- What CTRADD does with a reference in order. -/
theorem ctradd_body : ∃ body, exec (.ctradd a b) s = issue (.ctradd a b) plain s body ∧
    body i (atIssue i t) (s.setTeam i.wid (atIssue i t)) = (do
      raiseIf (!reaches s dev) 0x140
      if dev = s.dev.devId then .ok (raiseCtr (advanceGen (s.setTeam i.wid (atIssue i t)) i.wid) core n w)
      else do
        awaitAcks (atIssue i t) 5
        .ok (sendFlit ((advanceGen (s.setTeam i.wid (atIssue i t)) i.wid).modTeam i.wid cleanStash)
          { flit := { op := 18, dev := dev, core := core, fn := n, words := [(0, w.toNat)] },
            owner := .team (atIssue i t).seqNo v.toNat, node := (atIssue i t).info.node, ctx := (atIssue i t).info.ctx,
            counted := some (atIssue i t).seqNo })) := by
  have good : referenceBad v.toNat = false := by
    cases hbad : referenceBad v.toNat with
    | false => rfl
    | true =>
      rw [reference_eq, hbad] at href
      cases href
  rw [reference_eq, good, if_neg Bool.false_ne_true, Option.some.injEq, Prod.mk.injEq, Prod.mk.injEq] at href
  obtain ⟨hdev, hcore, hn⟩ := href
  rw [exec_ctradd]
  refine ⟨_, rfl, ?_⟩
  simp only [coreWord_setTeam, hv, hw, good, raiseIf_false, State.setTeam_dev, hdev, hcore, hn, bind, Except.bind]
  rfl

theorem ctradd_unreached (ha : i.stream = .a) (hfar : reaches s dev = false) :
    exec (.ctradd a b) s = .next (settle s i t { value := v } (raise 0x140)) := by
  obtain ⟨body, hexec, hbody⟩ := ctradd_body hv hw href
  rw [hexec]
  refine issue_raises_source plain h ha rfl rfl hv (hbody.trans ?_)
  rw [hfar]
  rfl

/-- CTRADD of a counter of the own device. -/
theorem ctradd_own (hown : dev = s.dev.devId) :
    exec (.ctradd a b) s = .next (doneAs (counted s i (atIssue i t) core n (s.ctr core n + w)) i) := by
  obtain ⟨body, hexec, hbody⟩ := ctradd_body hv hw href
  have near : reaches s dev = true := by rw [reaches, hown, beq_self_eq_true, Bool.true_or]
  rw [hexec, counted, ← advanceGen_ctr s i (atIssue i t) core n]
  refine issue_next plain h (hbody.trans ?_)
  rw [near, if_pos hown]
  rfl

theorem ctradd_far (hother : dev ≠ s.dev.devId) (hnear : reaches s dev = true) (hacks : t.acks = 0) :
    exec (.ctradd a b) s = .next (doneAs (sendFlit ((advanceGen (s.setTeam i.wid (atIssue i t)) i.wid).modTeam i.wid cleanStash)
      { flit := { op := 18, dev := dev, core := core, fn := n, words := [(0, w.toNat)] }, owner := .team t.info.seq.toNat v.toNat,
        node := t.info.node, ctx := t.info.ctx, counted := some t.info.seq.toNat }) i) := by
  obtain ⟨body, hexec, hbody⟩ := ctradd_body hv hw href
  have acks : awaitAcks (atIssue i t) 5 = .ok () := by
    rw [awaitAcks, atIssue, Team.advance_acks, hacks]
    rfl
  rw [hexec]
  refine issue_next plain h (hbody.trans ?_)
  rw [hnear, if_neg hother, acks, Team.seqNo, atIssue_info]
  rfl

end CounterAdd

/-- CTRADD acts so. -/
theorem counterAdd : Claims.CounterAdd := by
  intro s i t a b v w h ha u hv hw stops
  refine ⟨ctradd_malformed h hv hw ha, fun dev core n href => ⟨ctradd_unreached h hv hw href ha, fun hown => ?_, ctradd_far h hv hw href⟩⟩
  refine ⟨_, ctradd_own h hv hw href hown, fun k => ?_, counted_leaves .., ?_⟩
  · rw [doneAs_mem, counted_mem]
  · exact raised_doneAs i (counted_raised s i u core n (s.ctr core n + w))

/-! ### CTRWAIT, CTRSET and CTRSEAL (R268, R404) -/

section OwnCounter
variable {s : State} {i : Issue} {t : Team} {d : BitVec 6} {a b : BitVec 7} {v w : DWord} {p : Nat}
  (hv : sourceA i (atIssue i t) (coreWord s i.core) a = .ok v) (hw : sourceA i (atIssue i t) (coreWord s i.core) b = .ok w)
  (hp : (atIssue i t).a.win.reg 256 d.toNat = .ok p)

include hv in
theorem ownCounter_ok (hn : v.toNat < 256) : ownCounter (s.setTeam i.wid (atIssue i t)) i (atIssue i t) a = .ok v.toNat := by
  simp only [ownCounter, coreWord_setTeam, hv, decide_eq_false (Nat.not_le.2 hn), raiseIf_false, bind, Except.bind]

include hv in
theorem ownCounter_raises (hn : 256 ≤ v.toNat) : ownCounter (s.setTeam i.wid (atIssue i t)) i (atIssue i t) a = raise 0x154 := by
  simp only [ownCounter, coreWord_setTeam, hv, decide_eq_true hn, raiseIf_true, raise, bind, Except.bind]

include hv in
/-- An instruction of a counter that the core does not have. -/
theorem counter_stops {x : Instr} (ha : i.stream = .a) (hx : x = .ctrwait d a b ∨ x = .ctrwaitPoll d a ∨ x = .ctrset a b ∨ x = .ctrseal d a)
    (h : Issuing x s i t) (hn : 256 ≤ v.toNat) : exec x s = .next (settle s i t { value := v } (raise 0x154)) := by
  have stops := ownCounter_raises hv hn
  rcases hx with rfl | rfl | rfl | rfl
  · exact (exec_ctrwait ..).trans (issue_raises_source plain h ha rfl rfl hv (by rw [stops]; rfl))
  · exact (exec_ctrwaitPoll ..).trans (issue_raises_source plain h ha rfl rfl hv (by rw [stops]; rfl))
  · exact (exec_ctrset ..).trans (issue_raises_source plain h ha rfl rfl hv (by rw [stops]; rfl))
  · exact (exec_ctrseal ..).trans (issue_raises_source copyRaises h ha rfl rfl hv (by rw [stops]; rfl))

variable (hn : v.toNat < 256)

section Wait
variable (h : Issuing (.ctrwait d a b) s i t)
include hv hw hp hn h

/-- CTRWAIT of a counter that has reached the threshold. -/
theorem ctrwait_goes (hreach : w.toNat ≤ (s.ctr i.core v.toNat).toNat) :
    exec (.ctrwait d a b) s = .next (doneWith s i { Claims.setS (atIssue i t) p (s.ctr i.core v.toNat) with acq := [] }) := by
  have reach : decide (((s.setTeam i.wid (atIssue i t)).ctr i.core v.toNat).toNat < w.toNat) = false := decide_eq_false (Nat.not_lt.2 hreach)
  rw [exec_ctrwait]
  refine issue_team plain h ?_
  simp only [ownCounter_ok hv hn, coreWord_setTeam, hw, hp, reach, waitWhile_false, writeS_eq _ hp, State.setTeam_setTeam, bind, Except.bind]
  rfl

/-- CTRWAIT of a counter below the threshold. -/
theorem ctrwait_waits (hlow : (s.ctr i.core v.toNat).toNat < w.toNat) :
    exec (.ctrwait d a b) s = .next (noteWait s i (.other v.toNat) []) := by
  have low : decide (((s.setTeam i.wid (atIssue i t)).ctr i.core v.toNat).toNat < w.toNat) = true := decide_eq_true hlow
  rw [exec_ctrwait]
  refine issue_wait plain h ?_
  simp only [ownCounter_ok hv hn, coreWord_setTeam, hw, hp, low, waitWhile_true, waitOn, bind, Except.bind]

end Wait

include hv hp hn in
theorem ctrwaitPoll_gives (h : Issuing (.ctrwaitPoll d a) s i t) :
    exec (.ctrwaitPoll d a) s = .next (doneWith s i (Claims.setS (atIssue i t) p (s.ctr i.core v.toNat))) := by
  rw [exec_ctrwaitPoll]
  refine issue_team plain h ?_
  simp only [ownCounter_ok hv hn, writeS_eq _ hp, State.setTeam_setTeam, bind, Except.bind]
  rfl

include hv hw hn in
/-- CTRSET writes the counter behind a release, and tests its acorns where it has risen. -/
theorem ctrset_sets (h : Issuing (.ctrset a b) s i t) : exec (.ctrset a b) s = .next (doneAs
    (if (s.ctr i.core v.toNat).toNat < w.toNat then counted s i (atIssue i t) i.core v.toNat w
      else (advanceGen (s.setTeam i.wid (atIssue i t)) i.wid).setCtr i.core v.toNat w) i) := by
  rw [exec_ctrset]
  refine issue_next plain h ?_
  simp only [ownCounter_ok hv hn, coreWord_setTeam, hw, bind, Except.bind]
  rfl

end OwnCounter

/-- A rise leaves the teams, and the seals that wait. -/
theorem raiseCtr_keeps (s : State) (core n : Nat) (amount : DWord) :
    (raiseCtr s core n amount).teams = s.teams ∧ (raiseCtr s core n amount).eng.seals = s.eng.seals := by
  have h := tested_testAcorns (s.setCtr core n (s.ctr core n + amount)) core n
  refine ⟨h.teams, ?_⟩
  rw [raiseCtr, h.eng]
  rfl

/-- Of the seals those of batches that are not complete stay. -/
theorem checkSeals_keeps (s : State) : (checkSeals s).teams = s.teams ∧
    (checkSeals s).eng.seals = s.eng.seals.filter fun x => (pendingBatches s x.owner).contains x.batch := by
  unfold checkSeals
  simp only [Bool.not_not]
  refine List.foldlRecOn (motive := fun r : State => r.teams = s.teams ∧ r.eng.seals = _) _ _ ⟨rfl, rfl⟩ fun r hr x _ => ?_
  obtain ⟨teams, seals⟩ := raiseCtr_keeps r x.core x.ctr 1
  exact ⟨teams.trans hr.1, seals.trans hr.2⟩

/-- A lone seal that is ready raises its counter. -/
theorem checkSeals_raises {s : State} {x : SealRaise} (halone : s.eng.seals = [x])
    (hready : (pendingBatches s x.owner).contains x.batch = false) :
    Claims.raised s (checkSeals s) x.core x.ctr (s.ctr x.core x.ctr + 1) := by
  unfold checkSeals
  simp only [halone, List.filter_singleton, hready, Bool.not_false, cond_true, List.foldl_cons, List.foldl_nil]
  exact raised_raiseCtr rfl rfl

/-- The state in which the team `u` has sealed a batch for a counter. -/
def withSeal (s : State) (i : Issue) (u : Team) (x : SealRaise) : State :=
  let r := advanceGen (s.setTeam i.wid u) i.wid
  { r with eng := { r.eng with seals := r.eng.seals ++ [x] } }

section WithSeal
variable (s : State) (i : Issue) (u : Team) (x : SealRaise)

theorem withSeal_seals : (withSeal s i u x).eng.seals = s.eng.seals ++ [x] := by
  rw [withSeal, advanceGen_eng]
  rfl

theorem withSeal_pending (seq : Nat) : pendingBatches (withSeal s i u x) seq = pendingBatches s seq := by
  rw [pendingBatches, withSeal, advanceGen_eng, advanceGen_fab]
  rfl

theorem withSeal_mem : (withSeal s i u x).mem = s.mem := advanceGen_mem (s.setTeam i.wid u) i.wid

theorem sealed_leaves : Claims.leaves (doneAs (checkSeals (withSeal s i u x)) i) i u := by
  have teams : (withSeal s i u x).teams = (advanceGen (s.setTeam i.wid u) i.wid).teams := rfl
  refine leaves_of_bare ?_
  rw [State.bareTeam_of_teams ((checkSeals_keeps _).1.trans teams), advanceGen_bareTeam, State.bareTeam, State.setTeam_team?_same, Option.map_some]

/-- A seal of a batch with work that has not ended waits. -/
theorem sealed_waits (hmore : (pendingBatches s x.owner).contains x.batch = true) : x ∈ (checkSeals (withSeal s i u x)).eng.seals := by
  rw [(checkSeals_keeps _).2, withSeal_seals, List.mem_filter, withSeal_pending]
  exact ⟨List.mem_append_right _ (List.mem_singleton_self x), hmore⟩

/-- A lone seal of a batch that has ended raises its counter at once. -/
theorem sealed_raises (hnone : (pendingBatches s x.owner).contains x.batch = false) (halone : s.eng.seals = []) :
    (checkSeals (withSeal s i u x)).eng.seals = [] ∧
      Claims.raised s (checkSeals (withSeal s i u x)) x.core x.ctr (s.ctr x.core x.ctr + 1) := by
  have seals : (withSeal s i u x).eng.seals = [x] := by rw [withSeal_seals, halone, List.nil_append]
  constructor
  · rw [(checkSeals_keeps _).2, seals, List.filter_singleton, withSeal_pending, hnone]
    rfl
  · have ready : (pendingBatches (withSeal s i u x) x.owner).contains x.batch = false := by rw [withSeal_pending, hnone]
    have ctr : (withSeal s i u x).ctr x.core x.ctr = s.ctr x.core x.ctr := advanceGen_ctr s i u x.core x.ctr
    rw [← ctr]
    exact raised_of_eq (r := withSeal s i u x) (advanceGen_cores (s.setTeam i.wid u) i.wid) (advanceGen_fab (s.setTeam i.wid u) i.wid)
      (checkSeals_raises seals ready)

end WithSeal

/-- The team `u` with its open batch `n` closed. -/
def batchClosed (u : Team) (n : Nat) : Team := { u with batch := (n + 1) % 2 ^ 32 }

theorem sealBatch_closes {s : State} {i : Issue} {t : Team} (hroom : unfinished s t < 64) :
    sealBatch (s.setTeam i.wid (atIssue i t)) (atIssue i t) = .ok (t.batch, batchClosed (atIssue i t) t.batch) := by
  have batch : (atIssue i t).batch = t.batch := t.advance_batch _
  rw [sealBatch, unfinished_atIssue, decide_eq_false (Nat.not_le.2 hroom), batch]
  rfl

theorem seqNo_setS_batchClosed (i : Issue) (t : Team) (n p : Nat) (x : DWord) :
    (Claims.setS (batchClosed (atIssue i t) n) p x).seqNo = t.info.seq.toNat :=
  congrArg (fun x : TeamInfo => x.seq.toNat) (atIssue_info i t)

/-- CTRSEAL with fewer than 64 sealed batches unfinished. -/
theorem ctrseal_seals {s : State} {i : Issue} {t : Team} {d : BitVec 6} {a : BitVec 7} {v : DWord} {p : Nat}
    (hv : sourceA i (atIssue i t) (coreWord s i.core) a = .ok v) (hp : (atIssue i t).a.win.reg 256 d.toNat = .ok p) (hn : v.toNat < 256)
    (h : Issuing (.ctrseal d a) s i t) (hroom : unfinished s t < 64) : exec (.ctrseal d a) s = .next (doneAs (checkSeals (withSeal s i
      (Claims.setS (batchClosed (atIssue i t) t.batch) p (BitVec.ofNat 64 t.batch))
      { owner := t.info.seq.toNat, batch := t.batch, core := i.core, ctr := v.toNat })) i) := by
  have written := writeS_eq (u := batchClosed (atIssue i t) t.batch) (BitVec.ofNat 64 t.batch) hp
  rw [exec_ctrseal]
  refine issue_next copyRaises h ?_
  simp only [ownCounter_ok hv hn, hp, sealBatch_closes hroom, written, seqNo_setS_batchClosed, State.setTeam_setTeam, bind, Except.bind]
  rfl

/-- CTRWAIT, CTRWAIT.POLL, CTRSET and CTRSEAL act so. -/
theorem counterRest : Claims.CounterRest := by
  intro s i t d a b v w p ha u n hv hw hp
  refine ⟨fun x hx h hn => counter_stops hv ha hx h hn, fun hn => ⟨fun h => ⟨ctrwait_goes hv hw hp hn h, ctrwait_waits hv hw hp hn h⟩,
    ctrwaitPoll_gives hv hp hn, fun h => ?_, fun h hroom => ?_⟩⟩
  · refine ⟨_, ctrset_sets hv hw hn h, ?_⟩
    split
    · next hrise =>
      have raised := raised_doneAs i (counted_raised s i (atIssue i t) i.core v.toNat w)
      refine ⟨fun k => ?_, counted_leaves .., raised.1, fun _ => raised⟩
      rw [doneAs_mem, counted_mem]
    · next hlow =>
      refine ⟨fun k => ?_, ?_, State.setCtr_ctr_same .., fun hrise => absurd hrise hlow⟩
      · rw [doneAs_mem, State.setCtr_mem, advanceGen_mem, State.setTeam_mem]
      · refine leaves_of_bare ?_
        rw [State.setCtr, State.setCore_bareTeam, advanceGen_bareTeam, State.bareTeam, State.setTeam_team?_same, Option.map_some]
  · refine ⟨_, ctrseal_seals hv hp hn h hroom, fun k => ?_, sealed_leaves .., fun hmore => ?_, fun hnone halone => ?_⟩
    · rw [doneAs_mem, checkSeals_mem, withSeal_mem]
    · exact sealed_waits s i _ _ hmore
    · obtain ⟨seals, raised⟩ := sealed_raises s i (Claims.setS (batchClosed (atIssue i t) t.batch) p (BitVec.ofNat 64 t.batch))
        { owner := t.info.seq.toNat, batch := t.batch, core := i.core, ctr := v.toNat } hnone halone
      exact ⟨seals, raised_doneAs i raised⟩

/-! ### The read of a descriptor (R107, R256, R403) -/

/-- A read of a team changes no more than translation buffers, caches and stashes: not the fabric, and of the cores and teams nothing else. -/
structure ReadThrough (s r : State) : Prop where
  fab : r.fab = s.fab
  cores : ∀ c, r.core c = { s.core c with tlb := (r.core c).tlb, l1 := (r.core c).l1, fills := (r.core c).fills }
  teams : ∀ w, r.bareTeam w = s.bareTeam w

theorem ReadThrough.refl (s : State) : ReadThrough s s := ⟨rfl, fun _ => rfl, fun _ => rfl⟩

theorem ReadThrough.trans {s r q : State} (h : ReadThrough s r) (k : ReadThrough r q) : ReadThrough s q :=
  ⟨k.fab.trans h.fab, fun c => (k.cores c).trans (by rw [h.cores c]), fun w => (k.teams w).trans (h.teams w)⟩

theorem Wrote.readThrough {s r : State} (h : Wrote s r) : ReadThrough s r := by
  refine ⟨h.fab, fun c => (h.cores c).trans ?_, h.teams⟩
  rw [h.cores c]

theorem readThrough_core {s : State} {c : Nat} {k : Core} (hk : k = { s.core c with tlb := k.tlb, l1 := k.l1, fills := k.fills }) :
    ReadThrough s (s.setCore c k) := by
  refine ⟨rfl, fun d => ?_, fun _ => rfl⟩
  by_cases hd : d = c
  · rw [hd, State.setCore_core_same]
    exact hk
  · rw [State.setCore_core_other s _ hd]

theorem readThrough_modTeam {s : State} {w : Nat} {f : Team → Team} (hf : ∀ t, (f t).bare = t.bare) : ReadThrough s (s.modTeam w f) := by
  refine ⟨rfl, fun _ => rfl, fun j => ?_⟩
  by_cases hj : j = w
  · rw [hj, State.bareTeam, State.bareTeam, State.modTeam_team?_same, Option.map_map]
    exact Option.map_congr fun t _ => hf t
  · rw [State.bareTeam, State.modTeam_team?_other s f hj, State.bareTeam]

theorem readThrough_fillFor (s : State) (core ctx : Nat) (r : TReg) (va size : Nat) : ReadThrough s (fillFor s core ctx r va size) := by
  unfold fillFor xlateFill tlbFill
  split
  · exact .refl s
  · split
    · split
      · exact .refl s
      · split
        · exact (readThrough_core rfl).trans ⟨rfl, fun _ => rfl, fun _ => rfl⟩
        · exact .refl s
    · exact .refl s

theorem l1Read_eq (k : Core) (pa : Nat) (cls : BitVec 2) :
    l1Read k pa cls = { k with tlb := (l1Read k pa cls).tlb, l1 := (l1Read k pa cls).l1, fills := (l1Read k pa cls).fills } := by
  unfold l1Read
  dsimp only
  split
  · rfl
  · split
    · rfl
    · split <;> rfl

theorem readThrough_physTouchRead (s : State) (acc : Accessor) (pa : Nat) (attr : PageAttr) (cls : BitVec 2) (l1 : Bool) :
    ReadThrough s (physTouchRead s acc pa attr cls l1) := by
  have touched := ((wrote_l2Touch s acc.node pa attr cls).trans (wrote_recallStash _ acc.wid (pa / 128) false)).readThrough
  unfold physTouchRead
  dsimp only
  split
  · exact touched.trans (readThrough_core (l1Read_eq ..))
  · exact touched

/-- A team's read without an acquire. -/
theorem readThrough_performRead (s : State) (wid : Nat) (t : Team) (r : TReg) (l : Located) (size : Nat) (cls : BitVec 2) :
    ReadThrough s (performRead s wid t r l size cls 0 0) := by
  have filled := readThrough_fillFor s (coreOf wid) t.info.ctx r l.va size
  unfold performRead
  refine filled.trans ?_
  dsimp only
  rw [if_neg (by decide)]
  split
  · refine readThrough_modTeam fun t => ?_
    unfold touchStash
    split <;> rfl
  · exact readThrough_physTouchRead ..

/-! ### TRGPOST (R397, R398) -/

/-- The state in which a core's entry `n` has taken an acorn, and has been tested, behind the read of its descriptor and a release. -/
def posted (r : State) (i : Issue) (n : Nat) (a : Acorn) : State :=
  let r1 := r.setCore i.core { r.core i.core with acorns := tabSet (r.core i.core).acorns n a }
  let r2 := if a.desc.onSwitch then noteChunk r1 a.desc.group a.desc.chunk else r1
  testAcorn (advanceGen r2 i.wid) i.core n

section Posted
variable {s r : State} {i : Issue} {n : Nat} {a : Acorn}

/-- Behind the release, the cores but for the new acorn, and the pauses, are what they were. -/
theorem posted_tested : ∃ q : State, posted r i n a = testAcorn q i.core n ∧ q.mem = r.mem ∧ (∀ w, q.bareTeam w = r.bareTeam w) ∧
    q.fab.pauses = r.fab.pauses ∧ q.core i.core = { r.core i.core with acorns := tabSet (r.core i.core).acorns n a } := by
  unfold posted
  generalize hr1 : r.setCore i.core { r.core i.core with acorns := tabSet (r.core i.core).acorns n a } = r1
  have kept : ∀ r2 : State, (if a.desc.onSwitch then noteChunk r1 a.desc.group a.desc.chunk else r1) = r2 →
      r2.mem = r.mem ∧ r2.teams = r.teams ∧ r2.fab.pauses = r.fab.pauses ∧ r2.cores = r1.cores := by
    rintro r2 rfl
    subst hr1
    split <;> exact ⟨rfl, rfl, rfl, rfl⟩
  obtain ⟨mem, teams, pauses, cores⟩ := kept _ rfl
  refine ⟨_, rfl, (advanceGen_mem ..).trans mem, fun w => (advanceGen_bareTeam ..).trans (State.bareTeam_of_teams teams w), ?_, ?_⟩
  · rw [advanceGen_fab, pauses]
  · rw [State.core, advanceGen_cores, cores, ← State.core, ← hr1, State.setCore_core_same]

theorem posted_mem : (posted r i n a).mem = r.mem := by
  obtain ⟨q, hq, mem, -⟩ := posted_tested (r := r) (i := i) (n := n) (a := a)
  rw [hq, testAcorn_mem, mem]

theorem posted_bareTeam (w : Nat) : (posted r i n a).bareTeam w = r.bareTeam w := by
  obtain ⟨q, hq, -, teams, -⟩ := posted_tested (r := r) (i := i) (n := n) (a := a)
  rw [hq, State.bareTeam_of_teams (tested_testAcorn ..).teams, teams]

/-- The entry holds the acorn, that fires where its counter has reached its threshold; the others are what they were. -/
theorem posted_acorns : tabGet ((posted r i n a).core i.core).acorns n = some (fired r i.core a) ∧
    ∀ k, k ≠ n → tabGet ((posted r i n a).core i.core).acorns k = tabGet (r.core i.core).acorns k := by
  obtain ⟨q, hq, -, -, pauses, core⟩ := posted_tested (r := r) (i := i) (n := n) (a := a)
  have same : fired q i.core a = fired r i.core a := by
    rw [fired, acornPaused, paused, pauses, State.ctr, core, fired, acornPaused, paused, State.ctr]
  rw [hq]
  refine ⟨?_, fun k hk => ?_⟩
  · rw [(tested_testAcorn ..).acorns, core, tabGet_tabSet_same, ← same]
    simp
  · rw [(tested_testAcorn ..).acorns, core, tabGet_tabSet_other _ _ hk, beq_false_of_ne hk]
    exact Option.map_id'

end Posted

/-- A read of an address without a race. -/
theorem checkRaces_ok {s : State} {wid : Nat} {t : Team} {l : Located} {size : Nat} {writes : Bool}
    (h : raceTest s wid t.acq (s.region t.info.node).racechk l.attr.nc l.pa size = none) : checkRaces s wid t [l] size writes = .ok () := by
  simp [checkRaces, h]

theorem probeLocal_setTeam (s : State) (w : Nat) (u : Team) (core ctx : Nat) (x : AcornDesc) :
    probeLocal (s.setTeam w u) core ctx x = probeLocal s core ctx x := by
  simp only [probeLocal, probeRange_setTeam]

section Post
variable {s : State} {i : Issue} {t : Team} {d : BitVec 6} {a : BitVec 7} {v : DWord} {p : Nat} (h : Issuing (.trgpost d a) s i t)
  (hv : sourceA i (atIssue i t) (coreWord s i.core) a = .ok v) (hp : (atIssue i t).a.win.reg 256 d.toNat = .ok p)
include h hv hp

/-- TRGPOST of a misaligned descriptor. -/
theorem trgpost_misaligned (ha : i.stream = .a) (hmis : v.toNat % 64 ≠ 0) :
    exec (.trgpost d a) s = .next (settle s i t { value := v } (raise 0x150)) := by
  have mis : (v.toNat % 64 != 0) = true := bne_iff_ne.2 hmis
  rw [exec_trgpost]
  refine issue_raises_source plain h ha rfl rfl hv ?_
  simp only [coreWord_setTeam, hv, hp, mis, raiseIf_true, raise, bind, Except.bind]

variable {l : Located} (hal : v.toNat % 64 = 0) (hl : checkAccess s i.core t.info.ctx { valid := true } none v.toNat 64 .read = .at_ l)
  (hrace : Claims.noRace s i t [l] 64)

omit h hv hp in
include hl hrace in
theorem descriptorRead_ok : descriptorRead (s.setTeam i.wid (atIssue i t)) i (atIssue i t) v.toNat = .ok l := by
  have clear : checkRaces (s.setTeam i.wid (atIssue i t)) i.wid (atIssue i t) [l] 64 false = .ok () := by
    refine checkRaces_ok ?_
    rw [atIssue_info, atIssue, Team.advance_acq]
    exact hrace l (List.mem_singleton_self l)
  rw [descriptorRead, checkAccess_setTeam, atIssue_info, hl]
  dsimp only
  rw [clear]
  rfl

include hal hl hrace

/-- TRGPOST of a descriptor out of order. -/
theorem trgpost_bad (ha : i.stream = .a) (hbad : acornBad (memBytes s.mem l.pa 64) = true) :
    exec (.trgpost d a) s = .next (settle s i t { value := v } (raise 0x150)) := by
  have aligned : (v.toNat % 64 != 0) = false := bne_eq_false_iff_eq.2 hal
  rw [exec_trgpost]
  refine issue_raises_source plain h ha rfl rfl hv ?_
  simp only [coreWord_setTeam, hv, hp, aligned, raiseIf_false, descriptorRead_ok hl hrace, State.setTeam_mem, hbad, raiseIf_true, raise, bind,
    Except.bind]

variable (hgood : acornBad (memBytes s.mem l.pa 64) = false)
include hgood

/-- TRGPOST toward a device that is not reached. -/
theorem trgpost_unreached (ha : i.stream = .a) (hop : (acornDesc (memBytes s.mem l.pa 64)).op ≠ 4)
    (hfar : reaches s (acornDesc (memBytes s.mem l.pa 64)).dev = false) :
    exec (.trgpost d a) s = .next (settle s i t { value := v } (raise 0x140)) := by
  have aligned : (v.toNat % 64 != 0) = false := bne_eq_false_iff_eq.2 hal
  have far : ((acornDesc (memBytes s.mem l.pa 64)).op != 4 && !reaches (s.setTeam i.wid (atIssue i t)) (acornDesc (memBytes s.mem l.pa 64)).dev) = true := by
    rw [bne_iff_ne.2 hop, Bool.true_and]
    exact congrArg (!·) hfar
  rw [exec_trgpost]
  refine issue_raises_source plain h ha rfl rfl hv ?_
  simp only [coreWord_setTeam, hv, hp, aligned, raiseIf_false, descriptorRead_ok hl hrace, State.setTeam_mem, hgood, far, raiseIf_true, raise, bind,
    Except.bind]

variable (hop : (acornDesc (memBytes s.mem l.pa 64)).op = 4 ∨ reaches s (acornDesc (memBytes s.mem l.pa 64)).dev = true)
  (hprobe : probeLocal s i.core t.info.ctx (acornDesc (memBytes s.mem l.pa 64)) = (none, []))

omit h hv hp hal hl hrace hgood in
include hop in
theorem near_of_op : ((acornDesc (memBytes s.mem l.pa 64)).op != 4 &&
    !reaches (s.setTeam i.wid (atIssue i t)) (acornDesc (memBytes s.mem l.pa 64)).dev) = false := by
  rcases hop with h4 | hnear
  · rw [h4]
    rfl
  · have near : reaches (s.setTeam i.wid (atIssue i t)) (acornDesc (memBytes s.mem l.pa 64)).dev = true := hnear
    rw [near, Bool.not_true, Bool.and_false]

include hop hprobe

/-- TRGPOST with the table full. -/
theorem trgpost_full (ha : i.stream = .a) (hfull : tabFree (s.core i.core).acorns 64 = none) :
    exec (.trgpost d a) s = .next (settle s i t { value := v } (raise 0x151)) := by
  have aligned : (v.toNat % 64 != 0) = false := bne_eq_false_iff_eq.2 hal
  rw [exec_trgpost]
  refine issue_raises_source plain h ha rfl rfl hv ?_
  simp only [coreWord_setTeam, hv, hp, aligned, raiseIf_false, descriptorRead_ok hl hrace, State.setTeam_mem, hgood, near_of_op hop,
    atIssue_info, probeLocal_setTeam, hprobe, State.setTeam_core, hfull, raise, bind, Except.bind]

/-- The acorn that TRGPOST makes of a descriptor. -/
def newAcorn (t : Team) (x : AcornDesc) : Acorn := { desc := x, node := t.info.node, ctx := t.info.ctx, rank := t.info.rank, owner := t.seqNo }

/-- TRGPOST of a descriptor in order takes a free entry. -/
theorem trgpost_takes {n : Nat} (hfree : tabFree (s.core i.core).acorns 64 = some n) :
    exec (.trgpost d a) s = .next (doneAs (posted (performRead (s.setTeam i.wid (Claims.setS (atIssue i t) p (BitVec.ofNat 64 n))) i.wid
      (Claims.setS (atIssue i t) p (BitVec.ofNat 64 n)) { valid := true } l 64 0 0 0) i n (newAcorn t (acornDesc (memBytes s.mem l.pa 64)))) i) := by
  have aligned : (v.toNat % 64 != 0) = false := bne_eq_false_iff_eq.2 hal
  have mine : newAcorn t (acornDesc (memBytes s.mem l.pa 64)) =
      newAcorn (Claims.setS (atIssue i t) p (BitVec.ofNat 64 n)) (acornDesc (memBytes s.mem l.pa 64)) := by
    unfold newAcorn Team.seqNo
    rw [← atIssue_info i t]
    rfl
  rw [exec_trgpost, mine]
  refine issue_next plain h ?_
  simp only [coreWord_setTeam, hv, hp, aligned, raiseIf_false, descriptorRead_ok hl hrace, State.setTeam_mem, hgood, near_of_op hop,
    atIssue_info, probeLocal_setTeam, hprobe, State.setTeam_core, hfree, awaitPages, List.find?_nil, writeS_eq _ hp, State.setTeam_setTeam, bind,
    Except.bind]
  rfl

end Post

/-- A new acorn, behind a read of its team: where its operation is not a paused reduction, it fires when its counter has reached its threshold. -/
theorem posted_behind {s r : State} {i : Issue} {u : Team} (n : Nat) (a : Acorn) (read : ReadThrough (s.setTeam i.wid u) r)
    (hidle : a.firing = false) : (posted r i n a).bareTeam i.wid = some u.bare ∧ ∃ w, tabGet ((posted r i n a).core i.core).acorns n = some w ∧
      (w.desc = a.desc ∧ w.node = a.node ∧ w.ctx = a.ctx ∧ w.rank = a.rank ∧ w.owner = a.owner) ∧
      (a.desc.op ≠ 2 ∨ a.desc.rfn < 9 → w.firing = decide (a.desc.thresh ≤ (s.ctr i.core a.desc.ctr).toNat)) ∧
      ∀ k, k ≠ n → tabGet ((posted r i n a).core i.core).acorns k = tabGet (s.core i.core).acorns k := by
  obtain ⟨held, others⟩ := posted_acorns (r := r) (i := i) (n := n) (a := a)
  refine ⟨?_, _, held, ⟨rfl, rfl, rfl, rfl, rfl⟩, fun hrun => ?_, fun k hk => (others k hk).trans ?_⟩
  · rw [posted_bareTeam, read.teams, State.bareTeam, State.setTeam_team?_same, Option.map_some]
  · have free : acornPaused r a.desc = false := by
      rcases hrun with hkind | hfn
      · rw [acornPaused, beq_false_of_ne hkind, Bool.false_and, Bool.false_and]
      · rw [acornPaused, decide_eq_false (Nat.not_le.2 hfn), Bool.and_false, Bool.false_and]
    have ctr : r.ctr i.core a.desc.ctr = s.ctr i.core a.desc.ctr := by rw [State.ctr, read.cores, State.setTeam_core, State.ctr]
    simp only [fired, free, ctr, hidle, Bool.not_false, Bool.true_and, Bool.false_or]
  · rw [read.cores, State.setTeam_core]

theorem doneAs_core (s : State) (i : Issue) (c : Nat) : (doneAs s i).core c = s.core c := rfl

/-- TRGPOST acts so. -/
theorem acornPost : Claims.AcornPost := by
  intro s i t d a v p l h ha hv hp stops
  refine ⟨trgpost_misaligned h hv hp ha, fun hal hl hrace => ⟨trgpost_bad h hv hp hal hl hrace ha, fun hgood hop hfar =>
    trgpost_unreached h hv hp hal hl hrace hgood ha hop hfar, fun hgood hop hprobe => ⟨fun hfull =>
    trgpost_full h hv hp hal hl hrace hgood hop hprobe ha (tabFree_eq_none hfull), fun n hn hnone hlow => ?_⟩⟩⟩
  have takes := trgpost_takes h hv hp hal hl hrace hgood hop hprobe (tabFree_eq_some hn hnone hlow)
  have read := readThrough_performRead (s.setTeam i.wid (Claims.setS (atIssue i t) p (BitVec.ofNat 64 n))) i.wid
    (Claims.setS (atIssue i t) p (BitVec.ofNat 64 n)) { valid := true } l 64 0
  obtain ⟨team, w, held, ⟨desc, node, ctx, rank, owner⟩, firing, others⟩ :=
    posted_behind n (newAcorn t (acornDesc (memBytes s.mem l.pa 64))) read rfl
  refine ⟨_, w, takes, fun k => ?_, leaves_of_bare team, ?_⟩
  · rw [doneAs_mem, posted_mem, performRead_mem, State.setTeam_mem]
  · rw [doneAs_core]
    exact ⟨held, desc, node, ctx, rank, owner, firing, others⟩

/-! ### TRGCANCEL (R404) -/

section Cancel
variable {s : State} {i : Issue} {t : Team} {d : BitVec 6} {a : BitVec 7} {v : DWord} {p : Nat} (h : Issuing (.trgcancel d a) s i t)
  (hv : sourceA i (atIssue i t) (coreWord s i.core) a = .ok v) (hp : (atIssue i t).a.win.reg 256 d.toNat = .ok p)
include h hv hp

/-- TRGCANCEL that has waited takes what the operation left. -/
theorem trgcancel_takes {c : Nat} (hleft : t.cancelled = some (v.toNat, c)) :
    exec (.trgcancel d a) s = .next (doneWith s i (Claims.setS { atIssue i t with cancelled := none } p (BitVec.ofNat 64 c))) := by
  have left : (atIssue i t).cancelled = some (v.toNat, c) := (t.advance_cancelled _).trans hleft
  have written := writeS_eq (u := { atIssue i t with cancelled := none }) (BitVec.ofNat 64 c) hp
  rw [exec_trgcancel]
  refine issue_team plain h ?_
  simp only [coreWord_setTeam, hv, hp, left, Option.filter_some, decide_true, if_true, written, State.setTeam_setTeam, bind, Except.bind]

variable (hnone : t.cancelled = none)
include hnone

/-- TRGCANCEL of an entry that is not in use. -/
theorem trgcancel_free (ha : i.stream = .a) (hfree : tabGet (s.core i.core).acorns v.toNat = none) :
    exec (.trgcancel d a) s = .next (settle s i t { value := v } (raise 0x152)) := by
  have none : (atIssue i t).cancelled = none := (t.advance_cancelled _).trans hnone
  rw [exec_trgcancel]
  refine issue_raises_source plain h ha rfl rfl hv ?_
  simp only [coreWord_setTeam, hv, hp, none, Option.filter_none, State.setTeam_core, hfree, raise, bind, Except.bind]

variable {x : Acorn} (hx : tabGet (s.core i.core).acorns v.toNat = some x)
include hx

/-- TRGCANCEL of an acorn of another region. -/
theorem trgcancel_other (ha : i.stream = .a) (hnode : x.node ≠ t.info.node) :
    exec (.trgcancel d a) s = .next (settle s i t { value := v } (raise 0x152)) := by
  have none : (atIssue i t).cancelled = none := (t.advance_cancelled _).trans hnone
  have other : (x.node != t.info.node) = true := bne_iff_ne.2 hnode
  rw [exec_trgcancel]
  refine issue_raises_source plain h ha rfl rfl hv ?_
  simp only [coreWord_setTeam, hv, hp, none, Option.filter_none, State.setTeam_core, hx, atIssue_info, other, raiseIf_true, raise, bind, Except.bind]

variable (hnode : x.node = t.info.node)
include hnode

/-- TRGCANCEL of a firing acorn. -/
theorem trgcancel_waits (hfiring : x.firing = true) : exec (.trgcancel d a) s = .next (noteWait s i (.cancel v.toNat) []) := by
  have none : (atIssue i t).cancelled = none := (t.advance_cancelled _).trans hnone
  have own : (x.node != t.info.node) = false := bne_eq_false_iff_eq.2 hnode
  rw [exec_trgcancel]
  refine issue_wait plain h ?_
  simp only [coreWord_setTeam, hv, hp, none, Option.filter_none, State.setTeam_core, hx, atIssue_info, own, raiseIf_false, hfiring, waitWhile_true,
    waitOn, bind, Except.bind]

/-- TRGCANCEL of an armed acorn frees it. -/
theorem trgcancel_frees (hidle : x.firing = false) : exec (.trgcancel d a) s = .next (doneAs
    ((s.setTeam i.wid (Claims.setS (atIssue i t) p 0)).setCore i.core
      { s.core i.core with acorns := tabDel (s.core i.core).acorns v.toNat }) i) := by
  have none : (atIssue i t).cancelled = none := (t.advance_cancelled _).trans hnone
  have own : (x.node != t.info.node) = false := bne_eq_false_iff_eq.2 hnode
  rw [exec_trgcancel]
  refine issue_next plain h ?_
  simp only [coreWord_setTeam, hv, hp, none, Option.filter_none, State.setTeam_core, hx, atIssue_info, own, raiseIf_false, hidle, waitWhile_false,
    writeS_eq _ hp, State.setTeam_setTeam, bind, Except.bind]
  rfl

end Cancel

/-- TRGCANCEL acts so. -/
theorem acornCancel : Claims.AcornCancel := by
  intro s i t d a v p h ha hv hp n u
  exact ⟨fun c => trgcancel_takes h hv hp, fun hnone => ⟨trgcancel_free h hv hp hnone ha, fun x hx =>
    ⟨trgcancel_other h hv hp hnone hx ha, trgcancel_waits h hv hp hnone hx, trgcancel_frees h hv hp hnone hx⟩⟩⟩

/-- Settles O47: a raise is a write of the counter and a test of each acorn in turn, of which the tests behind it read nothing that changed. -/
theorem countersAndAcorns : Obligations.CountersAndAcorns := ⟨counterAdd, counterRest, acornPost, acornCancel⟩

end Sys2Proof.Machine

/-! ## COLL, its flits and their sending -/

namespace Sys2Proof.Machine

theorem exec_coll (d : BitVec 6) (a b : BitVec 7) (k : BitVec 4) (s : State) : exec (.coll d a b k) s = execColl d a b k s := rfl

/-! ### The flits of the home path (R283) -/

theorem sameUnit_iff {f g : Flit} : sameUnit f g = true ↔
    f.dev = g.dev ∧ f.scratch = g.scratch ∧ f.core = g.core ∧ f.slot = g.slot ∧ f.gen = g.gen ∧ f.unit = g.unit := by
  simp only [sameUnit, Bool.and_eq_true, beq_iff_eq, and_assoc]

theorem sameUnit_refl (f : Flit) : sameUnit f f = true := sameUnit_iff.2 ⟨rfl, rfl, rfl, rfl, rfl, rfl⟩

/-- A flit of the same unit is, toward every other, of the same unit or not alike. -/
theorem sameUnit_congr {f g h : Flit} (hfg : sameUnit f g = true) : sameUnit f h = sameUnit g h := by
  obtain ⟨dev, scratch, core, slot, gen, unit⟩ := sameUnit_iff.1 hfg
  simp only [sameUnit, dev, scratch, core, slot, gen, unit]

theorem sameUnit_comm (f g : Flit) : sameUnit f g = sameUnit g f := by
  rw [Bool.eq_iff_iff, sameUnit_iff, sameUnit_iff]
  simp only [eq_comm]

/-- The chunk and the contribution do not tell units apart. -/
theorem sameUnit_collShell (f : Flit) (c : CollDesc) (chunk cidx : Nat) (x : CollArg) :
    sameUnit f (collShell c chunk cidx x) = sameUnit f (collShell c 0 0 x) := rfl

/-- Data added to a flit leave its unit, its operation and its fields. -/
theorem collAdd_eq (w : Int) (f : Flit) (x : CollArg) : ∃ words sums, collAdd w f x = { f with words := words, sums := sums } := by
  unfold collAdd
  dsimp only
  split <;> exact ⟨_, _, rfl⟩

theorem sameUnit_collAdd (w : Int) (f g : Flit) (x : CollArg) : sameUnit (collAdd w f x) g = sameUnit f g := by
  obtain ⟨words, sums, h⟩ := collAdd_eq w f x
  rw [h]
  rfl

/-- What the lanes that name one word make of it, in ascending order. -/
def wordOf (c : CollDesc) : List CollArg → Option Nat
  | [] => none
  | y :: ys => some (if c.op = 1 then 0 else if c.op ≤ 2 then ((y :: ys).getLast?.map (·.data)).getD 0
      else ys.foldl (fun v z => collCombine c.op c.ty v z.data) y.data)

/-- A further lane's data in a word. -/
def wordNext (c : CollDesc) (x : CollArg) (old : Option Nat) : Nat :=
  if c.op = 1 then 0 else match old with
    | some old => if c.op ≤ 2 then x.data else collCombine c.op c.ty old x.data
    | none => x.data

theorem wordOf_append (c : CollDesc) (ys : List CollArg) (x : CollArg) : wordOf c (ys ++ [x]) = some (wordNext c x (wordOf c ys)) := by
  cases ys with
  | nil =>
    rw [List.nil_append, wordOf, wordOf, wordNext]
    simp
  | cons y ys =>
    rw [List.cons_append, wordOf, wordOf, wordNext]
    by_cases h1 : c.op = 1
    · rw [if_pos h1, if_pos h1]
    · by_cases h2 : c.op ≤ 2
      · simp only [if_neg h1, if_pos h2, ← List.cons_append, List.getLast?_concat, Option.map_some, Option.getD_some]
      · simp only [if_neg h1, if_neg h2, List.foldl_append, List.foldl_cons, List.foldl_nil]

/-- The lanes that name a word of a flit's unit. -/
def wordLanes (c : CollDesc) (f : Flit) (n : Nat) (ys : List CollArg) : List CollArg :=
  ys.filter fun y => sameUnit f (collShell c 0 0 y) && decide (y.addr % 64 / 4 = n)

/-- A flit is the flit of its unit, after the lanes `ys`. -/
structure FlitOf (c : CollDesc) (ys : List CollArg) (f : Flit) : Prop where
  named : ∃ y ∈ ys, sameUnit f (collShell c 0 0 y) = true
  op : f.op = c.op
  ty : f.ty = c.ty
  home : f.fields = none
  words : ∀ n, tabGet f.words n = wordOf c (wordLanes c f n ys)

/-- A lane that names another unit leaves the flit of this one. -/
theorem FlitOf.other {c : CollDesc} {ys : List CollArg} {f : Flit} {x : CollArg} (h : FlitOf c ys f)
    (hx : sameUnit f (collShell c 0 0 x) = false) : FlitOf c (ys ++ [x]) f := by
  obtain ⟨y, hy, same⟩ := h.named
  refine ⟨⟨y, List.mem_append_left _ hy, same⟩, h.op, h.ty, h.home, fun n => ?_⟩
  have apart : wordLanes c f n (ys ++ [x]) = wordLanes c f n ys := by
    rw [wordLanes, List.filter_append, List.filter_singleton, hx, Bool.false_and, cond_false, List.append_nil, wordLanes]
  rw [apart, h.words]

/-- A lane's data added to the flit `f` of its unit, whose words are those of the lanes before. -/
theorem flitOf_collAdd {c : CollDesc} {ys : List CollArg} {f : Flit} {x : CollArg} (w : Int) (hop : f.op = c.op) (hty : f.ty = c.ty)
    (hhome : f.fields = none) (hx : sameUnit f (collShell c 0 0 x) = true) (hwords : ∀ n, tabGet f.words n = wordOf c (wordLanes c f n ys)) :
    FlitOf c (ys ++ [x]) (collAdd w f x) := by
  have added : collAdd w f x = { f with words := tabSet f.words (x.addr % 64 / 4) (wordNext c x (tabGet f.words (x.addr % 64 / 4))) } := by
    unfold collAdd wordNext
    rw [hhome, hop, hty]
    rfl
  rw [added]
  refine ⟨⟨x, List.mem_append_right _ (List.mem_singleton_self x), hx⟩, hop, hty, hhome, fun n => ?_⟩
  have lanes : wordLanes c f n (ys ++ [x]) = wordLanes c f n ys ++ if x.addr % 64 / 4 = n then [x] else [] := by
    rw [wordLanes, List.filter_append, List.filter_singleton, hx, Bool.true_and, wordLanes]
    split <;> simp [*]
  change tabGet (tabSet f.words _ _) n = wordOf c (wordLanes c f n (ys ++ [x]))
  rw [lanes]
  by_cases hn : x.addr % 64 / 4 = n
  · rw [if_pos hn, wordOf_append, hn, tabGet_tabSet_same, hwords]
  · rw [if_neg hn, List.append_nil, tabGet_tabSet_other _ _ (Ne.symm hn), hwords]

/-- The lane `x` placed among the flits of the lanes `ys`. -/
theorem flitOf_collPlace {c : CollDesc} (hop : c.op ≤ 8) (w : Int) (chunk cidx : Nat) (ys : List CollArg) (x : CollArg) :
    ∀ fs : List Flit, fs.Pairwise (fun f g => sameUnit f g = false) → (∀ f ∈ fs, FlitOf c ys f) →
      ((∀ f ∈ fs, sameUnit f (collShell c 0 0 x) = false) → ∀ y ∈ ys, sameUnit (collShell c 0 0 x) (collShell c 0 0 y) = false) →
      (collPlace w (collShell c chunk cidx x) x fs).Pairwise (fun f g => sameUnit f g = false) ∧
      (∀ f ∈ collPlace w (collShell c chunk cidx x) x fs, FlitOf c (ys ++ [x]) f) ∧
      ∀ g, (collPlace w (collShell c chunk cidx x) x fs).any (sameUnit · g) = (fs.any (sameUnit · g) || sameUnit (collShell c 0 0 x) g)
  | [], _, _, hnew => by
    have low : ¬9 ≤ c.op := by omega
    have fresh : ∀ n, wordLanes c (collShell c chunk cidx x) n ys = [] := fun n => by
      refine List.filter_eq_nil_iff.2 fun y hy => ?_
      have apart : sameUnit (collShell c chunk cidx x) (collShell c 0 0 y) = false := hnew (fun _ h => absurd h List.not_mem_nil) y hy
      rw [apart, Bool.false_and]
      exact Bool.false_ne_true
    rw [collPlace]
    refine ⟨List.pairwise_singleton .., fun f hf => ?_, fun g => ?_⟩
    · rw [List.mem_singleton.1 hf]
      refine flitOf_collAdd w rfl rfl (if_neg low) (sameUnit_refl _) fun n => ?_
      rw [fresh]
      rfl
    · rw [List.any_cons, sameUnit_collAdd, List.any_nil, Bool.or_false, Bool.false_or]
      rfl
  | f :: fs, hpair, hall, hnew => by
    obtain ⟨hhead, htail⟩ := List.pairwise_cons.1 hpair
    have first := hall f List.mem_cons_self
    have rest : ∀ g ∈ fs, FlitOf c ys g := fun g hg => hall g (List.mem_cons_of_mem f hg)
    rw [collPlace, sameUnit_collShell]
    cases hx : sameUnit f (collShell c 0 0 x) with
    | true =>
      rw [if_pos rfl]
      refine ⟨List.pairwise_cons.2 ⟨fun g hg => (sameUnit_collAdd ..).trans (hhead g hg), htail⟩, fun g hg => ?_, fun g => ?_⟩
      · rcases List.mem_cons.1 hg with rfl | hg
        · exact flitOf_collAdd w first.op first.ty first.home hx first.words
        · refine (rest g hg).other ?_
          rw [sameUnit_comm, ← sameUnit_congr hx]
          exact hhead g hg
      · rw [List.any_cons, List.any_cons, sameUnit_collAdd, ← sameUnit_congr hx, Bool.or_right_comm, Bool.or_self]
    | false =>
      rw [if_neg Bool.false_ne_true]
      obtain ⟨pair, all, units⟩ := flitOf_collPlace hop w chunk cidx ys x fs htail rest fun hfs => hnew fun g hg => by
        rcases List.mem_cons.1 hg with rfl | hg
        · exact hx
        · exact hfs g hg
      refine ⟨List.pairwise_cons.2 ⟨fun g hg => ?_, pair⟩, fun g hg => ?_, fun g => ?_⟩
      · by_contra hsame
        rw [Bool.not_eq_false, sameUnit_comm] at hsame
        have found := (units f).symm.trans (List.any_eq_true.2 ⟨g, hg, hsame⟩)
        rw [sameUnit_comm _ f, hx, Bool.or_false, List.any_eq_true] at found
        obtain ⟨q, hq, hqf⟩ := found
        rw [sameUnit_comm, hhead q hq] at hqf
        cases hqf
      · rcases List.mem_cons.1 hg with rfl | hg
        · exact first.other hx
        · exact all g hg
      · rw [List.any_cons, List.any_cons, units, Bool.or_assoc]

/-- The flits of the lanes `ys`: one for each unit, that holds what the lanes name there. -/
structure FlitsOf (c : CollDesc) (ys : List CollArg) (fs : List Flit) : Prop where
  apart : fs.Pairwise (fun f g => sameUnit f g = false)
  each : ∀ f ∈ fs, FlitOf c ys f
  covers : ∀ y ∈ ys, fs.any (sameUnit · (collShell c 0 0 y)) = true

/-- One more lane. -/
theorem FlitsOf.place {c : CollDesc} {ys : List CollArg} {fs : List Flit} (h : FlitsOf c ys fs) (hop : c.op ≤ 8) (w : Int) (chunk cidx : Nat)
    (x : CollArg) : FlitsOf c (ys ++ [x]) (collPlace w (collShell c chunk cidx x) x fs) := by
  have new (hfs : ∀ f ∈ fs, sameUnit f (collShell c 0 0 x) = false) (y : CollArg) (hy : y ∈ ys) :
      sameUnit (collShell c 0 0 x) (collShell c 0 0 y) = false := by
    by_contra hsame
    rw [Bool.not_eq_false, sameUnit_comm] at hsame
    obtain ⟨f, hf, hfy⟩ := List.any_eq_true.1 (h.covers y hy)
    have found := hfs f hf
    rw [sameUnit_congr hfy, hsame] at found
    cases found
  obtain ⟨apart, each, units⟩ := flitOf_collPlace hop w chunk cidx ys x fs h.apart h.each new
  refine ⟨apart, each, fun y hy => ?_⟩
  rw [units, Bool.or_eq_true]
  rcases List.mem_append.1 hy with hy | hy
  · exact .inl (h.covers y hy)
  · rw [List.mem_singleton.1 hy]
    exact .inr (sameUnit_refl _)

theorem flitsOf_collFlits {c : CollDesc} (hop : c.op ≤ 8) (chunk cidx : Nat) (xs : List CollArg) : FlitsOf c xs (collFlits c chunk cidx xs) := by
  induction xs using List.reverseRecOn with
  | nil => exact ⟨List.Pairwise.nil, fun _ h => absurd h List.not_mem_nil, fun _ h => absurd h List.not_mem_nil⟩
  | append_singleton ys x ih =>
    rw [collFlits, List.foldl_append, List.foldl_cons, List.foldl_nil]
    exact ih.place hop ..

/-- The flits of the home path act so. -/
theorem collUnits : Claims.CollUnits := by
  intro c chunk cidx xs hop fs unit
  have h := flitsOf_collFlits hop chunk cidx xs
  refine ⟨h.apart, fun f hf => ?_⟩
  obtain ⟨named, sameOp, -, home, words⟩ := h.each f hf
  exact ⟨named, sameOp, home, fun n => (words n).trans (by unfold wordOf wordLanes; rfl)⟩

/-! ### The sending of a flit (R244, R284, R288) -/

/-- The state in which the flit `o` has taken its number, and counts with the team `t`. -/
def numbered (s : State) (o : OutFlit) (w : Nat) (t : Team) : State :=
  let r := s.setTeam w { t with acks := t.acks + 1 }
  { r with fab := { s.fab with out := tabSet s.fab.out s.fab.outSeq o, outSeq := s.fab.outSeq + 1 } }

/-- A flit of the own device lies with its home, or with the root. -/
theorem sendFlit_own {s : State} {o : OutFlit} {seq w : Nat} {t : Team} (hcounted : o.counted = some seq) (hteam : s.teamOf seq = some (w, t))
    (hdev : o.flit.dev = s.dev.devId) : sendFlit s o = (let r := numbered s o w t
      if o.flit.fields.isSome then
        { r with fab := { r.fab with rootIn := s.fab.rootIn ++ [{ flit := o.flit, src := s.dev.devId, num := s.fab.outSeq }] } }
      else { r with fab := { r.fab with flits := s.fab.flits ++ [s.fab.outSeq] } }) := by
  have found : s.teams.find? (fun p => p.2.info.seq.toNat = seq) = some (w, t) := hteam
  unfold sendFlit
  simp only [hcounted, modOwner, State.teamOf, found]
  exact if_pos hdev

/-- A flit sent toward the own device. -/
theorem flitSent : Claims.FlitSent := by
  intro s o seq w t hcounted hteam hdev n s'
  have sent : s' = _ := sendFlit_own hcounted hteam hdev
  cases hf : o.flit.fields with
  | none =>
    rw [hf] at sent
    rw [sent]
    exact ⟨State.setTeam_team?_same .., tabGet_tabSet_same .., rfl, fun _ => rfl, fun _ => ⟨rfl, rfl⟩, fun h => absurd rfl h⟩
  | some x =>
    rw [hf] at sent
    rw [sent]
    exact ⟨State.setTeam_team?_same .., tabGet_tabSet_same .., rfl, fun _ => rfl, fun h => (by cases h), fun _ => ⟨rfl, rfl⟩⟩

/-! ### COLL (R280 to R286) -/

section Coll
variable {s : State} {i : Issue} {t : Team} {d : BitVec 6} {a b : BitVec 7} {k : BitVec 4} {o : ELanes} {p : Nat}

theorem collDesc_atIssue (i : Issue) (t : Team) (off : Nat) : collDesc (atIssue i t) off = collDesc t off := by
  simp only [collDesc, atIssue_info]

theorem collBad_atIssue (i : Issue) (t : Team) (w : DWord) : collBad (atIssue i t) w = collBad t w := by
  simp only [collBad, collDescBad, collDesc_atIssue, atIssue_info]

/-- The lanes of the COLL that the word `w` tells. -/
def collXs (t : Team) (o : ELanes) (w : DWord) : List CollArg := Claims.collArgs t o (collDesc t (w.extractLsb' 0 20).toNat)

theorem collXs_eq (i : Issue) (t : Team) (o : ELanes) (w : DWord) : o.lanes.map (fun l => CollArg.mk l (o.arg 0 l).toNat
    (collAddr (atIssue i t) (collDesc t (w.extractLsb' 0 20).toNat) (o.arg 1 l).toNat) (o.arg 2 l).toNat) = collXs t o w := by
  unfold collXs Claims.collArgs collAddr
  rw [atIssue_info]

/-- A COLL waits for replies. -/
abbrev repliesTo (c : CollDesc) : Prop := c.op = 1 ∨ c.op = 2

/-- The team once COLL has issued: its fragment is held where replies are to come. -/
def collTeam (s : State) (i : Issue) (t : Team) (o : ELanes) (c : CollDesc) : Team :=
  let v := eFinish (atIssue i t) o false 0
  if repliesTo c then { v with frags := tabMod v.frags i.frag fun f => { f with hold := some s.fab.collSeq } } else v

theorem collTeam_eq (s : State) (i : Issue) (t : Team) (o : ELanes) (c : CollDesc) : (if repliesTo c then
    (eFinish (atIssue i t) o false 0).modFrag i.frag fun f => { f with hold := some s.fab.collSeq } else eFinish (atIssue i t) o false 0) =
    collTeam s i t o c := rfl

theorem collTeam_info (s : State) (i : Issue) (t : Team) (o : ELanes) (c : CollDesc) : (collTeam s i t o c).info = t.info := by
  have finished := (eFinish_info (atIssue i t) o false 0).trans (atIssue_info i t)
  unfold collTeam
  dsimp only
  split <;> exact finished

/-- The table's entry of a COLL with the flits `fs`. -/
def collEntry (s : State) (i : Issue) (t : Team) (c : CollDesc) (chunk p : Nat) (fs : List Flit) (xs : List CollArg) : Coll :=
  { owner := t.info.seq.toNat, core := i.core, node := t.info.node, frag := i.frag, reg := p, op := c.op, group := c.group, chunk := chunk,
    batch := t.batch, pending := (List.range fs.length).map (s.fab.outSeq + ·),
    lanes := if repliesTo c then collLanes c s.fab.outSeq fs xs else [],
    win := decide (9 ≤ c.op) && xs.any fun y => (contribOf c.fields.w y.data).2 }

/-- The state in which a COLL's flits are sent. -/
def collSent (s : State) (i : Issue) (t : Team) (o : ELanes) (c : CollDesc) (chunk p : Nat) (fs : List Flit) (xs : List CollArg) : State :=
  let s1 := s.setTeam i.wid (collTeam s i t o c)
  let s2 := { s1 with fab := { s1.fab with colls := tabSet s1.fab.colls s.fab.collSeq (collEntry s i t c chunk p fs xs),
                                           collSeq := s.fab.collSeq + 1 } }
  let s3 := if 9 ≤ c.op then noteChunk s2 c.group chunk else s2
  fs.foldl (fun s f => sendFlit s
    { flit := f, owner := .coll s1.fab.collSeq, node := t.info.node, ctx := t.info.ctx, counted := some t.info.seq.toNat }) s3

/-- A cause of a lane, or none. -/
theorem collCause_some {xs : List CollArg} {cause : Nat} {bad : CollArg → Bool} {y : CollArg} (h : xs.find? bad = some y) :
    collCause xs cause bad = raiseWith cause { lane := some y.lane, value := BitVec.ofNat 64 y.addr } := by
  rw [collCause, h]

theorem collCause_none {xs : List CollArg} {cause : Nat} {bad : CollArg → Bool} (h : ∀ y ∈ xs, bad y = false) :
    collCause xs cause bad = .ok () := by
  rw [collCause, List.find?_eq_none.2 fun y hy => by rw [h y hy]; exact Bool.false_ne_true]

variable (h : Issuing (.coll d a b k) s i t)
  (ho : eOperands i (atIssue i t) (coreWord s i.core) [(a, .int), (b, .int)] (some d) = .ok o)
include h ho

/-- COLL of a malformed collective word. -/
theorem coll_malformed (hbad : collBad t (tabGetD 0 t.k k.toNat) = true) :
    exec (.coll d a b k) s = .next (settle s i t {} (raiseWith 0x142 { lane := o.lanes.head? })) := by
  have word : readK (atIssue i t) k.toNat = tabGetD 0 t.k k.toNat := congrArg (tabGetD 0 · k.toNat) (t.advance_k _)
  rw [exec_coll]
  refine issue_trap plain h ?_
  simp only [coreWord_setTeam, ho, word, collBad_atIssue, hbad, if_true, raiseWith, bind, Except.bind]

/-- What COLL does with its lanes, once the collective word is in order. -/
def collLanesAct (s : State) (i : Issue) (t : Team) (o : ELanes) (d : BitVec 6) (c : CollDesc) (w : DWord) (xs : List CollArg) : Act State := do
  collCause xs 0x140 fun x => !reaches s (x.peer % 2 ^ 12)
  collCause xs 0x083 fun x => x.addr % 4 != 0
  collCause xs 0x141 fun x => c.scratch && decide (2 ^ 20 < x.addr + 4)
  let p ← o.frag.win.reg t.info.vphys d.toNat
  let fs := collFlits c (w.extractLsb' 32 32).toNat (w.extractLsb' 20 12).toNat xs
  waitWhile (decide (9 ≤ c.op) && paused s c.group (w.extractLsb' 32 32).toNat) (.other 0)
  waitWhile (decide (2 ^ 24 ≤ t.acks + fs.length)) (.other 0)
  .ok (collSent s i t o c (w.extractLsb' 32 32).toNat p fs xs)

omit h in
theorem coll_body (hgood : collBad t (tabGetD 0 t.k k.toNat) = false) : ∃ body, exec (.coll d a b k) s = issue (.coll d a b k) plain s body ∧
    body i (atIssue i t) (s.setTeam i.wid (atIssue i t)) = collLanesAct s i t o d
      (collDesc t ((tabGetD 0 t.k k.toNat).extractLsb' 0 20).toNat) (tabGetD 0 t.k k.toNat) (collXs t o (tabGetD 0 t.k k.toNat)) := by
  have word : readK (atIssue i t) k.toNat = tabGetD 0 t.k k.toNat := congrArg (tabGetD 0 · k.toNat) (t.advance_k _)
  have acks : (atIssue i t).acks = t.acks := t.advance_acks _
  have batch : (atIssue i t).batch = t.batch := t.advance_batch _
  rw [exec_coll]
  refine ⟨_, rfl, ?_⟩
  have b1 := bitsOf_toNat (tabGetD 0 t.k k.toNat) (show 19 - 0 + 1 = 20 from rfl)
  have b2 := bitsOf_toNat (tabGetD 0 t.k k.toNat) (show 31 - 20 + 1 = 12 from rfl)
  have b3 := bitsOf_toNat (tabGetD 0 t.k k.toNat) (show 63 - 32 + 1 = 32 from rfl)
  have own : (atIssue i t).seqNo = t.info.seq.toNat := congrArg (fun x : TeamInfo => x.seq.toNat) (atIssue_info i t)
  have info := collTeam_info s i t o (collDesc t ((tabGetD 0 t.k k.toNat).extractLsb' 0 20).toNat)
  simp only [coreWord_setTeam, ho, word, collBad_atIssue, hgood, Bool.false_eq_true, if_false, collDesc_atIssue, b1, b2, b3, collXs_eq, acks, batch,
    own, atIssue_info, State.setTeam_setTeam, bind, Except.bind]
  generalize collDesc t ((tabGetD 0 t.k k.toNat).extractLsb' 0 20).toNat = c at info ⊢
  generalize tabGetD 0 t.k k.toNat = w at info ⊢
  generalize collXs t o w = xs at info ⊢
  have seq : (collTeam s i t o c).seqNo = t.info.seq.toNat := by rw [Team.seqNo, info]
  have back : (c.op == 1 || c.op == 2) = decide (repliesTo c) := by rw [Bool.decide_or]; rfl
  simp only [collLanesAct, bind, Except.bind, back, decide_eq_true_eq, State.setTeam_fab, collTeam_eq, info, seq]
  rfl

omit h ho in
/-- The lanes of a COLL stop it at the first of the checks that one of them does not pass. -/
theorem collLanesAct_stops (s : State) (i : Issue) (t : Team) (o : ELanes) (d : BitVec 6) (c : CollDesc) (w : DWord) (xs : List CollArg) :
    let far := fun y : CollArg => reaches s (y.peer % 2 ^ 12) = false
    let odd := fun y : CollArg => y.addr % 4 ≠ 0
    let out := fun y : CollArg => c.scratch = true ∧ 2 ^ 20 < y.addr + 4
    let stops := fun n (y : CollArg) =>
      collLanesAct s i t o d c w xs = raiseWith n { lane := some y.lane, value := BitVec.ofNat 64 y.addr }
    (∀ y, xs.find? far = some y → stops 0x140 y) ∧
    ((∀ y ∈ xs, ¬far y) → ∀ y, xs.find? odd = some y → stops 0x083 y) ∧
    ((∀ y ∈ xs, ¬far y ∧ ¬odd y) → ∀ y, xs.find? out = some y → stops 0x141 y) ∧
    ((∀ y ∈ xs, ¬far y ∧ ¬odd y ∧ ¬out y) → ∀ p, o.frag.win.reg t.info.vphys d.toNat = .ok p →
      let fs := collFlits c (w.extractLsb' 32 32).toNat (w.extractLsb' 20 12).toNat xs
      (9 ≤ c.op → paused s c.group (w.extractLsb' 32 32).toNat = true → collLanesAct s i t o d c w xs = waitOn (.other 0)) ∧
      (t.acks + fs.length < 2 ^ 24 → (9 ≤ c.op → paused s c.group (w.extractLsb' 32 32).toNat = false) →
        collLanesAct s i t o d c w xs = .ok (collSent s i t o c (w.extractLsb' 32 32).toNat p fs xs))) := by
  intro far odd out stops
  have isFar : (fun y => decide (far y)) = fun x : CollArg => !reaches s (x.peer % 2 ^ 12) := by
    funext y
    simp only [far]
    cases reaches s (y.peer % 2 ^ 12) <;> rfl
  have isOdd : (fun y => decide (odd y)) = fun x : CollArg => x.addr % 4 != 0 := by
    funext y
    rw [Bool.eq_iff_iff, decide_eq_true_eq, bne_iff_ne]
  have isOut : (fun y => decide (out y)) = fun x : CollArg => c.scratch && decide (2 ^ 20 < x.addr + 4) := by
    funext y
    rw [Bool.eq_iff_iff, decide_eq_true_eq, Bool.and_eq_true, decide_eq_true_eq]
  unfold stops collLanesAct
  rw [← isFar, ← isOdd, ← isOut]
  refine ⟨fun y hy => ?_, fun hnear y hy => ?_, fun hgood y hy => ?_, fun hgood p hp => ?_⟩
  · rw [collCause_some hy]
    rfl
  · rw [collCause_none fun y hy => decide_eq_false (hnear y hy), collCause_some hy]
    rfl
  · rw [collCause_none fun y hy => decide_eq_false (hgood y hy).1, collCause_none fun y hy => decide_eq_false (hgood y hy).2, collCause_some hy]
    rfl
  · rw [collCause_none fun y hy => decide_eq_false (hgood y hy).1, collCause_none fun y hy => decide_eq_false (hgood y hy).2.1,
      collCause_none fun y hy => decide_eq_false (hgood y hy).2.2, hp]
    refine ⟨fun hsw hpaused => ?_, fun hroom hrun => ?_⟩
    · have held : (decide (9 ≤ c.op) && paused s c.group (w.extractLsb' 32 32).toNat) = true := by rw [decide_eq_true hsw, hpaused]; rfl
      rw [held]
      rfl
    · have clear : (decide (9 ≤ c.op) && paused s c.group (w.extractLsb' 32 32).toNat) = false := by
        by_cases hsw : 9 ≤ c.op
        · rw [hrun hsw, Bool.and_false]
        · rw [decide_eq_false hsw, Bool.false_and]
      rw [clear]
      simp only [bind, Except.bind, waitWhile_false, decide_eq_false (Nat.not_le.2 hroom)]

end Coll

/-- COLL acts so. -/
theorem collective : Claims.Collective := by
  intro d a b k s i t o p x h ho u w c chunk xs stops
  refine ⟨coll_malformed h ho, fun hgood => ?_⟩
  obtain ⟨body, hexec, hbody⟩ := coll_body ho hgood
  obtain ⟨far, odd, out, sends⟩ := collLanesAct_stops s i t o d c w xs
  have raises {n : Nat} {y : CollArg} (hy : collLanesAct s i t o d c w xs = raiseWith n { lane := some y.lane, value := BitVec.ofNat 64 y.addr }) :
      stops n y := hexec.trans (issue_trap plain h (hbody.trans hy))
  refine ⟨fun y hy => raises (far y hy), fun hnear y hy => raises (odd hnear y hy), fun hin y hy => raises (out hin y hy), fun hall hp => ?_⟩
  obtain ⟨waits, goes⟩ := sends hall p hp
  exact ⟨fun hsw hpaused => hexec.trans (issue_wait plain h (hbody.trans (waits hsw hpaused))),
    fun hroom hrun => hexec.trans (issue_next plain h (hbody.trans (goes hroom hrun)))⟩

/-- Settles O46: the lanes are checked in turn, each flit gathers what the lanes before it named in its unit, and a flit of the own device takes its
number and lies with its home or with the root. -/
theorem collectives : Obligations.Collectives := ⟨collective, collUnits, flitSent⟩

end Sys2Proof.Machine

/-! ## Gang pauses, shootdowns and the L2 mode -/

namespace Sys2Proof.Machine

theorem exec_propose (s : State) : exec .propose s = execPropose s := rfl
theorem exec_cancel (s : State) : exec .cancel s = execCancel s := rfl
theorem exec_proposeAnswer (s : State) : exec .proposeAnswer s = execProposeAnswer s := rfl
theorem exec_gangPauseTimeout (s : State) : exec .gangPauseTimeout s = execGangPauseTimeout s := rfl
theorem exec_pause (s : State) : exec .pause s = execPause s := rfl
theorem exec_quiescenceReport (s : State) : exec .quiescenceReport s = execQuiescenceReport s := rfl
theorem exec_gangResume (s : State) : exec .gangResume s = execGangResume s := rfl
theorem exec_resumeAcknowledgement (s : State) : exec .resumeAcknowledgement s = execResumeAcknowledgement s := rfl
theorem exec_sdgo (s : State) : exec .sdgo s = execSdgo s := rfl
theorem exec_shootdownComplete (s : State) : exec .shootdownComplete s = execShootdownComplete s := rfl
theorem exec_l2ModeWrite (s : State) : exec .l2ModeWrite s = execL2ModeWrite s := rfl
theorem exec_l2ModeSwitchDone (s : State) : exec .l2ModeSwitchDone s = execL2ModeSwitchDone s := rfl

/-- Without a fatal error a step is what it is of. -/
theorem unlessFatal_running {s t : State} (h : s.host.fatal = false) : unlessFatal s t = t := by
  rw [unlessFatal, h, if_neg Bool.false_ne_true]

/-- A step that changes nothing, fatal error or not. -/
theorem unlessFatal_self (s : State) : unlessFatal s s = s := ite_self _

/-! ### The start of operations of a group (R385, R399) -/

/-- What the start of operations leaves of the machine's tables: all but the operations themselves, the leaves and the running work of the engines. -/
structure Started (s r : State) : Prop where
  mem : r.mem = s.mem
  fab : r.fab = { s.fab with ops := r.fab.ops, opSeq := r.fab.opSeq }
  fw : r.fw = s.fw
  host : r.host = s.host
  devId : r.dev.devId = s.dev.devId

theorem Started.refl (s : State) : Started s s := ⟨rfl, rfl, rfl, rfl, rfl⟩

theorem Started.trans {s r q : State} (h : Started s r) (k : Started r q) : Started s q :=
  ⟨k.mem.trans h.mem, k.fab.trans (by rw [h.fab]), k.fw.trans h.fw, k.host.trans h.host, k.devId.trans h.devId⟩

theorem Started.pauses {s r : State} (h : Started s r) : r.fab.pauses = s.fab.pauses := by rw [h.fab]

theorem Started.gangs {s r : State} (h : Started s r) : r.fab.gangs = s.fab.gangs := by rw [h.fab]

theorem started_testAcorn (s : State) (core n : Nat) : Started s (testAcorn s core n) := by
  unfold testAcorn
  split
  · exact .refl s
  · next a _ =>
    split
    · exact .refl s
    · obtain ⟨mem, _, dev, _, fab, fw, host, _⟩ := entered_startOp (s.modAcorn core n fun a => { a with firing := true })
        { desc := a.desc, source := .acorn core n, core := core, node := a.node, ctx := a.ctx, owner := some a.owner } a.rank
      exact ⟨mem, fab, fw, host, by rw [dev]; rfl⟩

theorem started_testGroup (s : State) (group : Nat) : Started s (testGroup s group) := by
  refine List.foldlRecOn (motive := fun r => Started s r) _ _ (.refl s) fun r hr c _ => ?_
  refine List.foldlRecOn (motive := fun r => Started s r) _ _ hr fun q hq a _ => hq.trans ?_
  split
  · exact started_testAcorn ..
  · exact .refl q

/-- A pause that is lifted: it is held no more, and acorns may fire. -/
theorem setPause_none (s : State) (group : Nat) :
    Started { s with fab := { s.fab with pauses := tabDel s.fab.pauses group } } (setPause s group none) := started_testGroup ..

/-! ### Proposals (R384, R414) -/

theorem ownGang_other {s : State} {init number : Nat} {f : Gang → Bool} (h : init ≠ s.dev.devId) : ownGang s init number f = true := by
  rw [ownGang, bne_iff_ne.2 h, Bool.true_or]

/-- PROPOSE of another device. -/
theorem proposeStep_other {s : State} {init number group : Nat} (h : init ≠ s.dev.devId) (busy : Bool)
    (hbusy : ((tabGet s.fab.pauses group).any fun p => p.init != init || p.number != number) = busy) :
    proposeStep s init number group = gangReply (if busy then s
      else setPause s group (some { init := init, number := number, limit := tabGetD 0 s.fab.chunkMax group })) init number
      (if busy then 0x156 else 0) [(0, tabGetD 0 s.fab.chunkMax group)] := by
  unfold proposeStep
  rw [ownGang_other h, hbusy, Bool.not_true, if_neg Bool.false_ne_true]
  cases busy with
  | false => exact if_neg h
  | true => exact if_neg h

theorem proposals : Claims.Proposals := by
  intro s init number group hinit hnumber hgroup hfatal top
  have step : exec .propose s = .next (proposeStep s init number group) := by
    rw [exec_propose, execPropose, unlessFatal_running hfatal, hinit, hnumber, hgroup]
  have lift : exec .cancel s = .next (cancelStep s init number group) := by
    rw [exec_cancel, execCancel, unlessFatal_running hfatal, hinit, hnumber, hgroup]
  refine ⟨fun hother hfree => ?_, fun p hother hp hheld => ?_, fun p hother hp hprop => ?_, fun hnone => ?_⟩
  · have idle : ((tabGet s.fab.pauses group).any fun p => p.init != init || p.number != number) = false := by
      cases hp : tabGet s.fab.pauses group with
      | none => rfl
      | some p =>
        obtain ⟨rfl, rfl⟩ := hfree p hp
        rw [Option.any_some, bne_self_eq_false, bne_self_eq_false, Bool.or_self]
    rw [proposeStep_other hother false idle] at step
    exact ⟨_, step, fun _ => rfl, tabGet_tabSet_same .., rfl⟩
  · have busy : ((tabGet s.fab.pauses group).any fun p => p.init != init || p.number != number) = true := by
      rw [hp, Option.any_some, Bool.or_eq_true, bne_iff_ne, bne_iff_ne]
      exact hheld
    rw [proposeStep_other hother true busy] at step
    exact ⟨_, step, fun _ => rfl, rfl, rfl⟩
  · have lifted : cancelStep s init number group = setPause s group none := by
      rw [cancelStep, hp]
      dsimp only
      rw [hprop, decide_eq_false hother]
      rfl
    refine ⟨_, lift, ?_⟩
    rw [lifted, (setPause_none s group).pauses]
    exact tabGet_tabDel_same ..
  · rw [lift, cancelStep, hnone]

/-! ### The answers (R384, R414) -/

theorem gangFind_number {s : State} {number : Nat} {g : Gang} (h : gangFind s number = some g) : g.number = number :=
  of_decide_eq_true (p := g.number = number) (List.find?_some (p := fun x : Gang => decide (x.number = number)) h)

/-- A gang changed. -/
theorem gangFind_modGang {s : State} {number : Nat} {g : Gang} {f : Gang → Gang} (h : gangFind s number = some g)
    (hkeep : ∀ x : Gang, (f x).number = x.number) : gangFind (modGang s number f) number = some (f g) := by
  have number_g := gangFind_number h
  have keeps : (fun x : Gang => decide ((if x.number = number then f x else x).number = number)) = fun x => decide (x.number = number) := by
    funext x
    split <;> simp only [hkeep]
  unfold gangFind modGang at *
  rw [List.find?_map]
  change (s.fab.gangs.find? fun x : Gang => decide ((if x.number = number then f x else x).number = number)).map _ = _
  rw [keeps, h, Option.map_some, if_pos number_g]

theorem gangFind_dropGang (s : State) (number : Nat) : gangFind (dropGang s number) number = none := by
  refine List.find?_eq_none.2 fun g hg => ?_
  have gone := (List.mem_filter.1 hg).2
  rw [decide_eq_true_eq] at gone ⊢
  exact gone

theorem wrote_commandRecord (s : State) (p : Packet) (cause ordinal : Nat) (more : List (List RecField)) :
    Wrote s (commandRecord s p cause ordinal more) := wrote_faultRecord ..

/-- A command fault removes the packet and halts its queue (R340). -/
theorem commandFault_halts (s : State) (key : Nat) (p : Packet) (cause : Nat) :
    tabGet (commandFault s key p cause).fw.packets key = none ∧ ((commandFault s key p cause).queue p.queue).halted = true ∧
      (commandFault s key p cause).fab = s.fab := by
  have recorded := wrote_commandRecord s { p with node := (s.queue p.queue).node } cause 0 []
  unfold commandFault
  dsimp only
  refine ⟨?_, ?_, recorded.fab⟩
  · rw [tabGet_tabDel_same]
  · rw [State.queue, State.setCmdQueue, tabGetD_tabSetD_same]

/-- The pause of a gang, lifted where it is held. -/
theorem pauseLifted_keeps (s : State) (group : Nat) (held : Bool) :
    (if held then setPause s group none else s).fab.gangs = s.fab.gangs ∧ (if held then setPause s group none else s).fw = s.fw := by
  cases held with
  | false => exact ⟨rfl, rfl⟩
  | true => exact ⟨(setPause_none s group).gangs, (setPause_none s group).fw⟩

theorem pauseLifted_devId (s : State) (group : Nat) (held : Bool) :
    (if held then setPause s group none else s).dev.devId = s.dev.devId := by
  cases held with
  | false => rfl
  | true => exact (setPause_none s group).devId

/-- A pause that has failed. -/
theorem failGang_fails (s : State) (g : Gang) : Claims.gangFailed s (failGang s g) g := by
  unfold failGang
  obtain ⟨gangs, fw⟩ := pauseLifted_keeps (dropGang s g.number) g.group
    (holdsPause (dropGang s g.number) (dropGang s g.number).dev.devId g.number g.group).isSome
  dsimp only
  generalize (if (holdsPause (dropGang s g.number) (dropGang s g.number).dev.devId g.number g.group).isSome then
    setPause (dropGang s g.number) g.group none else dropGang s g.number) = r at gangs fw ⊢
  have packet : r.packet? g.key = s.packet? g.key := by rw [State.packet?, fw]; rfl
  have gone : gangFind r g.number = none := by rw [gangFind, gangs]; exact gangFind_dropGang s g.number
  rw [packet]
  cases hpacket : s.packet? g.key with
  | none => exact ⟨gone, fun p hp => absurd (hpacket.symm.trans hp) (by simp)⟩
  | some p =>
    obtain ⟨away, halted, fab⟩ := commandFault_halts r g.key p 0x156
    refine ⟨?_, fun q hq => ?_⟩
    · rw [gangFind, fab]
      exact gone
    · cases hpacket.symm.trans hq
      exact ⟨away, halted⟩

/-- An answer of a member that has given none. -/
theorem gangAnswer_noted {s : State} {number dev top : Nat} {g : Gang} (busy : Bool) (hg : gangFind s number = some g) (hresume : g.resume = false)
    (hlimit : g.limit = none) (hmember : dev ∈ g.members) (hnew : tabGet g.answers dev = none) : gangAnswer s number dev busy top =
      if busy then failGang s g else modGang s number fun x => { x with
        answers := tabSet g.answers dev top
        limit := if (tabSet g.answers dev top).length = g.members.length then some ((tabSet g.answers dev top).foldl (fun m a => max m a.2) 0) else none } := by
  have member : g.members.contains dev = true := List.contains_iff_mem.2 hmember
  rw [gangAnswer, hg]
  dsimp only
  rw [hresume, hlimit, member, hnew]
  rfl

theorem answers : Claims.Answers := by
  intro s number g hnumber hfatal hg hresume hlimit
  refine ⟨fun dev busy top hdev hbusy htop hother hmember hnew => ?_, fun p hp => ?_⟩
  · have step : exec .proposeAnswer s = .next (gangAnswer s number dev (busy == 1) top) := by
      rw [exec_proposeAnswer, execProposeAnswer, unlessFatal_running hfatal, hnumber, hdev, hbusy, htop, proposeAnswer, if_neg hother]
    rw [gangAnswer_noted _ hg hresume hlimit hmember hnew] at step
    refine ⟨fun hfree => ?_, fun hfull => ?_⟩
    · rw [beq_false_of_ne hfree, if_neg Bool.false_ne_true] at step
      exact ⟨_, step, fun _ => rfl, gangFind_modGang hg fun _ => rfl⟩
    · rw [hfull, beq_self_eq_true, if_pos rfl] at step
      exact ⟨_, step, failGang_fails s g⟩
  · have late : exec .gangPauseTimeout s = .next (if s.dev.time < g.since + (s.region p.node).wdog * 2000 then s else failGang s g) := by
      rw [exec_gangPauseTimeout, execGangPauseTimeout, unlessFatal_running hfatal, hnumber, gangTimeout, hg]
      dsimp only
      rw [hp, hresume, hlimit]
      simp only [Option.map_some, Option.getD_some, Option.isSome_none, Bool.or_self, Bool.false_or, decide_eq_true_eq]
      rfl
    refine ⟨fun hlate => ?_, fun hearly => ?_⟩
    · rw [if_neg (Nat.not_lt.2 hlate)] at late
      exact ⟨_, late, failGang_fails s g⟩
    · rw [late, if_pos hearly]

/-! ### Pausing and resuming (R384, R385, R413) -/

/-- PAUSE and QUIESCENCE_REPORT act so. -/
theorem pausing : Claims.Pausing := by
  intro s hfatal
  refine ⟨fun init number group p hinit hnumber hgroup hother hp hprop => ?_, fun group p hkind hgroup hp hother => ?_,
    fun number dev g hkind hnumber hdev hother hg hresume hlimit hmember hnew => ?_⟩
  · have step : exec .pause s = .next (testGroup (setPause s group (some { p with proposed := false, limit := s.argN 3, node := s.argN 4 })) group) := by
      rw [exec_pause, execPause, unlessFatal_running hfatal, hinit, hnumber, hgroup, pauseStep, hp]
      dsimp only
      rw [beq_false_of_ne hother, hprop]
      rfl
    refine ⟨_, step, ?_⟩
    rw [(started_testGroup ..).pauses]
    exact tabGet_tabSet_same ..
  · have step : exec .quiescenceReport s = .next (if p.proposed || p.quiet || !quiescent s group p.limit || (s.teams.any fun t => t.2.info.node == p.node)
        then s else gangReply (setPause s group (some { p with quiet := true })) p.init p.number 0 []) := by
      rw [exec_quiescenceReport, execQuiescenceReport, unlessFatal_running hfatal, hkind, hgroup, quiescenceReport, if_neg (by decide), hp]
      dsimp only
      split
      · rfl
      · exact congrArg Host.Outcome.next (if_neg hother)
    have resting : (p.proposed || p.quiet || !quiescent s group p.limit || (s.teams.any fun t => t.2.info.node == p.node)) = false ↔
        p.proposed = false ∧ p.quiet = false ∧ quiescent s group p.limit = true ∧ ∀ t ∈ s.teams, t.2.info.node ≠ p.node := by
      rw [Bool.or_eq_false_iff, Bool.or_eq_false_iff, Bool.or_eq_false_iff, Bool.not_eq_false', List.any_eq_false, and_assoc, and_assoc]
      simp only [beq_iff_eq]
    refine ⟨fun hrest => ?_, fun hbusy => ?_⟩
    · rw [resting.2 hrest, if_neg Bool.false_ne_true] at step
      exact ⟨_, step, fun _ => rfl, tabGet_tabSet_same .., rfl⟩
    · rw [step, if_pos (eq_true_of_ne_false (mt resting.1 hbusy))]
  · have step : exec .quiescenceReport s = .next (gangReport s number dev) := by
      rw [exec_quiescenceReport, execQuiescenceReport, unlessFatal_running hfatal, hkind, hnumber, hdev, quiescenceReport, if_pos rfl, if_neg hother]
    have noted : g.limit.isNone = false := Option.isNone_eq_false_iff.2 (Option.isSome_iff_ne_none.2 hlimit)
    have member : g.members.contains dev = true := List.contains_iff_mem.2 hmember
    have first : g.reports.contains dev = false := by simpa using hnew
    rw [gangReport, hg] at step
    dsimp only at step
    rw [hresume, noted, member, first] at step
    refine ⟨fun hmore => ?_, fun hlast => ?_⟩
    · refine ⟨_, step.trans (congrArg Host.Outcome.next (if_pos hmore)), fun _ => rfl, gangFind_modGang hg fun _ => rfl⟩
    · refine ⟨_, step.trans (congrArg Host.Outcome.next (if_neg (Nat.not_lt.2 hlast))), fun _ => rfl, gangFind_dropGang s number,
        tabGet_tabSet_same .., tabGet_tabMod_same ..⟩

theorem resumes : Claims.Resumes := by
  intro s hfatal
  refine ⟨fun init number group hinit hnumber hgroup hother => ?_, fun number dev g hnumber hdev hother hg hmember hnew hlast => ?_⟩
  · have step : exec .gangResume s = .next (gangReply (if (holdsPause s init number group).isSome then setPause s group none else s) init number 0 []) := by
      rw [exec_gangResume, execGangResume, unlessFatal_running hfatal, hinit, hnumber, hgroup, gangResumeStep, ownGang_other hother, Bool.not_true,
        if_neg Bool.false_ne_true]
      dsimp only
      rw [if_neg ((pauseLifted_devId s group _).symm ▸ hother)]
    refine ⟨_, step, rfl, ?_⟩
    cases hp : holdsPause s init number group with
    | none => exact hp
    | some p =>
      have gone : tabGet (setPause s group none).fab.pauses group = none := by
        rw [(setPause_none s group).pauses]
        exact tabGet_tabDel_same ..
      exact congrArg (Option.filter fun p => decide (p.init = init ∧ p.number = number)) gone
  · have member : g.members.contains dev = true := List.contains_iff_mem.2 hmember
    have first : g.reports.contains dev = false := by simpa using hnew
    have step : exec .resumeAcknowledgement s = .next (packetPart (dropGang s number) g.key) := by
      rw [exec_resumeAcknowledgement, execResumeAcknowledgement, unlessFatal_running hfatal, hnumber, hdev, resumeAcknowledged, if_neg hother, resumeAck, hg]
      dsimp only
      rw [member, first]
      exact congrArg Host.Outcome.next (if_neg (Nat.not_lt.2 hlast))
    exact ⟨_, step, fun _ => rfl, gangFind_dropGang s number, tabGet_tabMod_same ..⟩

/-! ### Shootdowns (R386, R387) -/

/-- The entries of a buffer that a shootdown leaves. -/
theorem covers_of_kept {d : Shootdown} {l : List TlbEntry} {e : TlbEntry} (h : e ∈ l.filter fun e => !d.covers e.ctx e.leaf.vbase e.leaf.size) :
    d.covers e.ctx e.leaf.vbase e.leaf.size = false := by
  have kept := (List.mem_filter.1 h).2
  rwa [Bool.not_eq_true'] at kept

/-- A table's entries, each changed alike: one that is not there is the default. -/
theorem tabGetD_map_cases {α β : Type} {d : β} (f : α → β) (t : Tab α) (n : Nat) :
    (∃ x, tabGetD d (t.map fun p => (p.1, f p.2)) n = f x) ∨ tabGetD d (t.map fun p => (p.1, f p.2)) n = d := by
  have got := tabGet_map (f := fun p : Nat × α => (p.1, f p.2)) (fun _ => rfl) n t
  cases h : tabGet t n with
  | none =>
    rw [h] at got
    exact .inr (congrArg (Option.getD · d) got)
  | some x =>
    rw [h] at got
    exact .inl ⟨x, congrArg (Option.getD · d) got⟩

/-- A shootdown that completes. -/
theorem shootDone_completes {s : State} (hbusy : s.dev.shoot.busy = true) : let d := s.dev.shoot
    (shootDone s).dev.shoot = { d with busy := false, completed := (d.completed + 1) % 2 ^ 32 } ∧
      (∀ c, ∀ e ∈ ((shootDone s).core c).tlb, d.covers e.ctx e.leaf.vbase e.leaf.size = false) ∧
      (∀ c, ∀ x ∈ ((shootDone s).cluster c).tlb, ∀ e ∈ x.2, d.covers e.ctx e.leaf.vbase e.leaf.size = false) ∧
      ∀ x ∈ (shootDone s).fw.saved, x.2.team.info.ctx = d.ctx → x.2.shot = true := by
  intro d
  unfold shootDone
  simp only [hbusy, Bool.not_true, Bool.false_eq_true, if_false]
  generalize List.foldl _ (shootPins s s.dev.shoot) _ = r
  refine ⟨rfl, fun c e he => ?_, fun c x hx e he => ?_, fun x hx hctx => ?_⟩
  · rcases tabGetD_map_cases (d := ({} : Core)) (fun k : Core => { k with tlb := k.tlb.filter fun e => !d.covers e.ctx e.leaf.vbase e.leaf.size })
      r.cores c with ⟨k, hk⟩ | hnone
    · exact covers_of_kept (l := k.tlb) (by rw [State.core, hk] at he; exact he)
    · rw [State.core, hnone] at he
      cases he
  · rcases tabGetD_map_cases (d := ({} : Cluster)) (fun k : Cluster => { k with tlb := k.tlb.map fun x =>
      (x.1, x.2.filter fun e => !d.covers e.ctx e.leaf.vbase e.leaf.size) }) r.clusters c with ⟨k, hk⟩ | hnone
    · rw [State.cluster, hk] at hx
      obtain ⟨y, -, rfl⟩ := List.mem_map.1 hx
      exact covers_of_kept he
    · rw [State.cluster, hnone] at hx
      cases hx
  · obtain ⟨y, -, rfl⟩ := List.mem_map.1 hx
    by_cases hy : y.2.team.info.ctx = s.dev.shoot.ctx
    · simp only [if_pos hy]
    · simp only [if_neg hy] at hctx
      exact absurd hctx hy

theorem shootdowns : Claims.Shootdowns := by
  intro s d bad
  have isBad : (d.busy || (!d.all && (d.count == 0 || decide (2 ^ 57 < d.base + d.count * 0x10000)))) = true ↔ bad := by
    rw [Bool.or_eq_true, Bool.and_eq_true, Bool.or_eq_true, Bool.not_eq_true', beq_iff_eq, decide_eq_true_eq]
  have go (hfatal : s.host.fatal = false) (hready : s.host.bring.ready = true) : exec .sdgo s =
      .next (if d.busy || (!d.all && (d.count == 0 || decide (2 ^ 57 < d.base + d.count * 0x10000))) then
        { s with dev := { s.dev with shoot := { d with rejected := true } } }
      else stopCovered { s with dev := { s.dev with shoot := { d with busy := true, rejected := false } } } d) := by
    rw [exec_sdgo, execSdgo, unlessFatal_running hfatal, shootGo, hready]
    rfl
  refine ⟨fun hfatal hready hgood => ?_, fun hfatal hready hbad => ?_, fun hearly => ?_, fun hbusy => ?_, fun hidle => ?_⟩
  · exact ⟨_, (go hfatal hready).trans (congrArg Host.Outcome.next (if_neg (mt isBad.1 hgood))), fun _ => rfl, rfl⟩
  · exact ⟨_, (go hfatal hready).trans (congrArg Host.Outcome.next (if_pos (isBad.2 hbad))), fun _ => rfl, rfl⟩
  · rw [exec_sdgo, execSdgo, shootGo, hearly]
    exact congrArg Host.Outcome.next (unlessFatal_self s)
  · exact ⟨_, rfl, shootDone_completes hbusy⟩
  · rw [exec_shootdownComplete, execShootdownComplete, shootDone]
    dsimp only
    rw [show s.dev.shoot.busy = false from hidle]
    rfl

/-! ### The mode of the L2 (R391) -/

theorem modes : Claims.Modes := by
  intro s
  refine ⟨fun hfatal hready hnone hnew => ?_, fun hno => ?_, fun v hv hrest => ?_, fun hno => ?_⟩
  · have idle : switching s = false := by rw [switching, hnone]; rfl
    have step : exec .l2ModeWrite s = .next (stopEngines { s with dev := { s.dev with l2Next := some (s.argN 0 % 4) } }) := by
      rw [exec_l2ModeWrite, execL2ModeWrite, unlessFatal_running hfatal, modeWrite, hready, idle, decide_eq_false hnew]
      rfl
    exact ⟨_, step, fun _ => rfl, rfl, rfl⟩
  · have stays : (!s.host.bring.ready || switching s || decide (s.argN 0 % 4 = s.dev.l2Mode)) = true := by
      rw [Bool.or_eq_true, Bool.or_eq_true, Bool.not_eq_true', decide_eq_true_eq, switching, Option.isSome_iff_ne_none, or_assoc]
      exact hno
    rw [exec_l2ModeWrite, execL2ModeWrite, modeWrite, if_pos stays, unlessFatal_self]
  · have step : exec .l2ModeSwitchDone s = .next (let r := dissolvePins s fun _ => true
        { r with dev := { r.dev with l2 := [], l2Mode := v, l2Parts := modeParts v, l2Next := none } }) := by
      rw [exec_l2ModeSwitchDone, execL2ModeSwitchDone, modeDone, hv]
      dsimp only
      rw [hrest]
      rfl
    refine ⟨_, step, rfl, rfl, ?_, rfl⟩
    have bit1 : bitsOf v 1 1 = v / 2 % 2 := congrArg (· % 2) (Nat.shiftRight_eq_div_pow ..)
    rw [← bit1]
    rfl
  · rw [exec_l2ModeSwitchDone, execL2ModeSwitchDone, modeDone]
    rcases hno with hnone | hbusy
    · rw [hnone]
    · split
      · rfl
      · rw [hbusy]
        rfl

/-- Settles O58: a gang's step changes one pause, one entry of the gangs' list or one packet, and acorns that may fire now change neither; a shootdown
filters every buffer, and a switch of the mode empties the L2. -/
theorem deviceWide : Obligations.DeviceWide := ⟨proposals, answers, pausing, resumes, shootdowns, modes⟩

end Sys2Proof.Machine

/-! ## The host's side: bring-up, queues, semaphores, accesses, registers and power -/

namespace Sys2Proof.Machine

theorem exec_start (s : State) : exec .start s = execStart s := rfl
theorem exec_doorbell (s : State) : exec .doorbell s = execDoorbell s := rfl
theorem exec_restart (s : State) : exec .restart s = execRestart s := rfl
theorem exec_semaphoreRead (s : State) : exec .semaphoreRead s = execSemaphoreRead s := rfl
theorem exec_semaphoreFree (s : State) : exec .semaphoreFree s = execSemaphoreFree s := rfl
theorem exec_hostLinkDown (s : State) : exec .hostLinkDown s = execHostLinkDown s := rfl
theorem exec_hostInboundAccess (s : State) : exec .hostInboundAccess s = execHostInboundAccess s := rfl
theorem exec_registerWrite (s : State) : exec .registerWrite s = execRegisterWrite s := rfl
theorem exec_islandClockDown (s : State) : exec .islandClockDown s = execIslandClockDown s := rfl
theorem exec_islandClockUp (s : State) : exec .islandClockUp s = execIslandClockUp s := rfl
theorem exec_clusterGate (s : State) : exec .clusterGate s = execClusterGate s := rfl
theorem exec_clusterUngate (s : State) : exec .clusterUngate s = execClusterUngate s := rfl

/-! ### START (R453) -/

/-- The route table that START reads. -/
theorem readRoutes_get (s : State) {n : Nat} (hn : n < 4096) : tabGetD 0 (readRoutes s) n = memNat s.mem (s.host.bring.routes + 4 * n) 4 := by
  rw [readRoutes, tabGetD_foldl_tabSetD, if_pos (List.mem_range.2 hn)]

/-- A table of `n` rows in order. -/
theorem tabGetD_range {α : Type} (d : α) (f : Nat → α) {n k : Nat} (hk : k < n) : tabGetD d ((List.range n).map fun k => (k, f k)) k = f k := by
  have got (l : List Nat) (hl : k ∈ l) : tabGet (l.map fun k => (k, f k)) k = some (f k) := by
    induction l with
    | nil => exact absurd hl List.not_mem_nil
    | cons x l ih =>
      rw [List.map_cons, tabGet]
      split
      · next hx => rw [hx]
      · next hx => exact ih ((List.mem_cons.1 hl).resolve_left fun h => hx h.symm)
  rw [tabGetD, got _ (List.mem_range.2 hk), Option.getD_some]

theorem start : Claims.Start := by
  intro s b
  refine ⟨fun hready hok hfatal herr => ?_, fun c hready hok hfatal herr => ?_, fun hno => ?_⟩
  · have step : exec .start s = .next { s with
        host := { s.host with bring := { b with ready := true, buErr := false, code := 0 } }
        fab := { s.fab with routes := readRoutes s, ports := (List.range 16).map fun n => (n, ({ up := true } : Port)) } } := by
      rw [exec_start, execStart, startDevice]
      dsimp only
      rw [hready, hok, hfatal, herr]
      rfl
    refine ⟨_, step, fun _ => rfl, rfl, fun n hn => ?_, fun n hn => ?_⟩
    · exact congrArg Port.up (tabGetD_range {} (fun _ => ({ up := true } : Port)) hn)
    · dsimp only
      rw [readRoutes_get s hn]
  · rw [exec_start, execStart, startDevice]
    dsimp only
    rw [hready, hok, hfatal, herr]
    rfl
  · have ignored : (s.host.bring.ready || !s.host.bring.fwOk || s.host.fatal) = true := by
      rw [Bool.or_eq_true, Bool.or_eq_true, Bool.not_eq_true', or_assoc]
      exact hno
    rw [exec_start, execStart, startDevice]
    exact congrArg Host.Outcome.next (if_pos ignored)

/-! ### The registers of a queue (R454) -/

theorem State.setCmdQueue_queue_same (s : State) (n : Nat) (q : CmdQueue) : (s.setCmdQueue n q).queue n = q := tabGetD_tabSetD_same ..

theorem State.setCmdQueue_queue_other (s : State) {n m : Nat} (q : CmdQueue) (h : m ≠ n) : (s.setCmdQueue n q).queue m = s.queue m :=
  tabGetD_tabSetD_other _ _ _ h

theorem queues : Claims.Queues := by
  intro s n hn hlt hfatal q heard
  have inRange : decide (32 ≤ n) = false := decide_eq_false (Nat.not_le.2 hlt)
  have deaf : (!s.host.bring.ready || s.host.fatal || decide (32 ≤ n) || q.producer != s.argN 2 || (s.argN 2 == 2 && q.peer != s.argN 3)) = false ↔
      heard := by
    rw [hfatal, inRange, Bool.or_false, Bool.or_false, Bool.or_eq_false_iff, Bool.or_eq_false_iff, Bool.not_eq_false', bne_eq_false_iff_eq,
      Bool.and_eq_false_imp, and_assoc]
    simp only [beq_iff_eq, bne_eq_false_iff_eq, heard]
  refine ⟨fun hheard => ?_, fun hdeaf => ?_, ?_⟩
  · have step : exec .doorbell s = .next (s.setCmdQueue n { q with wptr := BitVec.ofNat 32 (s.argN 1) }) := by
      rw [exec_doorbell, execDoorbell, doorbell, hn]
      exact congrArg Host.Outcome.next (if_neg (ne_true_of_eq_false (deaf.2 hheard)))
    exact ⟨_, step, fun _ => rfl, s.setCmdQueue_queue_same n _, fun m hm => s.setCmdQueue_queue_other _ hm⟩
  · rw [exec_doorbell, execDoorbell, doorbell, hn]
    exact congrArg Host.Outcome.next (if_pos (eq_true_of_ne_false (mt deaf.1 hdeaf)))
  · have step : exec .restart s = .next (s.setCmdQueue n { q with halted := false }) := by
      rw [exec_restart, execRestart, restartQueue, hn, hfatal, inRange]
      rfl
    exact ⟨_, step, fun _ => rfl, s.setCmdQueue_queue_same n _, fun m hm => s.setCmdQueue_queue_other _ hm⟩

/-! ### Semaphores (R455) -/

theorem semaphores : Claims.Semaphores := by
  intro s n p hn hp hlt hfatal
  have inRange : (s.host.fatal || decide (64 ≤ n)) = false := by rw [hfatal, decide_eq_false (Nat.not_le.2 hlt)]; rfl
  have read : exec .semaphoreRead s = .next (semaphoreRead s n p) := by rw [exec_semaphoreRead, execSemaphoreRead, hn, hp]
  have free : exec .semaphoreFree s = .next (semaphoreFree s n p) := by rw [exec_semaphoreFree, execSemaphoreFree, hn, hp]
  have one (hport : p < 2) : semaphoreRead s n p = { s with host := { s.host with
      semaphores := if tabGet s.host.semaphores n = none then tabSet s.host.semaphores n p else s.host.semaphores
      readData := semaphoreValue (tabGet s.host.semaphores n) p } } := by
    rw [semaphoreRead, inRange]
    exact if_pos hport
  have both (hport : p = 2) : semaphoreRead s n p = { s with host := { s.host with
      semaphores := if tabGet s.host.semaphores n = none then tabSet s.host.semaphores n (1 - s.host.lastTie) else s.host.semaphores
      lastTie := if tabGet s.host.semaphores n = none then 1 - s.host.lastTie else s.host.lastTie
      readData := semaphoreValue (some ((tabGet s.host.semaphores n).getD (1 - s.host.lastTie))) 0 +
        2 ^ 64 * semaphoreValue (some ((tabGet s.host.semaphores n).getD (1 - s.host.lastTie))) 1 } } := by
    rw [semaphoreRead, inRange, hport]
    rfl
  have value (h q : Nat) : semaphoreValue (some h) q = if h = q then 1 else 0 := by
    rw [semaphoreValue]
    simp
  refine ⟨fun hport hfree => ?_, fun h hport hheld => ?_, fun hport hfree htie => ?_, fun h hport hheld => ?_, fun hready hheld => ?_, fun hother => ?_, ?_⟩
  · rw [one hport, hfree] at read
    exact ⟨_, read, fun _ => rfl, tabGet_tabSet_same .., rfl⟩
  · rw [one hport, hheld, value] at read
    exact ⟨_, read, fun _ => rfl, rfl, rfl⟩
  · rw [both hport, hfree] at read
    refine ⟨_, read, fun _ => rfl, tabGet_tabSet_same .., rfl, ?_⟩
    simp only [Option.getD_none, value]
    split <;> split <;> split <;> omega
  · rw [both hport, hheld] at read
    simp only [Option.getD_some, value] at read
    exact ⟨_, read, fun _ => rfl, rfl, rfl⟩
  · have own : (s.host.fatal || !s.host.bring.ready || tabGet s.host.semaphores n != some p) = false := by
      rw [hfatal, hready, hheld, bne_self_eq_false]
      rfl
    refine ⟨_, free.trans (congrArg Host.Outcome.next (if_neg (ne_true_of_eq_false own))), fun _ => rfl, tabGet_tabDel_same ..⟩
  · have other : (s.host.fatal || !s.host.bring.ready || tabGet s.host.semaphores n != some p) = true := by
      rw [bne_iff_ne.2 hother, Bool.or_true]
    exact free.trans (congrArg Host.Outcome.next (if_pos other))
  · have down : exec .hostLinkDown s = .next { s with host := { s.host with semaphores := s.host.semaphores.filter fun x => x.2 ≠ n } } := by
      rw [exec_hostLinkDown, execHostLinkDown, hostLinkDown, hn]
    refine ⟨_, down, fun _ => rfl, fun x => ?_⟩
    rw [List.mem_filter, decide_eq_true_eq]

/-! ### Inbound accesses (R443, R449) -/

/-- Bytes written sector by sector are the bytes written. -/
theorem apexWriteParts_mem (bs : List Byte) (pa : Nat) : ∀ (fuel : Nat) (s : State) (a n : Nat), pa ≤ a → a - pa + n ≤ bs.length →
    (n = 0 ∨ n + a % 64 ≤ 64 * fuel) →
    ((cutRange 64 fuel a n).foldl (fun s p => apexWrite s p.1 ((bs.drop (p.1 - pa)).take p.2)) s).mem =
      memWrite s.mem a ((bs.drop (a - pa)).take n)
  | 0, s, a, n, _, _, hfuel => by
    have none : n = 0 := by omega
    rw [none, List.take_zero]
    rfl
  | fuel + 1, s, a, n, ha, hlen, hfuel => by
    rw [cutRange]
    split
    · next none =>
      rw [none, List.take_zero]
      rfl
    · next some =>
      have hk : min n (64 - a % 64) ≤ n := Nat.min_le_left ..
      have rest : n - min n (64 - a % 64) = 0 ∨ n - min n (64 - a % 64) + (a + min n (64 - a % 64)) % 64 ≤ 64 * fuel := by omega
      have first : ((bs.drop (a - pa)).take (min n (64 - a % 64))).length = min n (64 - a % 64) := by
        rw [List.length_take, List.length_drop, Nat.min_eq_left]
        omega
      have whole : (bs.drop (a - pa)).take n =
          (bs.drop (a - pa)).take (min n (64 - a % 64)) ++ (bs.drop (a + min n (64 - a % 64) - pa)).take (n - min n (64 - a % 64)) := by
        have shift : a + min n (64 - a % 64) - pa = a - pa + min n (64 - a % 64) := by omega
        rw [shift, ← List.drop_drop, ← List.take_add, Nat.add_sub_cancel' hk]
      dsimp only
      rw [List.foldl_cons, apexWriteParts_mem bs pa fuel _ _ _ (by omega) (by omega) rest, apexWrite_mem, whole, memWrite_append, first]

/-- The state in which a host has written bytes of HBM. -/
def hostWritten (s : State) (pa n v : Nat) : State :=
  (partsOf 64 pa n).foldl (fun s p => apexWrite s p.1 ((natLe n v).drop (p.1 - pa) |>.take p.2)) s

theorem hostWritten_mem (s : State) (pa n v : Nat) : (hostWritten s pa n v).mem = memWrite s.mem pa (natLe n v) := by
  have len := natLe_length n v
  rw [hostWritten, partsOf, apexWriteParts_mem (natLe n v) pa (n / 64 + 2) s pa n (Nat.le_refl pa) (by omega) (by omega), Nat.sub_self,
    List.drop_zero, List.take_of_length_le (by omega)]

/-- The state in which a host has read bytes of HBM. -/
def hostRead (s : State) (pa n : Nat) : State :=
  let t := (partsOf 64 pa n).foldl (fun s p => physTouchRead s apexAccess p.1 {} 0 false) s
  { t with host := { t.host with readData := leNat (hostReadBytes s pa n) } }

theorem hostRead_mem (s : State) (pa n : Nat) : (hostRead s pa n).mem = s.mem := foldl_mem _ fun _ _ => physTouchRead_mem ..

theorem hostAccess_write {s : State} {pa n v : Nat} (h : (s.host.fatal || decide (0x8000000000 < pa + n)) = false) :
    hostAccess s true pa n v = healSectors (hostWritten s pa n v) pa n := (if_neg (ne_true_of_eq_false h)).trans (if_pos rfl)

theorem hostAccess_read {s : State} {pa n v : Nat} (h : (s.host.fatal || decide (0x8000000000 < pa + n)) = false) :
    hostAccess s false pa n v = hostRead s pa n := (if_neg (ne_true_of_eq_false h)).trans (if_neg Bool.false_ne_true)

theorem memBytes_eq_map (m : List Host.Cell) (a : Nat) : ∀ n, memBytes m a n = (List.range n).map fun k => memGet m (a + k) := by
  intro n
  induction n generalizing a with
  | zero => rfl
  | succ n ih =>
    rw [memBytes, ih, List.range_succ_eq_map, List.map_cons, List.map_map, Nat.add_zero]
    refine congrArg (memGet m a :: ·) (List.map_congr_left fun k _ => ?_)
    rw [Function.comp_apply, Nat.add_assoc, Nat.add_comm 1 k]

/-- A host reads what is there where no sector is noted. -/
theorem hostReadBytes_good {s : State} {pa n : Nat} (h : ∀ k, k < n → (pa + k) / 64 ∉ s.dev.bad) : hostReadBytes s pa n = memBytes s.mem pa n := by
  rw [memBytes_eq_map, hostReadBytes]
  refine List.map_congr_left fun k hk => if_neg ?_
  rw [List.contains_iff_mem]
  exact h k (List.mem_range.1 hk)

theorem inbound : Claims.Inbound := by
  intro s pa n
  have allowed (hfatal : s.host.fatal = false) (hin : pa + n ≤ 0x8000000000) : (s.host.fatal || decide (0x8000000000 < pa + n)) = false := by
    rw [hfatal, decide_eq_false (Nat.not_lt.2 hin)]
    rfl
  refine ⟨fun hfatal hin hwrite => ?_, fun hfatal hin hread hgood => ?_, fun hno => ?_⟩
  · have step : exec .hostInboundAccess s = .next (healSectors (hostWritten s pa n (s.argN 3)) pa n) := by
      rw [exec_hostInboundAccess, execHostInboundAccess, hwrite, beq_self_eq_true, hostAccess_write (allowed hfatal hin)]
    have mem : (healSectors (hostWritten s pa n (s.argN 3)) pa n).mem = memWrite s.mem pa (natLe n (s.argN 3)) := hostWritten_mem ..
    refine ⟨_, step, fun k hk => ?_, ?_, fun k hlo hhi hbad => ?_⟩
    · rw [mem, memGet_memWrite_outside]
      rw [natLe_length]
      exact hk
    · rw [mem, memBytes_memWrite_of_length (natLe_length ..)]
    · have kept := (List.mem_filter.1 hbad).2
      rw [decide_eq_true hlo, decide_eq_true hhi] at kept
      cases kept
  · have step : exec .hostInboundAccess s = .next (hostRead s pa n) := by
      rw [exec_hostInboundAccess, execHostInboundAccess, beq_false_of_ne hread, hostAccess_read (allowed hfatal hin)]
    refine ⟨_, step, fun k => ?_, ?_⟩
    · rw [hostRead_mem]
    · rw [← hostReadBytes_good hgood]
      rfl
  · have refused : (s.host.fatal || decide (0x8000000000 < pa + n)) = true := by
      rw [Bool.or_eq_true, decide_eq_true_eq]
      exact hno
    rw [exec_hostInboundAccess, execHostInboundAccess]
    exact congrArg Host.Outcome.next (if_pos refused)

/-! ### The register aperture (R450, R452) -/

section Tables
variable (s : State) {o : Nat} (h8 : o % 8 = 0)
include h8

theorem registerRead_saves (hlo : 0x1800 ≤ o) (hhi : o < 0x2000) : registerRead s o = tabGetD 0 s.host.bring.saves ((o - 0x1800) / 8) := by
  unfold registerRead
  rw [if_neg (not_not.2 h8), if_neg (by omega), if_neg (by omega), if_neg (by omega), if_neg (by omega), if_neg (by omega), if_neg (by omega),
    if_neg (by omega), if_pos ⟨hlo, hhi⟩]

theorem registerRead_tasks (hlo : 0x2000 ≤ o) (hhi : o < 0x2800) : registerRead s o = tabGetD 0 s.host.bring.tasks ((o - 0x2000) / 8) := by
  unfold registerRead
  rw [if_neg (not_not.2 h8), if_neg (by omega), if_neg (by omega), if_neg (by omega), if_neg (by omega), if_neg (by omega), if_neg (by omega),
    if_neg (by omega), if_neg (by omega), if_pos ⟨hlo, hhi⟩]

end Tables

/-- `r` is `s` but for bring-up registers. -/
structure RowsWritten (s r : State) : Prop where
  mem : r.mem = s.mem
  fw : r.fw = s.fw
  attest : r.host.attest = s.host.attest
  islands : r.host.islands = s.host.islands
  status : r.host.bring.ready = s.host.bring.ready ∧ r.host.bring.fwOk = s.host.bring.fwOk ∧ r.host.bring.fwBad = s.host.bring.fwBad ∧
    r.host.bring.buErr = s.host.bring.buErr ∧ r.host.bring.code = s.host.bring.code
  dev : r.dev = { s.dev with ctxBase := r.dev.ctxBase, devFdom := r.dev.devFdom }

/-- Where a row is as it was, or is not the one read, a read returns what it did. -/
theorem RowsWritten.read {s r : State} (h : RowsWritten s r) {o : Nat} (hctx : o = 0x1000 → r.dev.ctxBase = s.dev.ctxBase)
    (hhusk : o = 0x1008 → r.host.bring.husk = s.host.bring.husk) (hroutes : o = 0x1010 → r.host.bring.routes = s.host.bring.routes)
    (hpeers : o = 0x1018 → r.host.bring.peers = s.host.bring.peers) (hdom : o = 0x1028 → r.dev.devFdom = s.dev.devFdom)
    (hsaves : 0x1800 ≤ o ∧ o < 0x2000 → tabGetD 0 r.host.bring.saves ((o - 0x1800) / 8) = tabGetD 0 s.host.bring.saves ((o - 0x1800) / 8))
    (htasks : 0x2000 ≤ o ∧ o < 0x2800 → tabGetD 0 r.host.bring.tasks ((o - 0x2000) / 8) = tabGetD 0 s.host.bring.tasks ((o - 0x2000) / 8)) :
    registerRead r o = registerRead s o := by
  obtain ⟨ready, fwOk, fwBad, buErr, code⟩ := h.status
  have devId : r.dev.devId = s.dev.devId := by rw [h.dev]
  have shoot : r.dev.shoot = s.dev.shoot := by rw [h.dev]
  have mode : r.dev.l2Mode = s.dev.l2Mode := by rw [h.dev]
  have next : r.dev.l2Next = s.dev.l2Next := by rw [h.dev]
  have time : timeBase r = timeBase s := by rw [timeBase, h.dev, timeBase]
  have island (n : Nat) : r.island n = s.island n := by rw [State.island, h.islands, State.island]
  have queue (n : Nat) : r.queue n = s.queue n := by rw [State.queue, h.fw, State.queue]
  unfold registerRead
  simp only [ready, fwOk, fwBad, buErr, code, devId, shoot, mode, next, time, island, queue, h.attest]
  exact if_congr .rfl rfl (if_congr .rfl rfl (ite_congr rfl hctx fun _ => ite_congr rfl hhusk fun _ => ite_congr rfl hroutes fun _ =>
    ite_congr rfl hpeers fun _ => if_congr .rfl rfl (ite_congr rfl hdom fun _ => ite_congr rfl hsaves fun _ => ite_congr rfl htasks fun _ => rfl)))

/-- The registers of a row of Table 27-3: aligned, and in the bring-up part of the aperture. -/
theorem bringUp_range {off : Nat} (h : Claims.bringUp off) : off % 8 = 0 ∧ 0x1000 ≤ off ∧ off < 0x2800 := by
  unfold Claims.bringUp at h
  omega

theorem registerWrite_bringUp {s : State} {off : Nat} (v : Nat) (h : Claims.bringUp off) (hfatal : s.host.fatal = false) :
    registerWrite s off v = writeBringUp s off (v % 2 ^ 64) := by
  obtain ⟨aligned, lo, hi⟩ := bringUp_range h
  unfold registerWrite
  dsimp only
  rw [if_neg (not_not.2 aligned), if_neg (by omega), if_neg (ne_true_of_eq_false hfatal), if_pos ⟨lo, hi⟩]

/-- Entries of a table of 64-bit words lie apart. -/
theorem entry_ne {base o off : Nat} (ho : o % 8 = 0) (hoff : off % 8 = 0) (hne : o ≠ off) (hbase : base % 8 = 0) (hlo : base ≤ o) (hlo' : base ≤ off) :
    (o - base) / 8 ≠ (off - base) / 8 := by omega

theorem registerRead_unaligned (s : State) {o : Nat} (h : o % 8 ≠ 0) : registerRead s o = 0 := by
  unfold registerRead
  exact if_pos h

/-- A bring-up register reads back as it was written, and the others as before. -/
theorem writeBringUp_reads {s : State} {off : Nat} (v : Nat) (h : Claims.bringUp off) (hready : s.host.bring.ready = false) :
    (writeBringUp s off v).mem = s.mem ∧ registerRead (writeBringUp s off v) off = v ∧
      ∀ o, o ≠ off → registerRead (writeBringUp s off v) o = registerRead s o := by
  have open_ : ¬s.host.bring.ready = true := ne_true_of_eq_false hready
  rcases h with rfl | rfl | rfl | rfl | rfl | ⟨hlo, hhi, h8⟩
  · have put : writeBringUp s 0x1000 v = { s with dev := { s.dev with ctxBase := v } } := (if_neg open_).trans (if_pos rfl)
    have rows : RowsWritten s { s with dev := { s.dev with ctxBase := v } } := ⟨rfl, rfl, rfl, rfl, ⟨rfl, rfl, rfl, rfl, rfl⟩, rfl⟩
    rw [put]
    exact ⟨rfl, rfl, fun o ho => rows.read (absurd · ho) (fun _ => rfl) (fun _ => rfl) (fun _ => rfl) (fun _ => rfl) (fun _ => rfl) (fun _ => rfl)⟩
  · have put : writeBringUp s 0x1008 v = { s with host := { s.host with bring := { s.host.bring with husk := v } } } := if_neg open_
    have rows : RowsWritten s { s with host := { s.host with bring := { s.host.bring with husk := v } } } := ⟨rfl, rfl, rfl, rfl, ⟨rfl, rfl, rfl, rfl, rfl⟩, rfl⟩
    rw [put]
    exact ⟨rfl, rfl, fun o ho => rows.read (fun _ => rfl) (absurd · ho) (fun _ => rfl) (fun _ => rfl) (fun _ => rfl) (fun _ => rfl) (fun _ => rfl)⟩
  · have put : writeBringUp s 0x1010 v = { s with host := { s.host with bring := { s.host.bring with routes := v } } } := if_neg open_
    have rows : RowsWritten s { s with host := { s.host with bring := { s.host.bring with routes := v } } } := ⟨rfl, rfl, rfl, rfl, ⟨rfl, rfl, rfl, rfl, rfl⟩, rfl⟩
    rw [put]
    exact ⟨rfl, rfl, fun o ho => rows.read (fun _ => rfl) (fun _ => rfl) (absurd · ho) (fun _ => rfl) (fun _ => rfl) (fun _ => rfl) (fun _ => rfl)⟩
  · have put : writeBringUp s 0x1018 v = { s with host := { s.host with bring := { s.host.bring with peers := v } } } := if_neg open_
    have rows : RowsWritten s { s with host := { s.host with bring := { s.host.bring with peers := v } } } := ⟨rfl, rfl, rfl, rfl, ⟨rfl, rfl, rfl, rfl, rfl⟩, rfl⟩
    rw [put]
    exact ⟨rfl, rfl, fun o ho => rows.read (fun _ => rfl) (fun _ => rfl) (fun _ => rfl) (absurd · ho) (fun _ => rfl) (fun _ => rfl) (fun _ => rfl)⟩
  · have put : writeBringUp s 0x1028 v = { s with dev := { s.dev with devFdom := v } } := if_neg open_
    have rows : RowsWritten s { s with dev := { s.dev with devFdom := v } } := ⟨rfl, rfl, rfl, rfl, ⟨rfl, rfl, rfl, rfl, rfl⟩, rfl⟩
    rw [put]
    exact ⟨rfl, rfl, fun o ho => rows.read (fun _ => rfl) (fun _ => rfl) (fun _ => rfl) (fun _ => rfl) (absurd · ho) (fun _ => rfl) (fun _ => rfl)⟩
  · by_cases hsave : off < 0x2000
    · have put : writeBringUp s off v = { s with host := { s.host with bring := { s.host.bring with
          saves := tabSetD 0 s.host.bring.saves ((off - 0x1800) / 8) v } } } := by
        unfold writeBringUp
        dsimp only
        rw [if_neg open_, if_neg (by omega), if_neg (by omega), if_neg (by omega), if_neg (by omega), if_neg (by omega), if_neg (by omega),
          if_pos ⟨hlo, hsave⟩]
      rw [put]
      refine ⟨rfl, ?_, fun o ho => ?_⟩
      · rw [registerRead_saves _ h8 hlo hsave]
        exact tabGetD_tabSetD_same ..
      · by_cases ho8 : o % 8 = 0
        · have rows : RowsWritten s { s with host := { s.host with bring := { s.host.bring with
              saves := tabSetD 0 s.host.bring.saves ((off - 0x1800) / 8) v } } } := ⟨rfl, rfl, rfl, rfl, ⟨rfl, rfl, rfl, rfl, rfl⟩, rfl⟩
          refine rows.read (fun _ => rfl) (fun _ => rfl) (fun _ => rfl) (fun _ => rfl) (fun _ => rfl) (fun hin => ?_) (fun _ => rfl)
          exact tabGetD_tabSetD_other _ _ _ (entry_ne ho8 h8 ho (by decide) hin.1 hlo)
        · rw [registerRead_unaligned _ ho8, registerRead_unaligned _ ho8]
    · have htask : 0x2000 ≤ off := Nat.not_lt.1 hsave
      have put : writeBringUp s off v = { s with host := { s.host with bring := { s.host.bring with
          tasks := tabSetD 0 s.host.bring.tasks ((off - 0x2000) / 8) v } } } := by
        unfold writeBringUp
        dsimp only
        rw [if_neg open_, if_neg (by omega), if_neg (by omega), if_neg (by omega), if_neg (by omega), if_neg (by omega), if_neg (by omega),
          if_neg (by omega), if_pos ⟨htask, hhi⟩]
      rw [put]
      refine ⟨rfl, ?_, fun o ho => ?_⟩
      · rw [registerRead_tasks _ h8 htask hhi]
        exact tabGetD_tabSetD_same ..
      · by_cases ho8 : o % 8 = 0
        · have rows : RowsWritten s { s with host := { s.host with bring := { s.host.bring with
              tasks := tabSetD 0 s.host.bring.tasks ((off - 0x2000) / 8) v } } } := ⟨rfl, rfl, rfl, rfl, ⟨rfl, rfl, rfl, rfl, rfl⟩, rfl⟩
          refine rows.read (fun _ => rfl) (fun _ => rfl) (fun _ => rfl) (fun _ => rfl) (fun _ => rfl) (fun _ => rfl) (fun hin => ?_)
          exact tabGetD_tabSetD_other _ _ _ (entry_ne ho8 h8 ho (by decide) hin.1 htask)
        · rw [registerRead_unaligned _ ho8, registerRead_unaligned _ ho8]

/-! ### Registers of queues, of the shootdown and attestation blocks and of islands (R386, R448, R454, R456) -/

section Blocks
variable {s : State} {off : Nat} (v : Nat)

theorem registerWrite_queue {n k : Nat} (hn : n < 32) (hoff : off = 0x10000 + 0x40 * n + k) (hk : k < 0x40) (h8 : k % 8 = 0)
    (hfatal : s.host.fatal = false) : registerWrite s off v = writeQueueReg s n k (v % 2 ^ 64) := by
  have index : (off - 0x10000) / 0x40 = n := by omega
  have row : (off - 0x10000) % 0x40 = k := by omega
  unfold registerWrite
  dsimp only
  rw [if_neg (by omega), if_neg (by omega), if_neg (ne_true_of_eq_false hfatal), if_neg (by omega), if_pos (by omega), index, row]

theorem registerWrite_shoot {k : Nat} (hoff : off = 0x30000 + k) (hk : k < 0x18) (h8 : k % 8 = 0) (hfatal : s.host.fatal = false) :
    registerWrite s off v = writeShoot s k (v % 2 ^ 64) := by
  have row : off - 0x30000 = k := by omega
  unfold registerWrite
  dsimp only
  rw [if_neg (by omega), if_neg (by omega), if_neg (ne_true_of_eq_false hfatal), if_neg (by omega), if_neg (by omega), if_pos (by omega), row]

theorem registerWrite_nonce {k : Nat} (hk : k < 4) (hoff : off = 0x32000 + 8 * k) : registerWrite s off v = writeAttest s (8 * k) (v % 2 ^ 64) := by
  have row : off - 0x32000 = 8 * k := by omega
  unfold registerWrite
  dsimp only
  rw [if_neg (by omega), if_pos (by omega), row]

theorem registerWrite_cap {n : Nat} (hn : n < 16) (hoff : off = 0x40000 + 0x40 * n) (hfatal : s.host.fatal = false) :
    registerWrite s off v = writeIsland s n 0 (v % 2 ^ 64) := by
  have index : (off - 0x40000) / 0x40 = n := by omega
  have row : (off - 0x40000) % 0x40 = 0 := by omega
  unfold registerWrite
  dsimp only
  rw [if_neg (by omega), if_neg (by omega), if_neg (ne_true_of_eq_false hfatal), if_neg (by omega), if_neg (by omega), if_neg (by omega),
    if_pos (by omega), index, row]

end Blocks

theorem State.setIsland_island_same (s : State) (n : Nat) (i : Island) : (s.setIsland n i).island n = i := tabGetD_tabSetD_same ..

/-- A bit field of a number. -/
theorem bitsOf_eq (x hi lo : Nat) : bitsOf x hi lo = x / 2 ^ lo % 2 ^ (hi - lo + 1) := by rw [bitsOf, Nat.shiftRight_eq_div_pow]

theorem writeQueueReg_open {s : State} {n : Nat} (k v : Nat)
    (h : s.host.bring.ready = false ∨ (s.queue n).halted = true ∧ (s.queue n).rptr = (s.queue n).wptr) : writeQueueReg s n k v =
      if k = 0x18 then s.setCmdQueue n { s.queue n with base := v / 64 * 64 }
      else if k = 0x20 then s.setCmdQueue n { s.queue n with slots := bitsOf v 16 0, node := bitsOf v 41 32, producer := bitsOf v 49 48 }
      else if k = 0x28 then s.setCmdQueue n { s.queue n with peer := bitsOf v 11 0 } else s := by
  have open_ : (s.host.bring.ready && !((s.queue n).halted && (s.queue n).rptr == (s.queue n).wptr)) = false := by
    rcases h with hready | ⟨hhalted, hempty⟩
    · rw [hready, Bool.false_and]
    · rw [hhalted, hempty, beq_self_eq_true]
      exact Bool.and_false _
  exact if_neg (ne_true_of_eq_false open_)

theorem writeQueueReg_locked {s : State} {n : Nat} (k v : Nat) (hready : s.host.bring.ready = true)
    (h : (s.queue n).halted = false ∨ (s.queue n).rptr ≠ (s.queue n).wptr) : writeQueueReg s n k v = s := by
  refine if_pos ?_
  rw [hready, Bool.true_and, Bool.not_eq_true', Bool.and_eq_false_iff, beq_eq_false_iff_ne]
  exact h

theorem writeShoot_open {s : State} (k v : Nat) (hready : s.host.bring.ready = true) (hidle : s.dev.shoot.busy = false) : writeShoot s k v =
    if k = 0x00 then { s with dev := { s.dev with shoot := { s.dev.shoot with ctx := bitsOf v 11 0, all := bitsOf v 16 16 = 1 } } }
    else if k = 0x08 then { s with dev := { s.dev with shoot := { s.dev.shoot with base := bitsOf v 56 16 * 2 ^ 16 } } }
    else if k = 0x10 then { s with dev := { s.dev with shoot := { s.dev.shoot with count := bitsOf v 31 0 } } } else s := by
  have open_ : (s.dev.shoot.busy || !s.host.bring.ready) = false := by rw [hidle, hready]; rfl
  exact if_neg (ne_true_of_eq_false open_)

theorem registerRead_nonce (s : State) {k : Nat} (hk : k < 4) : registerRead s (0x32000 + 8 * k) = (tabGetD 0 s.host.attest.nonce k).toNat := by
  have row : (0x32000 + 8 * k - 0x32000) / 8 = k := by omega
  unfold registerRead
  rw [if_neg (by omega), if_neg (by omega), if_neg (by omega), if_neg (by omega), if_neg (by omega), if_neg (by omega), if_neg (by omega),
    if_neg (by omega), if_neg (by omega), if_neg (by omega), if_neg (by omega), if_neg (by omega), if_neg (by omega), if_neg (by omega),
    if_neg (by omega), if_neg (by omega), if_pos (by omega), row]

theorem registers : Claims.Registers := by
  intro s off hoff v
  have step : exec .registerWrite s = .next (registerWrite s off (s.argN 1)) := by rw [exec_registerWrite, execRegisterWrite, hoff]
  refine ⟨fun hrow hfatal hready => ?_, fun hrow hready => ?_, fun hodd => ?_, fun n hn hfatal => ⟨fun hopen => ⟨fun h => ?_, fun h => ?_, fun h => ?_⟩,
    fun hready hbusy hrow => ?_⟩, fun hfatal hready hidle => ⟨fun h => ?_, fun h => ?_, fun h => ?_⟩, fun k hk h hready => ?_, fun n hn h hfatal => ?_⟩
  · rw [registerWrite_bringUp _ hrow hfatal] at step
    obtain ⟨mem, same, others⟩ := writeBringUp_reads v hrow hready
    exact ⟨_, step, fun k => congrArg (memGet · k) mem, same, others⟩
  · rw [step]
    by_cases hfatal : s.host.fatal = true
    · obtain ⟨aligned, lo, hi⟩ := bringUp_range hrow
      unfold registerWrite
      dsimp only
      rw [if_neg (not_not.2 aligned), if_neg (by omega), if_pos hfatal]
    · rw [registerWrite_bringUp _ hrow (Bool.eq_false_iff.2 hfatal)]
      exact congrArg Host.Outcome.next (if_pos hready)
  · rw [step]
    exact congrArg Host.Outcome.next (if_pos hodd)
  · rw [registerWrite_queue _ hn h (by decide) (by decide) hfatal, writeQueueReg_open _ _ hopen, if_pos rfl] at step
    exact ⟨_, step, fun _ => rfl, s.setCmdQueue_queue_same n _⟩
  · rw [registerWrite_queue _ hn h (by decide) (by decide) hfatal, writeQueueReg_open _ _ hopen, if_neg (by decide), if_pos rfl] at step
    refine ⟨_, step, fun _ => rfl, (s.setCmdQueue_queue_same n _).trans ?_⟩
    rw [bitsOf_eq, bitsOf_eq, bitsOf_eq, Nat.pow_zero, Nat.div_one]
    rfl
  · rw [registerWrite_queue _ hn h (by decide) (by decide) hfatal, writeQueueReg_open _ _ hopen, if_neg (by decide), if_neg (by decide),
      if_pos rfl] at step
    refine ⟨_, step, fun _ => rfl, (s.setCmdQueue_queue_same n _).trans ?_⟩
    rw [bitsOf_eq, Nat.pow_zero, Nat.div_one]
  · by_cases h8 : off % 8 = 0
    · have place : off = 0x10000 + 0x40 * n + off % 0x40 := by omega
      rw [step, registerWrite_queue _ hn place (Nat.mod_lt _ (by decide)) (by omega) hfatal, writeQueueReg_locked _ _ hready hbusy]
    · rw [step]
      exact congrArg Host.Outcome.next (if_pos h8)
  · rw [step, registerWrite_shoot (k := 0x00) _ h (by decide) (by decide) hfatal, writeShoot_open _ _ hready hidle, if_pos rfl, bitsOf_eq, bitsOf_eq,
      Nat.pow_zero, Nat.div_one]
    rfl
  · rw [step, registerWrite_shoot (k := 0x08) _ h (by decide) (by decide) hfatal, writeShoot_open _ _ hready hidle, if_neg (by decide), if_pos rfl, bitsOf_eq]
  · rw [step, registerWrite_shoot (k := 0x10) _ h (by decide) (by decide) hfatal, writeShoot_open _ _ hready hidle, if_neg (by decide), if_neg (by decide),
      if_pos rfl, bitsOf_eq, Nat.pow_zero, Nat.div_one]
  · have put : writeAttest s (8 * k) v = { s with host := { s.host with attest := { s.host.attest with
        nonce := tabSetD 0 s.host.attest.nonce (8 * k / 8) (BitVec.ofNat 64 v) } } } := by
      have ready : ¬(!s.host.bring.ready) = true := by rw [hready]; decide
      exact (if_neg ready).trans (if_pos (by omega))
    rw [registerWrite_nonce _ hk h, put, Nat.mul_div_cancel_left k (by decide)] at step
    refine ⟨_, step, fun _ => rfl, ?_⟩
    rw [h, registerRead_nonce _ hk, tabGetD_tabSetD_same, BitVec.toNat_ofNat]
    exact Nat.mod_mod ..
  · have put : writeIsland s n 0 v = s.setIsland n { s.island n with cap := bitsOf v 15 0 } := by
      rw [writeIsland]
      rfl
    rw [registerWrite_cap _ hn h hfatal, put] at step
    refine ⟨_, step, fun _ => rfl, (s.setIsland_island_same n _).trans ?_⟩
    rw [bitsOf_eq, Nat.pow_zero, Nat.div_one]

/-! ### Power (R456, R457) -/

theorem State.setCluster_cluster_same (s : State) (c : Nat) (k : Cluster) : (s.setCluster c k).cluster c = k := tabGetD_tabSetD_same ..

theorem State.setCluster_cluster_other (s : State) {c d : Nat} (k : Cluster) (h : d ≠ c) : (s.setCluster c k).cluster d = s.cluster d :=
  tabGetD_tabSetD_other _ _ _ h

/-- Clusters that are changed one by one: those of the list, and nothing else. -/
theorem foldl_setCluster {f : Cluster → Cluster} (hf : ∀ k, f (f k) = f k) (ks : List Nat) (s : State) :
    let r := ks.foldl (fun s k => s.setCluster k (f (s.cluster k))) s
    r.mem = s.mem ∧ r.teams = s.teams ∧ r.cores = s.cores ∧ (∀ k ∈ ks, r.cluster k = f (s.cluster k)) ∧ ∀ k, k ∉ ks → r.cluster k = s.cluster k := by
  induction ks generalizing s with
  | nil => exact ⟨rfl, rfl, rfl, fun _ h => absurd h List.not_mem_nil, fun _ _ => rfl⟩
  | cons x ks ih =>
    obtain ⟨mem, teams, cores, changed, others⟩ := ih (s.setCluster x (f (s.cluster x)))
    refine ⟨mem, teams, cores, fun k hk => ?_, fun k hk => ?_⟩
    · by_cases hin : k ∈ ks
      · refine (changed k hin).trans ?_
        by_cases hx : k = x
        · rw [hx, State.setCluster_cluster_same, hf]
        · rw [State.setCluster_cluster_other _ _ hx]
      · have hx : k = x := (List.mem_cons.1 hk).resolve_right hin
        refine (others k hin).trans ?_
        rw [hx, State.setCluster_cluster_same]
    · obtain ⟨hx, hin⟩ := List.ne_and_not_mem_of_not_mem_cons hk
      exact (others k hin).trans (State.setCluster_cluster_other _ _ hx)

/-- A core without its buffers and its L1. -/
def unpowered (k : Core) : Core := { k with tlb := [], l1 := [], fills := [] }

/-- Cores that lose their buffers keep the rest. -/
theorem foldl_setCore (cs : List Nat) (s : State) : let r := cs.foldl (fun s c => s.setCore c (unpowered (s.core c))) s
    r.mem = s.mem ∧ r.teams = s.teams ∧ r.clusters = s.clusters ∧ ∀ c, unpowered (r.core c) = unpowered (s.core c) := by
  induction cs generalizing s with
  | nil => exact ⟨rfl, rfl, rfl, fun _ => rfl⟩
  | cons x cs ih =>
    obtain ⟨mem, teams, clusters, cores⟩ := ih (s.setCore x (unpowered (s.core x)))
    refine ⟨mem, teams, clusters, fun c => (cores c).trans ?_⟩
    by_cases hc : c = x
    · rw [hc, State.setCore_core_same]
      rfl
    · rw [State.setCore_core_other _ _ hc]

/-- The cores of clusters. -/
theorem forall_coresOf {ks : List Nat} {p : Nat → Bool} : (ks.flatMap fun k => (List.range 8).map (8 * k + ·)).all p = true ↔
    ∀ k ∈ ks, ∀ c, c < 8 → p (8 * k + c) = true := by
  simp only [List.all_flatMap, List.all_map, List.all_eq_true, List.mem_range, Function.comp_apply]

/-- The state in which an island's clusters are gated. -/
def gatedState (s : State) (n : Nat) : State :=
  let ks := islandClusters n
  ks.foldl (fun s k => s.setCluster k { s.cluster k with tlb := [], gated := true })
    ((ks.flatMap fun k => (List.range 8).map (8 * k + ·)).foldl (fun s c => s.setCore c (unpowered (s.core c))) s)

theorem gatedState_spec (s : State) (n : Nat) : (gatedState s n).mem = s.mem ∧ (gatedState s n).teams = s.teams ∧
    (∀ c, unpowered ((gatedState s n).core c) = unpowered (s.core c)) ∧
    (∀ k ∈ islandClusters n, (gatedState s n).cluster k = { s.cluster k with tlb := [], gated := true }) ∧
    ∀ k, k ∉ islandClusters n → (gatedState s n).cluster k = s.cluster k := by
  unfold gatedState
  dsimp only
  obtain ⟨mem, teams, clusters, cores⟩ := foldl_setCore ((islandClusters n).flatMap fun k => (List.range 8).map (8 * k + ·)) s
  generalize List.foldl (fun s c => s.setCore c (unpowered (s.core c))) s _ = r at mem teams clusters cores ⊢
  have cluster (k : Nat) : r.cluster k = s.cluster k := by rw [State.cluster, clusters, State.cluster]
  obtain ⟨mem', teams', cores', changed, others⟩ := foldl_setCluster (f := fun k => { k with tlb := [], gated := true }) (fun _ => rfl)
    (islandClusters n) r
  refine ⟨mem'.trans mem, teams'.trans teams, fun c => ?_, fun k hk => (changed k hk).trans ?_, fun k hk => (others k hk).trans (cluster k)⟩
  · rw [← cores c, State.core, cores', State.core]
  · rw [cluster]

theorem power : Claims.Power := by
  intro s n hn i p down up
  have meter : s.argN 1 = p := rfl
  refine ⟨fun hlt => ?_, fun hlt => ?_, ⟨fun hcore hidle => ?_, fun hno => ?_⟩, fun hcore => ?_⟩
  · have step : exec .islandClockDown s = .next (s.setIsland n { i with power := p % 2 ^ 16, below := down }) := by
      rw [exec_islandClockDown, execIslandClockDown, hn, meter, islandDown, if_neg (Nat.not_le.2 hlt)]
      unfold down
      dsimp only
      split <;> rfl
    exact ⟨_, step, fun _ => rfl, s.setIsland_island_same n _⟩
  · have step : exec .islandClockUp s = .next (s.setIsland n { i with power := p % 2 ^ 16, below := up }) := by
      rw [exec_islandClockUp, execIslandClockUp, hn, meter, islandUp, if_neg (Nat.not_le.2 hlt)]
      unfold up
      dsimp only
      split <;> rfl
    exact ⟨_, step, fun _ => rfl, s.setIsland_island_same n _⟩
  · have gates : (!isCoreIsland n || !(((islandClusters n).flatMap fun k => (List.range 8).map (8 * k + ·)).all (coreIdle s))) = false := by
      rw [hcore, forall_coresOf.2 hidle]
      rfl
    have step : exec .clusterGate s = .next (gatedState s n) := by
      rw [exec_clusterGate, execClusterGate, hn]
      exact congrArg Host.Outcome.next (if_neg (ne_true_of_eq_false gates))
    obtain ⟨mem, teams, cores, changed, others⟩ := gatedState_spec s n
    refine ⟨_, step, fun k => congrArg (memGet · k) mem, teams, fun k hk => ?_, others, fun c => ?_⟩
    · rw [changed k hk]
      exact ⟨rfl, rfl, rfl⟩
    · have kept := cores c
      generalize (gatedState s n).core c = k at kept ⊢
      exact ⟨(congrArg Core.ctrs kept :), (congrArg Core.acorns kept :), (congrArg Core.dir kept :), (congrArg Core.handlers kept :)⟩
  · have stays : (!isCoreIsland n || !(((islandClusters n).flatMap fun k => (List.range 8).map (8 * k + ·)).all (coreIdle s))) = true := by
      rw [Bool.or_eq_true, Bool.not_eq_true', Bool.not_eq_true', ← Bool.not_eq_true (List.all ..), forall_coresOf]
      exact hno
    rw [exec_clusterGate, execClusterGate, hn]
    exact congrArg Host.Outcome.next (if_pos stays)
  · have step : exec .clusterUngate s = .next ((islandClusters n).foldl (fun s k => s.setCluster k { s.cluster k with gated := false }) s) := by
      rw [exec_clusterUngate, execClusterUngate, hn]
      exact congrArg Host.Outcome.next (if_pos hcore)
    obtain ⟨mem, -, cores, changed, others⟩ := foldl_setCluster (f := fun k => { k with gated := false }) (fun _ => rfl) (islandClusters n) s
    refine ⟨_, step, fun k => congrArg (memGet · k) mem, cores, fun k hk => ?_, others⟩
    rw [changed k hk]

/-- Settles O60: each register's write changes one field, which its own row of the aperture reads and no other; a host's access is the bytes it
covers, sector by sector; and gating takes the buffers and L1s of the clusters' cores alone. -/
theorem hostSide : Obligations.HostSide := ⟨start, queues, semaphores, inbound, registers, power⟩

end Sys2Proof.Machine

/-! ## Packets: what the firmware makes of the parse of a packet -/

namespace Sys2Proof.Machine

theorem exec_nopPacket (s : State) : exec .nopPacket s = .next (unlessFatal s (parseNop s (s.argN 0))) := rfl
theorem exec_signalPkt (s : State) : exec .signalPkt s = .next (unlessFatal s (parseSignal s (s.argN 0))) := rfl
theorem exec_indirectPkt (s : State) : exec .indirectPkt s = .next (unlessFatal s (parseIndirect s (s.argN 0))) := rfl
theorem exec_waitPkt (s : State) : exec .waitPkt s = .next (unlessFatal s (parseWait s (s.argN 0))) := rfl
theorem exec_opcodeNotInTable (s : State) : exec .opcodeNotInTable s = .next (unlessFatal s (unknownOpcode s (s.argN 0))) := rfl

/-! ### The queue and its round (R340, R342) -/

/-- Opening a round changes the round alone. -/
theorem openRound_eq (s : State) : openRound s = { s with fw := { s.fw with round := (openRound s).fw.round } } := by
  unfold openRound
  split <;> rfl

theorem openRound_queue (s : State) (qn : Nat) : (openRound s).queue qn = s.queue qn := by rw [openRound_eq]; rfl

theorem openRound_packetSeq (s : State) : (openRound s).fw.packetSeq = s.fw.packetSeq := by rw [openRound_eq]

/-- The state in which a queue has had its turn (R342). -/
theorem leaveRound_openRound (s : State) (qn : Nat) :
    leaveRound (openRound s) qn = { s with fw := { s.fw with round := (openRound s).fw.round.filter (· ≠ qn) } } := by
  rw [leaveRound, openRound_eq]

theorem advanceQueue_eq (s : State) (qn slots : Nat) :
    advanceQueue s qn slots = s.setCmdQueue qn (Claims.passed (s.queue qn) slots) := by
  unfold advanceQueue Claims.passed
  dsimp only
  cases (s.queue qn).levels <;> rfl

/-- The pointers alone tell the state in which the firmware begins a packet's work from the state before. -/
theorem begun_eq (s : State) (qn slots : Nat) (p : Packet) :
    Claims.begun s qn slots p = { s with fw := { s.fw with
      round := (openRound s).fw.round.filter (· ≠ qn)
      queues := tabSetD {} s.fw.queues qn (Claims.passed (s.queue qn) slots)
      packets := tabSet s.fw.packets s.fw.packetSeq p
      packetSeq := s.fw.packetSeq + 1 } } := by
  rw [Claims.begun, advanceQueue_eq, leaveRound_openRound]
  rfl

theorem begun_queue (s : State) (qn slots : Nat) (p : Packet) :
    (Claims.begun s qn slots p).queue qn = Claims.passed (s.queue qn) slots := by
  rw [begun_eq]
  exact tabGetD_tabSetD_same ..

theorem begun_packet (s : State) (qn slots : Nat) (p : Packet) :
    tabGet (Claims.begun s qn slots p).fw.packets s.fw.packetSeq = some p := by
  rw [begun_eq]
  exact tabGet_tabSet_same ..

theorem begun_packetSeq (s : State) (qn slots : Nat) (p : Packet) : (Claims.begun s qn slots p).fw.packetSeq = s.fw.packetSeq + 1 := by
  rw [begun_eq]

theorem begun_round (s : State) (qn slots : Nat) (p : Packet) : qn ∉ (Claims.begun s qn slots p).fw.round := by
  rw [begun_eq]
  exact fun h => by simpa using (List.mem_filter.1 h).2

theorem begun_mem (s : State) (qn slots : Nat) (p : Packet) : (Claims.begun s qn slots p).mem = s.mem := by rw [begun_eq]
theorem begun_dev (s : State) (qn slots : Nat) (p : Packet) : (Claims.begun s qn slots p).dev = s.dev := by rw [begun_eq]
theorem begun_fab (s : State) (qn slots : Nat) (p : Packet) : (Claims.begun s qn slots p).fab = s.fab := by rw [begun_eq]
theorem begun_eng (s : State) (qn slots : Nat) (p : Packet) : (Claims.begun s qn slots p).eng = s.eng := by rw [begun_eq]

/-! ### The end of buffers (R349) -/

/-- A buffer with packets left does not end. -/
theorem closeLevels_open (qn n : Nat) {s : State} (h : ∀ l ls, (s.queue qn).levels = l :: ls → l.next < l.slots) :
    closeLevels qn n s = s := by
  cases n with
  | zero => rfl
  | succ n =>
    unfold closeLevels
    dsimp only
    split
    · next l ls hl => exact if_neg (Nat.not_le.2 (h l ls hl))
    · rfl

theorem packetPart_setCmdQueue_queue (s : State) (qn key : Nat) (q : CmdQueue) : (packetPart (s.setCmdQueue qn q) key).queue qn = q :=
  s.setCmdQueue_queue_same qn q

/-- A buffer at its end ends; where the one below has packets left, nothing more ends. -/
theorem closeLevels_ended (qn n : Nat) {s : State} {l : Level} {ls : List Level} (hl : (s.queue qn).levels = l :: ls)
    (ended : l.slots ≤ l.next) (below : ∀ m ∈ ls.head?, m.next < m.slots) :
    closeLevels qn (n + 1) s = packetPart (s.setCmdQueue qn { s.queue qn with levels := ls }) l.key := by
  have left : ((packetPart (s.setCmdQueue qn { s.queue qn with levels := ls }) l.key).queue qn).levels = ls := by
    rw [packetPart_setCmdQueue_queue]
  rw [closeLevels]
  dsimp only
  rw [hl]
  refine (if_pos ended).trans (closeLevels_open qn n fun m ms hm => below m ?_)
  rw [← left, hm]
  rfl

theorem forgetRefused_queue (s : State) (who : Requester) (qn : Nat) : (forgetRefused s who).queue qn = s.queue qn := rfl

theorem passed_levels_of_stays {q : CmdQueue} {slots : Nat} (h : Claims.stays q slots) :
    ∀ l ls, (Claims.passed q slots).levels = l :: ls → l.next < l.slots := by
  unfold Claims.passed
  split
  · next hq =>
    intro l ls hl
    rw [hq] at hl
    cases hl
  · next l ls hq =>
    rintro m ms hm
    obtain ⟨rfl, rfl⟩ := List.cons.inj hm
    exact h l ls hq

/-! ### What a parse comes to (R340, R342, R350) -/

/-- The state after a packet's parse, given what the parse of its body gives. -/
def concluded (s : State) (qn slots : Nat) (p : Packet) : Parsed → State
  | .wait ctx node needs => fwWait (leaveRound (openRound s) qn) ctx node (queueWho qn) needs
  | .fault cause ordinal more => forgetRefused (closeLevels qn 5
      (commandFault (advanceQueue (leaveRound (openRound s) qn) qn slots) s.fw.packetSeq p cause ordinal more)) (.apex (queueWho qn))
  | .done r => forgetRefused (closeLevels qn 5 r) (.apex (queueWho qn))

section Parse
variable {s : State} {qn slots : Nat} {hd bs : List Byte} {p : Packet} {mine : Nat → List Byte → Bool}
  {act : State → Nat → Packet → List Byte → Parsed}

/-- Up to the check of its header, the parse of a packet at the head of its queue takes one way. -/
theorem parsePacket_head (h : Claims.Head s qn slots hd bs p) (hm : mine (field hd 0 1) hd = true) :
    parsePacket s qn mine act = if headerBad (openRound s) qn p bs then
        closeLevels qn 5 (commandFault (advanceQueue (leaveRound (openRound s) qn) qn slots) s.fw.packetSeq p 0x135)
      else concluded s qn slots p (act (Claims.begun s qn slots p) s.fw.packetSeq p bs) := by
  have seq : (leaveRound (openRound s) qn).fw.packetSeq = s.fw.packetSeq := openRound_packetSeq s
  have bad : headerBad (leaveRound (openRound s) qn) qn p bs = headerBad (openRound s) qn p bs := rfl
  have packet : packetOf (leaveRound (openRound s) qn) qn (queuePlace (openRound s) (s.queue qn)) hd = p := h.packet
  rw [← seq]
  unfold parsePacket
  dsimp only
  rw [if_neg (not_not.2 h.turn), openRound_queue, h.first]
  dsimp only
  rw [h.head, hm, Bool.not_true, if_neg Bool.false_ne_true, h.count, packet, if_neg (Nat.not_lt.2 h.written), h.ready, h.bytes, Nat.min_eq_left h.written]
  refine if_congr (Iff.of_eq (congrArg (· = true) bad)) rfl ?_
  change (match act (Claims.begun s qn slots p) (leaveRound (openRound s) qn).fw.packetSeq p bs with
    | .wait .. => _
    | .fault .. => _
    | .done _ => _) = _
  cases act (Claims.begun s qn slots p) (leaveRound (openRound s) qn).fw.packetSeq p bs with
  | wait => rfl
  | fault => rw [concluded, ← seq]
  | done => rfl

end Parse

/-! ### Command faults (R350) -/

/-- A command fault halts the queue and removes the packet; its record is a write. -/
theorem commandFault_eq (s : State) (key : Nat) (p : Packet) (cause ordinal : Nat) (more : List (List RecField)) :
    ∃ r, Wrote s r ∧ commandFault s key p cause ordinal more = { r with fw := { r.fw with
      queues := tabSetD {} s.fw.queues p.queue { s.queue p.queue with halted := true }
      packets := tabDel s.fw.packets key } } := by
  have recorded := wrote_commandRecord s { p with node := (s.queue p.queue).node } cause ordinal more
  unfold commandFault
  dsimp only
  generalize commandRecord s { p with node := (s.queue p.queue).node } cause ordinal more = r at recorded ⊢
  exact ⟨r, recorded, by rw [← recorded.packets, ← recorded.queues]; rfl⟩

/-- What a command fault at the head of a queue leaves: the packet is refused, and scripts, nodes and pushes are as they were. -/
structure Faulted (s s' : State) (qn slots : Nat) : Prop where
  refused : Claims.Refused s s' qn slots
  scripts : s'.dev.scripts = s.dev.scripts
  nodes : s'.dev.nodes = s.dev.nodes
  descents : s'.dev.descents = s.dev.descents

theorem Faulted.forgetRefused {s r : State} {qn slots : Nat} (h : Faulted s r qn slots) (who : Requester) :
    Faulted s (forgetRefused r who) qn slots :=
  ⟨⟨h.refused.queue, h.refused.packet, h.refused.turn⟩, h.scripts, h.nodes, h.descents⟩

theorem faulted_commandFault {s : State} {qn slots : Nat} {p : Packet} (hp : p.queue = qn) (hs : Claims.stays (s.queue qn) slots)
    (cause ordinal : Nat) (more : List (List RecField)) :
    Faulted s (closeLevels qn 5
      (commandFault (advanceQueue (leaveRound (openRound s) qn) qn slots) s.fw.packetSeq p cause ordinal more)) qn slots := by
  subst hp
  have queue : (advanceQueue (leaveRound (openRound s) p.queue) p.queue slots).queue p.queue = Claims.passed (s.queue p.queue) slots := by
    rw [advanceQueue_eq, State.setCmdQueue_queue_same, leaveRound_openRound]
    rfl
  obtain ⟨r, wrote, faulted⟩ :=
    commandFault_eq (advanceQueue (leaveRound (openRound s) p.queue) p.queue slots) s.fw.packetSeq p cause ordinal more
  rw [faulted, queue]
  have halted : ({ r with fw := { r.fw with
      queues := tabSetD {} (advanceQueue (leaveRound (openRound s) p.queue) p.queue slots).fw.queues p.queue
        { Claims.passed (s.queue p.queue) slots with halted := true }
      packets := tabDel (advanceQueue (leaveRound (openRound s) p.queue) p.queue slots).fw.packets s.fw.packetSeq } } : State).queue
        p.queue = { Claims.passed (s.queue p.queue) slots with halted := true } := tabGetD_tabSetD_same ..
  rw [closeLevels_open _ _ (by rw [halted]; exact passed_levels_of_stays hs)]
  rw [advanceQueue_eq, leaveRound_openRound] at wrote
  refine ⟨⟨halted, tabGet_tabDel_same .., ?_⟩, wrote.scripts, wrote.nodes, wrote.descents⟩
  intro turn
  rw [wrote.round] at turn
  simpa using (List.mem_filter.1 turn).2

/-! ### A legal packet is taken or refused -/

/-- The parse of a body leaves the queues, the round under way and the number of the next packet as they are. -/
structure Kept (b r : State) : Prop where
  queues : r.fw.queues = b.fw.queues
  round : r.fw.round = b.fw.round
  packetSeq : r.fw.packetSeq = b.fw.packetSeq

theorem Kept.refl (s : State) : Kept s s := ⟨rfl, rfl, rfl⟩

theorem Wrote.kept {s r : State} (h : Wrote s r) : Kept s r := ⟨h.queues, h.round, h.packetSeq⟩

section Legal
variable {s : State} {qn slots : Nat} {hd bs : List Byte} {p : Packet} {mine : Nat → List Byte → Bool}
  {act : State → Nat → Packet → List Byte → Parsed} {i : Instr}

theorem Head.queue (h : Claims.Head s qn slots hd bs p) : p.queue = qn := by
  rw [← h.packet]
  rfl

/-- A legal packet goes as the parse of its body says. -/
theorem exec_legal (h : Claims.Legal s qn slots hd bs p) (hi : exec i s = .next (unlessFatal s (parsePacket s qn mine act)))
    (hm : mine (field hd 0 1) hd = true) :
    exec i s = .next (concluded s qn slots p (act (Claims.begun s qn slots p) s.fw.packetSeq p bs)) := by
  obtain ⟨head, good, _⟩ := h
  rw [hi, unlessFatal_running head.alive, parsePacket_head head hm, good, if_neg Bool.false_ne_true]

/-- A legal packet whose body is a command fault is refused. -/
theorem exec_refused (h : Claims.Legal s qn slots hd bs p) (hi : exec i s = .next (unlessFatal s (parsePacket s qn mine act)))
    (hm : mine (field hd 0 1) hd = true) {cause ordinal : Nat} {more : List (List RecField)}
    (hact : act (Claims.begun s qn slots p) s.fw.packetSeq p bs = .fault cause ordinal more) :
    ∃ s', exec i s = .next s' ∧ Faulted s s' qn slots := by
  have step := exec_legal h hi hm
  rw [hact] at step
  obtain ⟨head, _, stays⟩ := h
  exact ⟨_, step, (faulted_commandFault (Head.queue head) stays ..).forgetRefused _⟩

/-- A legal packet whose work has begun in the state `r` is taken, and `r` is the state after the step but for pages that its queue need not
ask for again. -/
theorem exec_taken_of_queue (h : Claims.Legal s qn slots hd bs p) (hi : exec i s = .next (unlessFatal s (parsePacket s qn mine act)))
    (hm : mine (field hd 0 1) hd = true) {r : State} {q : CmdQueue} {x : Packet}
    (hact : act (Claims.begun s qn slots p) s.fw.packetSeq p bs = .done r) (hq : r.queue qn = q)
    (hl : ∀ l ls, q.levels = l :: ls → l.next < l.slots) (hx : tabGet r.fw.packets s.fw.packetSeq = some x)
    (hround : r.fw.round = (Claims.begun s qn slots p).fw.round) (hseq : r.fw.packetSeq = (Claims.begun s qn slots p).fw.packetSeq) :
    exec i s = .next (forgetRefused r (.apex (queueWho qn))) ∧ Claims.Taken s (forgetRefused r (.apex (queueWho qn))) qn q x := by
  subst hq
  have step := exec_legal h hi hm
  rw [hact, concluded, closeLevels_open _ _ hl] at step
  exact ⟨step, rfl, hx, hseq.trans (begun_packetSeq ..), by
    exact fun turn => begun_round s qn slots p (hround ▸ turn)⟩

/-- A legal packet is taken where the parse of its body leaves the queues as they are. -/
theorem exec_taken (h : Claims.Legal s qn slots hd bs p) (hi : exec i s = .next (unlessFatal s (parsePacket s qn mine act)))
    (hm : mine (field hd 0 1) hd = true) {r : State} {x : Packet}
    (hact : act (Claims.begun s qn slots p) s.fw.packetSeq p bs = .done r) (hk : Kept (Claims.begun s qn slots p) r)
    (hx : tabGet r.fw.packets s.fw.packetSeq = some x) :
    exec i s = .next (forgetRefused r (.apex (queueWho qn))) ∧
      Claims.Taken s (forgetRefused r (.apex (queueWho qn))) qn (Claims.passed (s.queue qn) slots) x := by
  refine exec_taken_of_queue h hi hm hact ?_ ?_ hx hk.round hk.packetSeq
  · rw [State.queue, hk.queues]
    exact begun_queue ..
  · exact passed_levels_of_stays h.2.2

end Legal

/-! ### Packets with nothing to begin (R342, R343, R350) -/

theorem isOpcode_of_eq {n op : Nat} (h : op = n) (bs : List Byte) : isOpcode n op bs = true := beq_iff_eq.2 h

/-- A queue whose turn it is not waits. -/
theorem parsePacket_waits {s : State} {qn : Nat} (h : (openRound s).fw.round.head? ≠ some qn) (mine : Nat → List Byte → Bool)
    (act : State → Nat → Packet → List Byte → Parsed) : parsePacket s qn mine act = s := if_pos h

theorem emptyPackets : Claims.EmptyPackets := by
  rintro s _ slots hd bs p rfl
  refine ⟨fun h zero => ⟨fun op => ?_, fun op => ?_⟩, fun h rest op => ?_, fun h hs out op => ?_, fun l ls h good zero op hl hend below other => ?_,
    fun alive turn => ?_⟩
  · obtain ⟨step, taken⟩ := exec_taken h (exec_nopPacket s) (isOpcode_of_eq op _) (if_pos zero) (.refl _) (begun_packet ..)
    exact ⟨_, step, fun a => by rw [forgetRefused, begun_mem], taken⟩
  · obtain ⟨step, taken⟩ := exec_taken h (exec_signalPkt s) (isOpcode_of_eq op _) (if_pos zero) (.refl _) (begun_packet ..)
    exact ⟨_, step, fun a => by rw [forgetRefused, begun_mem], taken⟩
  · obtain ⟨s', step, faulted⟩ := exec_refused h (exec_nopPacket s) (isOpcode_of_eq op _)
      (if_neg (by rw [rest]; exact Bool.false_ne_true))
    exact ⟨s', step, faulted.refused⟩
  · have mine : (!opcodeOrder.contains (field hd 0 1)) = true := by rw [out]; rfl
    have bad : headerBad (openRound s) (s.argN 0) p bs = true := by
      rw [headerBad, op, out]
      rfl
    refine ⟨_, ?_, (faulted_commandFault (Head.queue h) hs 0x135 0 []).refused⟩
    rw [exec_opcodeNotInTable, unlessFatal_running h.alive, unknownOpcode, parsePacket_head h mine, if_pos bad]
  · have queue : (Claims.begun s (s.argN 0) slots p).queue (s.argN 0) =
        { s.queue (s.argN 0) with levels := { l with next := l.next + slots } :: ls } := by
      rw [begun_queue, Claims.passed, hl]
    have step : exec .nopPacket s = .next (concluded s (s.argN 0) slots p (.done (Claims.begun s (s.argN 0) slots p))) := by
      rw [exec_nopPacket, unlessFatal_running h.alive, parseNop, parsePacket_head h (isOpcode_of_eq op _), good, if_neg Bool.false_ne_true, zero,
        if_pos rfl]
    rw [concluded, closeLevels_ended _ _ (l := { l with next := l.next + slots }) (by rw [queue]) (Nat.le_of_eq hend.symm) below] at step
    refine ⟨_, step, by rw [forgetRefused_queue, packetPart_setCmdQueue_queue], ?_⟩
    rw [forgetRefused, packetPart, State.modPacket]
    refine (tabGet_tabMod_same ..).trans ?_
    rw [State.setCmdQueue, begun_eq, tabGet_tabSet_other _ _ other]
  · refine ⟨?_, ?_, ?_⟩
    · rw [exec_nopPacket, unlessFatal_running alive, parseNop, parsePacket_waits turn]
    · rw [exec_signalPkt, unlessFatal_running alive, parseSignal, parsePacket_waits turn]
    · rw [exec_opcodeNotInTable, unlessFatal_running alive, unknownOpcode, parsePacket_waits turn]

/-! ### INDIRECT (R349) -/

theorem passed_length (q : CmdQueue) (slots : Nat) : (Claims.passed q slots).levels.length = q.levels.length := by
  unfold Claims.passed
  split
  · rfl
  · next hq => rw [hq]; rfl

/-- The state in which a queue goes on in a buffer. -/
def intoBuffer (s : State) (qn key : Nat) (l : Level) : State :=
  (s.setCmdQueue qn { s.queue qn with levels := l :: (s.queue qn).levels }).modPacket key fun p => { p with left := 1 }

theorem intoBuffer_queue (s : State) (qn key : Nat) (l : Level) :
    (intoBuffer s qn key l).queue qn = { s.queue qn with levels := l :: (s.queue qn).levels } := s.setCmdQueue_queue_same qn _

theorem intoBuffer_packet (s : State) (qn key : Nat) (l : Level) :
    tabGet (intoBuffer s qn key l).fw.packets key = (tabGet s.fw.packets key).map fun p => { p with left := 1 } := tabGet_tabMod_same ..

theorem indirectPacket : Claims.IndirectPacket := by
  rintro s _ slots hd bs p rfl h op zero aligned pos small
  have sound : (!restZero bs [(24, 12)] || field bs 24 8 % 64 != 0 || field bs 32 4 == 0 || decide (65536 < field bs 32 4)) = false := by
    simp only [zero, aligned, Bool.or_eq_false_iff, beq_eq_false_iff_ne, decide_eq_false_iff_not, bne_self_eq_false, Bool.not_true, true_and]
    omega
  have deep : (((Claims.begun s (s.argN 0) slots p).queue (s.argN 0)).levels.length) = (s.queue (s.argN 0)).levels.length := by
    rw [begun_queue, passed_length]
  refine ⟨fun few => ?_, fun many => ?_⟩
  · let l : Level := { buf := field bs 24 8, slots := field bs 32 4, next := 0, key := s.fw.packetSeq }
    obtain ⟨step, taken⟩ := exec_taken_of_queue h (exec_indirectPkt s) (isOpcode_of_eq op _)
      (r := intoBuffer (Claims.begun s (s.argN 0) slots p) (s.argN 0) s.fw.packetSeq l) (x := { p with left := 1 })
      (by dsimp only; rw [sound, if_neg Bool.false_ne_true, deep, if_neg (Nat.not_le.2 few)]; rfl)
      (intoBuffer_queue ..) (by rintro m ms hm; obtain ⟨rfl, -⟩ := List.cons.inj hm; exact pos)
      (by rw [intoBuffer_packet, begun_packet, Option.map_some]) rfl rfl
    rw [begun_queue] at taken
    exact ⟨_, step, fun a => by rw [forgetRefused, intoBuffer, State.modPacket, State.setCmdQueue, begun_mem], taken⟩
  · obtain ⟨s', step, faulted⟩ := exec_refused h (exec_indirectPkt s) (isOpcode_of_eq op _)
      (by dsimp only; rw [sound, if_neg Bool.false_ne_true, deep, if_pos many])
    exact ⟨s', step, faulted.refused⟩

/-! ### WAIT (R352) -/

theorem recallStash_fw (s : State) (keep : Option Nat) (line : Nat) (write : Bool) : (recallStash s keep line write).fw = s.fw := by
  unfold recallStash
  split <;> rfl

theorem l2Touch_fw (s : State) (node : Option Nat) (pa : Nat) (attr : PageAttr) (cls : BitVec 2) : (l2Touch s node pa attr cls).fw = s.fw := by
  unfold l2Touch
  split <;> rfl

theorem physTouchRead_fw (s : State) (acc : Accessor) (pa : Nat) (attr : PageAttr) (cls : BitVec 2) (l1 : Bool) :
    (physTouchRead s acc pa attr cls l1).fw = s.fw := by
  have touched := (recallStash_fw (l2Touch s acc.node pa attr cls) acc.wid (pa / 128) false).trans (l2Touch_fw ..)
  unfold physTouchRead
  dsimp only
  split
  · exact touched
  · exact touched

theorem fwTouch_fw (s : State) (ctx : Option Nat) (va n : Nat) : (fwTouch s ctx va n).fw = s.fw :=
  List.foldlRecOn (motive := fun (r : State) => r.fw = s.fw) _ _ rfl fun _ hr _ _ => (physTouchRead_fw ..).trans hr

/-- The state in which a queue waits for the condition of a WAIT. -/
def awaiting (s : State) (qn key : Nat) (w : Watch) : State :=
  { s with fw := { s.fw with
    queues := tabSetD {} s.fw.queues qn { s.queue qn with waiting := some key }
    watches := settleWatches s.mem (s.fw.watches ++ [w]) } }

theorem awaiting_queue (s : State) (qn key : Nat) (w : Watch) : (awaiting s qn key w).queue qn = { s.queue qn with waiting := some key } :=
  tabGetD_tabSetD_same ..

theorem fwRead_ready {s : State} {p : Packet} {rs : List (Nat × Nat)} (k : Unit → Parsed)
    (h : fwProbe s p.ctx (queueWho p.queue) rs false = .ready) : fwRead s p rs k = k () := by
  rw [fwRead, h]

theorem waitPacket : Claims.WaitPacket := by
  rintro s _ slots hd bs p rfl h op zero
  dsimp only
  intro mode12 aligned ready va n pa attr part
  generalize hsize : (if field bs 32 1 % 2 = 0 then 4 else 8) = size at aligned ready part ⊢
  have sound : (!restZero bs [(24, 9), (40, 16)] || decide (12 ≤ field bs 32 1) || field bs 24 8 % size != 0) = false := by
    rw [zero, aligned, decide_eq_false (Nat.not_le.2 mode12)]
    rfl
  generalize hr : fwTouch (Claims.begun s (s.argN 0) slots p) p.ctx (field bs 24 8) size = r
  have fw : r.fw = (Claims.begun s (s.argN 0) slots p).fw := by rw [← hr, fwTouch_fw]
  have mem : r.mem = s.mem := by rw [← hr, fwTouch_mem, begun_mem]
  have queue : r.queue (s.argN 0) = Claims.passed (s.queue (s.argN 0)) slots := by rw [State.queue, fw]; exact begun_queue ..
  have watches : r.fw.watches = s.fw.watches := by rw [fw, begun_eq]
  let w : Watch := { pa := pa, size := size, cmp := field bs 32 1 / 2, mask := field bs 40 8, val := field bs 48 8, key := s.fw.packetSeq }
  obtain ⟨step, taken⟩ := exec_taken_of_queue h (exec_waitPkt s) (isOpcode_of_eq op _) (r := awaiting r (s.argN 0) s.fw.packetSeq w) (x := p)
    (by dsimp only; rw [hsize, sound, if_neg Bool.false_ne_true, fwRead_ready _ ready, part, hr]; rfl)
    (awaiting_queue ..) (by rw [queue]; exact passed_levels_of_stays h.2.2) (by rw [awaiting, fw, begun_packet]) (by rw [awaiting, fw])
    (by rw [awaiting, fw])
  rw [queue] at taken
  exact ⟨_, step, fun a => by rw [forgetRefused, awaiting, mem], taken, by rw [forgetRefused, awaiting, mem, watches]⟩

/-! ### SCRIPT, PART and PAGEANS (R316, R335, R339) -/

theorem exec_scriptPkt (s : State) : exec .scriptPkt s = .next (unlessFatal s (scriptPacket s (s.argN 0))) := rfl
theorem exec_partPkt (s : State) : exec .partPkt s = .next (unlessFatal s (partPacket s (s.argN 0))) := rfl
theorem exec_pageansPkt (s : State) : exec .pageansPkt s = .next (unlessFatal s (pageansPacket s (s.argN 0))) := rfl

/-- The state after a script is written. -/
def withScript (s : State) (n : Nat) (ws : List Word) : State := { s with dev := { s.dev with scripts := tabSet s.dev.scripts n ws } }

theorem scripts {s : State} {slots : Nat} {hd bs : List Byte} {p : Packet} (h : Claims.Legal s (s.argN 0) slots hd bs p)
    (op : field hd 0 1 = 0x0C) (zero : restZero bs [(24, 1), (64, 64)] = true) (small : field bs 24 1 < 64) {ws : List Word}
    (hws : (List.range 16).map (fun k => BitVec.ofNat 32 (field bs (64 + 4 * k) 4)) = ws) :
    (scriptBad ws = false → ∃ s', exec .scriptPkt s = .next s' ∧ sameMem s s' ∧
      Claims.Taken s s' (s.argN 0) (Claims.passed (s.queue (s.argN 0)) slots) p ∧ s'.dev.scripts = tabSet s.dev.scripts (field bs 24 1) ws) ∧
    (scriptBad ws = true → ∃ s', exec .scriptPkt s = .next s' ∧ Claims.Refused s s' (s.argN 0) slots ∧ s'.dev.scripts = s.dev.scripts) := by
  have sound : (!restZero bs [(24, 1), (64, 64)] || decide (63 < field bs 24 1)) = false := by
    rw [zero, decide_eq_false (by omega)]
    rfl
  refine ⟨fun good => ?_, fun bad => ?_⟩
  · obtain ⟨step, taken⟩ := exec_taken h (exec_scriptPkt s) (isOpcode_of_eq op _)
      (r := withScript (Claims.begun s (s.argN 0) slots p) (field bs 24 1) ws) (x := p)
      (by dsimp only; rw [sound, if_neg Bool.false_ne_true, hws, good, if_neg Bool.false_ne_true]; rfl) ⟨rfl, rfl, rfl⟩ (begun_packet ..)
    exact ⟨_, step, fun a => by rw [forgetRefused, withScript, begun_mem], taken, by rw [forgetRefused, withScript, begun_dev]⟩
  · obtain ⟨s', step, faulted⟩ := exec_refused h (exec_scriptPkt s) (isOpcode_of_eq op _) (cause := 0x130) (ordinal := 0) (more := [])
      (by dsimp only; rw [sound, if_neg Bool.false_ne_true, hws, bad, if_pos rfl]; rfl)
    exact ⟨s', step, faulted.refused, faulted.scripts⟩

/-- A core's partition with the values of a PART. -/
def partitioned (k : Core) (units tiles stage : Nat) : Core :=
  let k := if k.l1Units = units then k else { k with l1Units := units, l1 := [] }
  { k with ttiles := tiles, stage := stage }

theorem partitioned_l1Units (k : Core) (units tiles stage : Nat) : (partitioned k units tiles stage).l1Units = units := by
  unfold partitioned
  by_cases same : k.l1Units = units
  · rw [if_pos same]
    exact same
  · rw [if_neg same]

theorem partPackets {s : State} {slots : Nat} {hd bs : List Byte} {p : Packet} (h : Claims.Legal s (s.argN 0) slots hd bs p)
    (op : field hd 0 1 = 0x0D) (zero : restZero bs [(24, 3), (28, 2)] = true) (few : field bs 25 1 < 8) (tiles : field bs 26 1 ≤ 16)
    (teams : ∀ x ∈ s.teams, coreOf x.1 ≠ field bs 24 1) (saved : ∀ x ∈ s.fw.saved, x.2.core ≠ field bs 24 1)
    (task : holdsTileTask (Claims.begun s (s.argN 0) slots p) (field bs 24 1) = false)
    (space : (field bs 25 1 + 1) * 0x10000 + field bs 28 2 * 0x1000 ≤ 2 ^ 20) (staged : field bs 26 1 = 0 ∨ 8 ≤ field bs 28 2) :
    ∃ s', exec .partPkt s = .next s' ∧ sameMem s s' ∧ Claims.Taken s s' (s.argN 0) (Claims.passed (s.queue (s.argN 0)) slots) p ∧
      (s'.core (field bs 24 1)).ttiles = field bs 26 1 ∧ (s'.core (field bs 24 1)).stage = field bs 28 2 ∧
      (s'.core (field bs 24 1)).l1Units = field bs 25 1 + 1 := by
  have sound : (!restZero bs [(24, 3), (28, 2)] || decide (8 < field bs 25 1 + 1) || decide (16 < field bs 26 1)) = false := by
    rw [zero, decide_eq_false (by omega), decide_eq_false (by omega)]
    rfl
  have hbteams : (Claims.begun s (s.argN 0) slots p).teams = s.teams := by rw [begun_eq]
  have hbsaved : (Claims.begun s (s.argN 0) slots p).fw.saved = s.fw.saved := by rw [begun_eq]
  generalize hb : Claims.begun s (s.argN 0) slots p = b at *
  have noTeam : (b.teams.any fun x => coreOf x.1 == field bs 24 1) = false := by
    rw [hbteams, List.any_eq_false]
    exact fun x hx => mt beq_iff_eq.1 (teams x hx)
  have noSaved : (b.fw.saved.any fun x => x.2.core == field bs 24 1) = false := by
    rw [hbsaved, List.any_eq_false]
    exact fun x hx => mt beq_iff_eq.1 (saved x hx)
  have stagedOk : (field bs 26 1 != 0 && decide (field bs 28 2 < 8)) = false := by
    rw [Bool.and_eq_false_iff, bne_eq_false_iff_eq, decide_eq_false_iff_not, Nat.not_lt]
    exact staged
  have free : ((b.teams.any fun x => coreOf x.1 == field bs 24 1) || (b.fw.saved.any fun x => x.2.core == field bs 24 1) ||
      holdsTileTask b (field bs 24 1) || decide (2 ^ 20 < (field bs 25 1 + 1) * 0x10000 + field bs 28 2 * 0x1000) ||
      (field bs 26 1 != 0 && decide (field bs 28 2 < 8))) = false := by
    rw [noTeam, noSaved, task, decide_eq_false (Nat.not_lt.2 space), stagedOk]
    rfl
  let k := partitioned (b.core (field bs 24 1)) (field bs 25 1 + 1) (field bs 26 1) (field bs 28 2)
  obtain ⟨step, taken⟩ := exec_taken h (exec_partPkt s) (isOpcode_of_eq op _) (r := b.setCore (field bs 24 1) k) (x := p)
    (by rw [hb]; dsimp only; rw [sound, if_neg Bool.false_ne_true, free, if_neg Bool.false_ne_true]; rfl)
    (by rw [hb]; exact ⟨rfl, rfl, rfl⟩) (by rw [← hb]; exact begun_packet ..)
  have core : (forgetRefused (b.setCore (field bs 24 1) k) (.apex (queueWho (s.argN 0)))).core (field bs 24 1) = k := State.setCore_core_same ..
  exact ⟨_, step, fun a => by rw [forgetRefused, State.setCore, ← hb, begun_mem], taken, by rw [core]; rfl, by rw [core]; rfl,
    by rw [core]; exact partitioned_l1Units ..⟩

/-- A page and context are those that an answer names. -/
def answeredBy (ctx page : Nat) (e : FilterEntry) : Bool := e.ctx = ctx && e.page = page

/-- The state in which no filter holds an entry for a page of a context. -/
def unfiltered (s : State) (ctx page : Nat) : State :=
  { s with
    cores := s.cores.map fun p => (p.1, { p.2 with filter := p.2.filter.filter fun e => !answeredBy ctx page e })
    clusters := s.clusters.map fun p => (p.1, { p.2 with filter := p.2.filter.filter fun e => !answeredBy ctx page e })
    dev := { s.dev with apexFilter := s.dev.apexFilter.filter fun e => !answeredBy ctx page e } }

/-- What the notes of declined pages leave alone. -/
structure Noted (s r : State) : Prop where
  cores : r.cores = s.cores
  clusters : r.clusters = s.clusters
  fw : r.fw = s.fw
  dev : r.dev = { s.dev with declined := r.dev.declined }

theorem noted_noteDeclined (page : Nat) (s : State) (who : Requester) : Noted s (noteDeclined page s who) := by
  cases who <;> exact ⟨rfl, rfl, rfl, rfl⟩

theorem Noted.trans {s r q : State} (h : Noted s r) (k : Noted r q) : Noted s q :=
  ⟨k.cores.trans h.cores, k.clusters.trans h.clusters, k.fw.trans h.fw, k.dev.trans (by rw [h.dev])⟩

/-- An answer takes the entries out of the filters, and else notes what is declined. -/
theorem noted_answerPage (s : State) (ctx page : Nat) (granted : Bool) : Noted (unfiltered s ctx page) (answerPage s ctx page granted) := by
  cases granted with
  | true => exact ⟨rfl, rfl, rfl, rfl⟩
  | false =>
    exact List.foldlRecOn (motive := fun r => Noted (unfiltered s ctx page) r) _ _ ⟨rfl, rfl, rfl, rfl⟩ fun r hr who _ =>
      hr.trans (noted_noteDeclined page r who)

theorem not_answeredBy_of_mem {l : List FilterEntry} {ctx page : Nat} {e : FilterEntry} (h : e ∈ l.filter fun e => !answeredBy ctx page e) :
    ¬(e.ctx = ctx ∧ e.page = page) := by
  intro both
  have out := (List.mem_filter.1 h).2
  rw [answeredBy, decide_eq_true both.1, decide_eq_true both.2] at out
  exact Bool.false_ne_true out

theorem unfiltered_core (s : State) (ctx page c : Nat) : ∀ e ∈ ((unfiltered s ctx page).core c).filter, ¬(e.ctx = ctx ∧ e.page = page) := by
  intro e he
  rcases tabGetD_map_cases (d := ({} : Core)) (fun k : Core => { k with filter := k.filter.filter fun e => !answeredBy ctx page e }) s.cores c
    with ⟨k, hk⟩ | hnone
  · rw [State.core, unfiltered, hk] at he
    exact not_answeredBy_of_mem he
  · rw [State.core, unfiltered, hnone] at he
    cases he

theorem unfiltered_cluster (s : State) (ctx page c : Nat) : ∀ e ∈ ((unfiltered s ctx page).cluster c).filter, ¬(e.ctx = ctx ∧ e.page = page) := by
  intro e he
  rcases tabGetD_map_cases (d := ({} : Cluster)) (fun k : Cluster => { k with filter := k.filter.filter fun e => !answeredBy ctx page e }) s.clusters c
    with ⟨k, hk⟩ | hnone
  · rw [State.cluster, unfiltered, hk] at he
    exact not_answeredBy_of_mem he
  · rw [State.cluster, unfiltered, hnone] at he
    cases he

/-- No filter holds an entry for the page of an answer. -/
theorem answerPage_filters (s : State) (ctx page : Nat) (granted : Bool) :
    (∀ c, ∀ e ∈ ((answerPage s ctx page granted).core c).filter, ¬(e.ctx = ctx ∧ e.page = page)) ∧
    (∀ c, ∀ e ∈ ((answerPage s ctx page granted).cluster c).filter, ¬(e.ctx = ctx ∧ e.page = page)) ∧
    ∀ e ∈ (answerPage s ctx page granted).dev.apexFilter, ¬(e.ctx = ctx ∧ e.page = page) := by
  have noted := noted_answerPage s ctx page granted
  refine ⟨fun c e he => ?_, fun c e he => ?_, fun e he => ?_⟩
  · rw [State.core, noted.cores] at he
    exact unfiltered_core _ _ _ c e he
  · rw [State.cluster, noted.clusters] at he
    exact unfiltered_cluster _ _ _ c e he
  · rw [noted.dev] at he
    exact not_answeredBy_of_mem he

theorem answerPage_fw (s : State) (ctx page : Nat) (granted : Bool) : (answerPage s ctx page granted).fw = s.fw :=
  (noted_answerPage s ctx page granted).fw

theorem pageAnswers {s : State} {slots : Nat} {hd bs : List Byte} {p : Packet} (h : Claims.Legal s (s.argN 0) slots hd bs p)
    (op : field hd 0 1 = 0x0E) (zero : restZero bs [(24, 11)] = true) (aligned : field bs 24 8 % 0x10000 = 0) (page : field bs 24 8 < 2 ^ 57)
    (ctx : field bs 32 2 < 4096) (answer : field bs 34 1 < 2) :
    ∃ s', exec .pageansPkt s = .next s' ∧ sameMem s s' ∧ Claims.Taken s s' (s.argN 0) (Claims.passed (s.queue (s.argN 0)) slots) p ∧
      (∀ c, ∀ e ∈ (s'.core c).filter, ¬(e.ctx = field bs 32 2 ∧ e.page = field bs 24 8)) ∧
      (∀ c, ∀ e ∈ (s'.cluster c).filter, ¬(e.ctx = field bs 32 2 ∧ e.page = field bs 24 8)) ∧
      ∀ e ∈ s'.dev.apexFilter, ¬(e.ctx = field bs 32 2 ∧ e.page = field bs 24 8) := by
  have sound : (!restZero bs [(24, 11)] || field bs 24 8 % 0x10000 != 0 || decide (2 ^ 57 ≤ field bs 24 8) || decide (4096 ≤ field bs 32 2) ||
      decide (1 < field bs 34 1)) = false := by
    rw [zero, aligned, decide_eq_false (Nat.not_le.2 page), decide_eq_false (Nat.not_le.2 ctx), decide_eq_false (by omega)]
    rfl
  have fw := answerPage_fw (Claims.begun s (s.argN 0) slots p) (field bs 32 2) (field bs 24 8)
  obtain ⟨step, taken⟩ := exec_taken h (exec_pageansPkt s) (isOpcode_of_eq op _) (x := p)
    (by dsimp only; rw [sound, if_neg Bool.false_ne_true])
    ⟨congrArg Firmware.queues (fw _), congrArg Firmware.round (fw _), congrArg Firmware.packetSeq (fw _)⟩ (by rw [fw]; exact begun_packet ..)
  exact ⟨_, step, fun a => by rw [forgetRefused, answerPage_mem, begun_mem], taken, answerPage_filters ..⟩

theorem tablePackets : Claims.TablePackets := by
  rintro s _ slots hd bs p rfl h
  refine ⟨fun op zero small => scripts h op zero small rfl, fun op zero few tiles teams saved task space staged => ?_,
    fun op zero aligned page ctx answer => ?_⟩
  · exact partPackets h op zero few tiles teams saved task space staged
  · exact pageAnswers h op zero aligned page ctx answer

end Sys2Proof.Machine

/-! ## Region control blocks loaded and freed (R331 to R334) -/

namespace Sys2Proof.Machine

theorem exec_regionLoad (s : State) : exec .regionLoad s = .next (unlessFatal s (regionLoad s (s.argN 0))) := rfl
theorem exec_regionFree (s : State) : exec .regionFree s = .next (unlessFatal s (regionFree s (s.argN 0))) := rfl

/-! ### The leaves of a node (R332) -/

theorem State.setLeaf_leaf_other (s : State) {id n : Nat} (l : PifoLeaf) (h : n ≠ id) : (s.setLeaf id l).leaf n = s.leaf n :=
  tabGetD_tabSetD_other _ _ _ h

/-- The same change of the leaves of a list, one after the other. -/
def modLeaves (s : State) (l : List Nat) (g : PifoLeaf → PifoLeaf) : State := l.foldl (fun s id => s.setLeaf id (g (s.leaf id))) s

/-- A change of leaves leaves the rest of the machine alone. -/
theorem modLeaves_eq (g : PifoLeaf → PifoLeaf) : ∀ (l : List Nat) (s : State),
    modLeaves s l g = { s with dev := { s.dev with leaves := (modLeaves s l g).dev.leaves } }
  | [], _ => rfl
  | id :: l, s => modLeaves_eq g l (s.setLeaf id (g (s.leaf id)))

/-- A change that comes to the same twice changes each leaf of the list, and no other. -/
theorem modLeaves_leaf {g : PifoLeaf → PifoLeaf} (twice : ∀ x, g (g x) = g x) (n : Nat) : ∀ (l : List Nat) (s : State),
    (modLeaves s l g).leaf n = if n ∈ l then g (s.leaf n) else s.leaf n
  | [], _ => rfl
  | id :: l, s => by
    have rest := modLeaves_leaf twice n l (s.setLeaf id (g (s.leaf id)))
    refine rest.trans ?_
    by_cases same : n = id
    · subst same
      rw [State.setLeaf_leaf_same, twice, ite_self, if_pos List.mem_cons_self]
    · rw [State.setLeaf_leaf_other _ _ same]
      exact if_congr (by rw [List.mem_cons, or_iff_right same]) rfl rfl

/-- A leaf that a node loses, and one that it has. -/
def PifoLeaf.unlinked (l : PifoLeaf) : PifoLeaf := { l with parent := none, calendar := false }
def PifoLeaf.linked (node : Nat) (cal : Bool) (l : PifoLeaf) : PifoLeaf := { l with parent := some node, calendar := cal }

theorem PifoLeaf.unlinked_unlinked (l : PifoLeaf) : l.unlinked.unlinked = l.unlinked := rfl
theorem PifoLeaf.linked_linked (node : Nat) (cal : Bool) (l : PifoLeaf) : (l.linked node cal).linked node cal = l.linked node cal := rfl

theorem linkLeaves_modLeaves (s : State) (node : Nat) (old new : List Nat) (cal : Bool) : linkLeaves s node old new cal =
    modLeaves (modLeaves s (old.filter fun id => !new.contains id) PifoLeaf.unlinked) new (PifoLeaf.linked node cal) := rfl

theorem linkLeaves_eq (s : State) (node : Nat) (old new : List Nat) (cal : Bool) : linkLeaves s node old new cal =
    { s with dev := { s.dev with leaves := (linkLeaves s node old new cal).dev.leaves } } := by
  rw [linkLeaves_modLeaves, modLeaves_eq, modLeaves_eq]

theorem linkLeaves_listed (s : State) {node id : Nat} {old new : List Nat} (cal : Bool) (h : id ∈ new) :
    (linkLeaves s node old new cal).leaf id = (s.leaf id).linked node cal := by
  have kept : id ∉ old.filter fun id => !new.contains id := by
    rw [List.mem_filter, not_and, Bool.not_eq_true', Bool.not_eq_false, List.contains_iff_mem]
    exact fun _ => h
  rw [linkLeaves_modLeaves, modLeaves_leaf (PifoLeaf.linked_linked node cal), if_pos h, modLeaves_leaf PifoLeaf.unlinked_unlinked, if_neg kept]

theorem linkLeaves_lost (s : State) {node id : Nat} {old new : List Nat} (cal : Bool) (hold : id ∈ old) (hnew : id ∉ new) :
    (linkLeaves s node old new cal).leaf id = (s.leaf id).unlinked := by
  have lost : id ∈ old.filter fun id => !new.contains id := by
    rw [List.mem_filter, Bool.not_eq_true', Bool.eq_false_iff, Ne, List.contains_iff_mem]
    exact ⟨hold, hnew⟩
  rw [linkLeaves_modLeaves, modLeaves_leaf (PifoLeaf.linked_linked node cal), if_neg hnew, modLeaves_leaf PifoLeaf.unlinked_unlinked, if_pos lost]

/-! ### A region torn down (R334) -/

/-- What the end of a region's pins and page requests leaves of a state: its leaves, its firmware's tables and its cores' directories. -/
structure Torn (s r : State) : Prop where
  leaves : r.dev.leaves = s.dev.leaves
  queues : r.fw.queues = s.fw.queues
  packets : r.fw.packets = s.fw.packets
  round : r.fw.round = s.fw.round
  packetSeq : r.fw.packetSeq = s.fw.packetSeq
  dir : ∀ c, (r.core c).dir = (s.core c).dir

theorem Torn.trans {s r q : State} (h : Torn s r) (k : Torn r q) : Torn s q :=
  ⟨k.leaves.trans h.leaves, k.queues.trans h.queues, k.packets.trans h.packets, k.round.trans h.round, k.packetSeq.trans h.packetSeq,
    fun c => (k.dir c).trans (h.dir c)⟩

theorem Torn.refl (s : State) : Torn s s := ⟨rfl, rfl, rfl, rfl, rfl, fun _ => rfl⟩

theorem Wrote.torn {s r : State} (h : Wrote s r) : Torn s r :=
  ⟨h.leaves, h.queues, h.packets, h.round, h.packetSeq, fun c => by rw [h.cores c]⟩

theorem unfiltered_dir (s : State) (ctx page c : Nat) : ((unfiltered s ctx page).core c).dir = (s.core c).dir := by
  have got := tabGet_map (f := fun p : Nat × Core => (p.1, { p.2 with filter := p.2.filter.filter fun e => !answeredBy ctx page e }))
    (fun _ => rfl) c s.cores
  rw [State.core, State.core, tabGetD, tabGetD, unfiltered, got]
  cases tabGet s.cores c <;> rfl

theorem torn_answerPage (s : State) (ctx page : Nat) (granted : Bool) : Torn s (answerPage s ctx page granted) := by
  have noted := noted_answerPage s ctx page granted
  refine ⟨by rw [noted.dev]; rfl, by rw [noted.fw]; rfl, by rw [noted.fw]; rfl, by rw [noted.fw]; rfl, by rw [noted.fw]; rfl, fun c => ?_⟩
  rw [State.core, noted.cores]
  exact unfiltered_dir ..

theorem torn_declinePosted (s : State) (node : Nat) : Torn s (declinePosted s node) :=
  List.foldlRecOn (motive := fun r => Torn s r) _ _ (.refl s) fun _ hr _ _ => hr.trans (torn_answerPage ..)

theorem torn_dissolvePins (s : State) (f : L2Way → Bool) : Torn s (dissolvePins s f) := by
  have recorded : ∀ ws : List L2Way, Wrote s (ws.foldl (fun s w => faultRecord s w.pinNode 0x09B 8 0xFFF 0 [[(24, 8, 128 * w.line)]]) s) :=
    fun ws => List.foldlRecOn (motive := fun r => Wrote s r) _ _ (.refl s) fun _ hr _ _ => hr.trans (wrote_faultRecord ..)
  have same : ∀ (r : State) (l2 : Tab L2Set), Torn r { r with dev := { r.dev with l2 := l2 } } := fun _ _ => ⟨rfl, rfl, rfl, rfl, rfl, fun _ => rfl⟩
  exact (recorded _).torn.trans (same ..)

/-- The state in which the cores hold nothing of a region. -/
def tornCores (s : State) (node : Nat) : State := { s with cores := s.cores.map fun p => (p.1, tearCore node p.2) }

theorem tornCores_dir (s : State) (node c : Nat) : ∀ e ∈ ((tornCores s node).core c).dir, e.2.node ≠ node := by
  intro e he
  rcases tabGetD_map_cases (d := ({} : Core)) (tearCore node) s.cores c with ⟨k, hk⟩ | hnone
  · rw [State.core, tornCores, hk] at he
    exact of_decide_eq_true (List.mem_filter.1 he).2
  · rw [State.core, tornCores, hnone] at he
    cases he

theorem tearDown_eq (s : State) (node : Nat) : tearDown s node =
    (declinePosted (tornCores (dissolvePins (linkLeaves s node (s.region node).leaves [] false) fun w => w.pinNode == some node) node) node).setRegion
      node {} := rfl

theorem State.setRegion_region_same (s : State) (n : Nat) (r : Region) : (s.setRegion n r).region n = r := tabGetD_tabSetD_same ..

theorem tearDown_keeps (s : State) (node : Nat) : Kept s (tearDown s node) ∧ (tearDown s node).fw.packets = s.fw.packets := by
  have linked := linkLeaves_eq s node (s.region node).leaves [] false
  generalize hl : linkLeaves s node (s.region node).leaves [] false = l at linked
  have fw : l.fw = s.fw := by rw [linked]
  have pins := torn_dissolvePins l fun w => w.pinNode == some node
  have declined := torn_declinePosted (tornCores (dissolvePins l fun w => w.pinNode == some node) node) node
  rw [tearDown_eq, hl]
  exact ⟨⟨declined.queues.trans (pins.queues.trans (by rw [fw])), declined.round.trans (pins.round.trans (by rw [fw])),
    declined.packetSeq.trans (pins.packetSeq.trans (by rw [fw]))⟩, declined.packets.trans (pins.packets.trans (by rw [fw]))⟩

theorem tearDown_leaf (s : State) {node id : Nat} (h : id ∈ (s.region node).leaves) : ((tearDown s node).leaf id).parent = none := by
  have lost := linkLeaves_lost s (node := node) false h List.not_mem_nil
  rw [tearDown_eq]
  generalize linkLeaves s node (s.region node).leaves [] false = l at lost ⊢
  have pins := torn_dissolvePins l fun w => w.pinNode == some node
  have declined := torn_declinePosted (tornCores (dissolvePins l fun w => w.pinNode == some node) node) node
  have leaf : ∀ r : State, ((r.setRegion node {}).leaf id) = tabGetD {} r.dev.leaves id := fun _ => rfl
  rw [leaf, declined.leaves, show (tornCores (dissolvePins l fun w => w.pinNode == some node) node).dev.leaves = _ from pins.leaves]
  rw [State.leaf] at lost
  rw [lost]
  rfl

theorem tearDown_dir (s : State) (node c : Nat) : ∀ e ∈ ((tearDown s node).core c).dir, e.2.node ≠ node := by
  rw [tearDown_eq]
  generalize dissolvePins (linkLeaves s node (s.region node).leaves [] false) (fun w => w.pinNode == some node) = l
  intro e he
  refine tornCores_dir l node c e ?_
  rw [← (torn_declinePosted (tornCores l node) node).dir c]
  exact he

/-! ### REGION_LOAD and REGION_FREE (R333, R334) -/

theorem regionBody_sound {s : State} {bs : List Byte} (zero : restZero bs [(24, 9)] = true) (verb : field bs 32 1 < 2)
    (aligned : field bs 24 8 % 128 = 0) (real : (isHbm (field bs 24 8) || isHost (field bs 24 8)) = true) (k : Nat → List Byte → Parsed) :
    regionBody s bs k = k (field bs 24 8) (memBytes s.mem (field bs 24 8) 128) := by
  rw [regionBody, zero, aligned, decide_eq_false (Nat.not_lt.2 (Nat.le_of_lt_succ verb)), real]
  rfl

theorem tearDown_region (s : State) (node : Nat) : (tearDown s node).region node = {} := by
  rw [tearDown_eq, State.setRegion_region_same]

theorem forgetRefused_region (s : State) (who : Requester) (n : Nat) : (forgetRefused s who).region n = s.region n := rfl
theorem forgetRefused_leaf (s : State) (who : Requester) (n : Nat) : (forgetRefused s who).leaf n = s.leaf n := rfl
theorem forgetRefused_core (s : State) (who : Requester) (n : Nat) : (forgetRefused s who).core n = s.core n := rfl

/-- The state after a LOAD. -/
def regionLoaded (s : State) (node : Nat) (leaves : List Nat) (r : Region) : State :=
  (linkLeaves s node (s.region node).leaves leaves r.leafCal).setRegion node { r with leaves := leaves }

theorem regionLoaded_mem (s : State) (node : Nat) (leaves : List Nat) (r : Region) : (regionLoaded s node leaves r).mem = s.mem := by
  rw [regionLoaded, linkLeaves_eq]
  rfl

theorem regionLoaded_fw (s : State) (node : Nat) (leaves : List Nat) (r : Region) : (regionLoaded s node leaves r).fw = s.fw := by
  rw [regionLoaded, linkLeaves_eq]
  rfl

theorem regionLoads {s : State} {slots : Nat} {hd bs : List Byte} {p : Packet} (h : Claims.Legal s (s.argN 0) slots hd bs p)
    (op : field hd 0 1 = 0x0B) (zero : restZero bs [(24, 9)] = true) (verb : field bs 32 1 < 2) (aligned : field bs 24 8 % 128 = 0)
    (real : (isHbm (field bs 24 8) || isHost (field bs 24 8)) = true) (load : field hd 32 1 % 2 = 0) {blk : List Byte} {node : Nat} {r : Region}
    {leaves : List Nat} (hblk : memBytes s.mem (field bs 24 8) 128 = blk) (hnode : bitsOf (field blk 0 2) 9 0 = node)
    (hr : blockRegion blk (if bitsOf (field blk 2 2) 15 15 = 1 then {} else s.region (bitsOf (field blk 2 2) 9 0)) = r)
    (hleaves : blockLeaves s blk = leaves) :
    (loadRefused (Claims.begun s (s.argN 0) slots p) blk node r leaves = false → ∃ s', exec .regionLoad s = .next s' ∧ sameMem s s' ∧
      Claims.Taken s s' (s.argN 0) (Claims.passed (s.queue (s.argN 0)) slots) p ∧ s'.region node = { r with leaves := leaves } ∧
      (∀ id ∈ leaves, (s'.leaf id).parent = some node ∧ (s'.leaf id).items = (s.leaf id).items) ∧
      ∀ id ∈ (s.region node).leaves, id ∉ leaves → (s'.leaf id).parent = none) ∧
    (loadRefused (Claims.begun s (s.argN 0) slots p) blk node r leaves = true →
      ∃ s', exec .regionLoad s = .next s' ∧ Claims.Refused s s' (s.argN 0) slots) := by
  have mine : (field hd 0 1 == 0x0B && field hd 32 1 % 2 == 0) = true := by rw [op, load]; rfl
  have mem := begun_mem s (s.argN 0) slots p
  have region : ∀ n, (Claims.begun s (s.argN 0) slots p).region n = s.region n := fun n => by rw [State.region, begun_dev]; rfl
  have leaf : ∀ n, (Claims.begun s (s.argN 0) slots p).leaf n = s.leaf n := fun n => by rw [State.leaf, begun_dev]; rfl
  have listed : blockLeaves (Claims.begun s (s.argN 0) slots p) blk = leaves := by rw [← hleaves, blockLeaves, blockLeaves, mem]
  have packet := begun_packet s (s.argN 0) slots p
  refine ⟨fun good => ?_, fun bad => ?_⟩
  · have fw := regionLoaded_fw (Claims.begun s (s.argN 0) slots p) node leaves r
    obtain ⟨step, taken⟩ := exec_taken h (exec_regionLoad s) mine (r := regionLoaded (Claims.begun s (s.argN 0) slots p) node leaves r) (x := p)
      (by
        dsimp only
        rw [regionBody_sound zero verb aligned real, mem, hblk, hnode, region, hr, listed, good]
        rfl)
      ⟨by rw [fw], by rw [fw], by rw [fw]⟩ (by rw [fw]; exact packet)
    have loaded : ∀ id, (forgetRefused (regionLoaded (Claims.begun s (s.argN 0) slots p) node leaves r) (.apex (queueWho (s.argN 0)))).leaf id =
        (linkLeaves (Claims.begun s (s.argN 0) slots p) node (s.region node).leaves leaves r.leafCal).leaf id := fun id => by
      rw [forgetRefused_leaf, ← region]
      rfl
    refine ⟨_, step, fun a => by rw [forgetRefused, regionLoaded_mem, mem], taken, ?_, fun id hid => ?_,
      fun id hold hnew => ?_⟩
    · rw [forgetRefused_region, regionLoaded, State.setRegion_region_same]
    · rw [loaded, linkLeaves_listed _ _ hid, leaf]
      exact ⟨rfl, rfl⟩
    · rw [loaded, linkLeaves_lost _ _ hold hnew]
      rfl
  · obtain ⟨s', step, faulted⟩ := exec_refused h (exec_regionLoad s) mine (cause := 0x133) (ordinal := 0) (more := [])
      (by
        dsimp only
        rw [regionBody_sound zero verb aligned real, mem, hblk, hnode, region, hr, listed, bad]
        rfl)
    exact ⟨s', step, faulted.refused⟩

theorem regionFrees {s : State} {slots : Nat} {hd bs : List Byte} {p : Packet} (h : Claims.Legal s (s.argN 0) slots hd bs p)
    (op : field hd 0 1 = 0x0B) (zero : restZero bs [(24, 9)] = true) (verb : field bs 32 1 < 2) (aligned : field bs 24 8 % 128 = 0)
    (real : (isHbm (field bs 24 8) || isHost (field bs 24 8)) = true) (free : field hd 32 1 % 2 = 1) {node : Nat}
    (hnode : bitsOf (field (memBytes s.mem (field bs 24 8) 128) 0 2) 9 0 = node) :
    ((s.region node).loaded = false → ∃ s', exec .regionFree s = .next s' ∧ sameMem s s' ∧
      Claims.Taken s s' (s.argN 0) (Claims.passed (s.queue (s.argN 0)) slots) p ∧ s'.dev.nodes = s.dev.nodes) ∧
    ((s.region node).loaded = true → freeRefused (Claims.begun s (s.argN 0) slots p) node = false → ∃ s', exec .regionFree s = .next s' ∧
      Claims.Taken s s' (s.argN 0) (Claims.passed (s.queue (s.argN 0)) slots) p ∧ (s'.region node).loaded = false ∧
      (∀ id ∈ (s.region node).leaves, (s'.leaf id).parent = none) ∧ ∀ c, ∀ e ∈ (s'.core c).dir, e.2.node ≠ node) ∧
    ((s.region node).loaded = true → freeRefused (Claims.begun s (s.argN 0) slots p) node = true →
      ∃ s', exec .regionFree s = .next s' ∧ Claims.Refused s s' (s.argN 0) slots ∧ s'.region node = s.region node) := by
  have mine : (field hd 0 1 == 0x0B && field hd 32 1 % 2 == 1) = true := by rw [op, free]; rfl
  have mem := begun_mem s (s.argN 0) slots p
  have region : (Claims.begun s (s.argN 0) slots p).region node = s.region node := by rw [State.region, begun_dev]; rfl
  have packet := begun_packet s (s.argN 0) slots p
  refine ⟨fun unloaded => ?_, fun loaded good => ?_, fun loaded bad => ?_⟩
  · obtain ⟨step, taken⟩ := exec_taken h (exec_regionFree s) mine (r := Claims.begun s (s.argN 0) slots p) (x := p)
      (by
        dsimp only
        rw [regionBody_sound zero verb aligned real, mem, hnode, region, unloaded]
        rfl)
      (.refl _) packet
    exact ⟨_, step, fun a => by rw [forgetRefused, mem], taken, by rw [forgetRefused, begun_dev]⟩
  · obtain ⟨kept, packets⟩ := tearDown_keeps (Claims.begun s (s.argN 0) slots p) node
    obtain ⟨step, taken⟩ := exec_taken h (exec_regionFree s) mine (r := tearDown (Claims.begun s (s.argN 0) slots p) node) (x := p)
      (by
        dsimp only
        rw [regionBody_sound zero verb aligned real, mem, hnode, region, loaded, good]
        rfl)
      kept (by rw [packets]; exact packet)
    refine ⟨_, step, taken, ?_, fun id hid => ?_, fun c => ?_⟩
    · rw [forgetRefused_region, tearDown_region]
    · rw [forgetRefused_leaf, tearDown_leaf _ (by rw [region]; exact hid)]
    · rw [forgetRefused_core]
      exact tearDown_dir _ node c
  · obtain ⟨s', step, faulted⟩ := exec_refused h (exec_regionFree s) mine (cause := 0x133) (ordinal := 0) (more := [])
      (by
        dsimp only
        rw [regionBody_sound zero verb aligned real, mem, hnode, region, loaded, bad]
        rfl)
    exact ⟨s', step, faulted.refused, by rw [State.region, faulted.nodes]; rfl⟩

theorem regionPackets : Claims.RegionPackets := by
  rintro s _ slots hd bs p rfl h op zero verb aligned real
  replace real : (isHbm (field bs 24 8) || isHost (field bs 24 8)) = true := (Bool.or_eq_true ..).mpr real
  have loads := fun load => regionLoads h op zero verb aligned real load rfl rfl rfl rfl
  have frees := fun free => regionFrees h op zero verb aligned real free rfl
  exact ⟨fun load => (loads load).1, fun load => (loads load).2, fun free => (frees free).1, fun free => (frees free).2.1,
    fun free => (frees free).2.2⟩

/-- Settles O56: each packet that does its work at the parse is taken with that work done, or refused. -/
theorem controlPackets : Obligations.ControlPackets := ⟨emptyPackets, indirectPacket, waitPacket, tablePackets, regionPackets⟩

end Sys2Proof.Machine

/-! ## Packets that begin work, and completions -/

namespace Sys2Proof.Machine

theorem exec_launchPkt (s : State) : exec .launchPkt s = .next (unlessFatal s (parseLaunch s (s.argN 0))) := rfl
theorem exec_launchiPkt (s : State) : exec .launchiPkt s = .next (unlessFatal s (parseLaunchi s (s.argN 0))) := rfl
theorem exec_tiletaskPkt (s : State) : exec .tiletaskPkt s = .next (unlessFatal s (parseTiletask s (s.argN 0))) := rfl
theorem exec_copyPkt (s : State) : exec .copyPkt s = .next (unlessFatal s (parseCopy s (s.argN 0))) := rfl
theorem exec_streamPkt (s : State) : exec .streamPkt s = .next (unlessFatal s (parseStreamPacket s (s.argN 0))) := rfl
theorem exec_hostxferPkt (s : State) : exec .hostxferPkt s = .next (unlessFatal s (parseHostxfer s (s.argN 0))) := rfl
theorem exec_fabricPut (s : State) : exec .fabricPut s = .next (unlessFatal s (fabricPutPacket s (s.argN 0))) := rfl
theorem exec_fabricGet (s : State) : exec .fabricGet s = .next (unlessFatal s (fabricGetPacket s (s.argN 0))) := rfl
theorem exec_fabricCtradd (s : State) : exec .fabricCtradd s = .next (unlessFatal s (fabricCtraddPacket s (s.argN 0))) := rfl
theorem exec_fabricPause (s : State) : exec .fabricPause s = .next (unlessFatal s (fabricPausePacket s (s.argN 0))) := rfl
theorem exec_fabricResume (s : State) : exec .fabricResume s = .next (unlessFatal s (fabricResumePacket s (s.argN 0))) := rfl
theorem exec_packetCompletion (s : State) : exec .packetCompletion s = .next (unlessFatal s (completePacket s (s.argN 0))) := rfl
theorem exec_coalescerMessage (s : State) : exec .coalescerMessage s = .next (coalescerMessage s (s.argN 0)) := rfl

/-! ### Paths and pushes (R313) -/

theorem pathTo_congr {s r : State} (h : r.dev.nodes = s.dev.nodes) (entry : Nat) :
    ∀ (fuel n : Nat) (acc : List Nat), pathTo r entry fuel n acc = pathTo s entry fuel n acc
  | 0, _, _ => rfl
  | fuel + 1, n, acc => by
    have region : r.region n = s.region n := by rw [State.region, h]; rfl
    rw [pathTo, pathTo, region]
    split
    · rfl
    · split
      · exact pathTo_congr h entry fuel _ _
      · rfl

/-- A path depends on the leaves and the nodes alone. -/
theorem leafPath_congr {s r : State} (leaves : r.dev.leaves = s.dev.leaves) (nodes : r.dev.nodes = s.dev.nodes) (entry leaf : Nat) :
    leafPath r entry leaf = leafPath s entry leaf := by
  have parent : r.leaf leaf = s.leaf leaf := by rw [State.leaf, leaves]; rfl
  have region : ∀ n, r.region n = s.region n := fun n => by rw [State.region, nodes]; rfl
  rw [leafPath, leafPath, parent]
  split
  · rw [region, pathTo_congr nodes]
  · rfl

/-- What a parse leaves of a state before it pushes work: memory, the firmware's tables, the leaves, the nodes and the pushes under way. -/
structure Readied (b r : State) : Prop where
  mem : r.mem = b.mem
  fw : r.fw = b.fw
  leaves : r.dev.leaves = b.dev.leaves
  nodes : r.dev.nodes = b.dev.nodes
  descents : r.dev.descents = b.dev.descents

theorem Readied.refl (b : State) : Readied b b := ⟨rfl, rfl, rfl, rfl, rfl⟩

theorem readied_fwTouch (b : State) (ctx : Option Nat) (va n : Nat) : Readied b (fwTouch b ctx va n) :=
  have wrote := wrote_fwTouch b ctx va n
  ⟨fwTouch_mem .., fwTouch_fw .., wrote.leaves, wrote.nodes, wrote.descents⟩

theorem readied_addCopy {b r : State} (h : Readied b r) (c : Copy) : Readied b (addCopy r c).1 := ⟨h.mem, h.fw, h.leaves, h.nodes, h.descents⟩

/-- The state in which a packet's work has been pushed. -/
def packetPushed (s : State) (key : Nat) (p : Packet) (leaf parts : Nat) (path : List Nat) (fields : List Word) (w : Work) : State :=
  firmwarePush (s.modPacket key fun p => { p with left := parts }) p.node leaf path fields w

theorem Kept.trans {s r q : State} (h : Kept s r) (k : Kept r q) : Kept s q :=
  ⟨k.queues.trans h.queues, k.round.trans h.round, k.packetSeq.trans h.packetSeq⟩

theorem Readied.kept {b r : State} (h : Readied b r) : Kept b r :=
  ⟨congrArg Firmware.queues h.fw, congrArg Firmware.round h.fw, congrArg Firmware.packetSeq h.fw⟩

theorem kept_packetPushed (s : State) (key : Nat) (p : Packet) (leaf parts : Nat) (path : List Nat) (fields : List Word) (w : Work) :
    Kept s (packetPushed s key p leaf parts path fields w) := ⟨rfl, rfl, rfl⟩

theorem pushPacket_some {s : State} {p : Packet} {leaf : Nat} {path : List Nat} (h : leafPath s p.node leaf = some path) (key parts : Nat)
    (fields : List Word) (w : Work) : pushPacket s key p leaf parts fields w = .done (packetPushed s key p leaf parts path fields w) := by
  rw [pushPacket, h]
  rfl

section Pushed
variable {s : State} {qn slots : Nat} {hd bs : List Byte} {p : Packet} {mine : Nat → List Byte → Bool}
  {act : State → Nat → Packet → List Byte → Parsed} {i : Instr}

/-- A legal packet is taken where the parse of its body readies a state and pushes one item of work. -/
theorem exec_pushed (h : Claims.Legal s qn slots hd bs p) (hi : exec i s = .next (unlessFatal s (parsePacket s qn mine act)))
    (hm : mine (field hd 0 1) hd = true) {r : State} {leaf parts : Nat} {path : List Nat} {fields : List Word} {w : Work}
    (hr : Readied (Claims.begun s qn slots p) r)
    (hact : act (Claims.begun s qn slots p) s.fw.packetSeq p bs = .done (packetPushed r s.fw.packetSeq p leaf parts path fields w)) :
    ∃ s', exec i s = .next s' ∧ sameMem s s' ∧ Claims.Taken s s' qn (Claims.passed (s.queue qn) slots) { p with left := parts } ∧
      Claims.sent s s' p leaf path fields w ∧ s'.eng = r.eng ∧ s'.fab = r.fab := by
  have packet : tabGet (packetPushed r s.fw.packetSeq p leaf parts path fields w).fw.packets s.fw.packetSeq = some { p with left := parts } := by
    rw [packetPushed, firmwarePush, State.modPacket]
    refine (tabGet_tabMod_same ..).trans ?_
    rw [hr.fw, begun_packet, Option.map_some]
  obtain ⟨step, taken⟩ := exec_taken h hi hm hact (hr.kept.trans (kept_packetPushed ..)) packet
  refine ⟨_, step, fun a => ?_, taken, ?_, rfl, rfl⟩
  · rw [forgetRefused, packetPushed, firmwarePush, State.modPacket, hr.mem, begun_mem]
  · rw [Claims.sent, forgetRefused, packetPushed, firmwarePush, State.modPacket, hr.descents, begun_dev]

end Pushed

/-! ### TILETASK, COPY, STREAM and HOSTXFER (R343, R351, R454) -/

theorem tileTaskPackets {s : State} {slots : Nat} {hd bs : List Byte} {p : Packet} {ctx : Nat} {path : List Nat}
    (h : Claims.Legal s (s.argN 0) slots hd bs p) (hctx : p.ctx = some ctx) (op : field hd 0 1 = 0x04) (zero : restZero bs [(24, 9)] = true)
    (aligned : field bs 24 8 % 128 = 0) {r : List Byte}
    (ready : fwProbe (Claims.begun s (s.argN 0) slots p) p.ctx (queueWho p.queue) [(field bs 24 8, 128)] false = .ready)
    (hr : fwBytes (Claims.begun s (s.argN 0) slots p) p.ctx (field bs 24 8) 128 = r)
    (args : fwProbe (Claims.begun s (s.argN 0) slots p) p.ctx (queueWho p.queue) [(field r 32 8, 128)] false = .ready)
    (good : taskRecordBad (Claims.begun s (s.argN 0) slots p) (field bs 32 1) r = false)
    (hpath : leafPath (Claims.begun s (s.argN 0) slots p) p.node (leafId 1 (field bs 32 1)) = some path) :
    ∃ s', exec .tiletaskPkt s = .next s' ∧ sameMem s s' ∧
      Claims.Taken s s' (s.argN 0) (Claims.passed (s.queue (s.argN 0)) slots) { p with left := 1 } ∧
      Claims.sent s s' p (leafId 1 (field bs 32 1)) path ((List.range 8).map fun k => BitVec.ofNat 32 (field r (64 + 4 * k) 4))
        (.tile (tileTaskOf p s.fw.packetSeq ctx r (fwBytes (Claims.begun s (s.argN 0) slots p) p.ctx (field r 32 8) 128))) := by
  have sound : (!restZero bs [(24, 9)] || field bs 24 8 % 128 != 0) = false := by rw [zero, aligned]; rfl
  obtain ⟨s', step, mem, taken, sent, -, -⟩ := exec_pushed h (exec_tiletaskPkt s) (isOpcode_of_eq op _) (.refl _)
    (leaf := leafId 1 (field bs 32 1)) (parts := 1) (path := path) (fields := (List.range 8).map fun k => BitVec.ofNat 32 (field r (64 + 4 * k) 4))
    (w := .tile (tileTaskOf p s.fw.packetSeq ctx r (fwBytes (Claims.begun s (s.argN 0) slots p) p.ctx (field r 32 8) 128)))
    (by
      dsimp only
      rw [sound, if_neg Bool.false_ne_true, fwRead_ready _ ready, hr, fwRead_ready _ args, good, if_neg Bool.false_ne_true, hpath, hctx, packetPushed])
  exact ⟨s', step, mem, taken, sent⟩

theorem wasRefused_nil (s : State) (who : Requester) : wasRefused s who [] = false := rfl

theorem copyPackets {s : State} {slots : Nat} {hd bs : List Byte} {p : Packet} {ctx : Nat} {path : List Nat} {c : Copy}
    (h : Claims.Legal s (s.argN 0) slots hd bs p) (hctx : p.ctx = some ctx) (op : field hd 0 1 = 0x05)
    (zero : restZero bs [(24, 22), (64, 32)] = true) (cls : field bs 44 1 < 4) (leaf : field bs 45 1 < 16) (pos : field bs 40 4 ≠ 0)
    (whole : field bs 40 4 % 8 = 0)
    (hc : ({ origin := some s.fw.packetSeq, core := field bs 45 1 / 4 * 64 + field bs 45 1 % 4 * 16, node := p.node, ctx := ctx, size := 8,
             src := field bs 24 8, dst := field bs 32 8, len := field bs 40 4, cls := BitVec.ofNat 2 (field bs 44 1) } : Copy) = c)
    (hpath : leafPath (Claims.begun s (s.argN 0) slots p) p.node (leafId 4 (field bs 45 1)) = some path)
    (cause : copyCause (Claims.begun s (s.argN 0) slots p) (field bs 45 1 / 4 * 64 + field bs 45 1 % 4 * 16) ctx 0 c = none)
    (needs : copyNeeds (Claims.begun s (s.argN 0) slots p) (field bs 45 1 / 4 * 64 + field bs 45 1 % 4 * 16) ctx c = []) :
    ∃ s', exec .copyPkt s = .next s' ∧ sameMem s s' ∧
      Claims.Taken s s' (s.argN 0) (Claims.passed (s.queue (s.argN 0)) slots) { p with left := 1 } ∧
      tabGet s'.eng.copies s.eng.copySeq = some c ∧
      Claims.sent s s' p (leafId 4 (field bs 45 1)) path (packetTaskFields bs) (.seg s.eng.copySeq 0) := by
  have sound : (!restZero bs [(24, 22), (64, 32)] || decide (4 ≤ field bs 44 1) || decide (16 ≤ field bs 45 1) || field bs 40 4 == 0 ||
      field bs 40 4 % 8 != 0) = false := by
    rw [zero, whole, decide_eq_false (Nat.not_le.2 cls), decide_eq_false (Nat.not_le.2 leaf), beq_eq_false_iff_ne.2 pos]
    rfl
  have eng := begun_eng s (s.argN 0) slots p
  have added : leafPath (addCopy (Claims.begun s (s.argN 0) slots p) c).1 p.node (leafId 4 (field bs 45 1)) = some path :=
    (leafPath_congr rfl rfl ..).trans hpath
  obtain ⟨s', step, mem, taken, sent, made, -⟩ := exec_pushed h (exec_copyPkt s) (isOpcode_of_eq op _)
    (readied_addCopy (.refl (Claims.begun s (s.argN 0) slots p)) c) (leaf := leafId 4 (field bs 45 1)) (parts := 1) (path := path)
    (fields := packetTaskFields bs) (w := .seg s.eng.copySeq 0)
    (by
      dsimp only
      rw [sound, if_neg Bool.false_ne_true, hctx, hpath]
      dsimp only
      rw [hc, cause, needs, wasRefused_nil, if_neg Bool.false_ne_true, List.isEmpty_nil, Bool.not_true, if_neg Bool.false_ne_true, ← eng]
      exact pushPacket_some added ..)
  refine ⟨s', step, mem, taken, ?_, sent⟩
  rw [made, addCopy, eng]
  exact tabGet_tabSet_same ..

theorem streamPackets {s : State} {slots : Nat} {hd bs : List Byte} {p : Packet} {ctx : Nat} {path : List Nat} {t : Team} {x : StreamRec} {e : Nat}
    (h : Claims.Legal s (s.argN 0) slots hd bs p) (hctx : p.ctx = some ctx) (op : field hd 0 1 = 0x06)
    (zero : restZero bs [(24, 11), (64, 32)] = true) (slot : field bs 33 1 < 16) (team : s.team? (field bs 32 1 * 16 + field bs 33 1) = some t)
    (gen : t.info.scratchGen = field bs 34 1) (small : field bs 24 8 < 2 ^ 57) (aligned : field bs 24 8 % 128 = 0)
    (ready : fwProbe (Claims.begun s (s.argN 0) slots p) p.ctx (queueWho p.queue) [(field bs 24 8, 128)] false = .ready)
    (parsed : parseStream (field bs 24 8) (fwBytes (Claims.begun s (s.argN 0) slots p) p.ctx (field bs 24 8) 128) = some x)
    (side : streamSide t x = some e)
    (hpath : leafPath (Claims.begun s (s.argN 0) slots p) p.node (leafId 3 (field bs 32 1)) = some path) :
    ∃ s' c, exec .streamPkt s = .next s' ∧ sameMem s s' ∧
      Claims.Taken s s' (s.argN 0) (Claims.passed (s.queue (s.argN 0)) slots) { p with left := 1 } ∧
      tabGet s'.eng.copies s.eng.copySeq = some c ∧ c.srec = some x ∧ c.origin = some s.fw.packetSeq ∧ c.rcore = field bs 32 1 ∧
      c.rslot = field bs 33 1 ∧ c.rgen = field bs 34 1 ∧
      Claims.sent s s' p (leafId 3 (field bs 32 1)) path (packetTaskFields bs) (.stream s.eng.copySeq) := by
  have sound : (!restZero bs [(24, 11), (64, 32)] || decide (16 ≤ field bs 33 1)) = false := by
    rw [zero, decide_eq_false (Nat.not_le.2 slot)]
    rfl
  let c : Copy := { streamCopy x e with origin := some s.fw.packetSeq, core := field bs 32 1, node := p.node, ctx := ctx, rcore := field bs 32 1,
                                        rslot := field bs 33 1, rgen := field bs 34 1 }
  have named : ((Claims.begun s (s.argN 0) slots p).team? (field bs 32 1 * 16 + field bs 33 1)).filter
      (fun t => t.info.scratchGen = field bs 34 1) = some t := by
    rw [begun_eq]
    refine (congrArg (Option.filter _) team).trans ?_
    rw [Option.filter_some, gen, decide_eq_true rfl, if_pos rfl]
  have touched := readied_fwTouch (Claims.begun s (s.argN 0) slots p) p.ctx (field bs 24 8) 128
  have eng : (fwTouch (Claims.begun s (s.argN 0) slots p) p.ctx (field bs 24 8) 128).eng = s.eng :=
    (wrote_fwTouch ..).eng.trans (begun_eng ..)
  have added : leafPath (addCopy (fwTouch (Claims.begun s (s.argN 0) slots p) p.ctx (field bs 24 8) 128) c).1 p.node (leafId 3 (field bs 32 1)) =
      some path := (leafPath_congr touched.leaves touched.nodes ..).trans hpath
  obtain ⟨s', step, mem, taken, sent, made, -⟩ := exec_pushed h (exec_streamPkt s) (isOpcode_of_eq op _)
    (readied_addCopy touched c) (leaf := leafId 3 (field bs 32 1)) (parts := 1) (path := path)
    (fields := packetTaskFields bs) (w := .stream s.eng.copySeq)
    (by
      dsimp only
      rw [sound, if_neg Bool.false_ne_true, named]
      dsimp only
      rw [if_neg (Nat.not_le.2 small), if_neg (not_not.2 aligned), fwRead_ready _ ready, parsed, hctx]
      dsimp only
      rw [side, ← hctx, ← eng]
      exact pushPacket_some added ..)
  refine ⟨s', c, step, mem, taken, ?_, rfl, rfl, rfl, rfl, rfl, sent⟩
  rw [made, addCopy, eng]
  exact tabGet_tabSet_same ..

theorem hostPackets {s : State} {slots : Nat} {hd bs : List Byte} {p : Packet} {ctx : Nat} {path : List Nat} {x : HostXfer}
    (h : Claims.Legal s (s.argN 0) slots hd bs p) (hctx : p.ctx = some ctx) (op : field hd 0 1 = 0x08)
    (zero : restZero bs [(24, 21), (64, 32)] = true) (range : field bs 24 8 + field bs 40 4 ≤ 2 ^ 51) (pos : field bs 40 4 ≠ 0)
    (whole : field bs 40 4 % 8 = 0) (dir : field bs 44 1 < 2)
    (hx : ({ key := s.fw.packetSeq, node := p.node, ctx := ctx, host := field bs 24 8, va := field bs 32 8, len := field bs 40 4,
             toDevice := decide (field bs 44 1 = 1) } : HostXfer) = x)
    (hpath : leafPath (Claims.begun s (s.argN 0) slots p) p.node (leafId 6 (bitsOf (field bs 24 8) 50 50)) = some path) :
    ∃ s', exec .hostxferPkt s = .next s' ∧ sameMem s s' ∧
      Claims.Taken s s' (s.argN 0) (Claims.passed (s.queue (s.argN 0)) slots) { p with left := (hostPieces x).length } ∧
      Claims.sent s s' p (leafId 6 (bitsOf (field bs 24 8) 50 50)) path (packetTaskFields bs) (.host x) := by
  have sound : (!restZero bs [(24, 21), (64, 32)] || decide (2 ^ 51 < field bs 24 8 + field bs 40 4) || field bs 40 4 == 0 ||
      field bs 40 4 % 8 != 0 || decide (1 < field bs 44 1)) = false := by
    rw [zero, whole, decide_eq_false (Nat.not_lt.2 range), decide_eq_false (Nat.not_lt.2 (Nat.le_of_lt_succ dir)), beq_eq_false_iff_ne.2 pos]
    rfl
  obtain ⟨s', step, mem, taken, sent, -, -⟩ := exec_pushed h (exec_hostxferPkt s) (isOpcode_of_eq op _)
    (.refl (Claims.begun s (s.argN 0) slots p)) (leaf := leafId 6 (bitsOf (field bs 24 8) 50 50)) (parts := (hostPieces x).length) (path := path)
    (fields := packetTaskFields bs) (w := .host x)
    (by
      dsimp only
      rw [sound, if_neg Bool.false_ne_true, hctx]
      dsimp only
      rw [hx]
      exact pushPacket_some hpath ..)
  exact ⟨s', step, mem, taken, sent⟩

theorem workItems : Claims.WorkPackets := by
  rintro s _ slots hd bs p ctx path rfl h hctx
  refine ⟨fun op zero aligned ready => ?_, fun op zero cls leaf pos whole => ?_,
    fun t x e op zero slot team gen small aligned ready parsed side => ?_, fun op zero range pos whole dir => ?_⟩
  · exact fun args good hpath => tileTaskPackets h hctx op zero aligned ready rfl args good hpath
  · exact fun hpath cause needs => copyPackets h hctx op zero cls leaf pos whole rfl hpath cause needs
  · exact fun hpath => streamPackets h hctx op zero slot team gen small aligned ready parsed side hpath
  · exact fun hpath => hostPackets h hctx op zero range pos whole dir rfl hpath

/-! ### PUT, GET and CTRADD of a FABRIC packet (R413) -/

/-- The state in which a packet's operation is listed under the next number. -/
def opListed (s : State) (o : FabOp) : State :=
  { s with fab := { s.fab with ops := tabSet s.fab.ops s.fab.opSeq o, opSeq := s.fab.opSeq + 1 } }

theorem readied_opListed (s : State) (o : FabOp) : Readied s (opListed s o) := ⟨rfl, rfl, rfl, rfl, rfl⟩

/-- The operation of a FABRIC packet. -/
def packetOp (bs : List Byte) (key : Nat) (p : Packet) (ctx : Nat) : FabOp :=
  { desc := fabricDesc bs, source := .packet key, core := 0, node := p.node, ctx := ctx, unsent := (opPieces (fabricDesc bs)).length }

theorem fabricOperation_some {s : State} {p : Packet} {bs : List Byte} {ctx leaf : Nat} {path : List Nat} (good : fabricBad bs = false)
    (hctx : p.ctx = some ctx)
    (port : (if (fabricDesc bs).dev = s.dev.devId then some (copyLeaf 0) else (choosePort s (fabricDesc bs).dev).map (leafId 5)) = some leaf)
    (hpath : leafPath s p.node leaf = some path) (key : Nat) :
    fabricOperation s key p bs = .done (packetPushed (opListed s (packetOp bs key p ctx)) key p leaf 1 path (packetTaskFields bs)
      (.op s.fab.opSeq (fabricDesc bs).src (fabricDesc bs).dst (fabricDesc bs).len)) := by
  have chosen : (if ((fabricDesc bs).dev == s.dev.devId) = true then some (copyLeaf 0) else (choosePort s (fabricDesc bs).dev).map (leafId 5)) =
      some leaf := (if_congr beq_iff_eq rfl rfl).trans port
  have listed : leafPath (opListed s (packetOp bs key p ctx)) p.node leaf = some path := (leafPath_congr rfl rfl ..).trans hpath
  unfold fabricOperation
  rw [good, if_neg Bool.false_ne_true, hctx]
  dsimp only
  rw [chosen]
  exact pushPacket_some listed ..

/-- A FABRIC packet of an operation's kind is taken, its operation listed and pushed. -/
theorem exec_fabricOperation {s : State} {qn slots : Nat} {hd bs : List Byte} {p : Packet} {mine : Nat → List Byte → Bool} {i : Instr}
    {ctx leaf : Nat} {path : List Nat} (h : Claims.Legal s qn slots hd bs p)
    (hi : exec i s = .next (unlessFatal s (parsePacket s qn mine fabricOperation))) (hm : mine (field hd 0 1) hd = true)
    (good : fabricBad bs = false) (hctx : p.ctx = some ctx)
    (port : (if (fabricDesc bs).dev = s.dev.devId then some (copyLeaf 0)
      else (choosePort (Claims.begun s qn slots p) (fabricDesc bs).dev).map (leafId 5)) = some leaf)
    (hpath : leafPath (Claims.begun s qn slots p) p.node leaf = some path) :
    ∃ s', exec i s = .next s' ∧ sameMem s s' ∧ Claims.Taken s s' qn (Claims.passed (s.queue qn) slots) { p with left := 1 } ∧
      (∃ o, tabGet s'.fab.ops s.fab.opSeq = some o ∧ o.desc = fabricDesc bs ∧ o.source = .packet s.fw.packetSeq ∧
        o.unsent = (opPieces (fabricDesc bs)).length) ∧
      Claims.sent s s' p leaf path (packetTaskFields bs) (.op s.fab.opSeq (fabricDesc bs).src (fabricDesc bs).dst (fabricDesc bs).len) := by
  have dev := begun_dev s qn slots p
  have fab := begun_fab s qn slots p
  obtain ⟨s', step, mem, taken, sent, -, made⟩ := exec_pushed h hi hm (readied_opListed ..)
    (fabricOperation_some good hctx (by rw [dev]; exact port) hpath s.fw.packetSeq)
  rw [fab] at sent
  refine ⟨s', step, mem, taken, ⟨packetOp bs s.fw.packetSeq p ctx, ?_, rfl, rfl, rfl⟩, sent⟩
  rw [made, opListed, fab]
  exact tabGet_tabSet_same ..

theorem isFabric_of_eq {hd : List Byte} {kind : Nat} (op : field hd 0 1 = 0x07) (hk : field hd 24 1 % 8 = kind) :
    isFabric kind (field hd 0 1) hd = true := by
  rw [isFabric, op, hk, beq_self_eq_true kind]
  rfl

theorem fabricPackets : Claims.FabricPackets := by
  rintro s _ slots hd bs p ctx leaf path rfl h hctx op
  dsimp only
  intro good port hpath
  refine ⟨fun kind => ?_, fun kind => ?_, fun kind => ?_⟩
  · exact exec_fabricOperation h (exec_fabricPut s) (by rw [isFabric_of_eq op kind]; rfl) good hctx port hpath
  · exact exec_fabricOperation h (exec_fabricGet s) (isFabric_of_eq op kind) good hctx port hpath
  · exact exec_fabricOperation h (exec_fabricCtradd s) (isFabric_of_eq op kind) good hctx port hpath

/-! ### PAUSE and RESUME of a FABRIC packet (R413, R414) -/

/-- The state in which a packet's gang is listed. -/
def gangListed (s : State) (key : Nat) (g : Gang) : State :=
  { s.modPacket key fun p => { p with left := 1 } with fab := { s.fab with gangs := s.fab.gangs ++ [g] } }

theorem gangListed_packet (s : State) (key : Nat) (g : Gang) :
    tabGet (gangListed s key g).fw.packets key = (tabGet s.fw.packets key).map fun p => { p with left := 1 } := tabGet_tabMod_same ..

theorem kept_gangListed (s : State) (key : Nat) (g : Gang) : Kept s (gangListed s key g) := ⟨rfl, rfl, rfl⟩

/-- The members that a list of `n` device numbers gives. -/
def gangMembers (list : List Byte) (n : Nat) : List Nat := ((List.range n).map fun k => field list (2 * k) 2 % 4096).eraseDups

theorem gangPacket_ready {s : State} {p : Packet} {bs : List Byte}
    (ready : fwProbe s p.ctx (queueWho p.queue) [(field bs 32 8, 2 * field bs 48 4)] false = .ready) (key : Nat) (resume : Bool) (number : Nat) :
    gangPacket s key p bs resume number = .done (gangListed (fwTouch s p.ctx (field bs 32 8) (2 * field bs 48 4)) key
      { key := key, number := number, group := field bs 52 2, node := field bs 54 2, resume := resume
        members := gangMembers (fwBytes s p.ctx (field bs 32 8) (2 * field bs 48 4)) (field bs 48 4), since := s.dev.time }) := by
  unfold gangPacket
  dsimp only
  rw [fwRead_ready _ ready]
  rfl

/-! What the firmware reads does not depend on the fabric's tables. -/

section FabricUnread
variable (s : State) (fab : Fabric)
theorem ctxRoot_fab (ctx : Nat) : ctxRoot { s with fab := fab } ctx = ctxRoot s ctx := rfl
theorem doubleOf_fab (ctx va : Nat) : doubleOf { s with fab := fab } ctx va = doubleOf s ctx va := rfl
theorem shotDown_fab (ctx va : Nat) : shotDown { s with fab := fab } ctx va = shotDown s ctx va := rfl
theorem wasRefused_fab (who : Requester) (needs : List PageNeed) : wasRefused { s with fab := fab } who needs = wasRefused s who needs := rfl
theorem walkCtx_fab (ctx va : Nat) : walkCtx { s with fab := fab } ctx va = walkCtx s ctx va := by
  unfold walkCtx
  rw [ctxRoot_fab]
theorem xlateApex_fab (ctx va : Nat) : xlateApex { s with fab := fab } ctx va = xlateApex s ctx va := by
  rw [xlateApex, doubleOf_fab, shotDown_fab, walkCtx_fab, xlateApex]
theorem fwProbe_fab (ctx : Option Nat) (who : Nat) (rs : List (Nat × Nat)) (write : Bool) :
    fwProbe { s with fab := fab } ctx who rs write = fwProbe s ctx who rs write := by
  unfold fwProbe
  simp only [xlateApex_fab, wasRefused_fab] <;> rfl
theorem fwParts_fab (ctx : Option Nat) (va n : Nat) : fwParts { s with fab := fab } ctx va n = fwParts s ctx va n := by
  unfold fwParts
  simp only [xlateApex_fab]
theorem fwBytes_fab (ctx : Option Nat) (va n : Nat) : fwBytes { s with fab := fab } ctx va n = fwBytes s ctx va n := by
  rw [fwBytes, fwParts_fab, fwBytes]
end FabricUnread

/-- A FABRIC packet of a gang is taken where its list can be read, and the gang is listed. -/
theorem exec_gangPacket {s : State} {qn slots : Nat} {hd bs : List Byte} {p : Packet} {mine : Nat → List Byte → Bool}
    {act : State → Nat → Packet → List Byte → Parsed} {i : Instr} {resume : Bool} {number : Nat} {fab : Fabric}
    (h : Claims.Legal s qn slots hd bs p) (hi : exec i s = .next (unlessFatal s (parsePacket s qn mine act)))
    (hm : mine (field hd 0 1) hd = true)
    (hact : act (Claims.begun s qn slots p) s.fw.packetSeq p bs =
      gangPacket { Claims.begun s qn slots p with fab := fab } s.fw.packetSeq p bs resume number)
    (ready : fwProbe (Claims.begun s qn slots p) p.ctx (queueWho p.queue) [(field bs 32 8, 2 * field bs 48 4)] false = .ready) :
    ∃ s', exec i s = .next s' ∧ (sameMem s s' ∧ Claims.Taken s s' qn (Claims.passed (s.queue qn) slots) { p with left := 1 }) ∧
      s'.fab = { fab with gangs := fab.gangs ++
        [{ key := s.fw.packetSeq, number := number, group := field bs 52 2, node := field bs 54 2, resume := resume
           members := gangMembers (fwBytes (Claims.begun s qn slots p) p.ctx (field bs 32 8) (2 * field bs 48 4)) (field bs 48 4)
           since := s.dev.time }] } := by
  have read : fwProbe { Claims.begun s qn slots p with fab := fab } p.ctx (queueWho p.queue) [(field bs 32 8, 2 * field bs 48 4)] false = .ready :=
    (fwProbe_fab ..).trans ready
  rw [gangPacket_ready read, fwBytes_fab, show ({ Claims.begun s qn slots p with fab := fab } : State).dev.time = s.dev.time from
    congrArg Device.time (begun_dev ..)] at hact
  generalize hr : fwTouch { Claims.begun s qn slots p with fab := fab } p.ctx (field bs 32 8) (2 * field bs 48 4) = r at hact
  have fw : r.fw = (Claims.begun s qn slots p).fw := by rw [← hr, fwTouch_fw]
  have mem : r.mem = s.mem := by rw [← hr, fwTouch_mem]; exact begun_mem ..
  have kept : Kept (Claims.begun s qn slots p) r := ⟨by rw [fw], by rw [fw], by rw [fw]⟩
  have made : r.fab = fab := by rw [← hr, (wrote_fwTouch ..).fab]
  obtain ⟨step, taken⟩ := exec_taken h hi hm hact (kept.trans (kept_gangListed ..))
    ((gangListed_packet ..).trans (by rw [fw, begun_packet, Option.map_some]))
  exact ⟨_, step, ⟨fun a => by rw [forgetRefused, gangListed, State.modPacket, mem], taken⟩, by rw [forgetRefused, gangListed, made]⟩

theorem gangPackets : Claims.GangPackets := by
  rintro s _ slots hd bs p rfl h op good
  dsimp only
  intro ready
  have fab := begun_fab s (s.argN 0) slots p
  refine ⟨fun kind => ?_, fun m kind begun => ?_, fun kind none => ?_⟩
  · obtain ⟨s', step, taken, listed⟩ := exec_gangPacket h (exec_fabricPause s) (isFabric_of_eq op kind)
      (by dsimp only; rw [good, if_neg Bool.false_ne_true]) ready
    exact ⟨s', step, taken, by rw [listed, fab], by rw [listed, fab]; rfl⟩
  · obtain ⟨s', step, taken, listed⟩ := exec_gangPacket h (exec_fabricResume s) (isFabric_of_eq op kind)
      (by dsimp only; rw [good, if_neg Bool.false_ne_true, fab, begun]) ready
    exact ⟨s', step, taken, by rw [listed]; exact tabGet_tabDel_same .., by rw [listed]; rfl⟩
  · obtain ⟨s', step, faulted⟩ := exec_refused h (exec_fabricResume s) (isFabric_of_eq op kind) (cause := 0x156) (ordinal := 0) (more := [])
      (by dsimp only; rw [good, if_neg Bool.false_ne_true, fab, none]; rfl)
    exact ⟨s', step, faulted.refused⟩

/-! ### LAUNCH and LAUNCHI (R345 to R348) -/

/-- The push of the launch of one repeat. -/
def pushLaunch (s : State) (entry key : Nat) (x : Nat × Launch) : State :=
  firmwarePush (numberLaunch s x.1 (some key) x.2).1 entry (leafId 0 x.1)
    ((leafPath (numberLaunch s x.1 (some key) x.2).1 entry (leafId 0 x.1)).getD []) x.2.info.fields
    (.launch (numberLaunch s x.1 (some key) x.2).2)

theorem pushLaunches_cons (s : State) (entry key : Nat) (x : Nat × Launch) (each : List (Nat × Launch)) :
    pushLaunches s entry key (x :: each) = pushLaunches (pushLaunch s entry key x) entry key each := rfl

/-- A descent is the push of a repeat's launch, with its number. -/
def isLaunchOf (entry key seq : Nat) (x : Nat × Launch) (d : Descent) : Prop :=
  ∃ m : Launch, d.leaf = leafId 0 x.1 ∧ d.fields = x.2.info.fields ∧ d.item.entry = some entry ∧ d.item.work = .launch m ∧
    m.info.kernel = x.2.info.kernel ∧ m.info.args = x.2.info.args ∧ m.info.seq = BitVec.ofNat 32 seq ∧ m.info.origin = some key

theorem pushLaunch_descents (s : State) (entry key : Nat) (x : Nat × Launch) :
    ∃ d, (pushLaunch s entry key x).dev.descents = s.dev.descents ++ [d] ∧ isLaunchOf entry key s.fw.launchSeq x d :=
  ⟨_, rfl, _, rfl, rfl, rfl, rfl, rfl, rfl, rfl, rfl⟩

theorem pushLaunch_launchSeq (s : State) (entry key : Nat) (x : Nat × Launch) : (pushLaunch s entry key x).fw.launchSeq = s.fw.launchSeq + 1 := rfl

/-- The launches of a packet are pushed in repeat order, with ascending numbers. -/
theorem pushLaunches_descents (entry key : Nat) : ∀ (each : List (Nat × Launch)) (s : State), ∃ ds : List Descent,
    (pushLaunches s entry key each).dev.descents = s.dev.descents ++ ds ∧ ds.length = each.length ∧
      ∀ k x, each[k]? = some x → ∃ d, ds[k]? = some d ∧ isLaunchOf entry key (s.fw.launchSeq + k) x d
  | [], s => ⟨[], (List.append_nil _).symm, rfl, fun k x hx => by rw [List.getElem?_nil] at hx; cases hx⟩
  | x :: each, s => by
    obtain ⟨d, first, launch⟩ := pushLaunch_descents s entry key x
    obtain ⟨ds, rest, length, launches⟩ := pushLaunches_descents entry key each (pushLaunch s entry key x)
    refine ⟨d :: ds, ?_, congrArg (· + 1) length, fun k y hy => ?_⟩
    · rw [pushLaunches_cons, rest, first, List.append_assoc, List.singleton_append]
    · cases k with
      | zero =>
        obtain rfl := Option.some.inj hy
        exact ⟨d, rfl, launch⟩
      | succ k =>
        obtain ⟨e, he, found⟩ := launches k y hy
        rw [pushLaunch_launchSeq, Nat.add_right_comm] at found
        exact ⟨e, he, found⟩

/-- What the pushes of launches leave of a state: memory, and the firmware's tables but the number of the next launch. -/
theorem pushLaunches_keeps (entry key : Nat) : ∀ (each : List (Nat × Launch)) (s : State),
    Kept s (pushLaunches s entry key each) ∧ (pushLaunches s entry key each).fw.packets = s.fw.packets ∧ (pushLaunches s entry key each).mem = s.mem
  | [], s => ⟨.refl s, rfl, rfl⟩
  | x :: each, s => by
    obtain ⟨kept, packets, mem⟩ := pushLaunches_keeps entry key each (pushLaunch s entry key x)
    have one : Kept s (pushLaunch s entry key x) := ⟨rfl, rfl, rfl⟩
    rw [pushLaunches_cons]
    exact ⟨one.trans kept, packets, mem⟩

section Launches
variable {s : State} {qn slots : Nat} {hd bs : List Byte} {p : Packet} {mine : Nat → List Byte → Bool}
  {act : State → Nat → Packet → List Byte → Parsed} {i : Instr}

/-- A packet whose launches pass the checks and have paths is taken, and the launches are pushed. -/
theorem exec_launches (h : Claims.Legal s qn slots hd bs p) (hi : exec i s = .next (unlessFatal s (parsePacket s qn mine act)))
    (hm : mine (field hd 0 1) hd = true) {each : List (Nat × Launch)}
    (hact : act (Claims.begun s qn slots p) s.fw.packetSeq p bs = launchPacket (Claims.begun s qn slots p) s.fw.packetSeq p (.ok each))
    (paths : ∀ x ∈ each, (leafPath (Claims.begun s qn slots p) p.node (leafId 0 x.1)).isSome) :
    ∃ s', exec i s = .next s' ∧ sameMem s s' ∧ Claims.Taken s s' qn (Claims.passed (s.queue qn) slots) { p with left := each.length } ∧
      Claims.launched s s' p each := by
  have some : (each.any fun x => (leafPath (Claims.begun s qn slots p) p.node (leafId 0 x.1)).isNone) = false := by
    rw [List.any_eq_false]
    intro x hx
    rw [Option.isNone_iff_eq_none, ← Option.not_isSome_iff_eq_none, not_not]
    exact paths x hx
  have done : launchPacket (Claims.begun s qn slots p) s.fw.packetSeq p (.ok each) =
      .done (pushLaunches ((Claims.begun s qn slots p).modPacket s.fw.packetSeq fun p => { p with left := each.length }) p.node s.fw.packetSeq
        each) := by
    unfold launchPacket
    dsimp only
    rw [some, if_neg Bool.false_ne_true]
  rw [done] at hact
  obtain ⟨kept, packets, mem⟩ := pushLaunches_keeps p.node s.fw.packetSeq each
    ((Claims.begun s qn slots p).modPacket s.fw.packetSeq fun p => { p with left := each.length })
  obtain ⟨ds, pushed, length, launches⟩ := pushLaunches_descents p.node s.fw.packetSeq each
    ((Claims.begun s qn slots p).modPacket s.fw.packetSeq fun p => { p with left := each.length })
  have one : Kept (Claims.begun s qn slots p) ((Claims.begun s qn slots p).modPacket s.fw.packetSeq fun p => { p with left := each.length }) :=
    ⟨rfl, rfl, rfl⟩
  have packet : tabGet ((Claims.begun s qn slots p).modPacket s.fw.packetSeq fun p => { p with left := each.length }).fw.packets s.fw.packetSeq =
      Option.some { p with left := each.length } := by
    refine (tabGet_tabMod_same ..).trans ?_
    rw [begun_packet, Option.map_some]
  have before : ((Claims.begun s qn slots p).modPacket s.fw.packetSeq fun p => { p with left := each.length }).dev.descents = s.dev.descents :=
    congrArg Device.descents (begun_dev ..)
  have number : ((Claims.begun s qn slots p).modPacket s.fw.packetSeq fun p => { p with left := each.length }).fw.launchSeq = s.fw.launchSeq := by
    rw [begun_eq]
    rfl
  have memory : ((Claims.begun s qn slots p).modPacket s.fw.packetSeq fun p => { p with left := each.length }).mem = s.mem := begun_mem ..
  generalize (Claims.begun s qn slots p).modPacket s.fw.packetSeq (fun p => { p with left := each.length }) = b at *
  obtain ⟨step, taken⟩ := exec_taken h hi hm hact (one.trans kept) (by rw [packets, packet])
  generalize pushLaunches b p.node s.fw.packetSeq each = r at *
  rw [before] at pushed
  refine ⟨_, step, fun a => by rw [forgetRefused, mem, memory], taken, ?_, fun k c l hk => ?_⟩
  · rw [forgetRefused, pushed, List.length_append, length]
  · obtain ⟨d, hd, m, launch⟩ := launches k (c, l) hk
    rw [number] at launch
    refine ⟨d, m, ?_, launch⟩
    rw [forgetRefused, pushed, List.getElem?_append_right (Nat.le_add_right ..), Nat.add_sub_cancel_left, hd]

end Launches

theorem launchPackets : Claims.LaunchPackets := by
  rintro s _ slots hd bs p rfl h aligned
  dsimp only
  intro ready
  have record : ∀ k, withRecord (Claims.begun s (s.argN 0) slots p) p (field bs 24 8) k =
      k (fwBytes (Claims.begun s (s.argN 0) slots p) p.ctx (field bs 24 8) 320) := fun k => by rw [withRecord, ready]
  refine ⟨fun op zero => ?_, fun ctx op zero hctx code pos most => ?_⟩
  · have sound : (!restZero bs [(24, 8)] || field bs 24 8 % 64 != 0) = false := by rw [zero, aligned]; rfl
    refine ⟨fun each checked paths => ?_, fun n bad => ?_⟩
    · exact exec_launches h (exec_launchPkt s) (isOpcode_of_eq op _)
        (by dsimp only; rw [sound, if_neg Bool.false_ne_true, record, checked]) paths
    · obtain ⟨s', step, faulted⟩ := exec_refused h (exec_launchPkt s) (isOpcode_of_eq op _) (cause := 0x134) (ordinal := n) (more := [])
        (by dsimp only; rw [sound, if_neg Bool.false_ne_true, record, bad]; rfl)
      exact ⟨s', step, faulted.refused, faulted.descents⟩
  · have sound : (!restZero bs [(24, 18), (48, 8)] || field bs 24 8 % 64 != 0 || field bs 32 8 % 4 != 0 || field bs 40 2 == 0 ||
        decide (256 < field bs 40 2)) = false := by
      rw [zero, aligned, code, decide_eq_false (Nat.not_lt.2 most), beq_eq_false_iff_ne.2 (Nat.ne_of_gt pos)]
      rfl
    refine ⟨fun buf cancelled => ?_, fun faulted => ?_, fun buf each ran checked paths => ?_⟩
    · obtain ⟨step, taken⟩ := exec_taken h (exec_launchiPkt s) (isOpcode_of_eq op _) (r := Claims.begun s (s.argN 0) slots p) (x := p)
        (by dsimp only; rw [sound, if_neg Bool.false_ne_true, hctx]; dsimp only; rw [record, cancelled]) (.refl _) (begun_packet ..)
      exact ⟨_, step, fun a => by rw [forgetRefused, begun_mem], taken, by rw [forgetRefused, begun_dev]⟩
    · obtain ⟨s', step, refused⟩ := exec_refused h (exec_launchiPkt s) (isOpcode_of_eq op _) (cause := 0x137) (ordinal := 0) (more := [])
        (by dsimp only; rw [sound, if_neg Bool.false_ne_true, hctx]; dsimp only; rw [record, faulted]; rfl)
      exact ⟨s', step, refused.refused⟩
    · exact exec_launches h (exec_launchiPkt s) (isOpcode_of_eq op _)
        (by dsimp only; rw [sound, if_neg Bool.false_ne_true, hctx]; dsimp only; rw [record, ran]; dsimp only; rw [← hctx, checked]) paths

/-! ### Completions (R342, R344, R352) -/

/-- The state in which a packet has left. -/
def packetGone (s : State) (key : Nat) (p : Packet) : State :=
  let s := forgetRefused { s with fw := { s.fw with packets := tabDel s.fw.packets key } } (.apex (packetWho key))
  let s := if p.opcode == 0x09 then endWait s key p.queue else s
  if p.intr then countEvent s (packetDomain s p) else s

theorem packetGone_packet (s : State) (key : Nat) (p : Packet) : tabGet (packetGone s key p).fw.packets key = none := by
  have gone := tabGet_tabDel_same s.fw.packets key
  unfold packetGone
  dsimp only
  split <;> split <;> exact gone

theorem packetGone_mem (s : State) (key : Nat) (p : Packet) : (packetGone s key p).mem = s.mem := by
  unfold packetGone
  dsimp only
  split <;> split <;> rfl

/-- A WAIT that leaves is watched no more, and its queue goes on. -/
theorem packetGone_wait (s : State) {key : Nat} {p : Packet} (h : p.opcode = 0x09) :
    ((packetGone s key p).queue p.queue).waiting = none ∧ ∀ w ∈ (packetGone s key p).fw.watches, w.key ≠ key := by
  have ended : ∀ r : State, ((endWait r key p.queue).queue p.queue).waiting = none ∧ ∀ w ∈ (endWait r key p.queue).fw.watches, w.key ≠ key :=
    fun r => ⟨congrArg CmdQueue.waiting (State.setCmdQueue_queue_same ..), fun w hw => of_decide_eq_true (List.mem_filter.1 hw).2⟩
  unfold packetGone
  dsimp only
  rw [if_pos (beq_iff_eq.2 h)]
  split
  · exact ended _
  · exact ended _

/-- A SIGNAL stands behind packets of its queue, and a WAIT's condition has not held. -/
def packetBlocked (s : State) (key : Nat) (p : Packet) : Bool := p.opcode == 0x0A && (earlierPackets s p.queue).any fun k => decide (k < key)
def packetHeld (s : State) (key : Nat) (p : Packet) : Bool := p.opcode == 0x09 && !s.fw.watches.any fun w => w.key == key && w.hit

theorem packetBlocked_iff {s : State} {key : Nat} {p : Packet} :
    packetBlocked s key p = true ↔ p.opcode = 0x0A ∧ ∃ k ∈ earlierPackets s p.queue, k < key := by
  simp only [packetBlocked, Bool.and_eq_true, beq_iff_eq, List.any_eq_true, decide_eq_true_iff]

theorem packetHeld_iff {s : State} {key : Nat} {p : Packet} :
    packetHeld s key p = true ↔ p.opcode = 0x09 ∧ ∀ w ∈ s.fw.watches, w.key = key → w.hit = false := by
  simp only [packetHeld, Bool.and_eq_true, beq_iff_eq, Bool.not_eq_true', List.any_eq_false, not_and, Bool.not_eq_true]

theorem completePacket_some {s : State} {key : Nat} {p : Packet} (hp : s.packet? key = some p) : completePacket s key =
    if (decide (p.left ≠ 0) || packetBlocked s key p || packetHeld s key p) = true then s
    else if (!p.sigen) = true then packetGone s key p
    else match fwProbe s p.ctx (packetWho key) [(p.sigaddr, signalBytes p.sigop)] true with
      | .wait needs => fwWait s p.ctx p.node (packetWho key) needs
      | .cause _ => packetGone (commandRecord s p 0x13B 0 []) key p
      | .ready => packetGone (writeSignal s p) key p := by
  rw [completePacket, hp]
  rfl

/-- A write of the firmware within one part goes where the part stands. -/
theorem fwWrite_mem_of_part {s : State} {ctx : Option Nat} {va pa : Nat} {attr : PageAttr} {bs : List Byte}
    (part : fwParts s ctx va bs.length = [(va, bs.length, pa, attr)]) : (fwWrite s ctx va bs).mem = memWrite s.mem pa bs := by
  rw [fwWrite, part, List.foldl_cons, List.foldl_nil, physWrite_mem, Nat.sub_self, List.drop_zero, List.take_length]

theorem writeSignal_mem {s : State} {p : Packet} {pa : Nat} {attr : PageAttr}
    (part : fwParts s p.ctx p.sigaddr (signalBytes p.sigop) = [(p.sigaddr, signalBytes p.sigop, pa, attr)]) : (writeSignal s p).mem =
      memWrite s.mem pa (natLe (signalBytes p.sigop)
        ((if p.sigop < 2 then 0 else leNat (memBytes s.mem pa (signalBytes p.sigop))) + p.sigval)) := by
  have old : fwNat s p.ctx p.sigaddr (signalBytes p.sigop) = leNat (memBytes s.mem pa (signalBytes p.sigop)) := by
    rw [fwNat, fwBytes, part, List.flatMap_cons, List.flatMap_nil, List.append_nil]
  rw [writeSignal, old, fwWrite_mem_of_part (by rw [natLe_length]; exact part)]

theorem completion : Claims.Completion := by
  rintro s key p rfl alive hp
  dsimp only
  rw [exec_packetCompletion, unlessFatal_running alive, completePacket_some hp, ← packetBlocked_iff, ← packetHeld_iff]
  have ends : p.left = 0 → ¬packetBlocked s (s.argN 0) p = true → ¬packetHeld s (s.argN 0) p = true →
      ¬(decide (p.left ≠ 0) || packetBlocked s (s.argN 0) p || packetHeld s (s.argN 0) p) = true := fun ended free hit => by
    rw [Bool.or_eq_true, Bool.or_eq_true, decide_eq_true_iff]
    exact fun h => h.elim (fun h => h.elim (fun h => h ended) free) hit
  refine ⟨fun waits => ?_, fun ended free hit quiet => ?_, fun ended free hit sig ready pa attr part => ?_⟩
  · refine congrArg Host.Outcome.next (if_pos ?_)
    rw [Bool.or_eq_true, Bool.or_eq_true, decide_eq_true_iff, or_assoc]
    exact waits
  · rw [if_neg (ends ended free hit), quiet, Bool.not_false, if_pos rfl]
    exact ⟨_, rfl, fun a => by rw [packetGone_mem], packetGone_packet .., packetGone_wait s⟩
  · rw [if_neg (ends ended free hit), sig, Bool.not_true, if_neg Bool.false_ne_true, ready]
    refine ⟨_, rfl, packetGone_packet .., fun k hk => ?_, ?_⟩
    · rw [packetGone_mem, writeSignal_mem part]
      exact memGet_memWrite_outside _ _ _ _ (by rw [natLe_length]; exact hk)
    · rw [packetGone_mem, writeSignal_mem part, memBytes_memWrite_of_length (natLe_length ..)]

/-! ### Coalescer messages (R353) -/

theorem coalescing : Claims.Coalescing := by
  rintro s dom rfl
  have due : (decide (memNat s.mem (s.argN 0 + 44) 2 ≤ (tabGetD {} s.dev.coalescers (s.argN 0)).pending) ||
      decide ((tabGetD {} s.dev.coalescers (s.argN 0)).oldest + memNat s.mem (s.argN 0 + 46) 1 * microsecond ≤ s.dev.time) ||
      decide ((tabGetD {} s.dev.coalescers (s.argN 0)).newest + 2 * microsecond ≤ s.dev.time)) = true ↔
      memNat s.mem (s.argN 0 + 44) 2 ≤ (tabGetD {} s.dev.coalescers (s.argN 0)).pending ∨
      (tabGetD {} s.dev.coalescers (s.argN 0)).oldest + memNat s.mem (s.argN 0 + 46) 1 * 2000 ≤ s.dev.time ∨
      (tabGetD {} s.dev.coalescers (s.argN 0)).newest + 2 * 2000 ≤ s.dev.time := by
    rw [Bool.or_eq_true, Bool.or_eq_true, decide_eq_true_iff, decide_eq_true_iff, decide_eq_true_iff, or_assoc]
    rfl
  rw [exec_coalescerMessage, coalescerMessage]
  dsimp only
  refine ⟨fun some ready => ?_, fun idle => ?_⟩
  · rw [due.2 ready, Bool.not_true, Bool.or_false, if_neg (by rw [decide_eq_true_iff]; exact some)]
    exact ⟨_, rfl, fun _ => rfl, tabGet_tabDel_same ..⟩
  · refine congrArg Host.Outcome.next (if_pos ?_)
    rw [Bool.or_eq_true, decide_eq_true_iff, Bool.not_eq_true']
    exact idle.imp id fun h => Bool.eq_false_iff.2 (mt due.1 h)

/-- Settles O57: each packet that begins work is taken with that work pushed, or refused, and completions and messages go out once they are due. -/
theorem workPackets : Obligations.WorkPackets := ⟨launchPackets, workItems, fabricPackets, gangPackets, completion, coalescing⟩

end Sys2Proof.Machine
